-- ==== Sys2Proof/Word.lean ====
section
/-! DEFINITION. The word types of the ZV7 and the one keyed-list type that every sparse part of the state is made of. -/

namespace Sys2Proof

/-- A scalar register's contents (R24). -/
abbrev Word := BitVec 64

/-- A byte (R2). -/
abbrev Byte := BitVec 8

/-- An instruction word (R22). -/
abbrev IWord := BitVec 64

/-- The 512 data bits of a beat (R79), also of a launch record or a descriptor (R2). -/
abbrev Line := BitVec 512

/-- A sparse table: pairs of a key and a value. A key that is not listed has the default the reader names. -/
abbrev Assoc (α : Type) := List (Nat × α)

/-- The value at `k`, or `d` where `k` is not listed. -/
def Assoc.get {α : Type} (d : α) (k : Nat) : Assoc α → α
  | [] => d
  | (k', v) :: t => if k' = k then v else Assoc.get d k t

/-- The value at `k`, if `k` is listed. -/
def Assoc.find {α : Type} (k : Nat) : Assoc α → Option α
  | [] => none
  | (k', v) :: t => if k' = k then some v else Assoc.find k t

/-- Every entry but those of `k`. -/
def Assoc.erase {α : Type} (k : Nat) : Assoc α → Assoc α
  | [] => []
  | (k', v) :: t => if k' = k then Assoc.erase k t else (k', v) :: Assoc.erase k t

/-- `v` at `k`, in rising order of the keys, in place of what stood there. -/
def Assoc.put {α : Type} (k : Nat) (v : α) : Assoc α → Assoc α
  | [] => [(k, v)]
  | (k', v') :: t =>
    if k < k' then (k, v) :: (k', v') :: t
    else if k' = k then (k, v) :: t
    else (k', v') :: Assoc.put k v t

/-- `v` at `k` in canonical form: the default is not listed. -/
def Assoc.set {α : Type} [DecidableEq α] (d : α) (k : Nat) (v : α) (l : Assoc α) : Assoc α :=
  if v = d then l.erase k else l.put k v

/-- The keys rise strictly. -/
def Assoc.sorted {α : Type} : Assoc α → Bool
  | [] => true
  | [_] => true
  | (k, _) :: (k', v') :: t => decide (k < k') && Assoc.sorted ((k', v') :: t)

/-- The canonical form: keys rise strictly and no entry holds the default. -/
def Assoc.wf {α : Type} [DecidableEq α] (d : α) (l : Assoc α) : Bool :=
  Assoc.sorted l && l.all (fun p => decide (p.2 ≠ d))

/-- Replace the `n`-th entry of a list, if there is one. -/
def listSet {α : Type} : Nat → α → List α → List α
  | _, _, [] => []
  | 0, v, _ :: t => v :: t
  | n + 1, v, h :: t => h :: listSet n v t

/-- Drop the `n`-th entry of a list. -/
def listDrop {α : Type} : Nat → List α → List α
  | _, [] => []
  | 0, _ :: t => t
  | n + 1, h :: t => h :: listDrop n t

/-- `x` repeated `n` times. -/
def rep {α : Type} (n : Nat) (x : α) : List α := List.replicate n x

/-- Bits `hi:lo` of a natural number, as a natural number (R1). -/
def bits (x hi lo : Nat) : Nat := (x / 2 ^ lo) % 2 ^ (hi + 1 - lo)

/-- Bit `i` of a natural number (R1). -/
def bit (x i : Nat) : Bool := (x / 2 ^ i) % 2 == 1

/-- The integer that the low `w` bits of `x` denote in two's complement (R49). -/
def sextN (w x : Nat) : Int :=
  let y := x % 2 ^ w
  if w = 0 then 0 else if 2 ^ (w - 1) ≤ y then (y : Int) - (2 ^ w : Nat) else (y : Int)

/-- `i` modulo `2^w`, as a natural number. -/
def wrapN (w : Nat) (i : Int) : Nat := (i % ((2 ^ w : Nat) : Int)).toNat

/-- A natural number as a scalar register's contents. -/
def toWord (n : Nat) : Word := BitVec.ofNat 64 n

/-- 1 for true. -/
def b2n (b : Bool) : Nat := if b then 1 else 0

/-- Little-endian bytes of a number (R2). -/
def bytesLE : Nat → Nat → List Byte
  | 0, _ => []
  | n + 1, x => BitVec.ofNat 8 x :: bytesLE n (x / 256)

/-- The number that little-endian bytes denote (R2). -/
def ofBytesLE : List Byte → Nat
  | [] => 0
  | b :: t => b.toNat + 256 * ofBytesLE t

end Sys2Proof
end

