-- ==== Sys2Proof/Syntax.lean ====
section
/-! DEFINITION. The instruction set as a type: operand classes, and one constructor for each row of the opcode table. -/

namespace Sys2Proof

/-- A scalar register s0 to s31 (R24). -/
abbrev Reg := BitVec 5
/-- A predicate register p0 to p7 (R24). -/
abbrev PReg := BitVec 3
/-- A channel c0 to c15 (R24). -/
abbrev CReg := BitVec 4
/-- A signed 32-bit immediate, displacement or offset (R32, R33, R35). -/
abbrev Imm := BitVec 32
/-- An immediate shift count (R91). -/
abbrev Sh6 := BitVec 6
/-- A function value 0 to 4 (LEA R92, DDSTAT R373). -/
abbrev Fin5 := BitVec 3
/-- A 4-bit number: template, barrier, pattern, or the DDAPPLY operation. -/
abbrev Tmpl := BitVec 4
/-- A 2-bit number: chain, section, magnitude register. -/
abbrev Two := BitVec 2
/-- A 3-bit number: a stream port. -/
abbrev Three := BitVec 3
/-- A port mask (R231). -/
abbrev Mask16 := BitVec 16
/-- The domain ranks a failed link cuts off (R470). -/
abbrev RankList := List Nat

/-- The predicate guard of a word (R22, R23). -/
structure Guard where
  neg : Bool
  pred : PReg
deriving DecidableEq, Repr, Inhabited

/-- A scalar source operand with its trap bit (R30). -/
structure Src where
  r : Reg
  et : Bool
deriving DecidableEq, Repr, Inhabited

/-- Rounding modes (R37, R56). -/
inductive Rnd where
  /-- to nearest, ties to even -/
  | rne
  /-- toward zero -/
  | rz
  /-- toward plus infinity -/
  | rp
  /-- toward minus infinity -/
  | rm
  /-- to nearest, ties away from zero -/
  | rna
  /-- stochastic -/
  | rs
deriving DecidableEq, Repr, Inhabited

/-- A scalar floating-point word's rounding mode: fixed in the word, or FPMODE's at issue (R96). -/
inductive RMode where
  | fixed (m : Rnd)
  | dyn
deriving DecidableEq, Repr, Inhabited

/-- FP32 or FP64 (R96). -/
inductive Prec where
  | s
  | d
deriving DecidableEq, Repr, Inhabited

/-- The function field of the scalar floating-point arithmetic forms (R96). -/
structure FMode where
  prec : Prec
  rm : RMode
  sat : Bool
deriving DecidableEq, Repr, Inhabited

/-- FCMP's condition (R99). -/
inductive FCond where
  | eq
  | lt
  | le
  | un
deriving DecidableEq, Repr, Inhabited

/-- FCVT's kinds: FP32, FP64, INT64, UINT64 (R100). -/
inductive FKind where
  | s
  | d
  | l
  | lu
deriving DecidableEq, Repr, Inhabited

/-- Access sizes: 1, 2, 4 and 8 bytes (R33). -/
inductive Size where
  | b
  | h
  | w
  | d
deriving DecidableEq, Repr, Inhabited

/-- The fields of a load word beside its registers (R33). -/
structure LoadOp where
  size : Size
  t : Bool
  sx : Bool
  off : Imm
deriving DecidableEq, Repr, Inhabited

/-- The fields of a store word beside its registers (R33). -/
structure StoreOp where
  size : Size
  t : Bool
  off : Imm
deriving DecidableEq, Repr, Inhabited

/-- The operations of ATS and ATG (R218). -/
inductive AtomOp where
  | add
  | fadd
  | min
  | max
  | fmin
  | fmax
  | and
  | or
  | xor
deriving DecidableEq, Repr, Inhabited

/-- The operations of ATSV and ATGV (R218). -/
inductive AtomVOp where
  | swap
  | fetchAdd
  | cas
deriving DecidableEq, Repr, Inhabited

/-- The scopes of SEND.rel, FENCE and PHASE (R115, R120, R216). -/
inductive Scope where
  | core
  | cluster
  | region
  | package
  | system
deriving DecidableEq, Repr, Inhabited

/-- The system registers (R46). -/
inductive SysReg where
  | taskid
  | corenum
  | clusterxy
  | regionxy
  | ctxid
  | detmode
  | chbind
  | fpflags
  | fpmode
  | seedreg
  | phbuf
  | stopptr
  | trapvec
  | trapinfo
  | time
deriving DecidableEq, Repr, Inhabited

/-- The element format codes (R48). -/
inductive Fmt where
  | int4
  | int8
  | uint8
  | int16
  | int32
  | fp4
  | fp6a
  | fp6b
  | fp8a
  | fp8b
  | df8
  | fp16
  | bf16
  | fp32
  | fp64
  | uint16
deriving DecidableEq, Repr, Inhabited

/-- The body of an element operation (R37). -/
structure VWord where
  ty : Fmt
  dest : BitVec 5
  selA : BitVec 7
  kA : BitVec 4
  selB : BitVec 7
  kB : BitVec 4
  selC : BitVec 7
  kC : BitVec 4
  fn : BitVec 6
  rnd : Rnd
  sat : Bool
deriving DecidableEq, Repr, Inhabited

/-- A configured node that handles markers (R80, R428). -/
inductive NodeRef where
  /-- stage `j` of template `t` of core `u` -/
  | stage (u t j : Nat)
  /-- node entry `j` of the data switch `u` -/
  | switch (u j : Nat)
  /-- section `sec` of the matrix unit `u` -/
  | mx (u sec : Nat)
  /-- a write stream port `p` of the AG `u` -/
  | port (u p : Nat)
  /-- coat `k` of chain `ch` -/
  | coat (ch k : Nat)
  /-- a unit as a whole: a core without templates, a control core -/
  | unit (u : Nat)
deriving DecidableEq, Repr, Inhabited

/-- What a read of host memory brought (R444): 64 bytes, or a failed read. -/
structure Fetched where
  ok : Bool
  data : Line
deriving DecidableEq, Repr, Inhabited

/-- Who asks for an administrative change (R449): the entry the admin ring's read index names, or the management firmware
through its own interface (R451); or the ring, where the host read of that entry fails. -/
inductive AdminSrc where
  | ring
  | firmware
  | unread
deriving DecidableEq, Repr, Inhabited

/-- Arguments of "create region" (R440, R441): the physical rectangle and the virtual size. -/
structure RegionArgs where
  id : Nat
  x : Nat
  y : Nat
  pw : Nat
  ph : Nat
  w : Nat
  h : Nat
deriving DecidableEq, Repr, Inhabited

/-- Arguments of "create context": the attributes of R413. -/
structure ContextArgs where
  asid : Nat
  keyId : Nat
  func : Nat
  region : Nat
  csBase : Nat
  csSize : Nat
  ttBase : Nat
  ttCount : Nat
  root : Nat
  saveBase : Nat
  saveSize : Nat
  stopOff : Nat
  stopSize : Nat
  colOff : Nat
  det : Bool
  dump : Bool
  budget : Nat
  cap : Nat
  refill : Nat
deriving DecidableEq, Repr, Inhabited

/-- Arguments of "bind queue" (R443, R449): the context, and the host aperture that the physical function registers with it, if it does. -/
structure BindArgs where
  asid : Nat
  aperture : Option (Nat × Nat)
deriving DecidableEq, Repr, Inhabited

/-- Arguments of "form gang" (R457): a domain rank and an ASID for each gang rank; and whether every other member's root controller agrees. -/
structure GangArgs where
  gid : Nat
  size : Nat
  grace : Nat
  members : List (Nat × Nat)
  agreed : Bool
deriving DecidableEq, Repr, Inhabited

/-- Arguments of "dissolve gang" (R457): the gang, and whether every other member's root controller agrees. -/
structure GangEnd where
  gid : Nat
  agreed : Bool
deriving DecidableEq, Repr, Inhabited

/-- A region that is to be cleared, and the structure class that cannot be, where one cannot (R407). -/
structure Clearing where
  region : Nat
  bad : Option Nat
deriving DecidableEq, Repr, Inhabited

/-- The package's life-cycle states (R411). -/
inductive LifeCycle where
  | manufacturing
  | provisioned
  | deployed
  | returned
  | decommissioned
deriving DecidableEq, Repr, Inhabited

/-- One element of a collective that a peer sent (R464 to R466): its sequence number, the sending rank, the step, the
element index, the value, and whether it is the finished result on its way round. [DEDUCED, log 55] -/
structure CollMsg where
  seq : Nat
  /-- what the sender's descriptor says of the operation, which must be the same at every member (R463) -/
  terms : Nat
  src : Nat
  step : Nat
  elem : Nat
  val : Word
  fin : Bool
  /-- it carries the sender's terms alone: by these every member sees whether the descriptors agree (R463) -/
  head : Bool
deriving DecidableEq, Repr, Inhabited

/-- Where a soft error strikes (R175, R207, R234, R280, R396): the structure code of detail word 0, the unit and the word
within it; `double` for an error the code cannot correct. [DESIGN CHOICE, log 38; DEDUCED, log 41] -/
structure ErrorSite where
  r : Nat
  code : Nat
  unit : Nat
  key : Nat
  double : Bool
deriving DecidableEq, Repr, Inhabited

/-- One constructor for each row of the opcode table: the instruction words (R40), each word form of its own, and
the steps the machine takes on its own or at the outside world's request, which the table lists beside them. -/
inductive Instr where
  /-- ADD (R88): Adds two scalar registers, wrapping and flagging overflow. -/
  | add (g : Guard) (d : Reg) (a : Src) (b : Src)
  /-- ADD_SAT (R88): Adds two scalar registers, clamping on overflow (function 1). -/
  | addSat (g : Guard) (d : Reg) (a : Src) (b : Src)
  /-- SUB (R88): Subtracts two scalar registers, wrapping and flagging overflow. -/
  | sub (g : Guard) (d : Reg) (a : Src) (b : Src)
  /-- SUB_SAT (R88): Subtracts two scalar registers, clamping on overflow. -/
  | subSat (g : Guard) (d : Reg) (a : Src) (b : Src)
  /-- MUL (R88): Multiplies two scalar registers and keeps the low 64 bits. -/
  | mul (g : Guard) (d : Reg) (a : Src) (b : Src)
  /-- MUL_SAT (R88): Multiplies two scalar registers, clamping on overflow. -/
  | mulSat (g : Guard) (d : Reg) (a : Src) (b : Src)
  /-- MULH (R88): Writes the high 64 bits of the signed product. -/
  | mulh (g : Guard) (d : Reg) (a : Src) (b : Src)
  /-- MULHU (R88): Writes the high 64 bits of the unsigned product. -/
  | mulhu (g : Guard) (d : Reg) (a : Src) (b : Src)
  /-- DIV (R89): Signed division, a long-latency producer of the truncated quotient. -/
  | div (g : Guard) (d : Reg) (a : Src) (b : Src)
  /-- DIVU (R89): Unsigned division, a long-latency producer of the quotient. -/
  | divu (g : Guard) (d : Reg) (a : Src) (b : Src)
  /-- REM (R89): Signed remainder, a long-latency producer. -/
  | rem (g : Guard) (d : Reg) (a : Src) (b : Src)
  /-- REMU (R89): Unsigned remainder, a long-latency producer. -/
  | remu (g : Guard) (d : Reg) (a : Src) (b : Src)
  /-- AND (R88): Bitwise AND of two scalar registers. -/
  | and (g : Guard) (d : Reg) (a : Src) (b : Src)
  /-- OR (R88): Bitwise OR of two scalar registers. -/
  | or (g : Guard) (d : Reg) (a : Src) (b : Src)
  /-- XOR (R88): Bitwise XOR of two scalar registers. -/
  | xor (g : Guard) (d : Reg) (a : Src) (b : Src)
  /-- ANDN (R88): Bitwise a AND NOT b. -/
  | andn (g : Guard) (d : Reg) (a : Src) (b : Src)
  /-- SHL (R88): Shifts left by b[5:0], flagging overflow. -/
  | shl (g : Guard) (d : Reg) (a : Src) (b : Src)
  /-- SHL_SAT (R88): Shifts left by b[5:0], clamping on overflow. -/
  | shlSat (g : Guard) (d : Reg) (a : Src) (b : Src)
  /-- SHR (R88): Logical right shift by b[5:0]. -/
  | shr (g : Guard) (d : Reg) (a : Src) (b : Src)
  /-- SRA (R88): Arithmetic right shift by b[5:0]. -/
  | sra (g : Guard) (d : Reg) (a : Src) (b : Src)
  /-- ROTR (R88): Rotates a right by b[5:0] positions. -/
  | rotr (g : Guard) (d : Reg) (a : Src) (b : Src)
  /-- MIN (R88): Signed minimum of two registers. -/
  | min (g : Guard) (d : Reg) (a : Src) (b : Src)
  /-- MAX (R88): Signed maximum of two registers. -/
  | max (g : Guard) (d : Reg) (a : Src) (b : Src)
  /-- MINU (R88): Unsigned minimum of two registers. -/
  | minu (g : Guard) (d : Reg) (a : Src) (b : Src)
  /-- MAXU (R88): Unsigned maximum of two registers. -/
  | maxu (g : Guard) (d : Reg) (a : Src) (b : Src)
  /-- CLZ (R88): Counts leading zero bits of a. -/
  | clz (g : Guard) (d : Reg) (a : Src)
  /-- CTZ (R88): Counts trailing zero bits of a. -/
  | ctz (g : Guard) (d : Reg) (a : Src)
  /-- POPC (R88): Counts set bits of a. -/
  | popc (g : Guard) (d : Reg) (a : Src)
  /-- ADDI (R91): Adds a sign-extended 32-bit immediate. -/
  | addi (g : Guard) (d : Reg) (a : Src) (imm : Imm)
  /-- ANDI (R91): ANDs with a sign-extended immediate. -/
  | andi (g : Guard) (d : Reg) (a : Src) (imm : Imm)
  /-- ORI (R91): ORs with a sign-extended immediate. -/
  | ori (g : Guard) (d : Reg) (a : Src) (imm : Imm)
  /-- XORI (R91): XORs with a sign-extended immediate. -/
  | xori (g : Guard) (d : Reg) (a : Src) (imm : Imm)
  /-- SHLI (R91): Shifts left by an immediate count. -/
  | shli (g : Guard) (d : Reg) (a : Src) (sh : Sh6)
  /-- SHRI (R91): Logical right shift by an immediate count. -/
  | shri (g : Guard) (d : Reg) (a : Src) (sh : Sh6)
  /-- SRAI (R91): Arithmetic right shift by an immediate count. -/
  | srai (g : Guard) (d : Reg) (a : Src) (sh : Sh6)
  /-- LUI (R91): Replaces bits 63:32 with the immediate and keeps a's low word. -/
  | lui (g : Guard) (d : Reg) (a : Src) (imm : Imm)
  /-- LEA (R92): Computes a + b times 2^k. -/
  | lea (g : Guard) (d : Reg) (a : Src) (b : Src) (k : Fin5)
  /-- SEL (R93): Selects a or b by a predicate. -/
  | sel (g : Guard) (d : Reg) (a : Src) (b : Src) (p : PReg)
  /-- CEQ (R94): Writes a predicate with a = b. -/
  | ceq (g : Guard) (p : PReg) (a : Src) (b : Src)
  /-- CNE (R94): Writes a predicate with a not equal to b. -/
  | cne (g : Guard) (p : PReg) (a : Src) (b : Src)
  /-- CLT (R94): Writes a predicate with signed a < b. -/
  | clt (g : Guard) (p : PReg) (a : Src) (b : Src)
  /-- CLE (R94): Writes a predicate with signed a <= b. -/
  | cle (g : Guard) (p : PReg) (a : Src) (b : Src)
  /-- CLTU (R94): Writes a predicate with unsigned a < b. -/
  | cltu (g : Guard) (p : PReg) (a : Src) (b : Src)
  /-- CLEU (R94): Writes a predicate with unsigned a <= b. -/
  | cleu (g : Guard) (p : PReg) (a : Src) (b : Src)
  /-- CEQI (R94): Writes a predicate with a equal to the immediate. -/
  | ceqi (g : Guard) (p : PReg) (a : Src) (imm : Imm)
  /-- CLTI (R94): Writes a predicate with signed a below the immediate. -/
  | clti (g : Guard) (p : PReg) (a : Src) (imm : Imm)
  /-- PAND (R95): ANDs two optionally inverted predicates. -/
  | pand (g : Guard) (p : PReg) (x : PReg) (y : PReg) (nx : Bool) (ny : Bool)
  /-- POR (R95): ORs two optionally inverted predicates. -/
  | por (g : Guard) (p : PReg) (x : PReg) (y : PReg) (nx : Bool) (ny : Bool)
  /-- PXOR (R95): XORs two optionally inverted predicates. -/
  | pxor (g : Guard) (p : PReg) (x : PReg) (y : PReg) (nx : Bool) (ny : Bool)
  /-- FADD (R98): Floating-point add in FP32 or FP64 with one rounding. -/
  | fadd (g : Guard) (d : Reg) (a : Src) (b : Src) (f : FMode)
  /-- FSUB (R98): Floating-point subtract with one rounding. -/
  | fsub (g : Guard) (d : Reg) (a : Src) (b : Src) (f : FMode)
  /-- FMUL (R98): Floating-point multiply with one rounding. -/
  | fmul (g : Guard) (d : Reg) (a : Src) (b : Src) (f : FMode)
  /-- FFMA (R98): Fused multiply-add with a single rounding. -/
  | ffma (g : Guard) (d : Reg) (a : Src) (b : Src) (c : Src) (f : FMode)
  /-- FDIV (R98): Floating-point divide, a long-latency producer. -/
  | fdiv (g : Guard) (d : Reg) (a : Src) (b : Src) (f : FMode)
  /-- FSQRT (R98): Floating-point square root, a long-latency producer. -/
  | fsqrt (g : Guard) (d : Reg) (a : Src) (f : FMode)
  /-- FMIN (R65): minimumNumber of two floating-point values. -/
  | fmin (g : Guard) (d : Reg) (a : Src) (b : Src) (pr : Prec)
  /-- FMAX (R65): maximumNumber of two floating-point values. -/
  | fmax (g : Guard) (d : Reg) (a : Src) (b : Src) (pr : Prec)
  /-- FCMP (R99): Compares two floats under eq, lt, le or un into a predicate. -/
  | fcmp (g : Guard) (p : PReg) (a : Src) (b : Src) (pr : Prec) (c : FCond)
  /-- FCVT (R100): Converts between FP32, FP64, INT64 and UINT64 with one rounding. -/
  | fcvt (g : Guard) (d : Reg) (a : Src) (sk : FKind) (dk : FKind) (rm : RMode) (sat : Bool)
  /-- FCLASS (R101): Writes a one-hot class mask of a float. -/
  | fclass (g : Guard) (d : Reg) (a : Src) (pr : Prec)
  /-- LDL (R167): Loads from the core's own local store. -/
  | ldl (g : Guard) (x : Reg) (base : Reg) (m : LoadOp)
  /-- STL (R167): Stores to the core's own local store at issue. -/
  | stl (g : Guard) (x : Reg) (base : Reg) (m : StoreOp)
  /-- LDR (R167): Long-latency load from another core's local store in R space. -/
  | ldr (g : Guard) (x : Reg) (base : Reg) (m : LoadOp)
  /-- STR (R167): Enters a store to R space into the phase buffer. -/
  | str (g : Guard) (x : Reg) (base : Reg) (m : StoreOp)
  /-- LDS (R213): Loads from scratchpad S space through the snapshot. -/
  | lds (g : Guard) (x : Reg) (base : Reg) (m : LoadOp)
  /-- STS (R213): Enters a store to S space into the phase buffer. -/
  | sts (g : Guard) (x : Reg) (base : Reg) (m : StoreOp)
  /-- LDG (R213): Plain long-latency load from the control segment. -/
  | ldg (g : Guard) (x : Reg) (base : Reg) (m : LoadOp)
  /-- LDG_ACQ (R215): Loads from memory directly and then refreshes the snapshot. -/
  | ldgAcq (g : Guard) (x : Reg) (base : Reg) (m : LoadOp)
  /-- LDG_SC (R215): Acquire load that takes part in the context's total .sc order. -/
  | ldgSc (g : Guard) (x : Reg) (base : Reg) (m : LoadOp)
  /-- STG (R213): Enters a store to G space into the phase buffer. -/
  | stg (g : Guard) (x : Reg) (base : Reg) (m : StoreOp)
  /-- STG_REL (R215): Publishes the phase buffer and then performs the store at memory. -/
  | stgRel (g : Guard) (x : Reg) (base : Reg) (m : StoreOp)
  /-- STG_SC (R215): Release store that takes part in the context's total .sc order. -/
  | stgSc (g : Guard) (x : Reg) (base : Reg) (m : StoreOp)
  /-- ATS (R219): Sends a non-returning atomic to the memory-side unit of an S address. -/
  | ats (g : Guard) (a : Src) (b : Src) (op : AtomOp) (dbl : Bool)
  /-- ATSV (R219): Sends a value-returning swap, fetch-add or CAS on S space. -/
  | atsv (g : Guard) (d : Reg) (a : Src) (b : Src) (c : Src) (op : AtomVOp) (dbl : Bool)
  /-- ATG (R219): Sends a non-returning atomic on G space. -/
  | atg (g : Guard) (a : Src) (b : Src) (op : AtomOp) (dbl : Bool)
  /-- ATGV (R219): Sends a value-returning atomic on G space. -/
  | atgv (g : Guard) (d : Reg) (a : Src) (b : Src) (c : Src) (op : AtomVOp) (dbl : Bool)
  /-- RECV (R114): Pops a word from a bound channel, acquiring when ord is set. -/
  | recv (g : Guard) (d : Reg) (j : CReg)
  /-- SEND (R115): Sends a plain word to a channel once it has a free place. -/
  | send (g : Guard) (a : Src) (b : Src)
  /-- SEND_REL (R115): Publishes the phase buffer at the scope and sends an ord word. -/
  | sendRel (g : Guard) (a : Src) (b : Src) (sc : Scope)
  /-- PEEK (R118): Reads the head word of a channel without popping it, waiting while empty. -/
  | peek (g : Guard) (d : Reg) (j : CReg)
  /-- PEEK_Q (R118): Sets a predicate to whether a channel is non-empty. -/
  | peekQ (g : Guard) (p : PReg) (j : CReg)
  /-- BR (R103): Branches when the condition register is nonzero. -/
  | br (g : Guard) (c : Src) (disp : Imm)
  /-- JMP (R103): Branches unconditionally by displacement. -/
  | jmp (g : Guard) (disp : Imm)
  /-- CALL (R103): Writes the return index to the link register and branches. -/
  | call (g : Guard) (l : Reg) (disp : Imm)
  /-- LOOP (R103): Decrements a register and branches while it is nonzero. -/
  | loop (g : Guard) (c : Src) (disp : Imm)
  /-- TWAIT (R105): Returns the lowest bound channel holding a word, or waits for one. -/
  | twait (g : Guard) (d : Reg) (a : Src)
  /-- TRUN (R106): Starts an idle slot or resumes a trapped one on the same core. -/
  | trun (g : Guard) (d : Reg) (a : Src) (b : Src) (c : Src)
  /-- TEND (R107): Waits for pending registers and makes the slot idle. -/
  | tend (g : Guard)
  /-- TRAP (R108): Raises SOFT_TRAP with the immediate as detail. -/
  | trap (g : Guard) (imm : Imm)
  /-- EMPTY (R109): Clears a register's full bit, waiting first if it is pending. -/
  | empty (g : Guard) (d : Reg)
  /-- FULLQ (R109): Writes a predicate with a register's full state without waiting. -/
  | fullq (g : Guard) (p : PReg) (a : Reg)
  /-- YIELD (R110): Advances the PC and passes issue priority on. -/
  | yield (g : Guard)
  /-- HALT (R111): Raises the fatal HALT_INSTRUCTION. -/
  | halt (g : Guard) (imm : Imm)
  /-- MFSR (R119): Reads a system register into a scalar register. -/
  | mfsr (g : Guard) (d : Reg) (y : SysReg)
  /-- MTSR (R119): Writes a system register from a scalar register. -/
  | mtsr (g : Guard) (y : SysReg) (a : Src)
  /-- FENCE_WAIT (R120): Waits until the slot's earlier producers, sends, atomics and ordered accesses have performed. -/
  | fenceWait (g : Guard)
  /-- FENCE_REL (R120): Publishes the phase buffer at the given scope and waits. -/
  | fenceRel (g : Guard) (sc : Scope)
  /-- FENCE_ACQ (R120): Refreshes the core's snapshot. -/
  | fenceAcq (g : Guard) (sc : Scope)
  /-- FENCE_ACQREL (R120): Publishes the phase buffer and then refreshes the snapshot. -/
  | fenceAcqrel (g : Guard) (sc : Scope)
  /-- RDTIME (R121): Reads the package time base. -/
  | rdtime (g : Guard) (d : Reg)
  /-- RDTIME_CYC (R121): Reads the cycles resident with the current fabric load. -/
  | rdtimeCyc (g : Guard) (d : Reg)
  /-- DIGEST (R122): Continues a CRC-64 over eight bytes. -/
  | digest (g : Guard) (d : Reg) (a : Src) (b : Src)
  /-- DIGEST_OUT (R122): Folds a task output word into its checking-mode digest. -/
  | digestOut (g : Guard) (a : Src) (b : Src) (c : Src)
  /-- SEED (R123): Records a pending context seed for the next reconfiguration token. -/
  | seed (g : Guard) (a : Src)
  /-- COLCHK (R124): Returns the colophon state word of the region's latest scrub. -/
  | colchk (g : Guard) (d : Reg)
  /-- VADD (R140): Element-wise add in a chain stage firing. -/
  | vadd (v : VWord)
  /-- VSUB (R140): Element-wise subtract in a stage firing. -/
  | vsub (v : VWord)
  /-- VMUL (R140): Element-wise multiply in a stage firing. -/
  | vmul (v : VWord)
  /-- VFMA (R140): Element-wise fused multiply-add with one rounding. -/
  | vfma (v : VWord)
  /-- VMAC (R141): Multiplies elements into an accumulator entry. -/
  | vmac (v : VWord)
  /-- VDOT4 (R141): Four-product dot groups into one quarter of an accumulator entry. -/
  | vdot4 (v : VWord)
  /-- VABS (R142): Element-wise absolute value. -/
  | vabs (v : VWord)
  /-- VNEG (R142): Element-wise negation. -/
  | vneg (v : VWord)
  /-- VMIN (R143): Element-wise minimumNumber. -/
  | vmin (v : VWord)
  /-- VMAX (R143): Element-wise maximumNumber. -/
  | vmax (v : VWord)
  /-- VMINP (R143): Element-wise NaN-propagating minimum. -/
  | vminp (v : VWord)
  /-- VMAXP (R143): Element-wise NaN-propagating maximum. -/
  | vmaxp (v : VWord)
  /-- VCLAMP (R143): Clamps each element between two bounds. -/
  | vclamp (v : VWord)
  /-- VAND (R144): Element-wise bitwise AND. -/
  | vand (v : VWord)
  /-- VOR (R144): Element-wise bitwise OR. -/
  | vor (v : VWord)
  /-- VXOR (R144): Element-wise bitwise XOR. -/
  | vxor (v : VWord)
  /-- VSHL (R144): Element-wise left shift. -/
  | vshl (v : VWord)
  /-- VSHR (R144): Element-wise logical right shift. -/
  | vshr (v : VWord)
  /-- VSRA (R144): Element-wise arithmetic right shift. -/
  | vsra (v : VWord)
  /-- VCMP (R145): Element-wise compare into all-ones or zero masks. -/
  | vcmp (v : VWord)
  /-- VSEL (R145): Element-wise select by mask. -/
  | vsel (v : VWord)
  /-- VCVT (R146): Converts elements between formats, repacking beats. -/
  | vcvt (v : VWord)
  /-- VSCALE (R147): Scales elements by powers of two. -/
  | vscale (v : VWord)
  /-- VAMAX (R148): Passes elements through and updates a max-magnitude register at commit. -/
  | vamax (v : VWord)
  /-- VSF (R149): Correctly rounded special function per element. -/
  | vsf (v : VWord)
  /-- VSUM (R150): Sums the vector's elements into element 0. -/
  | vsum (v : VWord)
  /-- VSCAN (R150): Prefix sums with optional carry across firings. -/
  | vscan (v : VWord)
  /-- VPERM (R151): Gathers elements of A by index. -/
  | vperm (v : VWord)
  /-- VPERM2 (R151): Gathers elements from A and C by index (function 1). -/
  | vperm2 (v : VWord)
  /-- VBCAST (R151): Broadcasts one element. -/
  | vbcast (v : VWord)
  /-- VSLIDE (R151): Slides elements across two vectors. -/
  | vslide (v : VWord)
  /-- VTAP (R151): Picks a lattice tap per lane. -/
  | vtap (v : VWord)
  /-- VEXPAND (R152): Expands packed elements under a mask. -/
  | vexpand (v : VWord)
  /-- VCOMPRESS (R152): Compresses elements under a mask. -/
  | vcompress (v : VWord)
  /-- VSTEER (R153): Sends a vector to o0 or o1 by a select bit. -/
  | vsteer (v : VWord)
  /-- VMERGE (R153): Takes a token from the input that a select bit names. -/
  | vmerge (v : VWord)
  /-- VNRW (R154): Narrows an accumulator entry under the tensor scale with one rounding. -/
  | vnrw (v : VWord)
  /-- VNRW_STREAM (R154): Narrows an FP32 input stream under the tensor scale. -/
  | vnrwStream (v : VWord)
  /-- VMOV (R155): Moves a vector to an output or into an accumulator. -/
  | vmov (v : VWord)
  /-- CHAIN (R156): Checks and queues an issued chain template and returns its ticket. -/
  | chain (g : Guard) (d : Reg) (a : Src) (b : Src) (t : Tmpl) (eoi : Bool)
  /-- CWAIT (R158): Waits for a chain ticket and returns its status word. -/
  | cwait (g : Guard) (d : Reg) (a : Src)
  /-- CWAIT_FLAGS (R158): Reads and clears a resident template's flags word. -/
  | cwaitFlags (g : Guard) (d : Reg) (t : Tmpl)
  /-- CWAIT_MAG (R158): Reads a template's max-magnitude register. -/
  | cwaitMag (g : Guard) (d : Reg) (t : Tmpl) (m : Two)
  /-- SBIND (R228): Appends a stream command to a port queue and returns its ticket. -/
  | sbind (g : Guard) (d : Reg) (a : Src) (b : Src) (eoi : Bool) (port : Three) (ag : Bool) (pat : Tmpl)
  /-- SCLOSE (R230): Appends a close entry to a port queue. -/
  | sclose (g : Guard) (d : Reg) (port : Three) (ag : Bool)
  /-- SCLOSE_ABORT (R230): Stops a port at once, discards its queue and closes it. -/
  | scloseAbort (g : Guard) (d : Reg) (port : Three) (ag : Bool)
  /-- SBAR (R231): Appends a barrier entry to each masked port queue. -/
  | sbar (g : Guard) (mask : Mask16)
  /-- SBAR_WAIT (R231): Appends a port barrier and waits until it passes, then refreshes. -/
  | sbarWait (g : Guard) (mask : Mask16)
  /-- CBAR (R217): Arrives at a cluster barrier and waits for the instance to complete. -/
  | cbar (g : Guard) (d : Reg) (a : Src) (id : Tmpl)
  /-- PHASE (R217): Arrives at a region, package or system phase barrier. -/
  | phase (g : Guard) (d : Reg) (a : Src) (sc : Scope) (id : Tmpl)
  /-- XFORM_CVT (R225): Converts a scratchpad range in place. -/
  | xformCvt (g : Guard) (d : Reg) (a : Src) (b : Src) (fmt : Fmt) (dfmt : Fmt) (rnd : Rnd) (sat : Bool)
  /-- XFORM_SCALE (R225): Scales a scratchpad range in place. -/
  | xformScale (g : Guard) (d : Reg) (a : Src) (b : Src) (c : Src) (fmt : Fmt) (rnd : Rnd) (sat : Bool)
  /-- XFORM_FILL (R225): Fills a scratchpad range with a pattern. -/
  | xformFill (g : Guard) (d : Reg) (a : Src) (b : Src) (c : Src) (fmt : Fmt) (sat : Bool)
  /-- XFORM_ADD (R225): Adds a value to each element of a scratchpad range. -/
  | xformAdd (g : Guard) (d : Reg) (a : Src) (b : Src) (c : Src) (fmt : Fmt) (rnd : Rnd) (sat : Bool)
  /-- XFORM_AMAX (R225): Returns the largest magnitude in a scratchpad range. -/
  | xformAmax (g : Guard) (d : Reg) (a : Src) (b : Src) (fmt : Fmt) (sat : Bool)
  /-- MSCALE (R277): Sets the core's tensor scale after its earlier chains end. -/
  | mscale (g : Guard) (d : Reg) (a : Src) (b : Src)
  /-- MSCALE_MX (R277): Sets the MX tensor scale for tsc arcs. -/
  | mscaleMx (g : Guard) (d : Reg) (a : Src) (b : Src)
  /-- MWLOAD (R275): Queues a panel load from scratchpad into a weight-buffer slot. -/
  | mwload (g : Guard) (d : Reg) (a : Src) (b : Src) (c : Src)
  /-- MWLOAD_P (R275): Queues a panel load from MX input 4. -/
  | mwloadP (g : Guard) (d : Reg) (b : Src) (c : Src)
  /-- MARM (R276): Waits for panel loads, checks slots and adds to a section's count. -/
  | marm (g : Guard) (d : Reg) (a : Src) (s : Two)
  /-- MARM_Q (R276): Returns a section's count. -/
  | marmQ (g : Guard) (d : Reg) (s : Two)
  /-- MARM_WAIT (R276): Waits until a section's count is zero and its rows are pushed. -/
  | marmWait (g : Guard) (d : Reg) (s : Two)
  /-- MARM_FLAGS (R276): Reads and clears a section's flags word. -/
  | marmFlags (g : Guard) (d : Reg) (s : Two)
  /-- CRUN (R251): Checks a lattice descriptor and starts a coat chain. -/
  | crun (g : Guard) (d : Reg) (a : Src) (ch : Two)
  /-- CRUN_WAIT (R252): Waits for a coat chain run to end and returns its status. -/
  | crunWait (g : Guard) (d : Reg) (ch : Two)
  /-- CEDGE (R255): Loads a step's edge record into a chain's edge table. -/
  | cedge (g : Guard) (d : Reg) (a : Src) (b : Src) (ch : Two)
  /-- COPY (R336): Reads a copy descriptor and hands the copy to an engine. -/
  | copy (g : Guard) (d : Reg) (a : Src)
  /-- COPY_WAIT (R336): Waits for a copy ticket, returns its status and refreshes. -/
  | copyWait (g : Guard) (d : Reg) (a : Src)
  /-- XEXPECT (R340): Arms a transfer barrier with an expected byte count. -/
  | xexpect (g : Guard) (d : Reg) (a : Src) (id : Tmpl)
  /-- XWAIT (R340): Waits while a transfer barrier is armed, then refreshes. -/
  | xwait (g : Guard) (d : Reg) (id : Tmpl)
  /-- TINV (R341): Queues invalidation of a tensor's tile range. -/
  | tinv (g : Guard) (d : Reg) (a : Src) (b : Src)
  /-- TINV_T (R341): Queues invalidation of every entry of a tensor. -/
  | tinvT (g : Guard) (d : Reg) (a : Src)
  /-- TINV_ALL (R341): Queues invalidation of every entry of the context's ASID. -/
  | tinvAll (g : Guard) (d : Reg)
  /-- TINV_WAIT (R341): Waits until earlier invalidations complete package-wide. -/
  | tinvWait (g : Guard) (d : Reg)
  /-- XLOOK (R343): Looks up a coordinate's tile and offset. -/
  | xlook (g : Guard) (d : Reg) (a : Src) (b : Src)
  /-- XLOOK_O (R343): Looks up a coordinate's output tile and rights. -/
  | xlookO (g : Guard) (d : Reg) (a : Src) (b : Src)
  /-- GLAUNCH (R302): Publishes, reads a launch record and appends or holds it. -/
  | glaunch (g : Guard) (d : Reg) (a : Src)
  /-- GLAUNCH_Q (R302): As GLAUNCH but returns 1 instead of waiting on a full level. -/
  | glaunchQ (g : Guard) (d : Reg) (a : Src)
  /-- GARM (R304): Adds to an MX section's count anywhere in the region and marks it check-pending. -/
  | garm (g : Guard) (d : Reg) (a : Src) (b : Src) (s : Two)
  /-- GARM_Q (R304): Returns an MX section's count. -/
  | garmQ (g : Guard) (d : Reg) (a : Src) (s : Two)
  /-- COLL_REDUCE_RING (R464): Ring reduction to a root across the gang. -/
  | collReduceRing (g : Guard) (d : Reg) (a : Src)
  /-- COLL_REDUCE_TREE (R465): Tree reduction to a root across the gang. -/
  | collReduceTree (g : Guard) (d : Reg) (a : Src)
  /-- COLL_ALLREDUCE_RING (R464): Ring all-reduce across the gang. -/
  | collAllreduceRing (g : Guard) (d : Reg) (a : Src)
  /-- COLL_ALLREDUCE_TREE (R465): Tree all-reduce across the gang. -/
  | collAllreduceTree (g : Guard) (d : Reg) (a : Src)
  /-- COLL_GATHER (R466): Gathers each rank's block at the root. -/
  | collGather (g : Guard) (d : Reg) (a : Src)
  /-- COLL_SCATTER (R466): Scatters the root's blocks to every rank. -/
  | collScatter (g : Guard) (d : Reg) (a : Src)
  /-- COLL_RANK (R461): Returns the gang size and this member's rank. -/
  | collRank (g : Guard) (d : Reg)
  /-- DDCFG (R363): Configures a fresh decision-diagram table. -/
  | ddcfg (g : Guard) (d : Reg) (a : Src)
  /-- DDCFG_GROW (R363): Grows the table into larger ranges, keeping every edge. -/
  | ddcfgGrow (g : Guard) (d : Reg) (a : Src)
  /-- DDVAR (R364): Returns the projection edge of a variable. -/
  | ddvar (g : Guard) (d : Reg) (a : Src)
  /-- DDVAR_LVL (R364): Returns the level of a variable. -/
  | ddvarLvl (g : Guard) (d : Reg) (a : Src)
  /-- DDVAR_VAR (R364): Returns the variable at a level. -/
  | ddvarVar (g : Guard) (d : Reg) (a : Src)
  /-- DDITE (R365): Returns if-then-else of three edges. -/
  | ddite (g : Guard) (d : Reg) (a : Src) (b : Src) (c : Src)
  /-- DDAPPLY (R365): Applies a two-input Boolean operator to two edges. -/
  | ddapply (g : Guard) (d : Reg) (a : Src) (b : Src) (op : Tmpl)
  /-- DDRESTRICT (R366): Restricts a function by a cube. -/
  | ddrestrict (g : Guard) (d : Reg) (a : Src) (b : Src)
  /-- DDQUANT_EX (R366): Existentially quantifies the cube's variables. -/
  | ddquantEx (g : Guard) (d : Reg) (a : Src) (b : Src)
  /-- DDQUANT_ALL (R366): Universally quantifies the cube's variables. -/
  | ddquantAll (g : Guard) (d : Reg) (a : Src) (b : Src)
  /-- DDCOMPOSE (R367): Substitutes a function for a variable. -/
  | ddcompose (g : Guard) (d : Reg) (a : Src) (b : Src) (c : Src)
  /-- DDWCOUNT (R369): Returns a weighted model count in FP64. -/
  | ddwcount (g : Guard) (d : Reg) (a : Src) (b : Src) (c : Src)
  /-- DDSAT (R368): Returns the least satisfying cube. -/
  | ddsat (g : Guard) (d : Reg) (a : Src)
  /-- DDENUM (R370): Streams a restricted function's truth table as bitmap beats. -/
  | ddenum (g : Guard) (d : Reg) (a : Src) (b : Src) (c : Src)
  /-- DDENUM_E (R370): As DDENUM and then pushes an eoi marker. -/
  | ddenumE (g : Guard) (d : Reg) (a : Src) (b : Src) (c : Src)
  /-- DDREF (R371): Adds one to a node's reference count. -/
  | ddref (g : Guard) (d : Reg) (a : Src)
  /-- DDDEREF (R371): Subtracts one from a node's reference count. -/
  | ddderef (g : Guard) (d : Reg) (a : Src)
  /-- DDGC (R374): Frees every dead node and its cache entries, as a barrier. -/
  | ddgc (g : Guard) (d : Reg)
  /-- DDSWAP (R375): Swaps two adjacent levels in place. -/
  | ddswap (g : Guard) (d : Reg) (a : Src)
  /-- DDNODE (R372): Reads a node record into two registers. -/
  | ddnode (g : Guard) (d : Reg) (a : Src)
  /-- DDSTAT (R373): Returns a table statistic. -/
  | ddstat (g : Guard) (d : Reg) (k : Fin5)
  /-- ISSUE_SELECT (R75): Each cycle the core picks the next runnable slot in rotation and issues its word. -/
  | issueSelect (r : Nat) (u : Nat)
  /-- PRODUCER_COMPLETION (R27): A long-latency producer writes its destination and marks it full, waking waiters. -/
  | producerCompletion (r : Nat) (u : Nat) (k : Nat)
  /-- CHANNEL_WORD_ARRIVAL (R113): A sent word reaches its channel and wakes a waiting receiver. -/
  | channelWordArrival (r : Nat) (k : Nat)
  /-- ATOMIC_PERFORM (R221): A memory-side unit performs a received or held update once its key order allows. -/
  | atomicPerform (r : Nat) (k : Nat)
  /-- NODE_FIRING_COMMIT (R78): A started firing commits, popping its reserved inputs and publishing its outputs. -/
  | nodeFiringCommit (r : Nat) (u : Nat) (t : Nat) (j : Nat)
  /-- EOI_HANDLING (R80): A node with eoi at every input pops them, resets invocation state and emits eoi. -/
  | eoiHandling (r : Nat) (nd : NodeRef)
  /-- CHAIN_START (R157): A queued issued chain starts when its stages and ports are free. -/
  | chainStart (r : Nat) (u : Nat) (k : Nat)
  /-- CHAIN_END (R157): An issued chain ends at its count or short at an eoi marker. -/
  | chainEnd (r : Nat) (u : Nat) (k : Nat)
  /-- ARC_BEAT (R196): The switch converts and repacks a producer beat into the arc's FIFO or spill ring. -/
  | arcBeat (r : Nat) (u : Nat) (k : Nat)
  /-- SPILL_RETURN (R201): A spilled beat returns from its ring to the FIFO in order. -/
  | spillReturn (r : Nat) (u : Nat) (k : Nat)
  /-- HEADER_LATCH (R67): A consumer latches a compatibility-mode header beat's scale. -/
  | headerLatch (r : Nat) (nd : NodeRef) (p : Nat)
  /-- STEER_NODE_FIRING (R203): A switch steer node pushes its data beat to the selected path. -/
  | steerNodeFiring (r : Nat) (u : Nat) (j : Nat)
  /-- MERGE_NODE_FIRING (R203): A switch merge node delivers the beat of the selected input. -/
  | mergeNodeFiring (r : Nat) (u : Nat) (j : Nat)
  /-- STREAM_READ_BEAT (R229): A read stream port fetches a beat and pushes it, with eoi after its last. -/
  | streamReadBeat (r : Nat) (u : Nat) (p : Nat)
  /-- STREAM_WRITE_BEAT (R229): A write stream port pops a beat and writes it to memory. -/
  | streamWriteBeat (r : Nat) (u : Nat) (p : Nat)
  /-- STREAM_COMMAND_COMPLETE (R229): A stream command completes once all its beats have performed. -/
  | streamCommandComplete (r : Nat) (u : Nat) (p : Nat)
  /-- PORT_CLOSE_REACHED (R230): A port reaches its close entry, pushes eoi if reading, and closes. -/
  | portCloseReached (r : Nat) (u : Nat) (p : Nat)
  /-- STREAM_BARRIER_PASS (R231): An SBAR entry passes when every masked port has reached it and drained ahead. -/
  | streamBarrierPass (r : Nat) (cl : Nat) (id : Nat)
  /-- COAT_FIRING (R248): A computing coat fires on its next ready block and emits it. -/
  | coatFiring (r : Nat) (ch : Nat) (k : Nat)
  /-- COAT_DRAIN (R247): Eoi at a coat's iport synthesises high-side edges, fires the rest and emits eoi. -/
  | coatDrain (r : Nat) (ch : Nat) (k : Nat)
  /-- COAT_PASS_START (R249): The next pass starts once the previous pass's sink and coats have finished. -/
  | coatPassStart (r : Nat) (ch : Nat)
  /-- MX_FIRING (R270): An armed MX section fires on its A beats and accumulates into a node. -/
  | mxFiring (r : Nat) (u : Nat) (sec : Nat)
  /-- PANEL_LOAD_START (R275): A queued panel load starts, invalidating overlapped slots after the armed-slot check. -/
  | panelLoadStart (r : Nat) (u : Nat)
  /-- PANEL_UNIT_ARRIVAL (R275): A panel unit arrives from scratchpad or input 4. -/
  | panelUnitArrival (r : Nat) (u : Nat)
  /-- PANEL_LOAD_END (R275): The last unit arrives, the bitmap is checked and the slot becomes valid. -/
  | panelLoadEnd (r : Nat) (u : Nat)
  /-- INPUT4_EOI_DROP (R275): An eoi on input 4 with no port load in progress is popped and dropped. -/
  | input4EoiDrop (r : Nat) (u : Nat)
  /-- GARM_CHECK (R304): A check-pending section is checked once all its slots are valid. -/
  | garmCheck (r : Nat) (u : Nat) (sec : Nat)
  /-- COPY_START (R332): A copy engine starts a copy and checks its descriptor. -/
  | copyStart (r : Nat) (k : Nat)
  /-- COPY_UNIT_COMPLETE (R334): A copy unit's writes perform and its bytes credit the transfer barrier. -/
  | copyUnitComplete (r : Nat) (k : Nat)
  /-- BUDGET_REFILL (R448): Each microsecond a context's budget refills, resuming yielded work. -/
  | budgetRefill (asid : Nat)
  /-- DDE_BATCH_ENTRY (R378): A DDE batch performs its next entry and writes the result. -/
  | ddeBatchEntry (r : Nat) (n : Nat)
  /-- SEAL_FILL (R394): A seal cache fills a tile, verifying its tag and decrypting it. -/
  | sealFill (asid : Nat) (tile : Nat)
  /-- SEAL_WRITEBACK (R395): A dirty tile is encrypted at version + 1 and written back. -/
  | sealWriteback (tile : Nat)
  /-- REKEY (R400): After version exhaustion the root controller re-keys the tenant's tiles. -/
  | rekey (asid : Nat)
  /-- TILE_MIGRATION_START (R329): Firmware starts moving a device tile between tiers. -/
  | tileMigrationStart (tile : Nat)
  /-- TILE_MIGRATION_END (R329): A tile move ends and waiting accesses resume. -/
  | tileMigrationEnd (tile : Nat) (ptn : Nat)
  /-- DOORBELL_WRITE (R444): A launch-queue doorbell write is validated and sets the write index. -/
  | doorbellWrite (f : Nat) (q : Nat) (v : Nat)
  /-- LAUNCH_RECORD_FETCH (R445): A fetched host record enters its region queue level and QRIDX advances. -/
  | launchRecordFetch (f : Nat) (q : Nat) (rec : Fetched)
  /-- QCFG_WRITE (R444): A QCFG write sets size and enable; en := 0 zeroes indices and error code. -/
  | qcfgWrite (f : Nat) (q : Nat) (v : Word)
  /-- QSTAT_CLEAR (R443): Writing 1 clears QSTAT's back, cfgw or dead flags. -/
  | qstatClear (f : Nat) (q : Nat) (v : Word)
  /-- FCFG_WRITE (R447): An FCFG write sets the fault ring size and enable. -/
  | fcfgWrite (f : Nat) (v : Word)
  /-- FRIDX_WRITE (R447): The host advances the fault ring read index. -/
  | fridxWrite (f : Nat) (v : Nat)
  /-- FRESP_RETRY (R327): The host answers a fault tag with retry and the access walks again. -/
  | frespRetry (f : Nat) (tag : Nat)
  /-- FRESP_ABORT (R327): The host answers a fault tag with abort, stopping the context. -/
  | frespAbort (f : Nat) (tag : Nat)
  /-- ACFG_WRITE (R449): An ACFG write sets the admin ring size and enable. -/
  | acfgWrite (v : Word)
  /-- ASTAT_CLEAR (R449): Writing 1 clears the admin ring's back flag. -/
  | astatClear (v : Word)
  /-- ADMIN_DOORBELL (R449): An AWIDX write is validated and sets the admin ring write index. -/
  | adminDoorbell (v : Nat)
  /-- HOST_REGISTER_WRITE (R443): A write to a host register with no behaviour of its own. -/
  | hostRegisterWrite (f : Nat) (off : Nat) (v : Word)
  /-- CREATE_REGION (R449): Admin opcode 1 creates a region and its routing. -/
  | createRegion (x : AdminSrc) (rg : RegionArgs)
  /-- DESTROY_REGION (R449): Admin opcode 2 destroys a region. -/
  | destroyRegion (x : AdminSrc) (r : Nat)
  /-- CREATE_CONTEXT (R413): Admin opcode 3 creates a context with fixed attributes. -/
  | createContext (x : AdminSrc) (a : ContextArgs)
  /-- REMOVE_CONTEXT (R450): Admin opcode 4 withdraws a context's records, queues and faults and releases it. -/
  | removeContext (x : AdminSrc) (asid : Nat)
  /-- BIND_QUEUE (R449): Admin opcode 5 binds a launch queue to a context. -/
  | bindQueue (x : AdminSrc) (f : Nat) (q : Nat) (a : BindArgs)
  /-- SET_SECOND_STAGE_ROOT (R449): Admin opcode 6 sets a VF's second-stage root. -/
  | setSecondStageRoot (x : AdminSrc) (f : Nat) (root : Nat)
  /-- SECOND_STAGE_INVALIDATE (R449): Admin opcode 7 invalidates second-stage entries and fences completion. -/
  | secondStageInvalidate (x : AdminSrc) (f : Nat)
  /-- STOP_CONTEXT (R449): Admin opcode 8 stops a context, raising its halt line. -/
  | stopContext (x : AdminSrc) (asid : Nat)
  /-- PREEMPT_CONTEXT (R428): Admin opcode 9 starts gate-and-mark pre-emption or migration. -/
  | preemptContext (x : AdminSrc) (asid : Nat) (migrate : Bool)
  /-- READ_CERTIFICATE_CHAIN (R449): Admin opcode 10 returns the attestation certificate chain. -/
  | readCertificateChain (x : AdminSrc)
  /-- FORM_GANG (R457): Admin opcode 11 forms a gang of member contexts. -/
  | formGang (x : AdminSrc) (a : GangArgs)
  /-- DISSOLVE_GANG (R457): Admin opcode 12 dissolves a gang. -/
  | dissolveGang (x : AdminSrc) (a : GangEnd)
  /-- SCHEDULER_SELECT (R293): An idle region's scheduler selects the next record by priority and starvation. -/
  | schedulerSelect (r : Nat)
  /-- FABRIC_LOAD_START (R190): A ready load starts reading its image after the previous token has passed. -/
  | fabricLoadStart (r : Nat)
  /-- CONFIG_FRAME (R190): A configuration frame arrives through the virtual unit table and is checked. -/
  | configFrame (r : Nat)
  /-- END_FRAME (R189): The end frame is accepted and the whole image takes effect with its arms. -/
  | endFrame (r : Nat)
  /-- GRAPH_NODE_START (R299): A ready copy, DDE batch or successor-launch node starts. -/
  | graphNodeStart (r : Nat) (n : Nat)
  /-- SUCCESSOR_LAUNCH (R301): A successor node appends or holds its record once its level has room. -/
  | successorLaunch (r : Nat) (n : Nat)
  /-- BLOTTER_QUIESCENCE (R310): After 1,024 quiet cycles the Blotter classifies the load complete or deadlocked. -/
  | blotterQuiescence (r : Nat)
  /-- CHECK_RUN2_START (R312): After run 1 and a scrub, checking mode starts run 2. -/
  | checkRun2Start (q : Clearing)
  /-- GRAPH_COMPLETE (R305): A finished graph is made visible, held records appended and the completion record written. -/
  | graphComplete (r : Nat)
  /-- WATCHDOG (R424): The launch's watchdog budget expires and the context stops. -/
  | watchdog (r : Nat)
  /-- STOP_RECORDS_WRITTEN (R418): Once every engine has halted the stop records and header are written. -/
  | stopRecordsWritten (r : Nat)
  /-- DUMP_WRITTEN (R427): A dump image of the halted state is written to the save area. -/
  | dumpWritten (r : Nat) (ok : Bool)
  /-- WHITEWASH_LOAD (R425): The region takes the drain configuration that discards everything. -/
  | whitewashLoad (r : Nat)
  /-- REGION_RELEASE (R425): The Blotter reports the whitewashed region empty and it is released and scrubbed. -/
  | regionRelease (q : Clearing)
  /-- WHITEWASH_TIMEOUT (R426): 200 µs without an empty report takes the region out of service. -/
  | whitewashTimeout (r : Nat)
  /-- LIFT_MARKER_SAVE (R428): A node with lift markers at all inputs saves its state and forwards markers. -/
  | liftMarkerSave (r : Nat) (nd : NodeRef)
  /-- FORCED_MARKER (R429): After 1,024 quiet cycles during pre-emption, missing markers count as arrived. -/
  | forcedMarker (r : Nat)
  /-- SAVE_IMAGE_COMPLETE (R428): The vacated region's save image is completed and the context becomes pre-empted. -/
  | saveImageComplete (r : Nat)
  /-- RESTORE (R437): A pre-empted context's image is verified, loaded and resumed in one cycle. -/
  | restore (r : Nat)
  /-- SCRUB (R403): The Scraper clears every structure class of a vacated region. -/
  | scrub (r : Nat) (bad : Option Nat)
  /-- COLOPHON_WRITTEN (R410): The signed colophon is written at system scope, releasing colophon wait. -/
  | colophonWritten (r : Nat)
  /-- RESET (R411): Reset wipes every SRAM, key slot and tree root. -/
  | reset
  /-- LIFECYCLE_CHANGE (R411): A signed management command moves the life-cycle state with a full wipe. -/
  | lifecycleChange (st : LifeCycle)
  /-- SLICE_REQUEST (R459): Firmware names a gang slice and each member vacates and reports. -/
  | sliceRequest (gid : Nat) (slice : Nat) (dl : Nat)
  /-- VACATED_MESSAGE (R459): The coordinator receives a member's vacated report. -/
  | vacatedMessage (gid : Nat) (rank : Nat) (slice : Nat)
  /-- GO_MESSAGE (R459): A member receives go and starts its gang record. -/
  | goMessage (gid : Nat) (slice : Nat)
  /-- GANG_DEADLINE (R460): D + grace passes without all reports; the coordinator aborts the slice. -/
  | gangDeadline (gid : Nat)
  /-- ABORT_MESSAGE (R460): A member receiving abort forces out a late context with GANG_TIMEOUT. -/
  | abortMessage (gid : Nat) (slice : Nat)
  /-- PEER_STOP_MESSAGE (R458): A gang member's fatal stop makes this member stop with PEER_HALT. -/
  | peerStopMessage (gid : Nat) (rank : Nat)
  /-- COLL_BEAT_ARRIVAL (R464): A collective beat from a peer is combined and forwarded. -/
  | collBeatArrival (asid : Nat) (m : CollMsg)
  /-- LIFT_FLIT_ARRIVAL (R469): A peer's lift flit arrives; after all, the collective saves. -/
  | liftFlitArrival (asid : Nat) (rank : Nat)
  /-- LINK_DOWN (R470): A link not recovered within 100 µs is taken down and traffic re-routed. -/
  | linkDown (port : Nat) (peers : RankList)
  /-- THERMAL_THROTTLE (R451): At its thermal limit the module lowers the arithmetic clock. -/
  | thermalThrottle
  /-- PUBLISH_COMPLETE (R120): A phase-buffer publish (and a release store after it) finishes performing at the reach of its scope, releasing the waiting slot. -/
  | publishComplete (r : Nat) (u : Nat) (k : Nat)
  /-- XFORM_COMPLETE (R225): The last word of an XFORM range is transformed at its bank, and the waiting slot receives its status and flags. -/
  | xformComplete (r : Nat) (u : Nat) (k : Nat)
  /-- TINV_COMPLETE (R341): A queued first-stage invalidation finishes in every cache of the package, and the windows it names are disabled. -/
  | tinvComplete (r : Nat) (k : Nat)
  /-- DDE_COMMAND_PERFORM (R361): The home die's DDE performs an accepted command once barrier and key-order rules allow, changing the table and pushing any DDENUM beats. -/
  | ddeCommandPerform (r : Nat) (k : Nat)
  /-- SOFT_ERROR (R175): A bit error arises in a SECDED-protected word or in tier memory, to be corrected or reported as UNCORRECTABLE or TAG_MISMATCH when the word is read. -/
  | softError (site : ErrorSite)
  /-- EXPANDER_LINK_FAILURE (R451): The link to a tier-2 expander fails, after which accesses to its tiles raise UNCORRECTABLE. -/
  | expanderLinkFailure (port : Nat)
deriving DecidableEq, Repr, Inhabited

/-- The rows that are not instruction words: steps of the machine's agents and requests of the outside world. -/
def Instr.isEvent : Instr → Bool
  | .add _ _ _ _ => false
  | .addSat _ _ _ _ => false
  | .sub _ _ _ _ => false
  | .subSat _ _ _ _ => false
  | .mul _ _ _ _ => false
  | .mulSat _ _ _ _ => false
  | .mulh _ _ _ _ => false
  | .mulhu _ _ _ _ => false
  | .div _ _ _ _ => false
  | .divu _ _ _ _ => false
  | .rem _ _ _ _ => false
  | .remu _ _ _ _ => false
  | .and _ _ _ _ => false
  | .or _ _ _ _ => false
  | .xor _ _ _ _ => false
  | .andn _ _ _ _ => false
  | .shl _ _ _ _ => false
  | .shlSat _ _ _ _ => false
  | .shr _ _ _ _ => false
  | .sra _ _ _ _ => false
  | .rotr _ _ _ _ => false
  | .min _ _ _ _ => false
  | .max _ _ _ _ => false
  | .minu _ _ _ _ => false
  | .maxu _ _ _ _ => false
  | .clz _ _ _ => false
  | .ctz _ _ _ => false
  | .popc _ _ _ => false
  | .addi _ _ _ _ => false
  | .andi _ _ _ _ => false
  | .ori _ _ _ _ => false
  | .xori _ _ _ _ => false
  | .shli _ _ _ _ => false
  | .shri _ _ _ _ => false
  | .srai _ _ _ _ => false
  | .lui _ _ _ _ => false
  | .lea _ _ _ _ _ => false
  | .sel _ _ _ _ _ => false
  | .ceq _ _ _ _ => false
  | .cne _ _ _ _ => false
  | .clt _ _ _ _ => false
  | .cle _ _ _ _ => false
  | .cltu _ _ _ _ => false
  | .cleu _ _ _ _ => false
  | .ceqi _ _ _ _ => false
  | .clti _ _ _ _ => false
  | .pand _ _ _ _ _ _ => false
  | .por _ _ _ _ _ _ => false
  | .pxor _ _ _ _ _ _ => false
  | .fadd _ _ _ _ _ => false
  | .fsub _ _ _ _ _ => false
  | .fmul _ _ _ _ _ => false
  | .ffma _ _ _ _ _ _ => false
  | .fdiv _ _ _ _ _ => false
  | .fsqrt _ _ _ _ => false
  | .fmin _ _ _ _ _ => false
  | .fmax _ _ _ _ _ => false
  | .fcmp _ _ _ _ _ _ => false
  | .fcvt _ _ _ _ _ _ _ => false
  | .fclass _ _ _ _ => false
  | .ldl _ _ _ _ => false
  | .stl _ _ _ _ => false
  | .ldr _ _ _ _ => false
  | .str _ _ _ _ => false
  | .lds _ _ _ _ => false
  | .sts _ _ _ _ => false
  | .ldg _ _ _ _ => false
  | .ldgAcq _ _ _ _ => false
  | .ldgSc _ _ _ _ => false
  | .stg _ _ _ _ => false
  | .stgRel _ _ _ _ => false
  | .stgSc _ _ _ _ => false
  | .ats _ _ _ _ _ => false
  | .atsv _ _ _ _ _ _ _ => false
  | .atg _ _ _ _ _ => false
  | .atgv _ _ _ _ _ _ _ => false
  | .recv _ _ _ => false
  | .send _ _ _ => false
  | .sendRel _ _ _ _ => false
  | .peek _ _ _ => false
  | .peekQ _ _ _ => false
  | .br _ _ _ => false
  | .jmp _ _ => false
  | .call _ _ _ => false
  | .loop _ _ _ => false
  | .twait _ _ _ => false
  | .trun _ _ _ _ _ => false
  | .tend _ => false
  | .trap _ _ => false
  | .empty _ _ => false
  | .fullq _ _ _ => false
  | .yield _ => false
  | .halt _ _ => false
  | .mfsr _ _ _ => false
  | .mtsr _ _ _ => false
  | .fenceWait _ => false
  | .fenceRel _ _ => false
  | .fenceAcq _ _ => false
  | .fenceAcqrel _ _ => false
  | .rdtime _ _ => false
  | .rdtimeCyc _ _ => false
  | .digest _ _ _ _ => false
  | .digestOut _ _ _ _ => false
  | .seed _ _ => false
  | .colchk _ _ => false
  | .vadd _ => false
  | .vsub _ => false
  | .vmul _ => false
  | .vfma _ => false
  | .vmac _ => false
  | .vdot4 _ => false
  | .vabs _ => false
  | .vneg _ => false
  | .vmin _ => false
  | .vmax _ => false
  | .vminp _ => false
  | .vmaxp _ => false
  | .vclamp _ => false
  | .vand _ => false
  | .vor _ => false
  | .vxor _ => false
  | .vshl _ => false
  | .vshr _ => false
  | .vsra _ => false
  | .vcmp _ => false
  | .vsel _ => false
  | .vcvt _ => false
  | .vscale _ => false
  | .vamax _ => false
  | .vsf _ => false
  | .vsum _ => false
  | .vscan _ => false
  | .vperm _ => false
  | .vperm2 _ => false
  | .vbcast _ => false
  | .vslide _ => false
  | .vtap _ => false
  | .vexpand _ => false
  | .vcompress _ => false
  | .vsteer _ => false
  | .vmerge _ => false
  | .vnrw _ => false
  | .vnrwStream _ => false
  | .vmov _ => false
  | .chain _ _ _ _ _ _ => false
  | .cwait _ _ _ => false
  | .cwaitFlags _ _ _ => false
  | .cwaitMag _ _ _ _ => false
  | .sbind _ _ _ _ _ _ _ _ => false
  | .sclose _ _ _ _ => false
  | .scloseAbort _ _ _ _ => false
  | .sbar _ _ => false
  | .sbarWait _ _ => false
  | .cbar _ _ _ _ => false
  | .phase _ _ _ _ _ => false
  | .xformCvt _ _ _ _ _ _ _ _ => false
  | .xformScale _ _ _ _ _ _ _ _ => false
  | .xformFill _ _ _ _ _ _ _ => false
  | .xformAdd _ _ _ _ _ _ _ _ => false
  | .xformAmax _ _ _ _ _ _ => false
  | .mscale _ _ _ _ => false
  | .mscaleMx _ _ _ _ => false
  | .mwload _ _ _ _ _ => false
  | .mwloadP _ _ _ _ => false
  | .marm _ _ _ _ => false
  | .marmQ _ _ _ => false
  | .marmWait _ _ _ => false
  | .marmFlags _ _ _ => false
  | .crun _ _ _ _ => false
  | .crunWait _ _ _ => false
  | .cedge _ _ _ _ _ => false
  | .copy _ _ _ => false
  | .copyWait _ _ _ => false
  | .xexpect _ _ _ _ => false
  | .xwait _ _ _ => false
  | .tinv _ _ _ _ => false
  | .tinvT _ _ _ => false
  | .tinvAll _ _ => false
  | .tinvWait _ _ => false
  | .xlook _ _ _ _ => false
  | .xlookO _ _ _ _ => false
  | .glaunch _ _ _ => false
  | .glaunchQ _ _ _ => false
  | .garm _ _ _ _ _ => false
  | .garmQ _ _ _ _ => false
  | .collReduceRing _ _ _ => false
  | .collReduceTree _ _ _ => false
  | .collAllreduceRing _ _ _ => false
  | .collAllreduceTree _ _ _ => false
  | .collGather _ _ _ => false
  | .collScatter _ _ _ => false
  | .collRank _ _ => false
  | .ddcfg _ _ _ => false
  | .ddcfgGrow _ _ _ => false
  | .ddvar _ _ _ => false
  | .ddvarLvl _ _ _ => false
  | .ddvarVar _ _ _ => false
  | .ddite _ _ _ _ _ => false
  | .ddapply _ _ _ _ _ => false
  | .ddrestrict _ _ _ _ => false
  | .ddquantEx _ _ _ _ => false
  | .ddquantAll _ _ _ _ => false
  | .ddcompose _ _ _ _ _ => false
  | .ddwcount _ _ _ _ _ => false
  | .ddsat _ _ _ => false
  | .ddenum _ _ _ _ _ => false
  | .ddenumE _ _ _ _ _ => false
  | .ddref _ _ _ => false
  | .ddderef _ _ _ => false
  | .ddgc _ _ => false
  | .ddswap _ _ _ => false
  | .ddnode _ _ _ => false
  | .ddstat _ _ _ => false
  | .issueSelect _ _ => true
  | .producerCompletion _ _ _ => true
  | .channelWordArrival _ _ => true
  | .atomicPerform _ _ => true
  | .nodeFiringCommit _ _ _ _ => true
  | .eoiHandling _ _ => true
  | .chainStart _ _ _ => true
  | .chainEnd _ _ _ => true
  | .arcBeat _ _ _ => true
  | .spillReturn _ _ _ => true
  | .headerLatch _ _ _ => true
  | .steerNodeFiring _ _ _ => true
  | .mergeNodeFiring _ _ _ => true
  | .streamReadBeat _ _ _ => true
  | .streamWriteBeat _ _ _ => true
  | .streamCommandComplete _ _ _ => true
  | .portCloseReached _ _ _ => true
  | .streamBarrierPass _ _ _ => true
  | .coatFiring _ _ _ => true
  | .coatDrain _ _ _ => true
  | .coatPassStart _ _ => true
  | .mxFiring _ _ _ => true
  | .panelLoadStart _ _ => true
  | .panelUnitArrival _ _ => true
  | .panelLoadEnd _ _ => true
  | .input4EoiDrop _ _ => true
  | .garmCheck _ _ _ => true
  | .copyStart _ _ => true
  | .copyUnitComplete _ _ => true
  | .budgetRefill _ => true
  | .ddeBatchEntry _ _ => true
  | .sealFill _ _ => true
  | .sealWriteback _ => true
  | .rekey _ => true
  | .tileMigrationStart _ => true
  | .tileMigrationEnd _ _ => true
  | .doorbellWrite _ _ _ => true
  | .launchRecordFetch _ _ _ => true
  | .qcfgWrite _ _ _ => true
  | .qstatClear _ _ _ => true
  | .fcfgWrite _ _ => true
  | .fridxWrite _ _ => true
  | .frespRetry _ _ => true
  | .frespAbort _ _ => true
  | .acfgWrite _ => true
  | .astatClear _ => true
  | .adminDoorbell _ => true
  | .hostRegisterWrite _ _ _ => true
  | .createRegion _ _ => true
  | .destroyRegion _ _ => true
  | .createContext _ _ => true
  | .removeContext _ _ => true
  | .bindQueue _ _ _ _ => true
  | .setSecondStageRoot _ _ _ => true
  | .secondStageInvalidate _ _ => true
  | .stopContext _ _ => true
  | .preemptContext _ _ _ => true
  | .readCertificateChain _ => true
  | .formGang _ _ => true
  | .dissolveGang _ _ => true
  | .schedulerSelect _ => true
  | .fabricLoadStart _ => true
  | .configFrame _ => true
  | .endFrame _ => true
  | .graphNodeStart _ _ => true
  | .successorLaunch _ _ => true
  | .blotterQuiescence _ => true
  | .checkRun2Start _ => true
  | .graphComplete _ => true
  | .watchdog _ => true
  | .stopRecordsWritten _ => true
  | .dumpWritten _ _ => true
  | .whitewashLoad _ => true
  | .regionRelease _ => true
  | .whitewashTimeout _ => true
  | .liftMarkerSave _ _ => true
  | .forcedMarker _ => true
  | .saveImageComplete _ => true
  | .restore _ => true
  | .scrub _ _ => true
  | .colophonWritten _ => true
  | .reset => true
  | .lifecycleChange _ => true
  | .sliceRequest _ _ _ => true
  | .vacatedMessage _ _ _ => true
  | .goMessage _ _ => true
  | .gangDeadline _ => true
  | .abortMessage _ _ => true
  | .peerStopMessage _ _ => true
  | .collBeatArrival _ _ => true
  | .liftFlitArrival _ _ => true
  | .linkDown _ _ => true
  | .thermalThrottle => true
  | .publishComplete _ _ _ => true
  | .xformComplete _ _ _ => true
  | .tinvComplete _ _ => true
  | .ddeCommandPerform _ _ => true
  | .softError _ => true
  | .expanderLinkFailure _ => true

/-- What the machine may do next of its own accord: an event, or the start of a firing of one template stage (R77). [DESIGN CHOICE, log 6] -/
inductive Move where
  /-- an event of the table -/
  | event (i : Instr)
  /-- stage `j` of template `t` of unit `u` of region `r` starts a firing -/
  | fire (r u t j : Nat)
deriving DecidableEq, Repr, Inhabited

end Sys2Proof
end

