-- ==== Sys2Proof/Config.lean ====
section
/-! DEFINITION. The values the spec leaves open, as constants without a value: nothing in Lean can evaluate them, so a theorem
holds whatever they are. Each is applied to the counter `State.fresh`, which every use advances. -/

namespace Sys2Proof

/-- A free natural number for each reading of the counter: choices the spec leaves open. [DESIGN CHOICE, log 5] -/
opaque Config.freeNat : Nat → Nat

/-- A free 64-bit value for each reading of the counter: undefined contents. [DESIGN CHOICE, log 5] -/
opaque Config.freeWord : Nat → Word

/-- How many nanoseconds pass in a step (R46, R121: only that TIME never decreases is fixed). [DESIGN CHOICE, log 5; DESIGN CHOICE, log 7] -/
opaque Config.freeTick : Nat → Nat

/-- How many cycles of a core pass in a step (R121). [DESIGN CHOICE, log 5; DESIGN CHOICE, log 7] -/
opaque Config.freeCycles : Nat → Nat

/-- What the machine does next of its own accord when its agenda is empty. [DESIGN CHOICE, log 5] -/
opaque Config.freeMove : Nat → Move

/-- What the key generator gives for each use and each reading of the counter (R386, R409). [DESIGN CHOICE, log 70] -/
opaque Config.freeKey : Nat → Nat → Nat

/-- The package's device identifier, which names the attestation key whose public point is given (R408). [DESIGN CHOICE, log 44] -/
opaque Config.deviceId : Nat × Nat → Word

/-- The certificate chain of an attestation key, by its public point (R409, R449). [DESIGN CHOICE, log 44] -/
opaque Config.certificateChain : Nat × Nat → List Byte

/-- The host aperture that the physical function had registered for a virtual function before this model's first step: first byte and size
(R443). [DEDUCED, log 47] -/
opaque Config.aperture : Nat → Nat × Nat

end Sys2Proof
end

