-- ==== Sys2Proof/WellFormed.lean ====
section
/-! DEFINITION. Which terms of `Instr` are instructions: the legality rules that the layout of a word does not already
carry. -/

namespace Sys2Proof

/-- pred = 0 with neg = 1 is illegal (R23). -/
def Guard.ok (g : Guard) : Bool := !(g.neg && decide (g.pred = 0))

/-- INT64 and UINT64 are FCVT's integer kinds (R100). -/
def fkindInt : FKind → Bool
  | .s | .d => false
  | .l | .lu => true

/-- Sign extension needs a size below 8 bytes (R34). -/
def loadOk (m : LoadOp) : Bool := !(m.sx && decide (m.size = .d))

/-- Only CAS reads field c (R218). -/
def atomVSrc (op : AtomVOp) (c : Src) : Bool :=
  match op with
  | .cas => true
  | .swap | .fetchAdd => decide (c = { r := 0, et := false })

/-- The registers that MTSR may write (R46). -/
def sysWritable : SysReg → Bool
  | .fpflags | .fpmode | .trapvec => true
  | .taskid | .corenum | .clusterxy | .regionxy | .ctxid | .detmode | .chbind | .seedreg | .phbuf | .stopptr | .trapinfo
  | .time => false

/-- PHASE has the scopes region, package and system (R216). -/
def phaseScope : Scope → Bool
  | .core | .cluster => false
  | .region | .package | .system => true

/-- The formats of an XFORM range (R224). -/
def xformFmt : Fmt → Bool
  | .int4 | .fp4 | .fp6a | .fp6b | .fp64 => false
  | .int8 | .uint8 | .int16 | .int32 | .fp8a | .fp8b | .df8 | .fp16 | .bf16 | .fp32 | .uint16 => true

/-- The integer formats (R48). -/
def fmtInt : Fmt → Bool
  | .int4 | .int8 | .uint8 | .int16 | .int32 | .uint16 => true
  | .fp4 | .fp6a | .fp6b | .fp8a | .fp8b | .df8 | .fp16 | .bf16 | .fp32 | .fp64 => false

/-- The code of a format (R48). -/
def fmtNum : Fmt → Nat
  | .int4 => 0
  | .int8 => 1
  | .uint8 => 2
  | .int16 => 3
  | .int32 => 4
  | .fp4 => 5
  | .fp6a => 6
  | .fp6b => 7
  | .fp8a => 8
  | .fp8b => 9
  | .df8 => 10
  | .fp16 => 11
  | .bf16 => 12
  | .fp32 => 13
  | .fp64 => 14
  | .uint16 => 15

/-- Elements of a 64-byte vector (R126). -/
def fmtCount : Fmt → Nat
  | .int4 | .fp4 | .fp6a | .fp6b | .int8 | .uint8 | .fp8a | .fp8b | .df8 => 64
  | .int16 | .fp16 | .bf16 | .uint16 => 32
  | .int32 | .fp32 => 16
  | .fp64 => 8

/-- Which sources an element operation reads (R139). -/
inductive VReads where
  | a
  | ab
  | abc
deriving DecidableEq, Repr

/-- Which types an element operation has (R139). -/
inductive VTypes where
  | any
  | int
  | fp
  | cvt
deriving DecidableEq, Repr

/-- Which destination codes an element operation has (R139). -/
inductive VDests where
  | port
  | acc
  | both
  | steer
deriving DecidableEq, Repr

/-- What an element operation's rnd and sat fields may hold (R137, R139, R142, R149): `none`: no .sat, and rnd only with a
float type; `sat`: .sat, and rnd only with a float type; `satRnd`: both with any type; `intSat`: .sat with an integer type
only, and rnd never but with DF8; `noRnd`: .sat, rnd 0. -/
inductive VRound where
  | none
  | sat
  | satRnd
  | intSat
  | noRnd
deriving DecidableEq, Repr

/-- A source field: a legal selector, and a sticky index only beside an input port (R38, R39). -/
def vsrcOk (sel : BitVec 7) (k : BitVec 4) : Bool :=
  let n := sel.toNat
  (decide (n < 12) || (decide (16 ≤ n) && decide (n < 32)) || decide (64 ≤ n)) && (decide (k = 0) || decide (n < 4))

/-- An unread source field is entirely zero (R39). -/
def vsrcZero (sel : BitVec 7) (k : BitVec 4) : Bool := decide (sel = 0) && decide (k = 0)

/-- The types of R139. -/
def vtypeOk : VTypes → Fmt → Bool
  | .any, f => xformFmt f
  | .int, f => fmtInt f && decide (f ≠ .int4)
  | .fp, f => xformFmt f && !fmtInt f
  | .cvt, f => decide (f ≠ .fp64)

/-- The destination codes of R139. -/
def vdestOk (d : VDests) (c : BitVec 5) : Bool :=
  let n := c.toNat
  match d with
  | .port => decide (n ≤ 2)
  | .acc => decide (8 ≤ n) && decide (n < 24)
  | .both => decide (n ≤ 2) || (decide (8 ≤ n) && decide (n < 24))
  | .steer => decide (n = 1)

/-- The rnd and sat fields (R137, R139). -/
def vroundOk (r : VRound) (v : VWord) : Bool :=
  let rne := decide (v.rnd = .rne)
  match r with
  | .none => !v.sat && (!fmtInt v.ty || rne)
  | .sat => !fmtInt v.ty || rne
  | .satRnd => true
  | .intSat => (fmtInt v.ty || !v.sat) && (decide (v.ty = .df8) || rne)
  | .noRnd => rne

/-- The rules of R37 to R39 and of R139's table that need no template around the word. -/
def vwordOk (rd : VReads) (t : VTypes) (d : VDests) (r : VRound) (v : VWord) : Bool :=
  vsrcOk v.selA v.kA
    && (match rd with
        | .a => vsrcZero v.selB v.kB && vsrcZero v.selC v.kC
        | .ab => vsrcOk v.selB v.kB && vsrcZero v.selC v.kC
        | .abc => vsrcOk v.selB v.kB && vsrcOk v.selC v.kC)
    && vtypeOk t v.ty && vdestOk d v.dest && vroundOk r v

/-- The rules that a word of this instruction obeys beside its layout (R23, R25, R26, R34, R38, R39, R43 and its entry's own
limits); a row that is not a word has none. [DESIGN CHOICE, log 72] -/
def Instr.wf : Instr → Bool
  | .add g _ _ _ => g.ok
  | .addSat g _ _ _ => g.ok
  | .sub g _ _ _ => g.ok
  | .subSat g _ _ _ => g.ok
  | .mul g _ _ _ => g.ok
  | .mulSat g _ _ _ => g.ok
  | .mulh g _ _ _ => g.ok
  | .mulhu g _ _ _ => g.ok
  | .div g _ _ _ => g.ok
  | .divu g _ _ _ => g.ok
  | .rem g _ _ _ => g.ok
  | .remu g _ _ _ => g.ok
  | .and g _ _ _ => g.ok
  | .or g _ _ _ => g.ok
  | .xor g _ _ _ => g.ok
  | .andn g _ _ _ => g.ok
  | .shl g _ _ _ => g.ok
  | .shlSat g _ _ _ => g.ok
  | .shr g _ _ _ => g.ok
  | .sra g _ _ _ => g.ok
  | .rotr g _ _ _ => g.ok
  | .min g _ _ _ => g.ok
  | .max g _ _ _ => g.ok
  | .minu g _ _ _ => g.ok
  | .maxu g _ _ _ => g.ok
  | .clz g _ _ => g.ok
  | .ctz g _ _ => g.ok
  | .popc g _ _ => g.ok
  | .addi g _ _ _ => g.ok
  | .andi g _ _ _ => g.ok
  | .ori g _ _ _ => g.ok
  | .xori g _ _ _ => g.ok
  | .shli g _ _ _ => g.ok
  | .shri g _ _ _ => g.ok
  | .srai g _ _ _ => g.ok
  | .lui g _ _ _ => g.ok
  | .lea g _ _ _ k => g.ok && decide (k.toNat ≤ 4)
  | .sel g _ _ _ _ => g.ok
  | .ceq g _ _ _ => g.ok
  | .cne g _ _ _ => g.ok
  | .clt g _ _ _ => g.ok
  | .cle g _ _ _ => g.ok
  | .cltu g _ _ _ => g.ok
  | .cleu g _ _ _ => g.ok
  | .ceqi g _ _ _ => g.ok
  | .clti g _ _ _ => g.ok
  | .pand g _ _ _ _ _ => g.ok
  | .por g _ _ _ _ _ => g.ok
  | .pxor g _ _ _ _ _ => g.ok
  | .fadd g _ _ _ _ => g.ok
  | .fsub g _ _ _ _ => g.ok
  | .fmul g _ _ _ _ => g.ok
  | .ffma g _ _ _ _ _ => g.ok
  | .fdiv g _ _ _ _ => g.ok
  | .fsqrt g _ _ _ => g.ok
  | .fmin g _ _ _ _ => g.ok
  | .fmax g _ _ _ _ => g.ok
  | .fcmp g _ _ _ _ _ => g.ok
  | .fcvt g _ _ sk dk _ sat => g.ok && (decide (sk ≠ dk) && !(fkindInt sk && fkindInt dk) && (!sat || !fkindInt dk))
  | .fclass g _ _ _ => g.ok
  | .ldl g _ _ m => g.ok && loadOk m
  | .stl g _ _ _ => g.ok
  | .ldr g _ _ m => g.ok && loadOk m
  | .str g _ _ _ => g.ok
  | .lds g _ _ m => g.ok && loadOk m
  | .sts g _ _ _ => g.ok
  | .ldg g _ _ m => g.ok && loadOk m
  | .ldgAcq g _ _ m => g.ok && loadOk m
  | .ldgSc g _ _ m => g.ok && loadOk m
  | .stg g _ _ _ => g.ok
  | .stgRel g _ _ _ => g.ok
  | .stgSc g _ _ _ => g.ok
  | .ats g _ _ _ _ => g.ok
  | .atsv g _ _ _ c op _ => g.ok && atomVSrc op c
  | .atg g _ _ _ _ => g.ok
  | .atgv g _ _ _ c op _ => g.ok && atomVSrc op c
  | .recv g _ _ => g.ok
  | .send g _ _ => g.ok
  | .sendRel g _ _ _ => g.ok
  | .peek g _ _ => g.ok
  | .peekQ g _ _ => g.ok
  | .br g c _ => g.ok && decide (c.r ≠ 0)
  | .jmp g _ => g.ok
  | .call g _ _ => g.ok
  | .loop g c _ => g.ok && decide (c.r ≠ 0)
  | .twait g _ _ => g.ok
  | .trun g _ _ _ _ => g.ok
  | .tend g => g.ok
  | .trap g _ => g.ok
  | .empty g d => g.ok && decide (d ≠ 0)
  | .fullq g _ _ => g.ok
  | .yield g => g.ok
  | .halt g _ => g.ok
  | .mfsr g _ _ => g.ok
  | .mtsr g y _ => g.ok && sysWritable y
  | .fenceWait g => g.ok
  | .fenceRel g _ => g.ok
  | .fenceAcq g _ => g.ok
  | .fenceAcqrel g _ => g.ok
  | .rdtime g _ => g.ok
  | .rdtimeCyc g _ => g.ok
  | .digest g _ _ _ => g.ok
  | .digestOut g _ _ _ => g.ok
  | .seed g _ => g.ok
  | .colchk g _ => g.ok
  | .vadd v => vwordOk .ab .any .port .sat v && (decide (v.fn = 0))
  | .vsub v => vwordOk .ab .any .port .sat v && (decide (v.fn = 0))
  | .vmul v => vwordOk .ab .any .port .sat v && (decide (v.fn = 0))
  | .vfma v => vwordOk .abc .any .port .sat v && (decide (v.fn = 0))
  | .vmac v => vwordOk .ab .any .acc .sat v && (decide (v.fn = 0))
  | .vdot4 v => vwordOk .ab .any .acc .sat v && (decide (v.fn.toNat < 4))
  | .vabs v => vwordOk .a .any .port .intSat v && (decide (v.fn = 0))
  | .vneg v => vwordOk .a .any .port .intSat v && (decide (v.fn = 0))
  | .vmin v => vwordOk .ab .any .port .none v && (decide (v.fn = 0))
  | .vmax v => vwordOk .ab .any .port .none v && (decide (v.fn = 0))
  | .vminp v => vwordOk .ab .any .port .none v && (decide (v.fn = 0))
  | .vmaxp v => vwordOk .ab .any .port .none v && (decide (v.fn = 0))
  | .vclamp v => vwordOk .abc .any .port .none v && (decide (v.fn = 0))
  | .vand v => vwordOk .ab .any .port .none v && (decide (v.fn = 0))
  | .vor v => vwordOk .ab .any .port .none v && (decide (v.fn = 0))
  | .vxor v => vwordOk .ab .any .port .none v && (decide (v.fn = 0))
  | .vshl v => vwordOk .ab .int .port .sat v && (decide (v.fn = 0))
  | .vshr v => vwordOk .ab .int .port .none v && (decide (v.fn = 0))
  | .vsra v => vwordOk .ab .int .port .none v && (decide (v.fn = 0))
  | .vcmp v => vwordOk .ab .any .port .none v && (decide (v.fn.toNat < 5) && !(v.fn == 4 && fmtInt v.ty))
  | .vsel v => vwordOk .abc .any .port .none v && (decide (v.fn = 0))
  | .vcvt v => vwordOk .a .cvt .port .satRnd v && (decide (v.fn.toNat < 16) && decide (v.fn.toNat ≠ fmtNum v.ty) && decide (v.fn.toNat ≠ 14))
  | .vscale v => vwordOk .ab .any .port .satRnd v && (decide (v.fn = 0))
  | .vamax v => vwordOk .a .any .port .none v && (decide (v.fn.toNat < 4))
  | .vsf v => vwordOk .a .fp .port .noRnd v && (decide (v.fn.toNat < 10))
  | .vsum v => vwordOk .a .any .port .sat v && (decide (v.fn = 0))
  | .vscan v => vwordOk .a .any .port .sat v && (decide (v.fn.toNat < 2))
  | .vperm v => vwordOk .ab .any .port .none v && (decide (v.fn = 0))
  | .vperm2 v => vwordOk .abc .any .port .none v && (decide (v.fn = 1))
  | .vbcast v => vwordOk .a .any .port .none v && (decide (v.fn.toNat < fmtCount v.ty))
  | .vslide v => vwordOk .ab .any .port .none v && (decide (v.fn.toNat < fmtCount v.ty))
  | .vtap v => vwordOk .ab .any .port .none v && (decide (v.fn = 0)) && decide (64 ≤ v.selA.toNat)
  | .vexpand v => vwordOk .ab .any .port .none v && (decide (v.fn.toNat < 2))
  | .vcompress v => vwordOk .ab .any .port .none v && (decide (v.fn.toNat < 2))
  | .vsteer v => vwordOk .ab .any .steer .none v && (decide (v.fn = 0))
  | .vmerge v => vwordOk .abc .any .port .none v && (decide (v.fn = 0)) && decide (v.selA.toNat < 4) && decide (v.selB.toNat < 4)
  | .vnrw v => vwordOk .a .any .port .satRnd v && (decide (v.fn.toNat < 32) && !bit v.fn.toNat 3)
  | .vnrwStream v => vwordOk .a .any .port .satRnd v && (decide (v.fn = 8) || decide (v.fn = 24))
  | .vmov v => vwordOk .a .any .both .sat v && (decide (v.fn = 0))
  | .chain g _ _ _ _ _ => g.ok
  | .cwait g _ _ => g.ok
  | .cwaitFlags g _ _ => g.ok
  | .cwaitMag g _ _ _ => g.ok
  | .sbind g _ _ _ _ _ _ _ => g.ok
  | .sclose g _ _ _ => g.ok
  | .scloseAbort g _ _ _ => g.ok
  | .sbar g _ => g.ok
  | .sbarWait g _ => g.ok
  | .cbar g _ _ _ => g.ok
  | .phase g _ _ sc _ => g.ok && phaseScope sc
  | .xformCvt g _ _ _ fmt _ _ _ => g.ok && xformFmt fmt
  | .xformScale g _ _ _ _ fmt _ _ => g.ok && xformFmt fmt
  | .xformFill g _ _ _ _ fmt _ => g.ok && xformFmt fmt
  | .xformAdd g _ _ _ _ fmt _ _ => g.ok && xformFmt fmt
  | .xformAmax g _ _ _ fmt _ => g.ok && xformFmt fmt
  | .mscale g _ _ _ => g.ok
  | .mscaleMx g _ _ _ => g.ok
  | .mwload g _ _ _ _ => g.ok
  | .mwloadP g _ _ _ => g.ok
  | .marm g _ _ _ => g.ok
  | .marmQ g _ _ => g.ok
  | .marmWait g _ _ => g.ok
  | .marmFlags g _ _ => g.ok
  | .crun g _ _ _ => g.ok
  | .crunWait g _ _ => g.ok
  | .cedge g _ _ _ _ => g.ok
  | .copy g _ _ => g.ok
  | .copyWait g _ _ => g.ok
  | .xexpect g _ _ _ => g.ok
  | .xwait g _ _ => g.ok
  | .tinv g _ _ _ => g.ok
  | .tinvT g _ _ => g.ok
  | .tinvAll g _ => g.ok
  | .tinvWait g _ => g.ok
  | .xlook g _ _ _ => g.ok
  | .xlookO g _ _ _ => g.ok
  | .glaunch g _ _ => g.ok
  | .glaunchQ g _ _ => g.ok
  | .garm g _ _ _ _ => g.ok
  | .garmQ g _ _ _ => g.ok
  | .collReduceRing g _ _ => g.ok
  | .collReduceTree g _ _ => g.ok
  | .collAllreduceRing g _ _ => g.ok
  | .collAllreduceTree g _ _ => g.ok
  | .collGather g _ _ => g.ok
  | .collScatter g _ _ => g.ok
  | .collRank g _ => g.ok
  | .ddcfg g _ _ => g.ok
  | .ddcfgGrow g _ _ => g.ok
  | .ddvar g _ _ => g.ok
  | .ddvarLvl g _ _ => g.ok
  | .ddvarVar g _ _ => g.ok
  | .ddite g _ _ _ _ => g.ok
  | .ddapply g _ _ _ _ => g.ok
  | .ddrestrict g _ _ _ => g.ok
  | .ddquantEx g _ _ _ => g.ok
  | .ddquantAll g _ _ _ => g.ok
  | .ddcompose g _ _ _ _ => g.ok
  | .ddwcount g _ _ _ _ => g.ok
  | .ddsat g _ _ => g.ok
  | .ddenum g _ _ _ _ => g.ok
  | .ddenumE g _ _ _ _ => g.ok
  | .ddref g _ _ => g.ok
  | .ddderef g _ _ => g.ok
  | .ddgc g _ => g.ok
  | .ddswap g _ _ => g.ok
  | .ddnode g d _ => g.ok && decide (d ≠ 0) && decide (d ≠ 31)
  | .ddstat g _ k => g.ok && decide (k.toNat ≤ 4)
  | .issueSelect _ _ => true
  | .producerCompletion _ _ _ => true
  | .channelWordArrival _ _ => true
  | .atomicPerform _ _ => true
  | .nodeFiringCommit _ _ _ _ => true
  | .eoiHandling _ _ => true
  | .chainStart _ _ _ => true
  | .chainEnd _ _ _ => true
  | .arcBeat _ _ _ => true
  | .spillReturn _ _ _ => true
  | .headerLatch _ _ _ => true
  | .steerNodeFiring _ _ _ => true
  | .mergeNodeFiring _ _ _ => true
  | .streamReadBeat _ _ _ => true
  | .streamWriteBeat _ _ _ => true
  | .streamCommandComplete _ _ _ => true
  | .portCloseReached _ _ _ => true
  | .streamBarrierPass _ _ _ => true
  | .coatFiring _ _ _ => true
  | .coatDrain _ _ _ => true
  | .coatPassStart _ _ => true
  | .mxFiring _ _ _ => true
  | .panelLoadStart _ _ => true
  | .panelUnitArrival _ _ => true
  | .panelLoadEnd _ _ => true
  | .input4EoiDrop _ _ => true
  | .garmCheck _ _ _ => true
  | .copyStart _ _ => true
  | .copyUnitComplete _ _ => true
  | .budgetRefill _ => true
  | .ddeBatchEntry _ _ => true
  | .sealFill _ _ => true
  | .sealWriteback _ => true
  | .rekey _ => true
  | .tileMigrationStart _ => true
  | .tileMigrationEnd _ _ => true
  | .doorbellWrite _ _ _ => true
  | .launchRecordFetch _ _ _ => true
  | .qcfgWrite _ _ _ => true
  | .qstatClear _ _ _ => true
  | .fcfgWrite _ _ => true
  | .fridxWrite _ _ => true
  | .frespRetry _ _ => true
  | .frespAbort _ _ => true
  | .acfgWrite _ => true
  | .astatClear _ => true
  | .adminDoorbell _ => true
  | .hostRegisterWrite _ _ _ => true
  | .createRegion _ _ => true
  | .destroyRegion _ _ => true
  | .createContext _ _ => true
  | .removeContext _ _ => true
  | .bindQueue _ _ _ _ => true
  | .setSecondStageRoot _ _ _ => true
  | .secondStageInvalidate _ _ => true
  | .stopContext _ _ => true
  | .preemptContext _ _ _ => true
  | .readCertificateChain _ => true
  | .formGang _ _ => true
  | .dissolveGang _ _ => true
  | .schedulerSelect _ => true
  | .fabricLoadStart _ => true
  | .configFrame _ => true
  | .endFrame _ => true
  | .graphNodeStart _ _ => true
  | .successorLaunch _ _ => true
  | .blotterQuiescence _ => true
  | .checkRun2Start _ => true
  | .graphComplete _ => true
  | .watchdog _ => true
  | .stopRecordsWritten _ => true
  | .dumpWritten _ _ => true
  | .whitewashLoad _ => true
  | .regionRelease _ => true
  | .whitewashTimeout _ => true
  | .liftMarkerSave _ _ => true
  | .forcedMarker _ => true
  | .saveImageComplete _ => true
  | .restore _ => true
  | .scrub _ _ => true
  | .colophonWritten _ => true
  | .reset => true
  | .lifecycleChange _ => true
  | .sliceRequest _ _ _ => true
  | .vacatedMessage _ _ _ => true
  | .goMessage _ _ => true
  | .gangDeadline _ => true
  | .abortMessage _ _ => true
  | .peerStopMessage _ _ => true
  | .collBeatArrival _ _ => true
  | .liftFlitArrival _ _ => true
  | .linkDown _ _ => true
  | .thermalThrottle => true
  | .publishComplete _ _ _ => true
  | .xformComplete _ _ _ => true
  | .tinvComplete _ _ => true
  | .ddeCommandPerform _ _ => true
  | .softError _ => true
  | .expanderLinkFailure _ => true

end Sys2Proof
end

