-- ==== Sys2Proof/Decode.lean ====
section
/-! DEFINITION. Words and instructions: reading a 64-bit word as an instruction, and the word of an instruction (R22 to R46). -/

namespace Sys2Proof

/-! ### Code tables -/

/-- The code of a rounding mode (R37). -/
def rndCode : Rnd → Nat
  | .rne => 0
  | .rz => 1
  | .rp => 2
  | .rm => 3
  | .rna => 4
  | .rs => 5

/-- The rounding mode a code's low three bits name (R37); 6 and 7 name none and are refused by the check of `decode`. -/
def rndOf (n : Nat) : Rnd :=
  match n % 8 with
  | 1 => .rz
  | 2 => .rp
  | 3 => .rm
  | 4 => .rna
  | 5 => .rs
  | _ => .rne

/-- The code of a scalar word's rounding field (R96). -/
def rmodeCode : RMode → Nat
  | .fixed m => rndCode m
  | .dyn => 7

/-- The rounding field that a code's low three bits name (R96). -/
def rmodeOf (n : Nat) : RMode := if n % 8 = 7 then .dyn else .fixed (rndOf n)

/-- The code of a precision (R96). -/
def precCode : Prec → Nat
  | .s => 0
  | .d => 1

/-- The precision of a function field (R96). -/
def precOf (n : Nat) : Prec := if n % 2 = 1 then .d else .s

/-- The function field of the floating-point arithmetic forms (R96). -/
def fmodeCode (f : FMode) : Nat := precCode f.prec + 2 * rmodeCode f.rm + 16 * b2n f.sat

/-- The reading of that field (R96). -/
def fmodeOf (n : Nat) : FMode := { prec := precOf n, rm := rmodeOf (n / 2), sat := bit n 4 }

/-- FCMP's condition code (R99). -/
def fcondCode : FCond → Nat
  | .eq => 0
  | .lt => 1
  | .le => 2
  | .un => 3

/-- FCMP's condition (R99). -/
def fcondOf (n : Nat) : FCond :=
  match n with
  | 0 => .eq
  | 1 => .lt
  | 2 => .le
  | _ => .un

/-- FCVT's kind code (R100). -/
def fkindCode : FKind → Nat
  | .s => 0
  | .d => 1
  | .l => 2
  | .lu => 3

/-- FCVT's kind (R100). -/
def fkindOf (n : Nat) : FKind :=
  match n % 4 with
  | 0 => .s
  | 1 => .d
  | 2 => .l
  | _ => .lu

/-- The code of an access size (R33). -/
def sizeCode : Size → Nat
  | .b => 0
  | .h => 1
  | .w => 2
  | .d => 3

/-- The access size of a code (R33). -/
def sizeOf (n : Nat) : Size :=
  match n % 4 with
  | 0 => .b
  | 1 => .h
  | 2 => .w
  | _ => .d

/-- The code of an atomic operation (R218). -/
def atomCode : AtomOp → Nat
  | .add => 0
  | .fadd => 1
  | .min => 2
  | .max => 3
  | .fmin => 4
  | .fmax => 5
  | .and => 6
  | .or => 7
  | .xor => 8

/-- The atomic operation of a code (R218). -/
def atomOf (n : Nat) : AtomOp :=
  match n with
  | 0 => .add
  | 1 => .fadd
  | 2 => .min
  | 3 => .max
  | 4 => .fmin
  | 5 => .fmax
  | 6 => .and
  | 7 => .or
  | _ => .xor

/-- The code of a value-returning atomic operation (R218). -/
def atomVCode : AtomVOp → Nat
  | .swap => 0
  | .fetchAdd => 1
  | .cas => 2

/-- The value-returning atomic operation of a code (R218). -/
def atomVOf (n : Nat) : AtomVOp :=
  match n with
  | 0 => .swap
  | 1 => .fetchAdd
  | _ => .cas

/-- The code of a scope (R115, R120, R216). -/
def scopeCode : Scope → Nat
  | .core => 0
  | .cluster => 1
  | .region => 2
  | .package => 3
  | .system => 4

/-- The scope of a code's low three bits (R115, R120, R216). -/
def scopeOf (n : Nat) : Scope :=
  match n % 8 with
  | 0 => .core
  | 1 => .cluster
  | 2 => .region
  | 3 => .package
  | _ => .system

/-- The index of a system register (R46). -/
def sysCode : SysReg → Nat
  | .taskid => 0x000
  | .corenum => 0x001
  | .clusterxy => 0x002
  | .regionxy => 0x003
  | .ctxid => 0x004
  | .detmode => 0x005
  | .chbind => 0x006
  | .fpflags => 0x010
  | .fpmode => 0x011
  | .seedreg => 0x012
  | .phbuf => 0x013
  | .stopptr => 0x020
  | .trapvec => 0x021
  | .trapinfo => 0x022
  | .time => 0x030

/-- The system register of an index (R46); an index not listed is refused by the check of `decode`. -/
def sysOf (n : Nat) : SysReg :=
  match n with
  | 0x001 => .corenum
  | 0x002 => .clusterxy
  | 0x003 => .regionxy
  | 0x004 => .ctxid
  | 0x005 => .detmode
  | 0x006 => .chbind
  | 0x010 => .fpflags
  | 0x011 => .fpmode
  | 0x012 => .seedreg
  | 0x013 => .phbuf
  | 0x020 => .stopptr
  | 0x021 => .trapvec
  | 0x022 => .trapinfo
  | 0x030 => .time
  | _ => .taskid

/-- The element format code (R48). -/
def fmtCode : Fmt → Nat
  | .int4 => 0x0
  | .int8 => 0x1
  | .uint8 => 0x2
  | .int16 => 0x3
  | .int32 => 0x4
  | .fp4 => 0x5
  | .fp6a => 0x6
  | .fp6b => 0x7
  | .fp8a => 0x8
  | .fp8b => 0x9
  | .df8 => 0xA
  | .fp16 => 0xB
  | .bf16 => 0xC
  | .fp32 => 0xD
  | .fp64 => 0xE
  | .uint16 => 0xF

/-- The element format of a code's low four bits (R48). -/
def fmtOf (n : Nat) : Fmt :=
  match n % 16 with
  | 0x0 => .int4
  | 0x1 => .int8
  | 0x2 => .uint8
  | 0x3 => .int16
  | 0x4 => .int32
  | 0x5 => .fp4
  | 0x6 => .fp6a
  | 0x7 => .fp6b
  | 0x8 => .fp8a
  | 0x9 => .fp8b
  | 0xA => .df8
  | 0xB => .fp16
  | 0xC => .bf16
  | 0xD => .fp32
  | 0xE => .fp64
  | _ => .uint16

/-! ### The fields of a word -/

/-- Bits 55:52: the guard (R22). -/
def wGuard (w : Nat) : Guard := { neg := bit w 55, pred := BitVec.ofNat 3 (bits w 54 52) }
/-- The a (desc, base, cond) specifier, bits 45:40 (R31). -/
def wA (w : Nat) : Nat := bits w 45 40
/-- The b specifier, bits 39:34 (R31). -/
def wB (w : Nat) : Nat := bits w 39 34
/-- The c specifier, bits 33:28 (R31). -/
def wC (w : Nat) : Nat := bits w 33 28
/-- The function field, bits 24:16 (R31). -/
def wFn (w : Nat) : Nat := bits w 24 16
/-- The order field, bits 35:33 (R33). -/
def wOrder (w : Nat) : Nat := bits w 35 33
/-- The 16-bit immediate (R36). -/
def wI16 (w : Nat) : Nat := bits w 15 0
/-- The destination specifier, bits 51:46, as a scalar register (R31). -/
def wD (w : Nat) : Reg := BitVec.ofNat 5 (bits w 51 46)
/-- The destination specifier as a predicate register (R31). -/
def wPD (w : Nat) : PReg := BitVec.ofNat 3 (bits w 51 46)
/-- Field a as a channel (R114). -/
def wCA (w : Nat) : CReg := BitVec.ofNat 4 (wA w)
/-- Field a as a scalar source of formats R and C (R31). -/
def wSrcA (w : Nat) : Src := { r := BitVec.ofNat 5 (wA w), et := bit w 27 }
/-- Field b as a scalar source (R31). -/
def wSrcB (w : Nat) : Src := { r := BitVec.ofNat 5 (wB w), et := bit w 26 }
/-- Field c as a scalar source (R31). -/
def wSrcC (w : Nat) : Src := { r := BitVec.ofNat 5 (wC w), et := bit w 25 }
/-- Field a as a scalar source of formats I and B (R32, R35). -/
def wSrcI (w : Nat) : Src := { r := BitVec.ofNat 5 (wA w), et := bit w 39 }
/-- The 32-bit immediate or displacement (R32, R35). -/
def wImm (w : Nat) : Imm := BitVec.ofNat 32 w
/-- The fields of a load (R33). -/
def wLoad (w : Nat) : LoadOp := { size := sizeOf (bits w 39 38), t := bit w 37, sx := bit w 36, off := BitVec.ofNat 32 w }
/-- The fields of a store (R33). -/
def wStore (w : Nat) : StoreOp := { size := sizeOf (bits w 39 38), t := bit w 37, off := BitVec.ofNat 32 w }
/-- The fields of an element operation (R37). -/
def wV (w : Nat) : VWord :=
  { ty := fmtOf (bits w 51 48), dest := BitVec.ofNat 5 (bits w 47 43), selA := BitVec.ofNat 7 (bits w 42 36),
    kA := BitVec.ofNat 4 (bits w 35 32), selB := BitVec.ofNat 7 (bits w 31 25), kB := BitVec.ofNat 4 (bits w 24 21),
    selC := BitVec.ofNat 7 (bits w 20 14), kC := BitVec.ofNat 4 (bits w 13 10), fn := BitVec.ofNat 6 (bits w 9 4),
    rnd := rndOf (bits w 3 1), sat := bit w 0 }

/-- The reading of the integer register forms (R87) before the check of `decode`. -/
def decodeInt (op w : Nat) : Option Instr :=
  match op with
  | 0x00 =>
    match wFn w with
    | 0 => some (.add (wGuard w) (wD w) (wSrcA w) (wSrcB w))
    | 1 => some (.addSat (wGuard w) (wD w) (wSrcA w) (wSrcB w))
    | _ => none
  | 0x01 =>
    match wFn w with
    | 0 => some (.sub (wGuard w) (wD w) (wSrcA w) (wSrcB w))
    | 1 => some (.subSat (wGuard w) (wD w) (wSrcA w) (wSrcB w))
    | _ => none
  | 0x02 =>
    match wFn w with
    | 0 => some (.mul (wGuard w) (wD w) (wSrcA w) (wSrcB w))
    | 1 => some (.mulSat (wGuard w) (wD w) (wSrcA w) (wSrcB w))
    | _ => none
  | 0x03 => some (.mulh (wGuard w) (wD w) (wSrcA w) (wSrcB w))
  | 0x04 => some (.mulhu (wGuard w) (wD w) (wSrcA w) (wSrcB w))
  | 0x05 => some (.div (wGuard w) (wD w) (wSrcA w) (wSrcB w))
  | 0x06 => some (.divu (wGuard w) (wD w) (wSrcA w) (wSrcB w))
  | 0x07 => some (.rem (wGuard w) (wD w) (wSrcA w) (wSrcB w))
  | 0x08 => some (.remu (wGuard w) (wD w) (wSrcA w) (wSrcB w))
  | 0x09 => some (.and (wGuard w) (wD w) (wSrcA w) (wSrcB w))
  | 0x0A => some (.or (wGuard w) (wD w) (wSrcA w) (wSrcB w))
  | 0x0B => some (.xor (wGuard w) (wD w) (wSrcA w) (wSrcB w))
  | 0x0C => some (.andn (wGuard w) (wD w) (wSrcA w) (wSrcB w))
  | 0x0D =>
    match wFn w with
    | 0 => some (.shl (wGuard w) (wD w) (wSrcA w) (wSrcB w))
    | 1 => some (.shlSat (wGuard w) (wD w) (wSrcA w) (wSrcB w))
    | _ => none
  | 0x0E => some (.shr (wGuard w) (wD w) (wSrcA w) (wSrcB w))
  | 0x0F => some (.sra (wGuard w) (wD w) (wSrcA w) (wSrcB w))
  | 0x10 => some (.rotr (wGuard w) (wD w) (wSrcA w) (wSrcB w))
  | 0x11 => some (.min (wGuard w) (wD w) (wSrcA w) (wSrcB w))
  | 0x12 => some (.max (wGuard w) (wD w) (wSrcA w) (wSrcB w))
  | 0x13 => some (.minu (wGuard w) (wD w) (wSrcA w) (wSrcB w))
  | 0x14 => some (.maxu (wGuard w) (wD w) (wSrcA w) (wSrcB w))
  | 0x15 => some (.clz (wGuard w) (wD w) (wSrcA w))
  | 0x16 => some (.ctz (wGuard w) (wD w) (wSrcA w))
  | 0x17 => some (.popc (wGuard w) (wD w) (wSrcA w))
  | _ => none

/-- The reading of the immediate, address, select, compare and predicate forms (R91 to R95) before the check of `decode`. -/
def decodeImm (op w : Nat) : Option Instr :=
  match op with
  | 0x20 => some (.addi (wGuard w) (wD w) (wSrcI w) (wImm w))
  | 0x21 => some (.andi (wGuard w) (wD w) (wSrcI w) (wImm w))
  | 0x22 => some (.ori (wGuard w) (wD w) (wSrcI w) (wImm w))
  | 0x23 => some (.xori (wGuard w) (wD w) (wSrcI w) (wImm w))
  | 0x24 => some (.shli (wGuard w) (wD w) (wSrcI w) (BitVec.ofNat 6 w))
  | 0x25 => some (.shri (wGuard w) (wD w) (wSrcI w) (BitVec.ofNat 6 w))
  | 0x26 => some (.srai (wGuard w) (wD w) (wSrcI w) (BitVec.ofNat 6 w))
  | 0x27 => some (.lui (wGuard w) (wD w) (wSrcI w) (wImm w))
  | 0x28 => some (.lea (wGuard w) (wD w) (wSrcA w) (wSrcB w) (BitVec.ofNat 3 (wFn w)))
  | 0x29 => some (.sel (wGuard w) (wD w) (wSrcA w) (wSrcB w) (BitVec.ofNat 3 (wC w)))
  | 0x2A => some (.ceq (wGuard w) (wPD w) (wSrcA w) (wSrcB w))
  | 0x2B => some (.cne (wGuard w) (wPD w) (wSrcA w) (wSrcB w))
  | 0x2C => some (.clt (wGuard w) (wPD w) (wSrcA w) (wSrcB w))
  | 0x2D => some (.cle (wGuard w) (wPD w) (wSrcA w) (wSrcB w))
  | 0x2E => some (.cltu (wGuard w) (wPD w) (wSrcA w) (wSrcB w))
  | 0x2F => some (.cleu (wGuard w) (wPD w) (wSrcA w) (wSrcB w))
  | 0x30 => some (.ceqi (wGuard w) (wPD w) (wSrcI w) (wImm w))
  | 0x31 => some (.clti (wGuard w) (wPD w) (wSrcI w) (wImm w))
  | 0x32 => some (.pand (wGuard w) (wPD w) (BitVec.ofNat 3 (wA w)) (BitVec.ofNat 3 (wB w)) (bit (wFn w) 0) (bit (wFn w) 1))
  | 0x33 => some (.por (wGuard w) (wPD w) (BitVec.ofNat 3 (wA w)) (BitVec.ofNat 3 (wB w)) (bit (wFn w) 0) (bit (wFn w) 1))
  | 0x34 => some (.pxor (wGuard w) (wPD w) (BitVec.ofNat 3 (wA w)) (BitVec.ofNat 3 (wB w)) (bit (wFn w) 0) (bit (wFn w) 1))
  | _ => none

/-- The reading of the scalar floating-point forms (R96) before the check of `decode`. -/
def decodeFp (op w : Nat) : Option Instr :=
  match op with
  | 0x38 => some (.fadd (wGuard w) (wD w) (wSrcA w) (wSrcB w) (fmodeOf (wFn w)))
  | 0x39 => some (.fsub (wGuard w) (wD w) (wSrcA w) (wSrcB w) (fmodeOf (wFn w)))
  | 0x3A => some (.fmul (wGuard w) (wD w) (wSrcA w) (wSrcB w) (fmodeOf (wFn w)))
  | 0x3B => some (.ffma (wGuard w) (wD w) (wSrcA w) (wSrcB w) (wSrcC w) (fmodeOf (wFn w)))
  | 0x3C => some (.fdiv (wGuard w) (wD w) (wSrcA w) (wSrcB w) (fmodeOf (wFn w)))
  | 0x3D => some (.fsqrt (wGuard w) (wD w) (wSrcA w) (fmodeOf (wFn w)))
  | 0x3E => some (.fmin (wGuard w) (wD w) (wSrcA w) (wSrcB w) (precOf (wFn w)))
  | 0x3F => some (.fmax (wGuard w) (wD w) (wSrcA w) (wSrcB w) (precOf (wFn w)))
  | 0x40 => some (.fcmp (wGuard w) (wPD w) (wSrcA w) (wSrcB w) (precOf (wFn w)) (fcondOf (wFn w / 32)))
  | 0x41 => some (.fcvt (wGuard w) (wD w) (wSrcA w) (fkindOf (wFn w / 128)) (fkindOf (wFn w / 32)) (rmodeOf (wFn w / 2)) (bit (wFn w) 4))
  | 0x42 => some (.fclass (wGuard w) (wD w) (wSrcA w) (precOf (wFn w)))
  | _ => none

/-- The reading of the memory, atomic and channel forms (R114, R115, R118, R166, R212, R218) before the check of `decode`. -/
def decodeMem (op w : Nat) : Option Instr :=
  match op with
  | 0x48 => some (.ldl (wGuard w) (wD w) (BitVec.ofNat 5 (wA w)) (wLoad w))
  | 0x49 => some (.stl (wGuard w) (wD w) (BitVec.ofNat 5 (wA w)) (wStore w))
  | 0x4A => some (.ldr (wGuard w) (wD w) (BitVec.ofNat 5 (wA w)) (wLoad w))
  | 0x4B => some (.str (wGuard w) (wD w) (BitVec.ofNat 5 (wA w)) (wStore w))
  | 0x4C => some (.lds (wGuard w) (wD w) (BitVec.ofNat 5 (wA w)) (wLoad w))
  | 0x4D => some (.sts (wGuard w) (wD w) (BitVec.ofNat 5 (wA w)) (wStore w))
  | 0x4E =>
    match wOrder w with
    | 0 => some (.ldg (wGuard w) (wD w) (BitVec.ofNat 5 (wA w)) (wLoad w))
    | 1 => some (.ldgAcq (wGuard w) (wD w) (BitVec.ofNat 5 (wA w)) (wLoad w))
    | 3 => some (.ldgSc (wGuard w) (wD w) (BitVec.ofNat 5 (wA w)) (wLoad w))
    | _ => none
  | 0x4F =>
    match wOrder w with
    | 0 => some (.stg (wGuard w) (wD w) (BitVec.ofNat 5 (wA w)) (wStore w))
    | 2 => some (.stgRel (wGuard w) (wD w) (BitVec.ofNat 5 (wA w)) (wStore w))
    | 3 => some (.stgSc (wGuard w) (wD w) (BitVec.ofNat 5 (wA w)) (wStore w))
    | _ => none
  | 0x50 => some (.ats (wGuard w) (wSrcA w) (wSrcB w) (atomOf (wFn w / 32)) (bit (wFn w) 3))
  | 0x51 => some (.atsv (wGuard w) (wD w) (wSrcA w) (wSrcB w) (wSrcC w) (atomVOf (wFn w / 32)) (bit (wFn w) 3))
  | 0x52 => some (.atg (wGuard w) (wSrcA w) (wSrcB w) (atomOf (wFn w / 32)) (bit (wFn w) 3))
  | 0x53 => some (.atgv (wGuard w) (wD w) (wSrcA w) (wSrcB w) (wSrcC w) (atomVOf (wFn w / 32)) (bit (wFn w) 3))
  | 0x54 => some (.recv (wGuard w) (wD w) (wCA w))
  | 0x55 => if wFn w = 0 then some (.send (wGuard w) (wSrcA w) (wSrcB w)) else some (.sendRel (wGuard w) (wSrcA w) (wSrcB w) (scopeOf (wFn w / 2)))
  | 0x56 =>
    match wFn w with
    | 0 => some (.peek (wGuard w) (wD w) (wCA w))
    | 1 => some (.peekQ (wGuard w) (wPD w) (wCA w))
    | _ => none
  | _ => none

/-- The reading of branches and task control (R103 to R111) before the check of `decode`. -/
def decodeCtl (op w : Nat) : Option Instr :=
  match op with
  | 0x60 => some (.br (wGuard w) (wSrcI w) (wImm w))
  | 0x61 => some (.jmp (wGuard w) (wImm w))
  | 0x62 => some (.call (wGuard w) (wD w) (wImm w))
  | 0x63 => some (.loop (wGuard w) (wSrcI w) (wImm w))
  | 0x64 => some (.twait (wGuard w) (wD w) (wSrcA w))
  | 0x65 => some (.trun (wGuard w) (wD w) (wSrcA w) (wSrcB w) (wSrcC w))
  | 0x66 => some (.tend (wGuard w))
  | 0x67 => some (.trap (wGuard w) (wImm w))
  | 0x68 => some (.empty (wGuard w) (wD w))
  | 0x69 => some (.fullq (wGuard w) (wPD w) (BitVec.ofNat 5 (wA w)))
  | 0x6A => some (.yield (wGuard w))
  | 0x6B => some (.halt (wGuard w) (wImm w))
  | _ => none

/-- The reading of the element operations (R139) before the check of `decode`. -/
def decodeVec (op w : Nat) : Option Instr :=
  match op with
  | 0x80 => some (.vadd (wV w))
  | 0x81 => some (.vsub (wV w))
  | 0x82 => some (.vmul (wV w))
  | 0x83 => some (.vfma (wV w))
  | 0x84 => some (.vmac (wV w))
  | 0x85 => some (.vdot4 (wV w))
  | 0x86 => some (.vabs (wV w))
  | 0x87 => some (.vneg (wV w))
  | 0x88 => some (.vmin (wV w))
  | 0x89 => some (.vmax (wV w))
  | 0x8A => some (.vminp (wV w))
  | 0x8B => some (.vmaxp (wV w))
  | 0x8C => some (.vclamp (wV w))
  | 0x8D => some (.vand (wV w))
  | 0x8E => some (.vor (wV w))
  | 0x8F => some (.vxor (wV w))
  | 0x90 => some (.vshl (wV w))
  | 0x91 => some (.vshr (wV w))
  | 0x92 => some (.vsra (wV w))
  | 0x93 => some (.vcmp (wV w))
  | 0x94 => some (.vsel (wV w))
  | 0x95 => some (.vcvt (wV w))
  | 0x96 => some (.vscale (wV w))
  | 0x97 => some (.vamax (wV w))
  | 0x98 => some (.vsf (wV w))
  | 0x99 => some (.vsum (wV w))
  | 0x9A => some (.vscan (wV w))
  | 0x9B => if (wV w).fn = 1 then some (.vperm2 (wV w)) else some (.vperm (wV w))
  | 0x9C => some (.vbcast (wV w))
  | 0x9D => some (.vslide (wV w))
  | 0x9E => some (.vtap (wV w))
  | 0x9F => some (.vexpand (wV w))
  | 0xA0 => some (.vcompress (wV w))
  | 0xA1 => some (.vsteer (wV w))
  | 0xA2 => some (.vmerge (wV w))
  | 0xA3 => if bit (wV w).fn.toNat 3 then some (.vnrwStream (wV w)) else some (.vnrw (wV w))
  | 0xA4 => some (.vmov (wV w))
  | _ => none

/-- The reading of the engine commands (R36) before the check of `decode`. -/
def decodeCmd (op w : Nat) : Option Instr :=
  match op with
  | 0xC0 => some (.chain (wGuard w) (wD w) (wSrcA w) (wSrcB w) (BitVec.ofNat 4 (wI16 w)) (bit (wI16 w) 4))
  | 0xC1 =>
    match wFn w with
    | 0 => some (.cwait (wGuard w) (wD w) (wSrcA w))
    | 1 => some (.cwaitFlags (wGuard w) (wD w) (BitVec.ofNat 4 (wI16 w)))
    | 2 => some (.cwaitMag (wGuard w) (wD w) (BitVec.ofNat 4 (wI16 w)) (BitVec.ofNat 2 (wI16 w / 16)))
    | _ => none
  | 0xC2 => some (.sbind (wGuard w) (wD w) (wSrcA w) (wSrcB w) (bit (wI16 w) 8) (BitVec.ofNat 3 (wI16 w / 32)) (bit (wI16 w) 4) (BitVec.ofNat 4 (wI16 w)))
  | 0xC3 =>
    match wFn w with
    | 0 => some (.sclose (wGuard w) (wD w) (BitVec.ofNat 3 (wI16 w / 32)) (bit (wI16 w) 4))
    | 1 => some (.scloseAbort (wGuard w) (wD w) (BitVec.ofNat 3 (wI16 w / 32)) (bit (wI16 w) 4))
    | _ => none
  | 0xC4 =>
    match wFn w with
    | 0 => some (.sbar (wGuard w) (BitVec.ofNat 16 w))
    | 1 => some (.sbarWait (wGuard w) (BitVec.ofNat 16 w))
    | _ => none
  | 0xC5 => some (.cbar (wGuard w) (wD w) (wSrcA w) (BitVec.ofNat 4 (wI16 w)))
  | 0xC6 => some (.phase (wGuard w) (wD w) (wSrcA w) (scopeOf (wFn w)) (BitVec.ofNat 4 (wI16 w)))
  | 0xC7 =>
    match wI16 w % 8 with
    | 0 => some (.xformCvt (wGuard w) (wD w) (wSrcA w) (wSrcB w) (fmtOf (wI16 w / 8)) (fmtOf (wI16 w / 128)) (rndOf (wI16 w / 2048)) (bit (wI16 w) 14))
    | 1 => some (.xformScale (wGuard w) (wD w) (wSrcA w) (wSrcB w) (wSrcC w) (fmtOf (wI16 w / 8)) (rndOf (wI16 w / 2048)) (bit (wI16 w) 14))
    | 2 => some (.xformFill (wGuard w) (wD w) (wSrcA w) (wSrcB w) (wSrcC w) (fmtOf (wI16 w / 8)) (bit (wI16 w) 14))
    | 3 => some (.xformAdd (wGuard w) (wD w) (wSrcA w) (wSrcB w) (wSrcC w) (fmtOf (wI16 w / 8)) (rndOf (wI16 w / 2048)) (bit (wI16 w) 14))
    | 4 => some (.xformAmax (wGuard w) (wD w) (wSrcA w) (wSrcB w) (fmtOf (wI16 w / 8)) (bit (wI16 w) 14))
    | _ => none
  | 0xC8 =>
    match wFn w with
    | 0 => some (.mscale (wGuard w) (wD w) (wSrcA w) (wSrcB w))
    | 1 => some (.mscaleMx (wGuard w) (wD w) (wSrcA w) (wSrcB w))
    | _ => none
  | 0xC9 =>
    match wFn w with
    | 0 => some (.mwload (wGuard w) (wD w) (wSrcA w) (wSrcB w) (wSrcC w))
    | 1 => some (.mwloadP (wGuard w) (wD w) (wSrcB w) (wSrcC w))
    | _ => none
  | 0xCA =>
    match wFn w with
    | 0 => some (.marm (wGuard w) (wD w) (wSrcA w) (BitVec.ofNat 2 (wI16 w)))
    | 1 => some (.marmQ (wGuard w) (wD w) (BitVec.ofNat 2 (wI16 w)))
    | 2 => some (.marmWait (wGuard w) (wD w) (BitVec.ofNat 2 (wI16 w)))
    | 3 => some (.marmFlags (wGuard w) (wD w) (BitVec.ofNat 2 (wI16 w)))
    | _ => none
  | 0xCB =>
    match wFn w with
    | 0 => some (.crun (wGuard w) (wD w) (wSrcA w) (BitVec.ofNat 2 (wI16 w)))
    | 1 => some (.crunWait (wGuard w) (wD w) (BitVec.ofNat 2 (wI16 w)))
    | _ => none
  | 0xCC => some (.cedge (wGuard w) (wD w) (wSrcA w) (wSrcB w) (BitVec.ofNat 2 (wI16 w)))
  | 0xD0 =>
    match wFn w with
    | 0 => some (.copy (wGuard w) (wD w) (wSrcA w))
    | 1 => some (.copyWait (wGuard w) (wD w) (wSrcA w))
    | _ => none
  | 0xD1 => some (.xexpect (wGuard w) (wD w) (wSrcA w) (BitVec.ofNat 4 (wI16 w)))
  | 0xD2 => some (.xwait (wGuard w) (wD w) (BitVec.ofNat 4 (wI16 w)))
  | 0xD3 =>
    match wFn w with
    | 0 => some (.tinv (wGuard w) (wD w) (wSrcA w) (wSrcB w))
    | 1 => some (.tinvT (wGuard w) (wD w) (wSrcA w))
    | 2 => some (.tinvAll (wGuard w) (wD w))
    | 3 => some (.tinvWait (wGuard w) (wD w))
    | _ => none
  | 0xD4 =>
    match wFn w with
    | 0 => some (.xlook (wGuard w) (wD w) (wSrcA w) (wSrcB w))
    | 1 => some (.xlookO (wGuard w) (wD w) (wSrcA w) (wSrcB w))
    | _ => none
  | 0xD5 =>
    match wFn w with
    | 0 => some (.glaunch (wGuard w) (wD w) (wSrcA w))
    | 1 => some (.glaunchQ (wGuard w) (wD w) (wSrcA w))
    | _ => none
  | 0xD6 =>
    match wFn w with
    | 0 => some (.garm (wGuard w) (wD w) (wSrcA w) (wSrcB w) (BitVec.ofNat 2 (wI16 w)))
    | 1 => some (.garmQ (wGuard w) (wD w) (wSrcA w) (BitVec.ofNat 2 (wI16 w)))
    | _ => none
  | 0xD7 =>
    match wFn w with
    | 0 => some (.collReduceRing (wGuard w) (wD w) (wSrcA w))
    | 8 => some (.collReduceTree (wGuard w) (wD w) (wSrcA w))
    | 1 => some (.collAllreduceRing (wGuard w) (wD w) (wSrcA w))
    | 9 => some (.collAllreduceTree (wGuard w) (wD w) (wSrcA w))
    | 2 => some (.collGather (wGuard w) (wD w) (wSrcA w))
    | 3 => some (.collScatter (wGuard w) (wD w) (wSrcA w))
    | 4 => some (.collRank (wGuard w) (wD w))
    | _ => none
  | _ => none

/-- The reading of the decision-diagram commands (R358) before the check of `decode`. -/
def decodeDde (op w : Nat) : Option Instr :=
  match op with
  | 0xE0 =>
    match wFn w with
    | 0 => some (.ddcfg (wGuard w) (wD w) (wSrcA w))
    | 1 => some (.ddcfgGrow (wGuard w) (wD w) (wSrcA w))
    | _ => none
  | 0xE1 =>
    match wFn w with
    | 0 => some (.ddvar (wGuard w) (wD w) (wSrcA w))
    | 1 => some (.ddvarLvl (wGuard w) (wD w) (wSrcA w))
    | 2 => some (.ddvarVar (wGuard w) (wD w) (wSrcA w))
    | _ => none
  | 0xE2 => some (.ddite (wGuard w) (wD w) (wSrcA w) (wSrcB w) (wSrcC w))
  | 0xE3 => some (.ddapply (wGuard w) (wD w) (wSrcA w) (wSrcB w) (BitVec.ofNat 4 (wFn w)))
  | 0xE4 => some (.ddrestrict (wGuard w) (wD w) (wSrcA w) (wSrcB w))
  | 0xE5 =>
    match wFn w with
    | 0 => some (.ddquantEx (wGuard w) (wD w) (wSrcA w) (wSrcB w))
    | 1 => some (.ddquantAll (wGuard w) (wD w) (wSrcA w) (wSrcB w))
    | _ => none
  | 0xE6 => some (.ddcompose (wGuard w) (wD w) (wSrcA w) (wSrcB w) (wSrcC w))
  | 0xE7 => some (.ddwcount (wGuard w) (wD w) (wSrcA w) (wSrcB w) (wSrcC w))
  | 0xE8 => some (.ddsat (wGuard w) (wD w) (wSrcA w))
  | 0xE9 =>
    match wFn w with
    | 0 => some (.ddenum (wGuard w) (wD w) (wSrcA w) (wSrcB w) (wSrcC w))
    | 1 => some (.ddenumE (wGuard w) (wD w) (wSrcA w) (wSrcB w) (wSrcC w))
    | _ => none
  | 0xEA => some (.ddref (wGuard w) (wD w) (wSrcA w))
  | 0xEB => some (.ddderef (wGuard w) (wD w) (wSrcA w))
  | 0xEC => some (.ddgc (wGuard w) (wD w))
  | 0xED => some (.ddswap (wGuard w) (wD w) (wSrcA w))
  | 0xEE => some (.ddnode (wGuard w) (wD w) (wSrcA w))
  | 0xEF => some (.ddstat (wGuard w) (wD w) (BitVec.ofNat 3 (wFn w)))
  | _ => none

/-- The reading of the system forms (R119 to R124) before the check of `decode`. -/
def decodeSys (op w : Nat) : Option Instr :=
  match op with
  | 0xF0 => some (.mfsr (wGuard w) (wD w) (sysOf (w % 2 ^ 32)))
  | 0xF1 => some (.mtsr (wGuard w) (sysOf (w % 2 ^ 32)) (wSrcI w))
  | 0xF2 =>
    match wFn w % 4 with
    | 0 => some (.fenceWait (wGuard w))
    | 1 => some (.fenceRel (wGuard w) (scopeOf (wFn w / 4)))
    | 2 => some (.fenceAcq (wGuard w) (scopeOf (wFn w / 4)))
    | 3 => some (.fenceAcqrel (wGuard w) (scopeOf (wFn w / 4)))
    | _ => none
  | 0xF3 =>
    match wFn w with
    | 0 => some (.rdtime (wGuard w) (wD w))
    | 1 => some (.rdtimeCyc (wGuard w) (wD w))
    | _ => none
  | 0xF4 =>
    match wFn w with
    | 0 => some (.digest (wGuard w) (wD w) (wSrcA w) (wSrcB w))
    | 1 => some (.digestOut (wGuard w) (wSrcA w) (wSrcB w) (wSrcC w))
    | _ => none
  | 0xF5 => some (.seed (wGuard w) (wSrcA w))
  | 0xF6 => some (.colchk (wGuard w) (wD w))
  | _ => none

/-- The reading of a word's fields before the check of `decode`: the major opcode selects the form (R40). -/
def decodeRaw (w : Nat) : Option Instr :=
  let op := w / 2 ^ 56
  if op ≤ 0x17 then decodeInt op w
  else if op ≤ 0x34 then decodeImm op w
  else if op ≤ 0x42 then decodeFp op w
  else if op ≤ 0x56 then decodeMem op w
  else if op ≤ 0x6B then decodeCtl op w
  else if op ≤ 0xA4 then decodeVec op w
  else if op ≤ 0xD7 then decodeCmd op w
  else if op ≤ 0xEF then decodeDde op w
  else if op ≤ 0xF6 then decodeSys op w
  else none


/-! ### The word of an instruction -/

/-- The fields of formats R and C (R31, R36). -/
structure RFields where
  op : Nat
  g : Guard
  dest : Nat := 0
  a : Nat := 0
  b : Nat := 0
  c : Nat := 0
  ta : Bool := false
  tb : Bool := false
  tc : Bool := false
  fn : Nat := 0
  imm : Nat := 0

/-- The fields of formats I and B (R32, R35). -/
structure IFields where
  op : Nat
  g : Guard
  dest : Nat := 0
  a : Nat := 0
  ta : Bool := false
  imm : Nat := 0

/-- The fields of format M (R33). -/
structure MFields where
  op : Nat
  g : Guard
  data : Nat
  base : Nat
  size : Nat
  t : Bool
  sx : Bool := false
  order : Nat
  off : Nat

/-- Bits 63:52 (R22). -/
def packHead (op : Nat) (g : Guard) : Nat := op * 2 ^ 56 + b2n g.neg * 2 ^ 55 + g.pred.toNat * 2 ^ 52

/-- A word of format R or C (R31, R36). -/
def packR (f : RFields) : IWord :=
  BitVec.ofNat 64 (packHead f.op f.g + f.dest * 2 ^ 46 + f.a * 2 ^ 40 + f.b * 2 ^ 34 + f.c * 2 ^ 28 + b2n f.ta * 2 ^ 27
    + b2n f.tb * 2 ^ 26 + b2n f.tc * 2 ^ 25 + f.fn * 2 ^ 16 + f.imm)

/-- A word of format I or B (R32, R35). -/
def packI (f : IFields) : IWord :=
  BitVec.ofNat 64 (packHead f.op f.g + f.dest * 2 ^ 46 + f.a * 2 ^ 40 + b2n f.ta * 2 ^ 39 + f.imm)

/-- A word of format M (R33). -/
def packM (f : MFields) : IWord :=
  BitVec.ofNat 64 (packHead f.op f.g + f.data * 2 ^ 46 + f.base * 2 ^ 40 + f.size * 2 ^ 38 + b2n f.t * 2 ^ 37
    + b2n f.sx * 2 ^ 36 + f.order * 2 ^ 33 + f.off)

/-- A word of format V (R37); bits 55:52 are zero (R39). -/
def packV (op : Nat) (v : VWord) : IWord :=
  BitVec.ofNat 64 (op * 2 ^ 56 + fmtCode v.ty * 2 ^ 48 + v.dest.toNat * 2 ^ 43 + v.selA.toNat * 2 ^ 36
    + v.kA.toNat * 2 ^ 32 + v.selB.toNat * 2 ^ 25 + v.kB.toNat * 2 ^ 21 + v.selC.toNat * 2 ^ 14 + v.kC.toNat * 2 ^ 10
    + v.fn.toNat * 2 ^ 4 + rndCode v.rnd * 2 + b2n v.sat)

/-- The word of an instruction (R22, R31 to R37, R40); none for the rows that are not words. -/
def encode : Instr → Option IWord
  | .add g d a b => some (packR { op := 0x00, g := g, dest := d.toNat, a := a.r.toNat, ta := a.et, b := b.r.toNat, tb := b.et })
  | .addSat g d a b => some (packR { op := 0x00, g := g, dest := d.toNat, a := a.r.toNat, ta := a.et, b := b.r.toNat, tb := b.et, fn := 1 })
  | .sub g d a b => some (packR { op := 0x01, g := g, dest := d.toNat, a := a.r.toNat, ta := a.et, b := b.r.toNat, tb := b.et })
  | .subSat g d a b => some (packR { op := 0x01, g := g, dest := d.toNat, a := a.r.toNat, ta := a.et, b := b.r.toNat, tb := b.et, fn := 1 })
  | .mul g d a b => some (packR { op := 0x02, g := g, dest := d.toNat, a := a.r.toNat, ta := a.et, b := b.r.toNat, tb := b.et })
  | .mulSat g d a b => some (packR { op := 0x02, g := g, dest := d.toNat, a := a.r.toNat, ta := a.et, b := b.r.toNat, tb := b.et, fn := 1 })
  | .mulh g d a b => some (packR { op := 0x03, g := g, dest := d.toNat, a := a.r.toNat, ta := a.et, b := b.r.toNat, tb := b.et })
  | .mulhu g d a b => some (packR { op := 0x04, g := g, dest := d.toNat, a := a.r.toNat, ta := a.et, b := b.r.toNat, tb := b.et })
  | .div g d a b => some (packR { op := 0x05, g := g, dest := d.toNat, a := a.r.toNat, ta := a.et, b := b.r.toNat, tb := b.et })
  | .divu g d a b => some (packR { op := 0x06, g := g, dest := d.toNat, a := a.r.toNat, ta := a.et, b := b.r.toNat, tb := b.et })
  | .rem g d a b => some (packR { op := 0x07, g := g, dest := d.toNat, a := a.r.toNat, ta := a.et, b := b.r.toNat, tb := b.et })
  | .remu g d a b => some (packR { op := 0x08, g := g, dest := d.toNat, a := a.r.toNat, ta := a.et, b := b.r.toNat, tb := b.et })
  | .and g d a b => some (packR { op := 0x09, g := g, dest := d.toNat, a := a.r.toNat, ta := a.et, b := b.r.toNat, tb := b.et })
  | .or g d a b => some (packR { op := 0x0A, g := g, dest := d.toNat, a := a.r.toNat, ta := a.et, b := b.r.toNat, tb := b.et })
  | .xor g d a b => some (packR { op := 0x0B, g := g, dest := d.toNat, a := a.r.toNat, ta := a.et, b := b.r.toNat, tb := b.et })
  | .andn g d a b => some (packR { op := 0x0C, g := g, dest := d.toNat, a := a.r.toNat, ta := a.et, b := b.r.toNat, tb := b.et })
  | .shl g d a b => some (packR { op := 0x0D, g := g, dest := d.toNat, a := a.r.toNat, ta := a.et, b := b.r.toNat, tb := b.et })
  | .shlSat g d a b => some (packR { op := 0x0D, g := g, dest := d.toNat, a := a.r.toNat, ta := a.et, b := b.r.toNat, tb := b.et, fn := 1 })
  | .shr g d a b => some (packR { op := 0x0E, g := g, dest := d.toNat, a := a.r.toNat, ta := a.et, b := b.r.toNat, tb := b.et })
  | .sra g d a b => some (packR { op := 0x0F, g := g, dest := d.toNat, a := a.r.toNat, ta := a.et, b := b.r.toNat, tb := b.et })
  | .rotr g d a b => some (packR { op := 0x10, g := g, dest := d.toNat, a := a.r.toNat, ta := a.et, b := b.r.toNat, tb := b.et })
  | .min g d a b => some (packR { op := 0x11, g := g, dest := d.toNat, a := a.r.toNat, ta := a.et, b := b.r.toNat, tb := b.et })
  | .max g d a b => some (packR { op := 0x12, g := g, dest := d.toNat, a := a.r.toNat, ta := a.et, b := b.r.toNat, tb := b.et })
  | .minu g d a b => some (packR { op := 0x13, g := g, dest := d.toNat, a := a.r.toNat, ta := a.et, b := b.r.toNat, tb := b.et })
  | .maxu g d a b => some (packR { op := 0x14, g := g, dest := d.toNat, a := a.r.toNat, ta := a.et, b := b.r.toNat, tb := b.et })
  | .clz g d a => some (packR { op := 0x15, g := g, dest := d.toNat, a := a.r.toNat, ta := a.et })
  | .ctz g d a => some (packR { op := 0x16, g := g, dest := d.toNat, a := a.r.toNat, ta := a.et })
  | .popc g d a => some (packR { op := 0x17, g := g, dest := d.toNat, a := a.r.toNat, ta := a.et })
  | .addi g d a imm => some (packI { op := 0x20, g := g, dest := d.toNat, a := a.r.toNat, ta := a.et, imm := imm.toNat })
  | .andi g d a imm => some (packI { op := 0x21, g := g, dest := d.toNat, a := a.r.toNat, ta := a.et, imm := imm.toNat })
  | .ori g d a imm => some (packI { op := 0x22, g := g, dest := d.toNat, a := a.r.toNat, ta := a.et, imm := imm.toNat })
  | .xori g d a imm => some (packI { op := 0x23, g := g, dest := d.toNat, a := a.r.toNat, ta := a.et, imm := imm.toNat })
  | .shli g d a sh => some (packI { op := 0x24, g := g, dest := d.toNat, a := a.r.toNat, ta := a.et, imm := sh.toNat })
  | .shri g d a sh => some (packI { op := 0x25, g := g, dest := d.toNat, a := a.r.toNat, ta := a.et, imm := sh.toNat })
  | .srai g d a sh => some (packI { op := 0x26, g := g, dest := d.toNat, a := a.r.toNat, ta := a.et, imm := sh.toNat })
  | .lui g d a imm => some (packI { op := 0x27, g := g, dest := d.toNat, a := a.r.toNat, ta := a.et, imm := imm.toNat })
  | .lea g d a b k => some (packR { op := 0x28, g := g, dest := d.toNat, a := a.r.toNat, ta := a.et, b := b.r.toNat, tb := b.et, fn := k.toNat })
  | .sel g d a b p => some (packR { op := 0x29, g := g, dest := d.toNat, a := a.r.toNat, ta := a.et, b := b.r.toNat, tb := b.et, c := 32 + p.toNat })
  | .ceq g p a b => some (packR { op := 0x2A, g := g, dest := 32 + p.toNat, a := a.r.toNat, ta := a.et, b := b.r.toNat, tb := b.et })
  | .cne g p a b => some (packR { op := 0x2B, g := g, dest := 32 + p.toNat, a := a.r.toNat, ta := a.et, b := b.r.toNat, tb := b.et })
  | .clt g p a b => some (packR { op := 0x2C, g := g, dest := 32 + p.toNat, a := a.r.toNat, ta := a.et, b := b.r.toNat, tb := b.et })
  | .cle g p a b => some (packR { op := 0x2D, g := g, dest := 32 + p.toNat, a := a.r.toNat, ta := a.et, b := b.r.toNat, tb := b.et })
  | .cltu g p a b => some (packR { op := 0x2E, g := g, dest := 32 + p.toNat, a := a.r.toNat, ta := a.et, b := b.r.toNat, tb := b.et })
  | .cleu g p a b => some (packR { op := 0x2F, g := g, dest := 32 + p.toNat, a := a.r.toNat, ta := a.et, b := b.r.toNat, tb := b.et })
  | .ceqi g p a imm => some (packI { op := 0x30, g := g, dest := 32 + p.toNat, a := a.r.toNat, ta := a.et, imm := imm.toNat })
  | .clti g p a imm => some (packI { op := 0x31, g := g, dest := 32 + p.toNat, a := a.r.toNat, ta := a.et, imm := imm.toNat })
  | .pand g p x y nx ny => some (packR { op := 0x32, g := g, dest := 32 + p.toNat, a := 32 + x.toNat, b := 32 + y.toNat, fn := b2n nx + 2 * b2n ny })
  | .por g p x y nx ny => some (packR { op := 0x33, g := g, dest := 32 + p.toNat, a := 32 + x.toNat, b := 32 + y.toNat, fn := b2n nx + 2 * b2n ny })
  | .pxor g p x y nx ny => some (packR { op := 0x34, g := g, dest := 32 + p.toNat, a := 32 + x.toNat, b := 32 + y.toNat, fn := b2n nx + 2 * b2n ny })
  | .fadd g d a b f => some (packR { op := 0x38, g := g, dest := d.toNat, a := a.r.toNat, ta := a.et, b := b.r.toNat, tb := b.et, fn := fmodeCode f })
  | .fsub g d a b f => some (packR { op := 0x39, g := g, dest := d.toNat, a := a.r.toNat, ta := a.et, b := b.r.toNat, tb := b.et, fn := fmodeCode f })
  | .fmul g d a b f => some (packR { op := 0x3A, g := g, dest := d.toNat, a := a.r.toNat, ta := a.et, b := b.r.toNat, tb := b.et, fn := fmodeCode f })
  | .ffma g d a b c f => some (packR { op := 0x3B, g := g, dest := d.toNat, a := a.r.toNat, ta := a.et, b := b.r.toNat, tb := b.et, c := c.r.toNat, tc := c.et, fn := fmodeCode f })
  | .fdiv g d a b f => some (packR { op := 0x3C, g := g, dest := d.toNat, a := a.r.toNat, ta := a.et, b := b.r.toNat, tb := b.et, fn := fmodeCode f })
  | .fsqrt g d a f => some (packR { op := 0x3D, g := g, dest := d.toNat, a := a.r.toNat, ta := a.et, fn := fmodeCode f })
  | .fmin g d a b pr => some (packR { op := 0x3E, g := g, dest := d.toNat, a := a.r.toNat, ta := a.et, b := b.r.toNat, tb := b.et, fn := precCode pr })
  | .fmax g d a b pr => some (packR { op := 0x3F, g := g, dest := d.toNat, a := a.r.toNat, ta := a.et, b := b.r.toNat, tb := b.et, fn := precCode pr })
  | .fcmp g p a b pr c => some (packR { op := 0x40, g := g, dest := 32 + p.toNat, a := a.r.toNat, ta := a.et, b := b.r.toNat, tb := b.et, fn := precCode pr + 32 * fcondCode c })
  | .fcvt g d a sk dk rm sat => some (packR { op := 0x41, g := g, dest := d.toNat, a := a.r.toNat, ta := a.et, fn := 128 * fkindCode sk + 32 * fkindCode dk + 16 * b2n sat + 2 * rmodeCode rm })
  | .fclass g d a pr => some (packR { op := 0x42, g := g, dest := d.toNat, a := a.r.toNat, ta := a.et, fn := precCode pr })
  | .ldl g x base m => some (packM { op := 0x48, g := g, data := x.toNat, base := base.toNat, size := sizeCode m.size, t := m.t, sx := m.sx, order := 0, off := m.off.toNat })
  | .stl g x base m => some (packM { op := 0x49, g := g, data := x.toNat, base := base.toNat, size := sizeCode m.size, t := m.t, order := 0, off := m.off.toNat })
  | .ldr g x base m => some (packM { op := 0x4A, g := g, data := x.toNat, base := base.toNat, size := sizeCode m.size, t := m.t, sx := m.sx, order := 0, off := m.off.toNat })
  | .str g x base m => some (packM { op := 0x4B, g := g, data := x.toNat, base := base.toNat, size := sizeCode m.size, t := m.t, order := 0, off := m.off.toNat })
  | .lds g x base m => some (packM { op := 0x4C, g := g, data := x.toNat, base := base.toNat, size := sizeCode m.size, t := m.t, sx := m.sx, order := 0, off := m.off.toNat })
  | .sts g x base m => some (packM { op := 0x4D, g := g, data := x.toNat, base := base.toNat, size := sizeCode m.size, t := m.t, order := 0, off := m.off.toNat })
  | .ldg g x base m => some (packM { op := 0x4E, g := g, data := x.toNat, base := base.toNat, size := sizeCode m.size, t := m.t, sx := m.sx, order := 0, off := m.off.toNat })
  | .ldgAcq g x base m => some (packM { op := 0x4E, g := g, data := x.toNat, base := base.toNat, size := sizeCode m.size, t := m.t, sx := m.sx, order := 1, off := m.off.toNat })
  | .ldgSc g x base m => some (packM { op := 0x4E, g := g, data := x.toNat, base := base.toNat, size := sizeCode m.size, t := m.t, sx := m.sx, order := 3, off := m.off.toNat })
  | .stg g x base m => some (packM { op := 0x4F, g := g, data := x.toNat, base := base.toNat, size := sizeCode m.size, t := m.t, order := 0, off := m.off.toNat })
  | .stgRel g x base m => some (packM { op := 0x4F, g := g, data := x.toNat, base := base.toNat, size := sizeCode m.size, t := m.t, order := 2, off := m.off.toNat })
  | .stgSc g x base m => some (packM { op := 0x4F, g := g, data := x.toNat, base := base.toNat, size := sizeCode m.size, t := m.t, order := 3, off := m.off.toNat })
  | .ats g a b op dbl => some (packR { op := 0x50, g := g, a := a.r.toNat, ta := a.et, b := b.r.toNat, tb := b.et, fn := 32 * atomCode op + 16 + 8 * b2n dbl })
  | .atsv g d a b c op dbl => some (packR { op := 0x51, g := g, dest := d.toNat, a := a.r.toNat, ta := a.et, b := b.r.toNat, tb := b.et, c := c.r.toNat, tc := c.et, fn := 32 * atomVCode op + 16 + 8 * b2n dbl })
  | .atg g a b op dbl => some (packR { op := 0x52, g := g, a := a.r.toNat, ta := a.et, b := b.r.toNat, tb := b.et, fn := 32 * atomCode op + 16 + 8 * b2n dbl })
  | .atgv g d a b c op dbl => some (packR { op := 0x53, g := g, dest := d.toNat, a := a.r.toNat, ta := a.et, b := b.r.toNat, tb := b.et, c := c.r.toNat, tc := c.et, fn := 32 * atomVCode op + 16 + 8 * b2n dbl })
  | .recv g d j => some (packR { op := 0x54, g := g, dest := d.toNat, a := 48 + j.toNat })
  | .send g a b => some (packR { op := 0x55, g := g, a := a.r.toNat, ta := a.et, b := b.r.toNat, tb := b.et })
  | .sendRel g a b sc => some (packR { op := 0x55, g := g, a := a.r.toNat, ta := a.et, b := b.r.toNat, tb := b.et, fn := 1 + 2 * scopeCode sc })
  | .peek g d j => some (packR { op := 0x56, g := g, dest := d.toNat, a := 48 + j.toNat })
  | .peekQ g p j => some (packR { op := 0x56, g := g, dest := 32 + p.toNat, a := 48 + j.toNat, fn := 1 })
  | .br g c disp => some (packI { op := 0x60, g := g, a := c.r.toNat, ta := c.et, imm := disp.toNat })
  | .jmp g disp => some (packI { op := 0x61, g := g, imm := disp.toNat })
  | .call g l disp => some (packI { op := 0x62, g := g, dest := l.toNat, imm := disp.toNat })
  | .loop g c disp => some (packI { op := 0x63, g := g, a := c.r.toNat, ta := c.et, imm := disp.toNat })
  | .twait g d a => some (packR { op := 0x64, g := g, dest := d.toNat, a := a.r.toNat, ta := a.et })
  | .trun g d a b c => some (packR { op := 0x65, g := g, dest := d.toNat, a := a.r.toNat, ta := a.et, b := b.r.toNat, tb := b.et, c := c.r.toNat, tc := c.et })
  | .tend g => some (packR { op := 0x66, g := g })
  | .trap g imm => some (packI { op := 0x67, g := g, imm := imm.toNat })
  | .empty g d => some (packR { op := 0x68, g := g, dest := d.toNat })
  | .fullq g p a => some (packR { op := 0x69, g := g, dest := 32 + p.toNat, a := a.toNat })
  | .yield g => some (packR { op := 0x6A, g := g })
  | .halt g imm => some (packI { op := 0x6B, g := g, imm := imm.toNat })
  | .mfsr g d y => some (packI { op := 0xF0, g := g, dest := d.toNat, imm := sysCode y })
  | .mtsr g y a => some (packI { op := 0xF1, g := g, a := a.r.toNat, ta := a.et, imm := sysCode y })
  | .fenceWait g => some (packR { op := 0xF2, g := g })
  | .fenceRel g sc => some (packR { op := 0xF2, g := g, fn := 1 + 4 * scopeCode sc })
  | .fenceAcq g sc => some (packR { op := 0xF2, g := g, fn := 2 + 4 * scopeCode sc })
  | .fenceAcqrel g sc => some (packR { op := 0xF2, g := g, fn := 3 + 4 * scopeCode sc })
  | .rdtime g d => some (packR { op := 0xF3, g := g, dest := d.toNat })
  | .rdtimeCyc g d => some (packR { op := 0xF3, g := g, dest := d.toNat, fn := 1 })
  | .digest g d a b => some (packR { op := 0xF4, g := g, dest := d.toNat, a := a.r.toNat, ta := a.et, b := b.r.toNat, tb := b.et })
  | .digestOut g a b c => some (packR { op := 0xF4, g := g, a := a.r.toNat, ta := a.et, b := b.r.toNat, tb := b.et, c := c.r.toNat, tc := c.et, fn := 1 })
  | .seed g a => some (packR { op := 0xF5, g := g, a := a.r.toNat, ta := a.et })
  | .colchk g d => some (packR { op := 0xF6, g := g, dest := d.toNat })
  | .vadd v => some (packV 0x80 v)
  | .vsub v => some (packV 0x81 v)
  | .vmul v => some (packV 0x82 v)
  | .vfma v => some (packV 0x83 v)
  | .vmac v => some (packV 0x84 v)
  | .vdot4 v => some (packV 0x85 v)
  | .vabs v => some (packV 0x86 v)
  | .vneg v => some (packV 0x87 v)
  | .vmin v => some (packV 0x88 v)
  | .vmax v => some (packV 0x89 v)
  | .vminp v => some (packV 0x8A v)
  | .vmaxp v => some (packV 0x8B v)
  | .vclamp v => some (packV 0x8C v)
  | .vand v => some (packV 0x8D v)
  | .vor v => some (packV 0x8E v)
  | .vxor v => some (packV 0x8F v)
  | .vshl v => some (packV 0x90 v)
  | .vshr v => some (packV 0x91 v)
  | .vsra v => some (packV 0x92 v)
  | .vcmp v => some (packV 0x93 v)
  | .vsel v => some (packV 0x94 v)
  | .vcvt v => some (packV 0x95 v)
  | .vscale v => some (packV 0x96 v)
  | .vamax v => some (packV 0x97 v)
  | .vsf v => some (packV 0x98 v)
  | .vsum v => some (packV 0x99 v)
  | .vscan v => some (packV 0x9A v)
  | .vperm v => some (packV 0x9B v)
  | .vperm2 v => some (packV 0x9B v)
  | .vbcast v => some (packV 0x9C v)
  | .vslide v => some (packV 0x9D v)
  | .vtap v => some (packV 0x9E v)
  | .vexpand v => some (packV 0x9F v)
  | .vcompress v => some (packV 0xA0 v)
  | .vsteer v => some (packV 0xA1 v)
  | .vmerge v => some (packV 0xA2 v)
  | .vnrw v => some (packV 0xA3 v)
  | .vnrwStream v => some (packV 0xA3 v)
  | .vmov v => some (packV 0xA4 v)
  | .chain g d a b t eoi => some (packR { op := 0xC0, g := g, dest := d.toNat, a := a.r.toNat, ta := a.et, b := b.r.toNat, tb := b.et, imm := t.toNat + 16 * b2n eoi })
  | .cwait g d a => some (packR { op := 0xC1, g := g, dest := d.toNat, a := a.r.toNat, ta := a.et })
  | .cwaitFlags g d t => some (packR { op := 0xC1, g := g, dest := d.toNat, fn := 1, imm := t.toNat })
  | .cwaitMag g d t m => some (packR { op := 0xC1, g := g, dest := d.toNat, fn := 2, imm := t.toNat + 16 * m.toNat })
  | .sbind g d a b eoi port ag pat => some (packR { op := 0xC2, g := g, dest := d.toNat, a := a.r.toNat, ta := a.et, b := b.r.toNat, tb := b.et, imm := pat.toNat + 16 * b2n ag + 32 * port.toNat + 256 * b2n eoi })
  | .sclose g d port ag => some (packR { op := 0xC3, g := g, dest := d.toNat, imm := 16 * b2n ag + 32 * port.toNat })
  | .scloseAbort g d port ag => some (packR { op := 0xC3, g := g, dest := d.toNat, fn := 1, imm := 16 * b2n ag + 32 * port.toNat })
  | .sbar g mask => some (packR { op := 0xC4, g := g, imm := mask.toNat })
  | .sbarWait g mask => some (packR { op := 0xC4, g := g, fn := 1, imm := mask.toNat })
  | .cbar g d a id => some (packR { op := 0xC5, g := g, dest := d.toNat, a := a.r.toNat, ta := a.et, imm := id.toNat })
  | .phase g d a sc id => some (packR { op := 0xC6, g := g, dest := d.toNat, a := a.r.toNat, ta := a.et, fn := scopeCode sc, imm := id.toNat })
  | .xformCvt g d a b fmt dfmt rnd sat => some (packR { op := 0xC7, g := g, dest := d.toNat, a := a.r.toNat, ta := a.et, b := b.r.toNat, tb := b.et, imm := 8 * fmtCode fmt + 128 * fmtCode dfmt + 2048 * rndCode rnd + 16384 * b2n sat })
  | .xformScale g d a b c fmt rnd sat => some (packR { op := 0xC7, g := g, dest := d.toNat, a := a.r.toNat, ta := a.et, b := b.r.toNat, tb := b.et, c := c.r.toNat, tc := c.et, imm := 1 + 8 * fmtCode fmt + 2048 * rndCode rnd + 16384 * b2n sat })
  | .xformFill g d a b c fmt sat => some (packR { op := 0xC7, g := g, dest := d.toNat, a := a.r.toNat, ta := a.et, b := b.r.toNat, tb := b.et, c := c.r.toNat, tc := c.et, imm := 2 + 8 * fmtCode fmt + 16384 * b2n sat })
  | .xformAdd g d a b c fmt rnd sat => some (packR { op := 0xC7, g := g, dest := d.toNat, a := a.r.toNat, ta := a.et, b := b.r.toNat, tb := b.et, c := c.r.toNat, tc := c.et, imm := 3 + 8 * fmtCode fmt + 2048 * rndCode rnd + 16384 * b2n sat })
  | .xformAmax g d a b fmt sat => some (packR { op := 0xC7, g := g, dest := d.toNat, a := a.r.toNat, ta := a.et, b := b.r.toNat, tb := b.et, imm := 4 + 8 * fmtCode fmt + 16384 * b2n sat })
  | .mscale g d a b => some (packR { op := 0xC8, g := g, dest := d.toNat, a := a.r.toNat, ta := a.et, b := b.r.toNat, tb := b.et })
  | .mscaleMx g d a b => some (packR { op := 0xC8, g := g, dest := d.toNat, a := a.r.toNat, ta := a.et, b := b.r.toNat, tb := b.et, fn := 1 })
  | .mwload g d a b c => some (packR { op := 0xC9, g := g, dest := d.toNat, a := a.r.toNat, ta := a.et, b := b.r.toNat, tb := b.et, c := c.r.toNat, tc := c.et })
  | .mwloadP g d b c => some (packR { op := 0xC9, g := g, dest := d.toNat, b := b.r.toNat, tb := b.et, c := c.r.toNat, tc := c.et, fn := 1 })
  | .marm g d a s => some (packR { op := 0xCA, g := g, dest := d.toNat, a := a.r.toNat, ta := a.et, imm := s.toNat })
  | .marmQ g d s => some (packR { op := 0xCA, g := g, dest := d.toNat, fn := 1, imm := s.toNat })
  | .marmWait g d s => some (packR { op := 0xCA, g := g, dest := d.toNat, fn := 2, imm := s.toNat })
  | .marmFlags g d s => some (packR { op := 0xCA, g := g, dest := d.toNat, fn := 3, imm := s.toNat })
  | .crun g d a ch => some (packR { op := 0xCB, g := g, dest := d.toNat, a := a.r.toNat, ta := a.et, imm := ch.toNat })
  | .crunWait g d ch => some (packR { op := 0xCB, g := g, dest := d.toNat, fn := 1, imm := ch.toNat })
  | .cedge g d a b ch => some (packR { op := 0xCC, g := g, dest := d.toNat, a := a.r.toNat, ta := a.et, b := b.r.toNat, tb := b.et, imm := ch.toNat })
  | .copy g d a => some (packR { op := 0xD0, g := g, dest := d.toNat, a := a.r.toNat, ta := a.et })
  | .copyWait g d a => some (packR { op := 0xD0, g := g, dest := d.toNat, a := a.r.toNat, ta := a.et, fn := 1 })
  | .xexpect g d a id => some (packR { op := 0xD1, g := g, dest := d.toNat, a := a.r.toNat, ta := a.et, imm := id.toNat })
  | .xwait g d id => some (packR { op := 0xD2, g := g, dest := d.toNat, imm := id.toNat })
  | .tinv g d a b => some (packR { op := 0xD3, g := g, dest := d.toNat, a := a.r.toNat, ta := a.et, b := b.r.toNat, tb := b.et })
  | .tinvT g d a => some (packR { op := 0xD3, g := g, dest := d.toNat, a := a.r.toNat, ta := a.et, fn := 1 })
  | .tinvAll g d => some (packR { op := 0xD3, g := g, dest := d.toNat, fn := 2 })
  | .tinvWait g d => some (packR { op := 0xD3, g := g, dest := d.toNat, fn := 3 })
  | .xlook g d a b => some (packR { op := 0xD4, g := g, dest := d.toNat, a := a.r.toNat, ta := a.et, b := b.r.toNat, tb := b.et })
  | .xlookO g d a b => some (packR { op := 0xD4, g := g, dest := d.toNat, a := a.r.toNat, ta := a.et, b := b.r.toNat, tb := b.et, fn := 1 })
  | .glaunch g d a => some (packR { op := 0xD5, g := g, dest := d.toNat, a := a.r.toNat, ta := a.et })
  | .glaunchQ g d a => some (packR { op := 0xD5, g := g, dest := d.toNat, a := a.r.toNat, ta := a.et, fn := 1 })
  | .garm g d a b s => some (packR { op := 0xD6, g := g, dest := d.toNat, a := a.r.toNat, ta := a.et, b := b.r.toNat, tb := b.et, imm := s.toNat })
  | .garmQ g d a s => some (packR { op := 0xD6, g := g, dest := d.toNat, a := a.r.toNat, ta := a.et, fn := 1, imm := s.toNat })
  | .collReduceRing g d a => some (packR { op := 0xD7, g := g, dest := d.toNat, a := a.r.toNat, ta := a.et })
  | .collReduceTree g d a => some (packR { op := 0xD7, g := g, dest := d.toNat, a := a.r.toNat, ta := a.et, fn := 8 })
  | .collAllreduceRing g d a => some (packR { op := 0xD7, g := g, dest := d.toNat, a := a.r.toNat, ta := a.et, fn := 1 })
  | .collAllreduceTree g d a => some (packR { op := 0xD7, g := g, dest := d.toNat, a := a.r.toNat, ta := a.et, fn := 9 })
  | .collGather g d a => some (packR { op := 0xD7, g := g, dest := d.toNat, a := a.r.toNat, ta := a.et, fn := 2 })
  | .collScatter g d a => some (packR { op := 0xD7, g := g, dest := d.toNat, a := a.r.toNat, ta := a.et, fn := 3 })
  | .collRank g d => some (packR { op := 0xD7, g := g, dest := d.toNat, fn := 4 })
  | .ddcfg g d a => some (packR { op := 0xE0, g := g, dest := d.toNat, a := a.r.toNat, ta := a.et })
  | .ddcfgGrow g d a => some (packR { op := 0xE0, g := g, dest := d.toNat, a := a.r.toNat, ta := a.et, fn := 1 })
  | .ddvar g d a => some (packR { op := 0xE1, g := g, dest := d.toNat, a := a.r.toNat, ta := a.et })
  | .ddvarLvl g d a => some (packR { op := 0xE1, g := g, dest := d.toNat, a := a.r.toNat, ta := a.et, fn := 1 })
  | .ddvarVar g d a => some (packR { op := 0xE1, g := g, dest := d.toNat, a := a.r.toNat, ta := a.et, fn := 2 })
  | .ddite g d a b c => some (packR { op := 0xE2, g := g, dest := d.toNat, a := a.r.toNat, ta := a.et, b := b.r.toNat, tb := b.et, c := c.r.toNat, tc := c.et })
  | .ddapply g d a b op => some (packR { op := 0xE3, g := g, dest := d.toNat, a := a.r.toNat, ta := a.et, b := b.r.toNat, tb := b.et, fn := op.toNat })
  | .ddrestrict g d a b => some (packR { op := 0xE4, g := g, dest := d.toNat, a := a.r.toNat, ta := a.et, b := b.r.toNat, tb := b.et })
  | .ddquantEx g d a b => some (packR { op := 0xE5, g := g, dest := d.toNat, a := a.r.toNat, ta := a.et, b := b.r.toNat, tb := b.et })
  | .ddquantAll g d a b => some (packR { op := 0xE5, g := g, dest := d.toNat, a := a.r.toNat, ta := a.et, b := b.r.toNat, tb := b.et, fn := 1 })
  | .ddcompose g d a b c => some (packR { op := 0xE6, g := g, dest := d.toNat, a := a.r.toNat, ta := a.et, b := b.r.toNat, tb := b.et, c := c.r.toNat, tc := c.et })
  | .ddwcount g d a b c => some (packR { op := 0xE7, g := g, dest := d.toNat, a := a.r.toNat, ta := a.et, b := b.r.toNat, tb := b.et, c := c.r.toNat, tc := c.et })
  | .ddsat g d a => some (packR { op := 0xE8, g := g, dest := d.toNat, a := a.r.toNat, ta := a.et })
  | .ddenum g d a b c => some (packR { op := 0xE9, g := g, dest := d.toNat, a := a.r.toNat, ta := a.et, b := b.r.toNat, tb := b.et, c := c.r.toNat, tc := c.et })
  | .ddenumE g d a b c => some (packR { op := 0xE9, g := g, dest := d.toNat, a := a.r.toNat, ta := a.et, b := b.r.toNat, tb := b.et, c := c.r.toNat, tc := c.et, fn := 1 })
  | .ddref g d a => some (packR { op := 0xEA, g := g, dest := d.toNat, a := a.r.toNat, ta := a.et })
  | .ddderef g d a => some (packR { op := 0xEB, g := g, dest := d.toNat, a := a.r.toNat, ta := a.et })
  | .ddgc g d => some (packR { op := 0xEC, g := g, dest := d.toNat })
  | .ddswap g d a => some (packR { op := 0xED, g := g, dest := d.toNat, a := a.r.toNat, ta := a.et })
  | .ddnode g d a => some (packR { op := 0xEE, g := g, dest := d.toNat, a := a.r.toNat, ta := a.et })
  | .ddstat g d k => some (packR { op := 0xEF, g := g, dest := d.toNat, fn := k.toNat })
  | .issueSelect _ _ => none
  | .producerCompletion _ _ _ => none
  | .channelWordArrival _ _ => none
  | .atomicPerform _ _ => none
  | .nodeFiringCommit _ _ _ _ => none
  | .eoiHandling _ _ => none
  | .chainStart _ _ _ => none
  | .chainEnd _ _ _ => none
  | .arcBeat _ _ _ => none
  | .spillReturn _ _ _ => none
  | .headerLatch _ _ _ => none
  | .steerNodeFiring _ _ _ => none
  | .mergeNodeFiring _ _ _ => none
  | .streamReadBeat _ _ _ => none
  | .streamWriteBeat _ _ _ => none
  | .streamCommandComplete _ _ _ => none
  | .portCloseReached _ _ _ => none
  | .streamBarrierPass _ _ _ => none
  | .coatFiring _ _ _ => none
  | .coatDrain _ _ _ => none
  | .coatPassStart _ _ => none
  | .mxFiring _ _ _ => none
  | .panelLoadStart _ _ => none
  | .panelUnitArrival _ _ => none
  | .panelLoadEnd _ _ => none
  | .input4EoiDrop _ _ => none
  | .garmCheck _ _ _ => none
  | .copyStart _ _ => none
  | .copyUnitComplete _ _ => none
  | .budgetRefill _ => none
  | .ddeBatchEntry _ _ => none
  | .sealFill _ _ => none
  | .sealWriteback _ => none
  | .rekey _ => none
  | .tileMigrationStart _ => none
  | .tileMigrationEnd _ _ => none
  | .doorbellWrite _ _ _ => none
  | .launchRecordFetch _ _ _ => none
  | .qcfgWrite _ _ _ => none
  | .qstatClear _ _ _ => none
  | .fcfgWrite _ _ => none
  | .fridxWrite _ _ => none
  | .frespRetry _ _ => none
  | .frespAbort _ _ => none
  | .acfgWrite _ => none
  | .astatClear _ => none
  | .adminDoorbell _ => none
  | .hostRegisterWrite _ _ _ => none
  | .createRegion _ _ => none
  | .destroyRegion _ _ => none
  | .createContext _ _ => none
  | .removeContext _ _ => none
  | .bindQueue _ _ _ _ => none
  | .setSecondStageRoot _ _ _ => none
  | .secondStageInvalidate _ _ => none
  | .stopContext _ _ => none
  | .preemptContext _ _ _ => none
  | .readCertificateChain _ => none
  | .formGang _ _ => none
  | .dissolveGang _ _ => none
  | .schedulerSelect _ => none
  | .fabricLoadStart _ => none
  | .configFrame _ => none
  | .endFrame _ => none
  | .graphNodeStart _ _ => none
  | .successorLaunch _ _ => none
  | .blotterQuiescence _ => none
  | .checkRun2Start _ => none
  | .graphComplete _ => none
  | .watchdog _ => none
  | .stopRecordsWritten _ => none
  | .dumpWritten _ _ => none
  | .whitewashLoad _ => none
  | .regionRelease _ => none
  | .whitewashTimeout _ => none
  | .liftMarkerSave _ _ => none
  | .forcedMarker _ => none
  | .saveImageComplete _ => none
  | .restore _ => none
  | .scrub _ _ => none
  | .colophonWritten _ => none
  | .reset => none
  | .lifecycleChange _ => none
  | .sliceRequest _ _ _ => none
  | .vacatedMessage _ _ _ => none
  | .goMessage _ _ => none
  | .gangDeadline _ => none
  | .abortMessage _ _ => none
  | .peerStopMessage _ _ => none
  | .collBeatArrival _ _ => none
  | .liftFlitArrival _ _ => none
  | .linkDown _ _ => none
  | .thermalThrottle => none
  | .publishComplete _ _ _ => none
  | .xformComplete _ _ _ => none
  | .tinvComplete _ _ => none
  | .ddeCommandPerform _ _ => none
  | .softError _ => none
  | .expanderLinkFailure _ => none

/-! ### The decoder -/

/-- The instruction of a word, or none where the word is illegal (R43): its fields read by `decodeRaw` must be those of a
well-formed instruction whose word is this one, so that every reserved or unnamed field is zero, every specifier of the
class its entry gives, every trap bit on a field that is read, and every function value allocated (R25, R26, R30). [DEDUCED, log 12] -/
def decode (w : IWord) : Option Instr :=
  match decodeRaw w.toNat with
  | some i => if i.wf && decide (encode i = some w) then some i else none
  | none => none

/-- The word held in eight little-endian bytes (R2). -/
def wordOfBytes (l : List Byte) : IWord := BitVec.ofNat 64 (ofBytesLE (l.take 8))

/-- The instruction of an instruction's bytes, the first at the lowest address; none where the word is illegal or the bytes
are fewer than eight. -/
def decodeBytes (l : List Byte) : Option Instr := if l.length < 8 then none else decode (wordOfBytes l)

/-- The instruction that the decoder reads from bits numbered as the opcode table numbers them (every instruction word is one
64-bit word, bit 0 the least significant bit of its first byte; the bits above `nbits` are zero). -/
def decodeTableWord (nbits w : Nat) : Option Instr := decodeBytes (bytesLE 8 (w % 2 ^ nbits % 2 ^ 64))

end Sys2Proof
end

