-- ==== Sys2Proof/Machine/State.lean ====
section
/-! DEFINITION. The machine's state: everything the spec gives the ZV7, as plain data, and its value right after reset. -/

namespace Sys2Proof.Machine

/-! ### Task slots (R70 to R73) -/

/-- A scalar register's full/empty bit, an empty register being pending or cleared (R27, R29). -/
inductive Fill where
  | full
  | pending
  | cleared
deriving DecidableEq, Repr, Inhabited

/-- What a slot waits for (R73). The reasons channel, register, queue, completion and barrier are told apart by `Wait.reason`
in Ops; each constructor says what ends the wait. -/
inductive Wait where
  /-- channel: the arrival of a word on one of these channels, which are those bound to the slot (TWAIT, RECV, PEEK) -/
  | word (mask : BitVec 16)
  /-- channel: a free place in channel `c` of unit `u` (SEND) -/
  | place (u c : Nat)
  /-- channel: the publish `k` of a SEND.rel -/
  | sendPublish (k : Nat)
  /-- register: registers `full` to become full, registers `land` to be no longer pending (R28, TEND, EMPTY) -/
  | regs (full land : List Nat)
  /-- queue: a place in the core's chain queue (CHAIN) -/
  | chainQueue
  /-- queue: a free entry in every stream port (AG unit, port) of the list (SBIND, SCLOSE, SBAR) -/
  | portQueues (l : List (Nat × Nat))
  /-- queue: fewer than 8 copies of the core in flight (COPY) -/
  | copies
  /-- queue: a place in the load queue of MX `u` (MWLOAD) -/
  | mxQueue (u : Nat)
  /-- queue: the loads of MX `u` to slots `lo` to `hi` whose number is below `upto` to end (MARM) -/
  | panels (u lo hi upto : Nat)
  /-- queue: the chain with this ticket and every earlier one to end (MSCALE) -/
  | chainsEnd (ticket : Nat)
  /-- queue: room in a level of the region queue (GLAUNCH) -/
  | level (l : Nat)
  /-- queue: fewer than 4 collectives of the context in flight (COLL) -/
  | colls
  /-- queue: a holding-buffer entry of memory-side unit `m` (an atomic, R222) -/
  | holding (m : Nat)
  /-- queue: the slot's own atomics to have performed (CBAR, PHASE before arrival, R217) -/
  | ownAtomics
  /-- queue: a register write of the slot's earlier FDIV and FSQRT (MFSR, MTSR of FPFLAGS, R102) -/
  | fpDone
  /-- queue: entry of the edge table of chain `c` for step `st` (CEDGE) -/
  | edge (c st : Nat)
  /-- completion: the chain with this ticket and every earlier one to end (CWAIT) -/
  | chain (ticket : Nat)
  /-- completion: transfer barrier `id` of cluster `cl` to be unarmed (XWAIT) -/
  | transfer (cl id : Nat)
  /-- completion: coat chain `c` to have stopped running (crun.wait) -/
  | coats (c : Nat)
  /-- completion: section `sec` of MX `u` to be idle (marm.wait) -/
  | mxIdle (u sec : Nat)
  /-- completion: the copy of this core with this ticket (copy.wait) -/
  | copy (ticket : Nat)
  /-- completion: stream barrier `id` (sbar.wait) -/
  | streamBarrier (id : Nat)
  /-- completion: the invalidations of this core up to number `k` (tinv.wait) -/
  | tinv (k : Nat)
  /-- completion: transform `k` (XFORM) -/
  | xform (k : Nat)
  /-- completion: publish `k` (FENCE, STG.rel, GLAUNCH) -/
  | publish (k : Nat)
  /-- completion: the slot's earlier producers, sends and atomics (FENCE.wait) -/
  | earlier
  /-- completion: a load of the slot that orders later accesses (LDG.acq, LDG.sc) -/
  | ordered (k : Nat)
  /-- completion: a class A command of the DDE (R359) -/
  | dde (k : Nat)
  /-- barrier: an instance of a CBAR or PHASE barrier -/
  | barrier
  /-- a trap not yet delivered (R83) -/
  | trapDelivery
  /-- a delivered trap (R83) -/
  | trapped
deriving DecidableEq, Repr, Inhabited

/-- The states of a slot (R71). `halted` is not stored: a slot of a region whose halt line is up is halted whatever stands
here, which is the state kept for the stop record (`Slot` keeps it, R71, R85). -/
inductive SlotState where
  | idle
  | waiting (w : Wait)
  | runnable
  | running
deriving DecidableEq, Repr, Inhabited

/-- How far the word at the slot's program counter has already taken effect (R73: an effect made is not made again). [DEDUCED, log 8] -/
inductive Progress where
  /-- nothing yet -/
  | fresh
  /-- the publish it began has been started -/
  | published
  /-- its arrival at a barrier has been counted -/
  | arrived
  /-- its barrier instance completed with this number -/
  | released (inst : BitVec 32)
  /-- its command has been accepted; the wait is for its end -/
  | accepted
  /-- its engine answered this value and flags -/
  | answered (v : Word) (fl : BitVec 5)
deriving DecidableEq, Repr, Inhabited

/-- A recoverable trap waiting for delivery (R83, R84). -/
structure TrapReq where
  cause : Nat
  operand : Nat
  detail : BitVec 32
  pc : Word
deriving DecidableEq, Repr, Inhabited

/-- One task slot (R70): what R178 saves of it, and its issuer state (R221, R361). -/
structure Slot where
  /-- word index of the next word -/
  pc : Word
  /-- s1 to s31; a register not listed holds 0; s0 is never listed -/
  regs : Assoc Word
  /-- the registers that are not full -/
  fills : Assoc Fill
  /-- p1 to p7 in bits 7:1; bit 0 is 0 and never read -/
  preds : BitVec 8
  /-- CHBIND -/
  chbind : BitVec 16
  /-- the stochastic count (R60) -/
  count : Word
  st : SlotState
  prog : Progress
  fpflags : BitVec 5
  fpmode : BitVec 3
  trapinfo : Word
  trap : Option TrapReq
  /-- on the roster of R221 -/
  roster : Bool
  /-- the issuer's interval number -/
  interval : Nat
  /-- the issuer's atomics in this interval -/
  aseq : Nat
  /-- the issuer's DDE commands in this interval -/
  dseq : Nat
deriving DecidableEq, Repr, Inhabited

/-! ### Cores -/

/-- A channel (R113): up to four words with their ord bits, and the declared sender (R117). -/
structure Chan where
  words : List (Word × Bool)
  sender : Option (Nat × Nat)
deriving DecidableEq, Repr, Inhabited

/-- A word on its way over the control router to channel `c` of unit `u` (R113, R115). -/
structure Flying where
  u : Nat
  c : Nat
  data : Word
  ord : Bool
  /-- the sending core and slot -/
  su : Nat
  ss : Nat
deriving DecidableEq, Repr, Inhabited

/-- The spaces a phase buffer holds words of (R169, R170). -/
inductive Space where
  | s
  | r
  | g
deriving DecidableEq, Repr, Inhabited

/-- A word of a phase buffer (R170). -/
structure PWord where
  sp : Space
  addr : Nat
  mask : BitVec 8
  data : Word
deriving DecidableEq, Repr, Inhabited

/-- A load of memory in flight: `n` bytes at `addr`, the bytes the phase buffer held at issue laid over what memory gives. -/
structure LoadReq where
  sp : Space
  addr : Nat
  n : Nat
  sx : Bool
  lay : PWord
  /-- the core's refresh when the load issued (R214) -/
  floor : Nat
deriving DecidableEq, Repr, Inhabited

/-- What a long-latency producer still has to do (R27). -/
inductive Flight where
  /-- values and flags to deliver; `fp` for FDIV and FSQRT -/
  | value (vs : List Word) (fl : BitVec 5) (fp : Bool)
  /-- LDR, LDG -/
  | load (l : LoadReq)
  /-- LDG.acq, LDG.sc: the load orders what follows it (R215) -/
  | acquire (l : LoadReq) (sc : Bool)
  /-- an atomic at its memory-side unit -/
  | atomic
  /-- a DDE command -/
  | dde
  /-- a collective -/
  | coll
deriving DecidableEq, Repr, Inhabited

/-- A producer in flight: its number, slot and destination registers. -/
structure Producer where
  id : Nat
  slot : Nat
  dests : List Reg
  work : Flight
  /-- the program counter of its word -/
  pc : Word
  /-- what its destinations' full/empty bits were at issue: a trap leaves them so (R355) -/
  was : List Fill
deriving DecidableEq, Repr, Inhabited

/-- A beat (R79): 512 data bits, eight control bits, and the side lane of block scales (R268). -/
structure Beat where
  data : Line
  ctl : BitVec 8
  side : BitVec 64
deriving DecidableEq, Repr, Inhabited

/-- The part of a firing that is formed at its commit: the stage's word, its operands A and B, and the tensor scale that held
at its start (R141, R154, R155). -/
structure Late where
  word : IWord
  a : Line
  b : Line
  scale : BitVec 32
deriving DecidableEq, Repr, Inhabited

/-- A firing of a template stage between its start and its commit (R78): the beats it takes from each selector, the beats it
delivers, and what its commit records. -/
structure Firing where
  /-- selector × 16 + sticky index, and the number of beats -/
  takes : List (Nat × Nat)
  /-- the output port that a VSTEER chose; otherwise the destination code's -/
  steer : Option Nat
  outs : List Line
  flags : BitVec 5
  /-- magnitude register and its candidate (R69) -/
  mag : Option (Nat × Nat)
  /-- VSCAN's new carry (R150) -/
  carry : Option Word
  late : Option Late
deriving DecidableEq, Repr, Inhabited

/-- A template stage: its word and its state (R134, R160). -/
structure Stage where
  word : IWord
  /-- stream position (R60) -/
  pos : Nat
  /-- VSCAN's carry -/
  carry : Word
  /-- for each input port, how many firings the token at its head has served (R81) -/
  served : Assoc Nat
  firing : Option Firing
deriving DecidableEq, Repr, Inhabited

/-- A chain template (R129, R131, R135). -/
structure Template where
  base : Nat
  len : Nat
  res : Bool
  stages : List Stage
  /-- the internal arc from stage p to stage c, at key 16 p + c -/
  arcs : Assoc (List Beat)
  flags : BitVec 5
  /-- m0 to m3 -/
  mags : List (BitVec 32)
deriving DecidableEq, Repr, Inhabited

/-- A chain in a core's queue (R156, R157). -/
structure Chain where
  tmpl : Nat
  /-- the fields of i0 to i3, o0, o1 -/
  fields : List Nat
  n : Nat
  eoi : Bool
  ticket : Nat
  running : Bool
  /-- the moment of its acceptance: its input streams read no earlier (R159) -/
  since : Nat
  /-- beats read of each memory input, written of each memory output -/
  rd : Assoc Nat
  wr : Assoc Nat
  /-- a resident beat of a memory stream (R173) -/
  held : Assoc Beat
  /-- the last beat of an output port, kept back until it is certain whether the chain ends short: only then has it no eor (R286) -/
  kept : Assoc Beat
  /-- an eoi marker has ended it: none of its stages fires again (R157) -/
  short : Bool
  flags : BitVec 5
deriving DecidableEq, Repr, Inhabited

/-- An accumulator entry (R161). -/
structure AccEntry where
  mode : BitVec 3
  bits : BitVec 2048
deriving DecidableEq, Repr, Inhabited

/-- The writes ordered before a slot's words (R493, R494): by byte, the latest of their moments; at key 0 a moment that stands for every byte. [DEDUCED, log 11] -/
structure SlotOrder where
  /-- ordered before the words behind the slot's next FENCE.wait -/
  next : Assoc Nat
  /-- ordered before the slot's next word -/
  view : Assoc Nat
deriving DecidableEq, Repr, Inhabited

/-- A compute core or a control core. A control core has one slot and uses none of the pipeline's fields. -/
structure Core where
  /-- slots 0 to 7 of a compute core, slot 0 of a control core -/
  slots : Assoc Slot
  /-- the slot that issued most recently (R75) -/
  last : Nat
  trapvec : BitVec 32
  /-- c0 to c15 -/
  chans : Assoc Chan
  /-- the phase buffer (R169) -/
  phase : List PWord
  /-- the moment of the last refresh (R214) -/
  refresh : Nat
  /-- for each byte, the latest moment of a value that a load returned or that a store of the core's own left (R214, R493) -/
  seen : Assoc Nat
  /-- by slot, the writes ordered before its words (R493, R494) -/
  own : Assoc SlotOrder
  /-- the writes ordered before the loads of every slot, by a store of a slot that is behind them (R170, R494) -/
  shared : Assoc Nat
  /-- the writes ordered before every slot's words, by an STL or an LDG.acq behind them (R168, R215, R494) -/
  every : Assoc Nat
  /-- by byte, the writes ordered before an atomic of the core that has performed there, which a later atomic on the byte is behind (R220, R494) -/
  passed : Assoc (Assoc Nat)
  /-- RDTIME.cyc's count (R121) -/
  cyc : Nat
  /-- the pending SEED: its slot and value (R123) -/
  seed : Option (Nat × Word)
  producers : List Producer
  /-- the next copy's ticket, and the copies of the core not yet waited out: ticket and status word (R336) -/
  copyTicket : Nat
  copyDone : Assoc Word
  /-- a control core that an image started (R434) -/
  started : Bool
  /-- the instruction store; a word not listed is all ones (R191) -/
  istore : Assoc IWord
  accs : Assoc AccEntry
  /-- the modes that the image gave the accumulator entries (R162, R178) -/
  loadModes : List (BitVec 3)
  /-- the sticky table; an entry not listed is 1 (R191) -/
  sticky : Assoc Nat
  templates : Assoc Template
  /-- constant k of template t at key 16 t + k -/
  consts : Assoc (BitVec 32)
  chains : List Chain
  nextTicket : Nat
  /-- the status words of ended chains by ticket (R158) -/
  ended : Assoc Word
  /-- the tensor scale of MSCALE (R277) -/
  scale : BitVec 32
deriving DecidableEq, Repr, Inhabited

/-! ### The fabric of a region -/

/-- A route entry (R193). -/
structure Route where
  skind : Nat
  sidx : Nat
  sport : Nat
  dunit : Nat
  dport : Nat
  sfmt : Fmt
  smod : Nat
  dfmt : Fmt
  dmod : Nat
  rnd : Rnd
  sat : Bool
  tsc : Bool
  spill : Bool
  depth : Nat
  mu : Nat
  mubase : Nat
  ring : Nat
  init : Nat
deriving DecidableEq, Repr, Inhabited

/-- A beat on its way to the conversion of its arc, with the MX tensor scale it was emitted under (R196). -/
structure Inbound where
  beat : Beat
  scale : BitVec 32
deriving DecidableEq, Repr, Inhabited

/-- An arc: its route and what R206 saves of it. -/
structure Arc where
  route : Route
  /-- beats pushed by the producer and not yet converted -/
  inbox : List Inbound
  fifo : List Beat
  /-- beats in the spill ring, a path apart from every other access (R201) -/
  ring : List Beat
  /-- how many beats have left the FIFO: beat `i` from the head stands in the word numbered `out + i` (R207) -/
  out : Nat
  /-- the ring's read position, in beats (R206) -/
  rpos : Nat
  /-- a partly filled beat: the elements' codes so far, and eor seen (R197) -/
  part : List Nat
  /-- beside each of them, the scale of the block that begins there (R268) -/
  partSide : List (Option Nat)
  partEor : Bool
  /-- the scale that the arc's conversion has latched, E8M0, or of its last block (R67, R196, R498); 127 is 2^0 -/
  latch : Nat
  /-- the header scale that the consumer at the arc's end has latched, E8M0 (R67); 127 is 2^0 -/
  held : Nat
  /-- consumer-side beats since the start of the invocation (R60) -/
  count : Nat
  flags : BitVec 5
deriving DecidableEq, Repr, Inhabited

/-- A steer or merge node of a data switch (R202). -/
structure SwitchNode where
  merge : Bool
  n : Nat
  fmt : Fmt
deriving DecidableEq, Repr, Inhabited

/-- An allocation of an MU (R209), base and size in 4 KiB units. -/
structure Alloc where
  f : Nat
  base : Nat
  size : Nat
deriving DecidableEq, Repr, Inhabited

/-- An AG pattern (R226): loop j's count and raw 24-bit stride. -/
structure Pattern where
  tensor : Bool
  write : Bool
  col : Bool
  fmt : Fmt
  loops : List (Nat × Nat)
deriving DecidableEq, Repr, Inhabited

/-- A window entry of a stream port (R324). -/
structure Window where
  tid : Nat
  lo : Nat
  hi : Nat
  base : Nat
  stride : Nat
  r : Bool
  w : Bool
  /-- disabled by TINV (R341) -/
  off : Bool
deriving DecidableEq, Repr, Inhabited

/-- An entry of a stream port's queue (R228 to R231). -/
inductive PortEntry where
  | cmd (pat : Nat) (base : Word) (n : Nat) (eoi : Bool) (ticket : Nat)
  | close (ticket : Nat)
  | barrier (id : Nat)
  /-- a command of a coat chain's pass (R249): base, beats -/
  | coat (chain : Nat) (base : Word) (beats : Nat)
deriving DecidableEq, Repr, Inhabited

/-- A stream port (R229, R230). -/
structure Port where
  queue : List PortEntry
  ticket : Nat
  closing : Bool
  closed : Bool
  /-- beats of the current command done -/
  done : Nat
  /-- all beats of the current command done, its eoi still due -/
  tail : Bool
  /-- beats of a command of which a short end was recorded (R229) -/
  lastShort : Option Nat
  windows : Assoc Window
  /-- the tag of the translation fault the port waits on (R327) -/
  fault : Option Nat
  /-- its translation fault waits for a place in the fault ring (R447) -/
  full : Bool
deriving DecidableEq, Repr, Inhabited

/-- An address generator. -/
structure Ag where
  patterns : Assoc Pattern
  ports : Assoc Port
deriving DecidableEq, Repr, Inhabited

/-- A CBAR or PHASE barrier (R217). -/
structure Bar where
  count : Nat
  e : Nat
  inst : BitVec 32
  arrived : List (Nat × Nat)
deriving DecidableEq, Repr, Inhabited

/-- A transfer barrier (R338). -/
structure TBar where
  c : Nat
  e : Nat
  armed : Bool
  inst : BitVec 32
deriving DecidableEq, Repr, Inhabited

/-! ### The matrix unit (R260 to R283) -/

/-- A section: its frame (R263) and its state (R282). -/
structure Section where
  afmt : Fmt
  bfmt : Fmt
  smod : Nat
  g : Nat
  node0 : Nat
  pfirst : Nat
  kp : Nat
  ecnt : Nat
  count : Nat
  j : Nat
  tiles : Nat
  flags : BitVec 5
  latch : Nat
  lot : Bool
  /-- a header was latched and no data beat has followed it -/
  hdr : Bool
  /-- the operand collector: beats taken at a lift marker for a firing to come, each with the scale it stands under (R282) -/
  coll : List (Beat × Nat)
  /-- armed by GARM and not yet checked (R304) -/
  check : Bool
deriving DecidableEq, Repr, Inhabited

/-- A slot of the panel directory (R267). -/
structure Panel where
  valid : Bool
  off : Nat
  len : Nat
  fmt : Fmt
  smod : Nat
  /-- the S address the panel came from, or input 4 -/
  src : Option Nat
  digest : Word
deriving DecidableEq, Repr, Inhabited

/-- A load in the MX load queue (R275). -/
structure PanelLoad where
  slot : Nat
  off : Nat
  src : Option Nat
  started : Bool
  len : Nat
  got : Nat
  /-- its number, by which MARM names it -/
  id : Nat
deriving DecidableEq, Repr, Inhabited

/-- A matrix unit. -/
structure Mx where
  sections : Assoc Section
  /-- weight-buffer units; a unit not listed is zero -/
  buffer : Assoc Line
  panels : Assoc Panel
  loads : List PanelLoad
  loadId : Nat
  /-- element n of node k at key 128 k + n: a 32-bit pattern -/
  bank : Assoc (BitVec 32)
  /-- the nodes' end-of-reduction counts -/
  eors : Assoc Nat
  scale : BitVec 32
  rot : Nat
deriving DecidableEq, Repr, Inhabited

/-! ### Coat chains (R236 to R259) -/

/-- A tap entry (R239); offsets are four-bit two's complement. -/
structure Tap where
  fsel : Nat
  dz : Nat
  dy : Nat
  dx : Nat
deriving DecidableEq, Repr, Inhabited

/-- A core's part in a coat (R237). -/
structure CoatCore where
  unit : Nat
  head : Bool
  last : Bool
  tmpl : Nat
  iport : Nat
  oport : Nat
  hmu : Nat
  hbase : Nat
  hsize : Nat
  taps : Assoc Tap
deriving DecidableEq, Repr, Inhabited

/-- A coat: its cores and its state (R257). -/
structure Coat where
  cores : List CoatCore
  /-- the blocks of step k - 1 received in this pass, in order -/
  cells : List Line
  next : Nat
  /-- the blocks on which a stage tied to them has started to fire (R255) -/
  begun : Nat
  emitted : Nat
  drain : Bool
  /-- has handled the pass's end of invocation -/
  fin : Bool
  /-- the stages of its cores' templates that have handled it: unit × 16 + stage -/
  ended : List Nat
  /-- the edge words under which the latest admitted block fires (R246, R255) -/
  edgeNow : List (BitVec 32)
deriving DecidableEq, Repr, Inhabited

/-- A coat chain: its frames and its pass controller. -/
structure CoatChain where
  depth : Nat
  sunit : Nat
  sport : Nat
  kunit : Nat
  kport : Nat
  coats : Assoc Coat
  running : Bool
  /-- has run since the fabric load (R252) -/
  ran : Bool
  desc : Line
  pass : Nat
  steps : Nat
  passes : Nat
  /-- the edge table: entry index, step, 24 words (R255) -/
  edge : Assoc (Nat × List (BitVec 32))
deriving DecidableEq, Repr, Inhabited

/-! ### Memory-side work -/

/-- A key of the deterministic order: interval, issuer, sequence (R221, R361). -/
structure Key where
  interval : Nat
  issuer : Nat
  seq : Nat
deriving DecidableEq, Repr, Inhabited

/-- The operation of an atomic. -/
inductive AtomKind where
  | upd (op : AtomOp)
  | val (op : AtomVOp)
deriving DecidableEq, Repr, Inhabited

/-- An atomic sent and not yet performed (R219 to R223). -/
structure Atomic where
  id : Nat
  unit : Nat
  slot : Nat
  glob : Bool
  addr : Nat
  /-- the memory-side unit that it leaves for (R220) -/
  mem : Nat
  n : Nat
  op : AtomKind
  x : Nat
  cmp : Nat
  key : Key
  /-- the program counter of its word -/
  pc : Word
  /-- the writes ordered before it (R494) -/
  view : Assoc Nat
deriving DecidableEq, Repr, Inhabited

/-- The command of an XFORM (R224). -/
inductive XCmd where
  | cvt (dfmt : Fmt)
  | scale
  | fill
  | add
  | amax
deriving DecidableEq, Repr, Inhabited

/-- A transform in progress (R225). -/
structure Xform where
  id : Nat
  unit : Nat
  slot : Nat
  cmd : XCmd
  fmt : Fmt
  rnd : Rnd
  sat : Bool
  /-- address within the cluster's S space -/
  addr : Nat
  n : Nat
  v : Word
deriving DecidableEq, Repr, Inhabited

/-- A publish whose completion a slot awaits (R120, R172). -/
structure Publish where
  id : Nat
  unit : Nat
  slot : Nat
  scope : Scope
deriving DecidableEq, Repr, Inhabited

/-! ### Copies, decision diagrams, collectives -/

/-- A copy accepted and not yet complete (R334, R336). -/
structure Copy where
  id : Nat
  unit : Nat
  ticket : Nat
  desc : Line
  /-- the descriptor's G offset and the word that issued it, for a stop record -/
  off : Nat
  word : IWord
  /-- the graph node it belongs to, if it is none of a core's -/
  node : Option Nat
  issuer : Nat
  started : Bool
  /-- its units in order, once it has started (R334) -/
  units : List Nat
  next : Nat
  flags : BitVec 5
  /-- the tag of the translation fault it waits on (R327) -/
  fault : Option Nat
deriving DecidableEq, Repr, Inhabited

/-- A queued invalidation (R341). -/
structure Tinv where
  id : Nat
  unit : Nat
  num : Nat
  all : Bool
  whole : Bool
  tid : Nat
  lo : Nat
  hi : Nat
deriving DecidableEq, Repr, Inhabited

/-- A node of a decision diagram (R349). -/
structure DdNode where
  level : Nat
  hi : Nat
  lo : Nat
  count : Nat
deriving DecidableEq, Repr, Inhabited

/-- A DDCFG record (R351). -/
structure DdCfg where
  nbase : Nat
  ubase : Nat
  cbase : Nat
  lc : Nat
  lk : Nat
  nv : Nat
deriving DecidableEq, Repr, Inhabited

/-- A slot of the unique table (R353). -/
inductive DdSlot where
  | empty
  | tomb
  | node (i : Nat)
deriving DecidableEq, Repr, Inhabited

/-- A context's decision-diagram table (R349 to R357). -/
structure DdTable where
  cfg : DdCfg
  nodes : Assoc DdNode
  uniq : Assoc DdSlot
  /-- the operation cache: k0, k1, k2 and the result (R354) -/
  cache : Assoc (Nat × Nat × Nat × Nat)
  /-- the variable-order registers; an entry not listed is the identity (R356) -/
  level : Assoc Nat
  var : Assoc Nat
  /-- the model's own: how many more insertions the command in hand makes before the engine leaves it; none where it runs to its end, and
  whenever no command is in hand (R360, R381) -/
  quota : Option Nat
  /-- the cache as it stood when a command of deterministic mode that the engine has left began, from which it begins again (R361, R381) -/
  kept : Option (Assoc (Nat × Nat × Nat × Nat))
deriving DecidableEq, Repr, Inhabited

/-- A command sent to the DDE (R359 to R361). -/
structure DdCmd where
  id : Nat
  unit : Nat
  slot : Nat
  key : Key
  op : Nat
  fn : Nat
  a : Word
  b : Word
  c : Word
  dest : Nat
  /-- its word and the word's program counter, for a stop record -/
  word : IWord
  pc : Word
  /-- a DDCFG's record, read at issue (R363) -/
  rcd : Line
  /-- a DDENUM that has been performed: the beats it has still to push -/
  beats : List Beat
  /-- it has been performed, with this result -/
  result : Option Nat
  /-- it has arrived at the engine and is accepted; in deterministic mode that plays no part (R360, R361) -/
  taken : Bool
deriving DecidableEq, Repr, Inhabited

/-- The operation of a COLL (R461). -/
inductive CollOp where
  | reduce
  | allReduce
  | gather
  | scatter
deriving DecidableEq, Repr, Inhabited

/-- A collective not yet complete (R463 to R469). -/
structure Coll where
  id : Nat
  seq : Nat
  unit : Nat
  slot : Nat
  op : CollOp
  tree : Bool
  desc : Line
  /-- the descriptor's G offset and the word, for a stop record -/
  off : Nat
  word : IWord
  started : Bool
  flags : BitVec 5
  /-- this member's source elements, as it read them -/
  src : List Nat
  /-- elements combined so far, by element index -/
  acc : Assoc Nat
  /-- the tree steps each element has passed -/
  steps : Assoc Nat
  /-- elements whose part at this member is over -/
  done : List Nat
  written : Nat
  /-- beats received and not consumed -/
  inbox : List CollMsg
  /-- the ranks whose descriptors have been found to agree with this member's (R463) -/
  heads : List Nat
deriving DecidableEq, Repr, Inhabited

/-! ### Launches and graphs (R292 to R315) -/

/-- The states of a record (R294). -/
inductive RecState where
  | queued
  | selected
  | colophonWait
  | running
  | preempted
  | done
deriving DecidableEq, Repr, Inhabited

/-- A launch record (R295) with the context it is tagged with. -/
structure Record where
  data : Line
  asid : Nat
  st : RecState
deriving DecidableEq, Repr, Inhabited

/-- The state of a graph node (R299). -/
inductive NodeState where
  | waiting
  | running
  | finished
deriving DecidableEq, Repr, Inhabited

/-- A node of a kernel graph (R297) and what the sequencer keeps of it. -/
structure GNode where
  kind : Nat
  aux : Nat
  pred : Nat
  succ : List Nat
  arg0 : Nat
  arg1 : Nat
  remaining : Nat
  st : NodeState
  /-- commands of a DDE batch performed, and their results -/
  entered : Nat
  results : List Nat
  /-- the entries of a DDE batch, read at its start (R377) -/
  batch : List (BitVec 256)
  /-- the engine has left the batch's next entry on its way (R359) -/
  midway : Bool
  /-- the arm entries of a fabric load, read with the graph (R298) -/
  arms : List Word
deriving DecidableEq, Repr, Inhabited

/-- An image being read (R190). -/
structure Load where
  node : Nat
  /-- G offset of the image -/
  base : Nat
  frames : List (BitVec 256)
deriving DecidableEq, Repr, Inhabited

/-- The graph a region runs (R299, R315). -/
structure Graph where
  rcd : Record
  nodes : List GNode
  /-- the ready nodes not yet started, in the order in which they became ready (R300) -/
  ready : List Nat
  /-- loads started: the next configuration sequence number -/
  loads : Nat
  /-- the load resident now: its node -/
  resident : Option Nat
  load : Option Load
  flags : BitVec 5
  /-- records held by successor nodes (node) and by GLAUNCH (issuer) -/
  heldNodes : List (Nat × Record)
  heldTasks : List (Nat × Record)
  /-- the output tensors of the checking list (R311) -/
  outs : List Nat
  /-- 1 or 2 in checking mode, else 0 -/
  run : Nat
  digests1 : Assoc Word
  digests : Assoc Word
  /-- watchdog time consumed, ns, and TIME when counting last stood -/
  wdog : Nat
  wdogAt : Nat
  /-- its last load was found complete in the cycle in which the watchdog ran out: the watchdog does not fire (R424) -/
  spared : Bool
  /-- every held record has been appended and the completion record may be written -/
  closing : Bool
  /-- first-stage output tiles that copies of higher index than the running load have written beside it (R300) -/
  ahead : List Nat
deriving DecidableEq, Repr, Inhabited

/-! ### Stops (R416 to R427) -/

/-- A cause raised: the fields of R419 that the raising engine fills. -/
structure StopRec where
  cause : Nat
  kind : Nat
  unit : Nat
  sub : Nat
  sk : Nat
  position : Word
  address : Word
  d0 : Word
  d1 : Word
  time : Nat
deriving DecidableEq, Repr, Inhabited

/-- How far the removal of a stopped context has come (R418, R425). -/
inductive StopPhase where
  | none
  | halted
  | recorded
  | dumped
  | completed
  | whitewash (since : Nat)
deriving DecidableEq, Repr, Inhabited

/-- A pre-emption in progress (R428). -/
structure Preempt where
  migrate : Bool
  /-- nodes that have saved their state -/
  saved : List NodeRef
  /-- the ranks whose lift flits have arrived (R469) -/
  flits : List Nat
deriving DecidableEq, Repr, Inhabited

/-- What COLCHK reads (R124). -/
structure ColState where
  seq : Nat
  mask : Nat
  required : Bool
  nonce : Bool
  written : Bool
deriving DecidableEq, Repr, Inhabited

/-- A colophon to be written: the outgoing and the incoming context (R408, R410). -/
structure ColJob where
  /-- ASID and generation; none where the region had no resident context -/
  out : Option (Nat × Nat)
  seq : Nat
  iasid : Nat
  nonce : Word
  req : Bool
  mask : Nat
  time : Nat
deriving DecidableEq, Repr, Inhabited

/-! ### Regions -/

/-- A region: its rectangle, its queue, its graph, and the state of its clusters' units, each at its virtual unit number. A
unit not listed is as it stands after a scrub. -/
structure Region where
  x : Nat
  y : Nat
  pw : Nat
  ph : Nat
  w : Nat
  h : Nat
  /-- the virtual unit table: entry k is the 16-bit entry of virtual cluster vy w + vx (R441) -/
  vmap : List Nat
  inService : Bool
  resident : Option Nat
  /-- the spill areas that the resident context's accepted records named: G offset and 4 KiB units (R201, R406) -/
  spills : List (Nat × Nat)
  /-- the records of each priority level, head first -/
  levels : Assoc (List Record)
  starve : Assoc Nat
  graph : Option Graph
  /-- the record selected and not yet running -/
  pending : Option Record
  /-- the record that was done last (R294) -/
  doneRec : Option Record
  /-- a scrub is due before the selected record runs -/
  scrubDue : Bool
  colJob : Option ColJob
  col : ColState
  halt : Bool
  haltTime : Nat
  raised : List StopRec
  phase : StopPhase
  preempt : Option Preempt
  cores : Assoc Core
  arcs : Assoc Arc
  nodes : Assoc SwitchNode
  allocs : Assoc Alloc
  ags : Assoc Ag
  mxs : Assoc Mx
  coats : Assoc CoatChain
  bars : Assoc Bar
  phases : Assoc Bar
  tbars : Assoc TBar
  flying : List Flying
  atomics : List Atomic
  xforms : List Xform
  publishes : List Publish
  copies : List Copy
  tinvs : List Tinv
  ddq : List DdCmd
  colls : List Coll
  /-- the number of the next engine operation, stream barrier or invalidation -/
  nextId : Nat
deriving DecidableEq, Repr, Inhabited

/-! ### Contexts (R413 to R415) -/

/-- The states of a context (R415). -/
inductive CtxState where
  | created
  | resident
  | preempting
  | preempted
  | stopping
  | stopped
  | damaged
deriving DecidableEq, Repr, Inhabited

/-- A fault entry posted and not yet answered (R327, R447). -/
structure FaultEntry where
  tag : Nat
  /-- the function whose ring holds it -/
  func : Nat
  asid : Nat
  region : Nat
  write : Bool
  stage : Nat
  tid : Nat
  tile : Nat
  /-- the copy (number) or the stream port (AG unit, port) that waits -/
  copy : Option Nat
  port : Option (Nat × Nat)
deriving DecidableEq, Repr, Inhabited

/-- What an opaque item of a save image holds (R435): the section's type, the item's place in the section, and the part of a region's, of a
table's and of a context's state that it keeps, all else left blank. -/
structure Item where
  type : Nat
  idx : Nat
  reg : Region
  dd : Option DdTable
  seq : Nat
deriving DecidableEq, Repr, Inhabited

/-- A part of a section (R435): a memory image, stored byte for byte in address order, or an item whose bytes are opaque to software. -/
inductive Part where
  /-- the local store of a core -/
  | locals (u : Nat)
  /-- S addresses of a cluster: first byte and number of each range -/
  | scratch (cl : Nat) (l : List (Nat × Nat))
  /-- the image of a panel: units of the weight buffer of an MX -/
  | panel (u off len : Nat)
  /-- so many opaque bytes -/
  | opq (n : Nat) (x : Item)
  /-- bytes written elsewhere before: the stop-record area (R434, type 14) -/
  | raw (bs : List Byte)
deriving DecidableEq, Repr, Inhabited

/-- A section (R434, R435): type, unit, instance, and its items in order. -/
structure Sect where
  type : Nat
  unit : Nat
  inst : Nat
  items : List Part
deriving DecidableEq, Repr, Inhabited

/-- A save image (R432): its header's fields and what its sections hold. [DESIGN CHOICE, log 52] -/
structure SaveImage where
  kind : Nat
  st : Nat
  w : Nat
  h : Nat
  gen : Nat
  cseq : Nat
  image : Nat
  time : Nat
  /-- the region's state in the sections' items; what the configuration image gives is left out -/
  body : Region
  sects : List Sect
  /-- the image's length in bytes -/
  length : Nat
  /-- what the region's scratchpads and local stores held before, at keys relative to the region: a core that has not refreshed since may
  still read it (R214, R431) -/
  pastS : List (Nat × Nat × Byte)
  pastL : List (Nat × Nat × Byte)
  /-- the fault entries of the context's copies and ports, which are posted again at the restore (R347) -/
  waits : List FaultEntry
  /-- the G offsets of the tiles of spill rings that hold beats: the rings stay in memory (R206) -/
  rings : List Nat
deriving DecidableEq, Repr, Inhabited

/-- A context: its attributes (R413) and what the package keeps of it. [DEDUCED, log 32] -/
structure Context where
  attr : ContextArgs
  gen : Nat
  keyId : Nat
  st : CtxState
  seed : Word
  budget : Nat
  dd : Option DdTable
  /-- by memory-side unit, the atomics performed there since it last charged a unit for them (R448) -/
  atoms : Assoc Nat
  /-- the root of its second stage (R322, R413) -/
  root : Nat
  /-- the configuration sequence number of the last load it started (R300, R418) -/
  lastLoad : Nat
  /-- the next collective's sequence number -/
  collSeq : Nat
  /-- beats of collectives that this member has not issued yet (R469) -/
  early : List CollMsg
  /-- the beats its collectives have sent, oldest first: the receiver's gang rank and the message (R464 to R466) -/
  outbox : List (Nat × CollMsg)
  image : Option SaveImage
  gang : Option Nat
deriving DecidableEq, Repr, Inhabited

/-! ### Sealed memory (R385 to R400) -/

/-- A memory whose bytes have a history: the bytes now (a byte not listed is zero) and, latest first, every byte that a write
replaced with the last moment at which it stood (R214, R496). [DESIGN CHOICE, log 2] -/
structure VMem where
  cur : Assoc Byte
  past : List (Nat × Nat × Byte)
deriving DecidableEq, Repr, Inhabited

/-- The placement map's entry of a device tile (R385). -/
structure Place where
  ptn : Nat
  owner : Nat
  /-- being migrated or re-keyed: accesses wait (R329, R400) -/
  moving : Bool
deriving DecidableEq, Repr, Inhabited

/-- A metadata entry (R390), which describes a data tile or a metadata tile. -/
structure Meta where
  p : Bool
  z : Bool
  version : Nat
  tag : BitVec 64
deriving DecidableEq, Repr, Inhabited

/-- A metadata tile (R391): its 256 entries; one not listed is `base`. -/
structure MetaTile where
  base : Meta
  entries : Assoc Meta
deriving DecidableEq, Repr, Inhabited

/-- A verified copy of a metadata tile in a seal cache (R391, R392). -/
structure MetaHeld where
  tile : MetaTile
  dirty : Bool
deriving DecidableEq, Repr, Inhabited

/-- A tile held in a seal cache (R393): dirty, and the bytes written since a rewrite of a poisoned tile began (R398). -/
structure Held where
  version : Nat
  dirty : Bool
  rewrite : Option (Assoc Bool)
  /-- the region of the last writer of such a rewrite -/
  writer : Nat
deriving DecidableEq, Repr, Inhabited

/-- The state of a key slot (R386). -/
inductive KeyState where
  | free
  | active
  | retiring
deriving DecidableEq, Repr, Inhabited

/-- A slot of the key store (R386): the two keys of XTS-AES-256, the integrity key, and the slot's state. -/
structure KeySlot where
  xts1 : BitVec 256
  xts2 : BitVec 256
  integ : BitVec 256
  st : KeyState
deriving DecidableEq, Repr, Inhabited

/-- A cached first-stage translation: a tensor tile's first-stage output tile and its rights (R321, R323). With the cached
second-stage entries it makes the combined entries of R323 (R342: one old or new entry of each stage). -/
structure TEntry where
  asid : Nat
  gen : Nat
  tid : Nat
  tile : Nat
  mid : Nat
  r : Bool
  w : Bool
deriving DecidableEq, Repr, Inhabited

/-- A cached second-stage translation: a first-stage output tile's device tile and its rights (R322, R323). -/
structure SEntry where
  asid : Nat
  gen : Nat
  mid : Nat
  dev : Nat
  r : Bool
  w : Bool
deriving DecidableEq, Repr, Inhabited

/-- A cached interior entry of a tile table (R323, R341): read at index `idx` of the table tile `tab` for the tiles `lo` to `hi` of a tensor. -/
structure WEntry where
  asid : Nat
  gen : Nat
  tid : Nat
  tab : Nat
  idx : Nat
  lo : Nat
  hi : Nat
  bits : Word
deriving DecidableEq, Repr, Inhabited

/-- A cached tensor-table entry (R318, R341). -/
structure NEntry where
  asid : Nat
  gen : Nat
  tid : Nat
  bits : BitVec 256
deriving DecidableEq, Repr, Inhabited

/-! ### The host's side (R442 to R449) -/

/-- A launch queue (R443). -/
structure Queue where
  base : Word
  lsz : Nat
  en : Bool
  ridx : Nat
  widx : Nat
  code : Nat
  back : Bool
  cfgw : Bool
  dead : Bool
  err : Bool
  ctx : Option (Nat × Nat)
deriving DecidableEq, Repr, Inhabited

/-- A function of the host interface (R442): its queues, its fault ring and its interrupts. -/
structure Func where
  queues : Assoc Queue
  fbase : Word
  flsz : Nat
  fen : Bool
  fwidx : Nat
  fridx : Nat
  /-- the host aperture of a virtual function: first byte and size; none until the physical function has registered one here, what it
  registered before being free -/
  aperture : Option (Nat × Nat)
  /-- how often each MSI-X vector has been raised -/
  msix : Assoc Nat
deriving DecidableEq, Repr, Inhabited

/-- The admin ring (R449). -/
structure Admin where
  base : Word
  lsz : Nat
  en : Bool
  ridx : Nat
  widx : Nat
  code : Nat
  back : Bool
  err : Bool
deriving DecidableEq, Repr, Inhabited

/-! ### Gangs (R457 to R460) -/

/-- A slice being started (R459). -/
structure Slice where
  num : Nat
  deadline : Nat
  /-- this package's member has vacated and reported -/
  vacated : Bool
  /-- "go" has come -/
  go : Bool
deriving DecidableEq, Repr, Inhabited

/-- A gang with a member on this package. [DEDUCED, log 54] -/
structure Gang where
  size : Nat
  grace : Nat
  members : List (Nat × Nat)
  /-- this package's rank and context -/
  rank : Nat
  asid : Nat
  slice : Option Slice
  /-- the coordinator's list of the reports it has: slice and rank -/
  reports : List (Nat × Nat)
  /-- messages sent to other members: the receiver's rank, a code (1 vacated, 2 go, 3 abort, 4 stop, 5 pre-empt, 6 lift flit), and the slice -/
  sent : List (Nat × Nat × Nat)
  /-- slices reported as timed out on the admin ring -/
  timeouts : List Nat
  /-- ranks whose lift flits came before this member's own pre-emption began (R469) -/
  lifts : List Nat
  /-- the rank of a member whose stop came while this one's record awaits its scrub (R458) -/
  stopBy : Option Nat
deriving DecidableEq, Repr, Inhabited

/-- What the root controller reports through the management interface. -/
inductive Notice where
  /-- a scrub of this region could not clear this structure class (R407) -/
  | scrubFailed (region cls : Nat)
  /-- a region is out of service (R426) -/
  | outOfService (region : Nat)
  /-- a metadata tile failed its tag: level and index (R398) -/
  | metadataFailed (level idx : Nat)
  /-- to the host: the contexts that own tiles beneath it (R398) -/
  | ownersAffected (asids : List Nat)
  /-- the public attestation key and its certificate chain (R409, R449) -/
  | certificates (key chain : List Byte)
deriving DecidableEq, Repr, Inhabited

/-! ### The machine -/

/-- Where the next step's instruction stands. -/
inductive Turn where
  /-- no instruction has been selected: the next step makes a move -/
  | none
  /-- the slot under the cursor issues its next word -/
  | issue
  /-- the template stage under the cursor starts a firing -/
  | stage
deriving DecidableEq, Repr, Inhabited

/-- The slot, or the template stage, that the current step is about. -/
structure Cursor where
  region : Nat
  unit : Nat
  slot : Nat
  tmpl : Nat
  stage : Nat
deriving DecidableEq, Repr, Inhabited

/-- A soft error present and not yet met: where it struck, and the bytes of its word that have been written over since (R175). -/
structure SoftErr extends ErrorSite where
  wrote : BitVec 8
deriving DecidableEq, Repr, Inhabited

/-- The state of a package. -/
structure State where
  turn : Turn
  cur : Cursor
  /-- what moves next, in order; where it is empty the move is free -/
  agenda : List Move
  /-- the model's own counter of free values -/
  fresh : Nat
  /-- TIME (R46), nanoseconds since reset -/
  time : Nat
  /-- the one time order of R496: the moment now -/
  moment : Nat
  smem : VMem
  lmem : VMem
  tmem : VMem
  regions : Assoc Region
  contexts : Assoc Context
  /-- by region, the removed context that was resident there: the scrub of what it left outside the region is still due (R406); and whether its
  key still seals its memory -/
  leaving : Assoc (Context × Bool)
  /-- each ASID's generation (R323) -/
  gens : Assoc Nat
  places : Assoc Place
  /-- the metadata tiles that tier memory holds, by level and index -/
  metas : Assoc MetaTile
  /-- the verified copies of metadata tiles in the seal caches -/
  metaHeld : Assoc MetaHeld
  /-- the root registers: 32 of tier 1, 256 of tier 2; one not listed is fresh (R391, R411) -/
  roots : Assoc Meta
  /-- bytes of stored tiles that something outside the package has changed: what the exclusive or with the stored byte is -/
  spoilt : Assoc Byte
  held : Assoc Held
  keys : Assoc KeySlot
  /-- the key IDs under which a write has met the last version: their tenants are to be re-keyed (R400) -/
  rekeys : List Nat
  /-- the private attestation key of the life-cycle state (R409, R411) -/
  attest : Nat
  tlb : List TEntry
  tlb2 : List SEntry
  /-- the walk caches of the first stage -/
  walks : List WEntry
  tnames : List NEntry
  scrubSeq : Nat
  life : LifeCycle
  /-- defective physical clusters, as 16 x + y (R441) -/
  fuse : List Nat
  funcs : Assoc Func
  faults : List FaultEntry
  nextTag : Nat
  admin : Admin
  /-- bytes the device has written to host memory -/
  hostMem : Assoc Byte
  gangs : Assoc Gang
  domainRank : Nat
  /-- links taken down (R470) -/
  linksDown : List Nat
  /-- domain ranks to which no path is left, with the port of the link that failed (R470) -/
  unreach : List (Nat × Nat)
  /-- expander ports whose link has failed (R451) -/
  expandersDown : List Nat
  /-- physical clusters out of service until a reset, as 16 x + y (R407, R426) -/
  retired : List Nat
  /-- reports of the root controller, oldest first -/
  notices : List Notice
  /-- soft errors present and not yet met (R175) -/
  errors : List SoftErr
  /-- errors corrected, counted for telemetry (R175) -/
  corrected : Nat
  /-- the arithmetic clock is lowered (R451) -/
  throttled : Bool
deriving DecidableEq, Repr, Inhabited

/-- The ways a step could stop with a fault. No instruction and no event of this model ends in one: a fault of the ZV7 raises
the region's halt line and writes records, which is a next state (R416). The type is closed. -/
inductive Fault where
  /-- Raised by nothing; it would be safe, since a stop allows less than the machine does. -/
  | stuck
deriving DecidableEq, Repr, Inhabited

/-- The ways a step could be refused. -/
inductive Refusal where
  /-- Raised by the dispatch arm of an instruction without a meaning in this model, by its mnemonic; safe. -/
  | notModelled (mnemonic : String)
deriving DecidableEq, Repr, Inhabited

/-! ### Values after a reset or a scrub (R191, R403, R411) -/

/-- A task slot after a scrub. [DESIGN CHOICE, log 4] -/
def Slot.init : Slot :=
  { pc := 0, regs := [], fills := [], preds := 0, chbind := 0, count := 0, st := .idle, prog := .fresh, fpflags := 0,
    fpmode := 0, trapinfo := 0, trap := none, roster := false, interval := 0, aseq := 0, dseq := 0 }

/-- An empty channel. -/
def Chan.init : Chan := { words := [], sender := none }

/-- A core after a scrub. [DESIGN CHOICE, log 4] -/
def Core.init : Core :=
  { slots := [], last := 7, trapvec := 0, chans := [], phase := [], refresh := 0, seen := [], own := [], shared := [], every := [], passed := [],
    cyc := 0, seed := none, producers := [], copyTicket := 0, copyDone := [], started := false,
    istore := [], accs := [], loadModes := [], sticky := [], templates := [], consts := [], chains := [], nextTicket := 0, ended := [],
    scale := 0x3F800000 }

/-- An accumulator entry after a scrub: zero bits in mode 0 (R162). -/
def AccEntry.init : AccEntry := { mode := 0, bits := 0 }

/-- A stream port at load. -/
def Port.init : Port :=
  { queue := [], ticket := 0, closing := false, closed := false, done := 0, tail := false, lastShort := none,
    windows := [], fault := none, full := false }

/-- An AG at load. -/
def Ag.init : Ag := { patterns := [], ports := [] }

/-- A barrier at load. -/
def Bar.init : Bar := { count := 0, e := 0, inst := 0, arrived := [] }

/-- A transfer barrier after a scrub. -/
def TBar.init : TBar := { c := 0, e := 0, armed := false, inst := 0 }

/-- An MX at load. [DESIGN CHOICE, log 4] -/
def Mx.init : Mx :=
  { sections := [], buffer := [], panels := [], loads := [], loadId := 0, bank := [], eors := [], scale := 0x3F800000,
    rot := 0 }

/-- The colophon state before any scrub. [DESIGN CHOICE, log 4] -/
def ColState.init : ColState := { seq := 0, mask := 0, required := false, nonce := false, written := false }

/-- A region after its creation: nothing but its shape. [DESIGN CHOICE, log 4] -/
def Region.init (x y pw ph w h : Nat) (vmap : List Nat) : Region :=
  { x := x, y := y, pw := pw, ph := ph, w := w, h := h, vmap := vmap, inService := true, resident := none, spills := [],
    levels := [], starve := [], graph := none, pending := none, doneRec := none, scrubDue := false, colJob := none,
    col := ColState.init, halt := false, haltTime := 0, raised := [], phase := .none, preempt := none, cores := [],
    arcs := [], nodes := [], allocs := [], ags := [], mxs := [], coats := [], bars := [], phases := [], tbars := [],
    flying := [], atomics := [], xforms := [], publishes := [], copies := [], tinvs := [], ddq := [], colls := [],
    nextId := 0 }

/-- A memory with nothing listed. [DESIGN CHOICE, log 2] -/
def VMem.init : VMem := { cur := [], past := [] }

/-- The canonical form of a memory: rising addresses, no byte listed that an unlisted one would read as. [DESIGN CHOICE, log 2] -/
def VMem.wf (m : VMem) : Bool := Assoc.wf (0 : Byte) m.cur

/-- A launch queue at reset. [DESIGN CHOICE, log 4] -/
def Queue.init : Queue :=
  { base := 0, lsz := 0, en := false, ridx := 0, widx := 0, code := 0, back := false, cfgw := false, dead := false,
    err := false, ctx := none }

/-- A function at reset. [DESIGN CHOICE, log 4] -/
def Func.init : Func :=
  { queues := [], fbase := 0, flsz := 0, fen := false, fwidx := 0, fridx := 0, aperture := none, msix := [] }

/-- The admin ring at reset. [DESIGN CHOICE, log 4] -/
def Admin.init : Admin :=
  { base := 0, lsz := 0, en := false, ridx := 0, widx := 0, code := 0, back := false, err := false }

/-- The metadata of a tile never written: fresh (R392, R411). -/
def Meta.init : Meta := { p := false, z := true, version := 0, tag := 0 }

/-- A key slot that holds nothing. -/
def KeySlot.none : KeySlot := { xts1 := 0, xts2 := 0, integ := 0, st := .free }
/-- Keys for slot `k` from the key generator's reading `n` (R386). [DESIGN CHOICE, log 70] -/
def newKey (k n : Nat) : KeySlot :=
  { xts1 := BitVec.ofNat 256 (Config.freeKey (4 * k) n), xts2 := BitVec.ofNat 256 (Config.freeKey (4 * k + 1) n),
    integ := BitVec.ofNat 256 (Config.freeKey (4 * k + 2) n), st := .active }
/-- The order of the group of P-384. -/
def p384N : Nat := 0xFFFFFFFFFFFFFFFFFFFFFFFFFFFFFFFFFFFFFFFFFFFFFFFFC7634D81F4372DDF581A0DB248B0A77AECEC196ACCC52973
/-- An attestation key from the key generator's reading `n` (R409). [DESIGN CHOICE, log 70] -/
def newAttest (n : Nat) : Nat := 1 + Config.freeKey 3 n % (p384N - 1)

/-- The package right after reset (R411): every SRAM cleared, no key, no region, no context, every tile fresh. [DESIGN CHOICE, log 1; DESIGN CHOICE, log 3] -/
def State.reset : State :=
  { turn := .none, cur := { region := 0, unit := 0, slot := 0, tmpl := 0, stage := 0 }, agenda := [], fresh := 0,
    time := 0, moment := 0, smem := VMem.init, lmem := VMem.init, tmem := VMem.init, regions := [], contexts := [], leaving := [],
    gens := [], places := [], metas := [], metaHeld := [], roots := [], spoilt := [], held := [],
    keys := [(0, newKey 0 0)], rekeys := [], attest := newAttest 0, tlb := [], tlb2 := [], walks := [], tnames := [], scrubSeq := 0,
    life := .manufacturing, fuse := [], funcs := [], faults := [], nextTag := 0, admin := Admin.init, hostMem := [],
    gangs := [], domainRank := 0, linksDown := [], unreach := [], expandersDown := [], retired := [], notices := [], errors := [], corrected := 0,
    throttled := false }

end Sys2Proof.Machine
end

