-- ==== Sys2Proof/Machine/Ops.lean ====
section
/-! DEFINITION. The named operations over the state: units, cores and slots, registers, channels, waits, memory with its
history, phase buffers, stopping a region, and taking a trap. -/

namespace Sys2Proof.Machine

/-! ### Sorting -/

/-- Put `x` before the first element that it may stand before. -/
def insertBy {α : Type} (le : α → α → Bool) (x : α) : List α → List α
  | [] => [x]
  | y :: t => if le x y then x :: y :: t else y :: insertBy le x t
/-- A list in rising order of `le`; elements that are equal in it keep their order. -/
def sortBy {α : Type} (le : α → α → Bool) : List α → List α
  | [] => []
  | x :: t => insertBy le x (sortBy le t)

/-! ### Units (R6) -/

/-- A unit's kind: 0 compute core, 1 MU, 2 MX, 3 AG, 4 control core, 5 switch. -/
def uKind (u : Nat) : Nat := u / 8 % 16
/-- A unit's index within its kind. -/
def uIdx (u : Nat) : Nat := u % 8
/-- The cluster of a unit, as vx × 16 + vy. -/
def uCl (u : Nat) : Nat := u / 128
/-- The unit of a cluster, a kind and an index. -/
def mkUnit (cl kind idx : Nat) : Nat := cl * 128 + kind * 8 + idx
/-- A cluster lies in a region of this shape. -/
def clusterOk (R : Region) (cl : Nat) : Bool := decide (cl / 16 < R.w) && decide (cl % 16 < R.h)
/-- The index limit of a kind (R6). -/
def kindCount (k : Nat) : Nat :=
  match k with
  | 0 => 4
  | 1 => 4
  | 2 => 1
  | 3 => 2
  | 4 => 1
  | 5 => 1
  | _ => 0
/-- A unit of the region. -/
def unitOk (R : Region) (u : Nat) : Bool :=
  decide (u < 2 ^ 16) && clusterOk R (uCl u) && decide (uIdx u < kindCount (uKind u))
/-- A control core. -/
def isCtl (u : Nat) : Bool := uKind u == 4
/-- A compute core or a control core of the region. -/
def isCoreUnit (R : Region) (u : Nat) : Bool := unitOk R u && (uKind u == 0 || uKind u == 4)
/-- The slots of a core: eight, or one on a control core (R70). -/
def slotCount (u : Nat) : Nat := if isCtl u then 1 else 8
/-- Every cluster of a region, in increasing vx × 16 + vy. -/
def clusters (R : Region) : List Nat :=
  (List.range R.w).flatMap (fun x => (List.range R.h).map (fun y => x * 16 + y))
/-- Every core of a region, in increasing unit number. -/
def coreUnits (R : Region) : List Nat :=
  (clusters R).flatMap (fun cl => [mkUnit cl 0 0, mkUnit cl 0 1, mkUnit cl 0 2, mkUnit cl 0 3, mkUnit cl 4 0])

/-! ### Reaching into the state -/

/-- A region that does not exist: no cluster. -/
def Region.absent : Region := Region.init 0 0 0 0 0 0 []
/-- Region `r`. -/
def State.region (s : State) (r : Nat) : Region := Assoc.get Region.absent r s.regions
/-- Put region `r` back. -/
def State.setRegion (r : Nat) (R : Region) (s : State) : State := { s with regions := Assoc.put r R s.regions }
/-- Change region `r`. -/
def State.modRegion (r : Nat) (f : Region → Region) (s : State) : State := s.setRegion r (f (s.region r))
/-- Core `u` of a region. -/
def Region.core (R : Region) (u : Nat) : Core := Assoc.get Core.init u R.cores
/-- Put core `u` back. -/
def Region.setCore (u : Nat) (c : Core) (R : Region) : Region := { R with cores := Assoc.put u c R.cores }
/-- Slot `k` of a core. -/
def Core.slot (c : Core) (k : Nat) : Slot := Assoc.get Slot.init k c.slots
/-- Put slot `k` back. -/
def Core.setSlot (k : Nat) (sl : Slot) (c : Core) : Core := { c with slots := Assoc.put k sl c.slots }
/-- Channel `j` of a core. -/
def Core.chan (c : Core) (j : Nat) : Chan := Assoc.get Chan.init j c.chans
/-- Put channel `j` back. -/
def Core.setChan (j : Nat) (ch : Chan) (c : Core) : Core := { c with chans := Assoc.put j ch c.chans }
/-- Core `u` of region `r`. -/
def State.core (s : State) (r u : Nat) : Core := (s.region r).core u
/-- Change core `u` of region `r`. -/
def State.modCore (r u : Nat) (f : Core → Core) (s : State) : State :=
  s.modRegion r (fun R => R.setCore u (f (R.core u)))
/-- Slot `k` of core `u` of region `r`. -/
def State.slot (s : State) (r u k : Nat) : Slot := (s.core r u).slot k
/-- Change that slot. -/
def State.modSlot (r u k : Nat) (f : Slot → Slot) (s : State) : State :=
  s.modCore r u (fun c => c.setSlot k (f (c.slot k)))
/-- The region under the cursor. -/
def State.hereR (s : State) : Region := s.region s.cur.region
/-- The core under the cursor. -/
def State.hereC (s : State) : Core := s.core s.cur.region s.cur.unit
/-- The slot under the cursor. -/
def State.here (s : State) : Slot := s.slot s.cur.region s.cur.unit s.cur.slot
/-- Change the region under the cursor. -/
def State.modHereR (f : Region → Region) (s : State) : State := s.modRegion s.cur.region f
/-- Change the core under the cursor. -/
def State.modHereC (f : Core → Core) (s : State) : State := s.modCore s.cur.region s.cur.unit f
/-- Change the slot under the cursor. -/
def State.modHere (f : Slot → Slot) (s : State) : State := s.modSlot s.cur.region s.cur.unit s.cur.slot f
/-- The cluster under the cursor. -/
def State.hereCl (s : State) : Nat := uCl s.cur.unit
/-- Stream port `p` of AG `u`. -/
def Region.port (R : Region) (u p : Nat) : Port := Assoc.get Port.init p (Assoc.get Ag.init u R.ags).ports
/-- Change that port. -/
def Region.modPort (u p : Nat) (f : Port → Port) (R : Region) : Region :=
  let ag := Assoc.get Ag.init u R.ags
  { R with ags := Assoc.put u { ag with ports := Assoc.put p (f (Assoc.get Port.init p ag.ports)) ag.ports } R.ags }
/-- MX `u`. -/
def Region.mx (R : Region) (u : Nat) : Mx := Assoc.get Mx.init u R.mxs
/-- Change MX `u`. -/
def Region.modMx (u : Nat) (f : Mx → Mx) (R : Region) : Region := { R with mxs := Assoc.put u (f (R.mx u)) R.mxs }
/-- Barrier `id` of cluster `cl`. -/
def Region.bar (R : Region) (cl id : Nat) : Bar := Assoc.get Bar.init (cl * 16 + id) R.bars
/-- Transfer barrier `id` of cluster `cl`. -/
def Region.tbar (R : Region) (cl id : Nat) : TBar := Assoc.get TBar.init (cl * 16 + id) R.tbars
/-- Put a transfer barrier back. -/
def Region.setTbar (cl id : Nat) (b : TBar) (R : Region) : Region := { R with tbars := Assoc.put (cl * 16 + id) b R.tbars }
/-- Level `l` of the region's queue. -/
def Region.level (R : Region) (l : Nat) : List Record := Assoc.get [] l R.levels
/-- The context resident on the region. -/
def State.ctxOf (s : State) (R : Region) : Option Context :=
  match R.resident with
  | some a => Assoc.find a s.contexts
  | none => none
/-- Change a context, if it exists. -/
def State.modCtx (asid : Nat) (f : Context → Context) (s : State) : State :=
  match Assoc.find asid s.contexts with
  | some c => { s with contexts := Assoc.put asid (f c) s.contexts }
  | none => s
/-- Take the next number for an engine operation of region `r`. -/
def State.takeId (r : Nat) (s : State) : Nat × State :=
  ((s.region r).nextId, s.modRegion r (fun R => { R with nextId := R.nextId + 1 }))
/-- Draw a free value. [DESIGN CHOICE, log 5] -/
def State.draw (s : State) : Nat × State := (Config.freeNat s.fresh, { s with fresh := s.fresh + 1 })

/-- An event or an instruction always leaves a next state. [DESIGN CHOICE, log 6] -/
def nx (s : State) : Host.Outcome State Fault Refusal := .next s

/-! ### Determinism (R46, R295) -/

/-- DETMODE of a region (R46): bits 0 to 3. [DEDUCED, log 23] -/
def detMode (s : State) (R : Region) : Nat :=
  match R.graph with
  | none => 0
  | some g =>
    let d := g.rcd.data.toNat
    let det := bit d 67 || (match Assoc.find g.rcd.asid s.contexts with
                            | some c => c.attr.det
                            | none => false)
    b2n det + 2 * b2n (bit d 68) + 4 * b2n (bit d 69) + 8 * b2n (decide (g.run = 1))
/-- Deterministic mode. [DEDUCED, log 23] -/
def detOn (s : State) (R : Region) : Bool := bit (detMode s R) 0
/-- Checking mode. -/
def chkOn (s : State) (R : Region) : Bool := bit (detMode s R) 2
/-- The first, store-suppressed run of checking mode (R312). -/
def run1 (s : State) (R : Region) : Bool := bit (detMode s R) 3

/-! ### Scalar and predicate registers (R24, R27, R29) -/

/-- A scalar register's value; s0 reads zero. -/
def Slot.rd (sl : Slot) (x : Reg) : Word := if x = 0 then 0 else Assoc.get 0 x.toNat sl.regs
/-- A register's full/empty state; s0 is always full. -/
def Slot.fill (sl : Slot) (x : Reg) : Fill := if x = 0 then .full else Assoc.get .full x.toNat sl.fills
/-- Set that state; s0 keeps its own. -/
def Slot.setFill (x : Reg) (f : Fill) (sl : Slot) : Slot :=
  if x = 0 then sl else { sl with fills := Assoc.set .full x.toNat f sl.fills }
/-- Write a scalar register, which fills it; a write to s0 is discarded. -/
def Slot.wr (x : Reg) (v : Word) (sl : Slot) : Slot :=
  if x = 0 then sl
  else { sl with regs := Assoc.set 0 x.toNat v sl.regs, fills := Assoc.set .full x.toNat .full sl.fills }
/-- A predicate; p0 is true. -/
def Slot.rdP (sl : Slot) (p : PReg) : Bool := if p = 0 then true else sl.preds.getLsbD p.toNat
/-- Write a predicate; a write to p0 is discarded. -/
def Slot.wrP (p : PReg) (b : Bool) (sl : Slot) : Slot :=
  if p = 0 then sl
  else { sl with preds := if b then sl.preds ||| (1#8 <<< p.toNat) else sl.preds &&& ~~~(1#8 <<< p.toNat) }
/-- The word completes: on to the next one. -/
def Slot.next (sl : Slot) : Slot := { sl with pc := sl.pc + 1, st := .runnable, prog := .fresh }
/-- The word completes with its own next program counter. -/
def Slot.goto (pc : Word) (sl : Slot) : Slot := { sl with pc := pc, st := .runnable, prog := .fresh }
/-- The guard of R23. -/
def Slot.allows (sl : Slot) (g : Guard) : Bool := if g.neg then !sl.rdP g.pred else sl.rdP g.pred
/-- A register of the slot is pending. -/
def Slot.anyPending (sl : Slot) : Bool := sl.fills.any (fun p => p.2 == .pending)
/-- Raise FPFLAGS bits (R62). -/
def Slot.flag (f : BitVec 5) (sl : Slot) : Slot := { sl with fpflags := sl.fpflags ||| f }

/-- The slot under the cursor completes its word, after `f`. -/
def retire (f : Slot → Slot) (s : State) : State := s.modHere (fun sl => (f sl).next)
/-- The slot under the cursor waits; its program counter stays (R73). [DEDUCED, log 8; DEDUCED, log 13] -/
def park (w : Wait) (s : State) : State := s.modHere (fun sl => { sl with st := .waiting w })
/-- The same, with the word's progress recorded. [DEDUCED, log 8; DEDUCED, log 13] -/
def parkAt (w : Wait) (p : Progress) (s : State) : State :=
  s.modHere (fun sl => { sl with st := .waiting w, prog := p })

/-! ### Memory with a history (R214, R496) -/

/-- A byte now. -/
def VMem.read (m : VMem) (a : Nat) : Byte := Assoc.get 0 a m.cur
/-- A byte as it stood at moment `t`: the oldest replaced value that still stood then, or the byte now. -/
def VMem.readAt (m : VMem) (t a : Nat) : Byte :=
  m.past.foldl (fun v e => if e.1 = a ∧ t ≤ e.2.1 then e.2.2 else v) (m.read a)
/-- Write a byte at moment `now`. [DESIGN CHOICE, log 2] -/
def VMem.write (now a : Nat) (b : Byte) (m : VMem) : VMem :=
  { cur := Assoc.set 0 a b m.cur, past := (a, now, m.read a) :: m.past }
/-- Write bytes from `a` upwards. -/
def VMem.writes (now : Nat) : Nat → List Byte → VMem → VMem
  | _, [], m => m
  | a, b :: t, m => VMem.writes now (a + 1) t (VMem.write now a b m)
/-- Write a list of bytes at their addresses, at one moment. -/
def VMem.writeEach (now : Nat) : List (Nat × Byte) → VMem → VMem
  | [], m => m
  | p :: t, m => VMem.writeEach now t (VMem.write now p.1 p.2 m)
/-- Bytes with the addresses from `a` upwards. -/
def withAddrs (a : Nat) (bs : List Byte) : List (Nat × Byte) := (List.range' a bs.length).zip bs
/-- `n` bytes now, from `a` upwards. -/
def VMem.reads (m : VMem) (a n : Nat) : List Byte := (List.range n).map (fun i => m.read (a + i))
/-- `n` bytes as they stood at moment `t`. -/
def VMem.readsAt (m : VMem) (t a n : Nat) : List Byte := (List.range n).map (fun i => m.readAt t (a + i))
/-- Forget every byte whose key lies in a range: it reads zero again, and no earlier value of it can be read. -/
def VMem.wipe (lo hi : Nat) (m : VMem) : VMem :=
  { cur := m.cur.filter (fun p => decide (p.1 < lo) || decide (hi ≤ p.1)),
    past := m.past.filter (fun p => decide (p.1 < lo) || decide (hi ≤ p.1)) }

/-- The key of a scratchpad byte. -/
def sKey (r cl a : Nat) : Nat := r * 2 ^ 40 + cl * 2 ^ 22 + a
/-- The key of a local-store byte of core `u`. -/
def lKey (r u off : Nat) : Nat := r * 2 ^ 40 + u * 2 ^ 16 + off
/-- Bit `i` set where byte `base + i` is one of the `n` bytes at `a`. -/
def byteMask (a n base : Nat) : BitVec 8 :=
  (List.range 8).foldl (fun m i => if a ≤ base + i ∧ base + i < a + n then m ||| (1#8 <<< i) else m) 0
/-- The soft errors left after each word's bytes in `sel` have been written: a word fully overwritten holds none (R175). -/
def coverErrs (sel : SoftErr → BitVec 8) (l : List SoftErr) : List SoftErr :=
  (l.map (fun e => { e with wrote := e.wrote ||| sel e })).filter (fun e => e.wrote ≠ 0xFF)
/-- The soft errors left after `n` bytes at `a` of a structure have been written (R175). -/
def clearErr (r code unit a n : Nat) (l : List SoftErr) : List SoftErr :=
  coverErrs (fun e => if e.r = r ∧ e.code = code ∧ e.unit = unit then byteMask a n (8 * e.key) else 0) l
/-- Write scratchpad bytes, at one moment. -/
def State.sWrite (r cl a : Nat) (bs : List Byte) (s : State) : State :=
  { s with smem := VMem.writes s.moment (sKey r cl a) bs s.smem, moment := s.moment + 1,
           errors := clearErr r 6 cl a bs.length s.errors }
/-- Read scratchpad bytes at their bank, now (R232). -/
def State.sRead (r cl a n : Nat) (s : State) : List Byte := s.smem.reads (sKey r cl a) n
/-- Write local-store bytes, at one moment. -/
def State.lWrite (r u off : Nat) (bs : List Byte) (s : State) : State :=
  { s with lmem := VMem.writes s.moment (lKey r u off) bs s.lmem, moment := s.moment + 1,
           errors := clearErr r 0 u off bs.length s.errors }
/-- Read local-store bytes now. -/
def State.lRead (r u off n : Nat) (s : State) : List Byte := s.lmem.reads (lKey r u off) n

/-! ### Phase buffers (R169 to R172) -/

/-- The code of a space in a stop record (R176). -/
def spaceCode : Space → Nat
  | .s => 0
  | .r => 1
  | .g => 2
/-- A word that the buffer does not hold. -/
def PWord.none (sp : Space) (addr : Nat) : PWord := { sp := sp, addr := addr, mask := 0, data := 0 }
/-- The buffer's word at an 8-byte-aligned address. -/
def phaseWord (sp : Space) (addr : Nat) (l : List PWord) : PWord :=
  match l.find? (fun w => w.sp == sp && w.addr == addr) with
  | some w => w
  | none => PWord.none sp addr
/-- Byte `i` of a word that a mask covers. -/
def layByte (w : PWord) (i : Nat) (b : Byte) : Byte :=
  if w.mask.getLsbD i then BitVec.ofNat 8 (w.data.toNat / 2 ^ (8 * i)) else b
/-- Lay a buffer word's bytes over `n` bytes read at `addr`. -/
def layOver (w : PWord) (addr : Nat) (bs : List Byte) : List Byte :=
  (List.range bs.length).map (fun i => layByte w (addr % 8 + i) (bs.getD i 0))
/-- Enter `n` bytes of `v` at `addr` into a word. -/
def PWord.enter (w : PWord) (addr n : Nat) (v : Word) : PWord :=
  let sh := addr % 8
  let m : BitVec 8 := BitVec.ofNat 8 ((2 ^ n - 1) * 2 ^ sh)
  let bm : Word := BitVec.ofNat 64 ((2 ^ (8 * n) - 1) * 2 ^ (8 * sh))
  { w with mask := w.mask ||| m, data := (w.data &&& ~~~bm) ||| ((v <<< (8 * sh)) &&& bm) }
/-- Enter a store into the buffer: none where it needs a new word and 2,048 are held (R171). -/
def phaseStore (sp : Space) (addr n : Nat) (v : Word) (l : List PWord) : Option (List PWord) :=
  let a := addr / 8 * 8
  if l.any (fun w => w.sp == sp && w.addr == a) then
    some (l.map (fun w => if w.sp == sp && w.addr == a then w.enter addr n v else w))
  else if l.length < 2048 then some (l ++ [(PWord.none sp a).enter addr n v])
  else none
/-- PHBUF: bytes held (R46, R170). -/
def phbuf (c : Core) : Nat := 8 * c.phase.length

/-- The key under which a core remembers how new a value of a byte its loads must return (R214): the byte's space and place, on whichever region
the core runs. [DEDUCED, log 11] -/
def seenKey (sp : Space) (key : Nat) : Nat := spaceCode sp + 4 * (key % 2 ^ 40)
/-- The latest moment kept for any of `n` bytes: of a value a load has returned, or of a store of the core's own (R214, R493). [DEDUCED, log 11] -/
def Core.seenOf (c : Core) (sp : Space) (key n : Nat) : Nat :=
  (List.range n).foldl (fun m i => max m (Assoc.get 0 (seenKey sp (key + i)) c.seen)) 0
/-- Writes by byte: of each the later moment of two. [DEDUCED, log 11] -/
def joinOrder (l m : Assoc Nat) : Assoc Nat := m.foldl (fun l p => Assoc.put p.1 (max p.2 (Assoc.get 0 p.1 l)) l) l
/-- A write of `n` bytes at moment `t`. [DEDUCED, log 11] -/
def byteOrder (sp : Space) (key n t : Nat) : Assoc Nat := (List.range' key n).map (fun i => (seenKey sp i + 1, t))
/-- The latest moment at which one of the writes reaches any of `n` bytes. [DEDUCED, log 11] -/
def orderAt (l : Assoc Nat) (sp : Space) (key n : Nat) : Nat :=
  (List.range' key n).foldl (fun m i => max m (Assoc.get 0 (seenKey sp i + 1) l)) (Assoc.get 0 0 l)
/-- The writes ordered before the words of slot `k`. -/
def Core.orderOf (k : Nat) (c : Core) : SlotOrder := Assoc.get { next := [], view := [] } k c.own
/-- The writes ordered before slot `k`'s next word (R494). [DEDUCED, log 11] -/
def Core.viewOf (k : Nat) (c : Core) : Assoc Nat := joinOrder (c.orderOf k).view c.every
/-- The latest moment of a write to any of `n` bytes that is ordered before a load of slot `k` otherwise than through the core's refresh (R493,
R494). [DEDUCED, log 11] -/
def Core.ownOf (c : Core) (k : Nat) (sp : Space) (key n : Nat) : Nat :=
  max (orderAt (c.viewOf k) sp key n) (orderAt c.shared sp key n)
/-- Writes ordered before the words behind slot `k`'s next FENCE.wait (R120). [DEDUCED, log 11] -/
def Core.did (k : Nat) (m : Assoc Nat) (c : Core) : Core :=
  { c with own := Assoc.put k { c.orderOf k with next := joinOrder (c.orderOf k).next m } c.own }
/-- Writes ordered before slot `k`'s next word. [DEDUCED, log 11] -/
def Core.after (k : Nat) (m : Assoc Nat) (c : Core) : Core :=
  { c with own := Assoc.put k { c.orderOf k with view := joinOrder (c.orderOf k).view m } c.own }
/-- Slot `k` passes a FENCE.wait: its atomics and loads so far, and what they were behind, are ordered before its next words (R120, R493,
R494). [DEDUCED, log 11] -/
def Core.fence (k : Nat) (c : Core) : Core :=
  { c with own := Assoc.put k { next := [], view := joinOrder (c.orderOf k).view (c.orderOf k).next } c.own }
/-- Slot `k` stores to S, R or G space: what is ordered before it is ordered before the loads of every slot (R170, R214, R494). [DEDUCED, log 11] -/
def Core.stored (k : Nat) (c : Core) : Core := { c with shared := joinOrder c.shared (c.viewOf k) }
/-- Slot `k` stores to the local store: what is ordered before it is ordered before every slot's words (R168, R494). [DEDUCED, log 11] -/
def Core.storedLocal (k : Nat) (c : Core) : Core := { c with every := joinOrder c.every (c.viewOf k) }
/-- The writes that a load of any slot of the core is behind: those that a slot's store has passed on, and at every byte those before the core's
refresh (R214, R494). [DEDUCED, log 11] -/
def Core.behind (c : Core) : Assoc Nat := joinOrder c.shared [(0, c.refresh)]
/-- The earliest moment a load of slot `k` of the core may still return for `n` bytes (R214, R493). [DEDUCED, log 11] -/
def floorOf (c : Core) (k : Nat) (sp : Space) (key n : Nat) : Nat := max (max c.refresh (c.seenOf sp key n)) (c.ownOf k sp key n)
/-- Choose the moment of a plain load: any from its floor up to now (R214, R168). [DEDUCED, log 11] -/
def chooseMoment (lo now free : Nat) : Nat := lo + free % (now + 1 - lo)
/-- The core's later loads return no value of these bytes older than moment `t` (R214, R493). [DEDUCED, log 11] -/
def Core.sawEach (sp : Space) (keys : List Nat) (t : Nat) (c : Core) : Core :=
  { c with seen := keys.foldl (fun l k => Assoc.put (seenKey sp k) (max t (Assoc.get 0 (seenKey sp k) l)) l) c.seen }
/-- A load of the core has returned the value that `n` bytes had at moment `t` (R214). [DEDUCED, log 11] -/
def Core.saw (sp : Space) (key n t : Nat) (c : Core) : Core := c.sawEach sp (List.range' key n) t
/-- Refresh core `u`'s snapshot: the state of memory now (R214). The moments kept stay: they still bind a load in flight, which issued before
the refresh (R494). -/
def refresh (r u : Nat) (s : State) : State := s.modCore r u (fun c => { c with refresh := s.moment })

/-- The value of a load: sign- or zero-extended to 64 bits (R167). -/
def extend (sx : Bool) (bs : List Byte) : Word :=
  let n := ofBytesLE bs
  if sx then BitVec.ofInt 64 (sextN (8 * bs.length) n) else BitVec.ofNat 64 n

/-! ### Stopping a region (R416, R421) -/

/-- A fatal cause raised by an engine of region `r`: the halt line rises and the engine's record is kept. Engines stop at
once, so nothing is raised after it (R417 leaves the skid open). A pre-emption under way is abandoned (R430). [DEDUCED, log 42] -/
def raise (r : Nat) (x : StopRec) (s : State) : State :=
  let R := s.region r
  if R.halt then s
  else
    let s1 := s.setRegion r { R with halt := true, haltTime := s.time, raised := [{ x with time := s.time }],
                                     phase := .halted, preempt := none }
    match R.resident with
    | none => s1
    | some a => s1.modCtx a (fun c => { c with st := .stopping,
                                               image := match R.preempt, c.image with
                                                        | some _, some i => some { i with st := 2 }
                                                        | _, i => i })

/-- The engine kind of a core in a stop record (R420). -/
def coreKind (u : Nat) : Nat := if isCtl u then 4 else 0

/-- A stop record with only its cause, engine and unit. -/
def recOf (cause kind unit : Nat) : StopRec :=
  { cause := cause, kind := kind, unit := unit, sub := 0, sk := 0, position := 0, address := 0, d0 := 0, d1 := 0, time := 0 }

/-- The record of a fault raised by the word that the cursor's slot issues (R176, R233). -/
def slotRec (cause : Nat) (word address d1 : Word) (s : State) : StopRec :=
  { recOf cause (coreKind s.cur.unit) s.cur.unit with
    sub := s.cur.slot, position := s.here.pc, address := address, d0 := word, d1 := d1 }

/-- The word at the slot's program counter in a compute core's instruction store; all ones where no frame wrote it (R191). -/
def storeWord (c : Core) (pc : Word) : IWord := Assoc.get (BitVec.allOnes 64) pc.toNat c.istore

/-- The word under way, for a stop record: on a compute core the instruction-store word at the program counter; on a control
core the word `State.here` was given by the fetch, kept in the instruction store of the model at the same index. -/
def curWord (s : State) : Word := storeWord s.hereC s.here.pc

/-- A soft error of a structure's words `lo` to `hi`. -/
def SoftErr.hits (r code unit lo hi : Nat) (e : SoftErr) : Bool :=
  decide (e.r = r) && decide (e.code = code) && decide (e.unit = unit) && decide (lo ≤ e.key) && decide (e.key ≤ hi)

/-- Read the words `lo` to `hi` of a structure protected by SECDED, then go on with `k` (R175, R207, R234, R280): a single-bit
error is corrected and counted; a double-bit error raises UNCORRECTABLE with `x`'s engine fields, the structure's code as detail
word 0 and as its address `f` of the first failing word. [DEDUCED, log 41] -/
def readChkBy (r code unit lo hi : Nat) (f : Nat → Nat) (x : StopRec) (k : State → State) (s : State) : State :=
  if s.errors.isEmpty then k s
  else
    let mine := s.errors.filter (SoftErr.hits r code unit lo hi)
    if mine.any (fun e => e.double) then
      let k := mine.foldl (fun m e => if e.double then min m e.key else m) hi
      raise r { x with cause := 0x14, address := toWord (f k), d0 := toWord code, d1 := 0 } s
    else k { s with errors := s.errors.filter (fun e => !SoftErr.hits r code unit lo hi e), corrected := s.corrected + mine.length }

/-- The same where `address` is that of word `lo` and words lie 8 apart. -/
def readChk (r code unit lo hi address : Nat) (x : StopRec) (k : State → State) (s : State) : State :=
  readChkBy r code unit lo hi (fun w => address + 8 * (w - lo)) x k s

/-- The key of a phase-buffer word among the soft errors of a core's buffer (structure 3). [DEDUCED, log 41] -/
def phaseKey (sp : Space) (addr : Nat) : Nat := addr / 8 * 4 + spaceCode sp
/-- Read the words of core `u`'s phase buffer that a reader of the `n` 8-byte words from `a` meets, then go on with `k` (R169, R175). -/
def phaseChk (r u : Nat) (sp : Space) : Nat → Nat → StopRec → (State → State) → State → State
  | _, 0, _, k, s => k s
  | a, n + 1, x, k, s =>
    if ((s.core r u).phase).any (fun w => w.sp == sp && w.addr == a / 8 * 8) then
      readChkBy r 3 u (phaseKey sp a) (phaseKey sp a) (fun m => m / 4 * 8) x (phaseChk r u sp (a + 8) n x k) s
    else phaseChk r u sp (a + 8) n x k s
/-- A store has entered `n` bytes at `addr` in core `u`'s buffer, taking a new word or not (R170, R175). -/
def phaseClear (u : Nat) (sp : Space) (addr n : Nat) (new : Bool) (r : Nat) (l : List SoftErr) : List SoftErr :=
  coverErrs (fun e => if e.r = r ∧ e.code = 3 ∧ e.unit = u ∧ e.key = phaseKey sp addr
                      then (if new then 0xFF else byteMask (addr % 8) n 0) else 0) l
/-- Core `u`'s buffer is empty: no error is left in it. -/
def phaseGone (r u : Nat) (l : List SoftErr) : List SoftErr :=
  l.filter (fun e => !(decide (e.r = r) && decide (e.code = 3) && decide (e.unit = u)))

/-- A fatal fault of the word that the cursor's slot issues, with detail word 0 the word. -/
def fail (cause : Nat) (address d1 : Word) (s : State) : State :=
  raise s.cur.region (slotRec cause (curWord s) address d1 s) s

/-- SPACE (R422). -/
def failSpace (address : Word) (s : State) : State := fail 0x03 address 0 s

/-- ILLEGAL with the given first detail word (R44, R45, R176). -/
def failIllegal (d0 : Word) (s : State) : State := raise s.cur.region (slotRec 0x01 d0 0 0 s) s

/-! ### Traps: taking one and delivering it (R82 to R84) -/

/-- TRAPINFO of a delivered trap (R84). -/
def trapInfo (k : Nat) (t : TrapReq) (pc : Word) : Word :=
  BitVec.ofNat 64 (t.detail.toNat * 2 ^ 32 + t.operand % 64 * 2 ^ 24 + pc.toNat % 2048 * 2 ^ 12 + k % 8 * 2 ^ 8 + t.cause % 256)

/-- The handler slot and the handler's entry word of TRAPVEC (R46). -/
def handlerSlot (c : Core) : Nat := bits c.trapvec.toNat 18 16
/-- The handler's entry word. -/
def handlerPc (c : Core) : Word := BitVec.ofNat 64 (bits c.trapvec.toNat 10 0)
/-- TRAPVEC's enable. -/
def handlerOn (c : Core) : Bool := c.trapvec.getLsbD 31

/-- Slot `k` waits for the delivery of a trap. -/
def Core.awaits (c : Core) (k : Nat) : Bool :=
  match (c.slot k).st, (c.slot k).trap with
  | .waiting .trapDelivery, some _ => true
  | _, _ => false

/-- Deliver a waiting trap, the lowest-numbered slot's first, if the handler slot is idle (R83). -/
def deliver (r u : Nat) (s : State) : State :=
  let c := s.core r u
  let h := handlerSlot c
  match (c.slot h).st, (List.range 8).find? (fun k => c.awaits k) with
  | .idle, some k =>
    match (c.slot k).trap with
    | none => s
    | some t =>
      s.modCore r u (fun c =>
        let hs := c.slot h
        let c1 := c.setSlot h { hs with trapinfo := trapInfo k t t.pc, pc := handlerPc c, st := .runnable, prog := .fresh }
        c1.setSlot k { c1.slot k with st := .waiting .trapped, trap := none })
  | _, _ => s

/-- Take a recoverable trap in slot `k` of core `u` (R82, R83): delivered to the handler slot, or fatal with its own cause
where no handler can take it. `resume` is the pc at which the slot goes on; `word` stands in the stop record. -/
def takeTrap (r u k : Nat) (t : TrapReq) (resume word : Word) (s : State) : State :=
  let c := s.core r u
  if !handlerOn c || handlerSlot c == k || isCtl u then
    raise r { recOf t.cause (coreKind u) u with sub := k, position := t.pc, d0 := word } s
  else
    deliver r u (s.modSlot r u k (fun sl =>
      { sl with st := .waiting .trapDelivery, trap := some t, pc := resume, prog := .fresh }))

/-- The return from a trap: the trapped slot goes on at the pc that R83 gave it (TRUN, R106). -/
def resumeTrapped (r u k : Nat) (s : State) : State := s.modSlot r u k (fun sl => { sl with st := .runnable })

/-! ### Producers (R27) -/

/-- Mark registers pending. -/
def Slot.pend (ds : List Reg) (sl : Slot) : Slot := ds.foldl (fun sl d => sl.setFill d .pending) sl
/-- Write a producer's values into its destinations. -/
def Slot.land (ds : List Reg) (vs : List Word) (sl : Slot) : Slot :=
  (ds.zip vs).foldl (fun sl p => sl.wr p.1 p.2) sl
/-- The cursor's slot issues a long-latency producer: its destinations are pending until it completes. -/
def launch (ds : List Reg) (f : Flight) (s : State) : State :=
  let (id, s1) := s.takeId s.cur.region
  let p : Producer := { id := id, slot := s.cur.slot, dests := ds, work := f, pc := s.here.pc, was := ds.map s.here.fill }
  let s2 := s1.modHereC (fun c => { c with producers := c.producers ++ [p] })
  s2.modHere (fun sl => sl.pend ds)
/-- A producer completes in slot `k` with these values and flags. -/
def complete (r u : Nat) (p : Producer) (vs : List Word) (fl : BitVec 5) (s : State) : State :=
  let s1 := s.modCore r u (fun c => { c with producers := c.producers.filter (fun q => q.id ≠ p.id) })
  s1.modSlot r u p.slot (fun sl => (sl.land p.dests vs).flag fl)

/-! ### Waits (R72, R73) -/

/-- A ticket's age: how many tickets after it `now` is, modulo 2^16 (R158). -/
def age (now ticket : Nat) : Nat := (now + 2 ^ 16 - ticket % 2 ^ 16) % 2 ^ 16

/-- Words that channel `c` of core `u` holds or that are on their way to it. [DEDUCED, log 11] -/
def chanLoad (R : Region) (u c : Nat) : Nat :=
  ((R.core u).chan c).words.length + (R.flying.filter (fun f => f.u == u && f.c == c)).length

/-- The lowest step that a coat of the chain's current run still reads: that of the pass's first computing coat that has yet to start on a block
(R255); none where no coat reads an edge any more. [DEDUCED, log 58] -/
def chainLowest (ch : CoatChain) (total : Nat) : Option Nat :=
  let t := bits ch.desc.toNat 87 64
  let later := if (ch.pass + 1) * ch.depth < t then some ((ch.pass + 1) * ch.depth) else none
  let live := (List.range ch.depth).filter (fun k =>
    let g := ch.pass * ch.depth + k + 1
    let K : Coat := Assoc.get default (k + 1) ch.coats
    decide (g ≤ t) && decide (K.begun < total) && !K.fin)
  match live with
  | k :: _ => some (ch.pass * ch.depth + k)
  | [] => later

/-- Blocks of the lattice that a descriptor names (R242). -/
def latticeBlocks (d : Nat) : Nat := bits d 143 128 * bits d 159 144 * bits d 175 160 / 2 ^ (bits d 13 11)

/-- A running chain still needs the edge values of step `st` (R255). -/
def edgeNeeded (ch : CoatChain) (st : Nat) : Bool :=
  ch.running && (match chainLowest ch (latticeBlocks ch.desc.toNat) with
                 | some lo => decide (lo ≤ st) && decide (st < bits ch.desc.toNat 87 64)
                 | none => false)

/-- The edge-table entry of step `st` may be written (R255). -/
def edgeFree (ch : CoatChain) (st : Nat) : Bool :=
  match Assoc.find (st % 64) ch.edge with
  | none => true
  | some (s', _) => s' == st || !edgeNeeded ch s'

/-- The issuer index of a slot (R221). -/
def issuerOf (u k : Nat) : Nat := u * 8 + k

/-- The roster of a region: unit and slot of each issuer (R221). -/
def roster (R : Region) : List (Nat × Nat) :=
  (coreUnits R).flatMap (fun u => ((List.range (slotCount u)).filter (fun k => ((R.core u).slot k).roster)).map (fun k => (u, k)))

/-- The issuer `q` can send no update whose key would precede `k`: it has closed the interval concerned (R221). -/
def keyPast (R : Region) (k : Key) (q : Nat × Nat) : Bool :=
  let i := issuerOf q.1 q.2
  let v := ((R.core q.1).slot q.2).interval
  decide (i = k.issuer) || decide (k.interval < v) || (decide (v = k.interval) && decide (k.issuer < i))
/-- An update with this key can be preceded by no other: that is so of every issuer of the roster (R221). [DEDUCED, log 31] -/
def keyReady (R : Region) (k : Key) : Bool := (roster R).all (keyPast R k)

/-- `a` comes before `b` in key order. -/
def Key.lt (a b : Key) : Bool :=
  decide (a.interval < b.interval) || (decide (a.interval = b.interval) && (decide (a.issuer < b.issuer)
    || (decide (a.issuer = b.issuer) && decide (a.seq < b.seq))))

/-- The memory-side unit of an MU (R220). -/
def muUnit (unit addr : Nat) : Nat := uCl unit * 4 + addr / 2 ^ 20
/-- The memory-side unit of a home port, beside those of the MUs (R220, R393). -/
def portUnit (p : Nat) : Nat := 2 ^ 20 + p

/-- The issuer of an unclosed lowest interval with the lowest index (R222). -/
def nextIssuer (R : Region) : Option Nat :=
  let l := (roster R).map (fun q => (((R.core q.1).slot q.2).interval, issuerOf q.1 q.2))
  let lo := l.foldl (fun m q => min m q.1) (l.foldl (fun m q => max m q.1) 0)
  ((l.filter (fun q => q.1 == lo)).map (fun q => q.2)).head?

/-- The memory-side unit accepts another atomic of this issuer (R222). [DEDUCED, log 31] -/
def atomRoom (R : Region) (m issuer : Nat) : Bool :=
  decide ((R.atomics.filter (fun a => a.mem == m)).length < 16) || nextIssuer R == some issuer

/-- The wait of slot `k` of core `u` is over. A wait for a word, for a barrier instance and a trap's waits end by the event itself. [DEDUCED, log 8] -/
def waitDone (R : Region) (u k : Nat) (w : Wait) : Bool :=
  let c := R.core u
  let sl := c.slot k
  match w with
  | .word _ => false
  | .place u' c' => decide (chanLoad R u' c' < 4)
  | .sendPublish i => !(R.publishes.any (fun p => p.id == i))
  | .publish i => !(R.publishes.any (fun p => p.id == i))
  | .regs full land =>
    full.all (fun x => Assoc.get Fill.full x sl.fills == .full) && land.all (fun x => Assoc.get Fill.full x sl.fills != .pending)
  | .chainQueue => decide (c.chains.length < 4)
  | .portQueues l => l.all (fun p => decide ((R.port p.1 p.2).queue.length < 8))
  | .copies => decide ((R.copies.filter (fun x => x.unit == u && x.node == none)).length < 8)
  | .mxQueue m => decide ((R.mx m).loads.length < 4)
  | .panels m lo hi upto => !((R.mx m).loads.any (fun l => decide (lo ≤ l.slot) && decide (l.slot ≤ hi) && decide (l.id < upto)))
  | .chainsEnd t => !(c.chains.any (fun q => decide (age t q.ticket < 2 ^ 15)))
  | .level l => decide ((R.level l).length < 32)
  | .colls => decide (R.colls.length < 4)
  | .holding m => atomRoom R m (issuerOf u k)
  | .ownAtomics => !(R.atomics.any (fun a => a.unit == u && a.slot == k))
  | .fpDone => !(c.producers.any (fun p => p.slot == k && (match p.work with
                                                          | .value _ _ fp => fp
                                                          | _ => false)))
  | .edge ch st => edgeFree (Assoc.get default ch R.coats) st
  | .chain t => !(c.chains.any (fun q => decide (age t q.ticket < 2 ^ 15)))
  | .transfer cl id => !(R.tbar cl id).armed
  | .coats ch => !(Assoc.get default ch R.coats).running
  | .mxIdle m sec => decide ((Assoc.get default sec (R.mx m).sections).count = 0)
  | .copy t => !(R.copies.any (fun x => x.unit == u && x.node == none && x.ticket == t))
  | .streamBarrier i =>
    !(R.ags.any (fun a => a.2.ports.any (fun p => p.2.queue.any (fun e => match e with
                                                                        | .barrier j => j == i
                                                                        | _ => false))))
  | .tinv i => !(R.tinvs.any (fun t => t.unit == u && decide (t.num < i)))
  | .xform i => !(R.xforms.any (fun x => x.id == i))
  | .earlier =>
    !(c.producers.any (fun p => p.slot == k)) && !(R.flying.any (fun f => f.su == u && f.ss == k))
      && !(R.atomics.any (fun a => a.unit == u && a.slot == k))
  | .ordered i => !(c.producers.any (fun p => p.id == i))
  | .dde i => !(c.producers.any (fun p => p.id == i))
  | .barrier => false
  | .trapDelivery => false
  | .trapped => false

/-- A slot whose wait is over is runnable again; it attempts its word anew (R72). -/
def wakeSlot (R : Region) (u k : Nat) (sl : Slot) : Slot :=
  match sl.st with
  | .waiting w => if waitDone R u k w then { sl with st := .runnable } else sl
  | _ => sl

/-- A slot after a word has arrived on channel `j` of its core: one that waits for a word and to which the channel is bound is runnable, and
attempts its word anew (R72, R105). -/
def Slot.heard (j : Nat) (sl : Slot) : Slot :=
  match sl.st with
  | .waiting (.word m) => if m.getLsbD j then { sl with st := .runnable } else sl
  | _ => sl

/-- Wake the slots of core `u` whose waits are over. [DEDUCED, log 8] -/
def wake (r u : Nat) (s : State) : State :=
  let R := s.region r
  s.modCore r u (fun c => { c with slots := c.slots.map (fun p => (p.1, wakeSlot R u p.1 p.2)) })

end Sys2Proof.Machine
end

