-- ==== Sys2Proof/Machine/GraphOps.lean ====
section
/-! DEFINITION. The graph's nodes as other engines see them (R299): a node that finishes. -/

namespace Sys2Proof.Machine

/-- One predecessor of node `n` has finished. -/
def decNode (n : Nat) (l : List GNode) : List GNode :=
  match l[n]? with
  | some x => listSet n { x with remaining := x.remaining - 1 } l
  | none => l

/-- The nodes that are ready and not yet started, in increasing index. -/
def readyNodes (l : List GNode) : List Nat :=
  (l.zipIdx.filter (fun q => q.1.remaining == 0 && q.1.st == .waiting)).map (fun q => q.2)
/-- Node `n` finishes: the remaining count of each successor decreases by 1, in successor order, in one step; the nodes that become ready
join those that are (R299, R300). -/
def Graph.finish (n : Nat) (g : Graph) : Graph :=
  match g.nodes[n]? with
  | some x =>
    let l := x.succ.foldl (fun l j => decNode j l) (listSet n { x with st := .finished } g.nodes)
    { g with nodes := l, ready := g.ready ++ (readyNodes l).filter (fun j => !g.ready.contains j) }
  | none => g

/-- Change the graph that region `r` runs. -/
def State.modGraph (r : Nat) (f : Graph → Graph) (s : State) : State :=
  s.modRegion r (fun R => { R with graph := R.graph.map f })

/-- Take `n` budget units from the context on region `r` (R448). [DEDUCED, log 32] -/
def charge (r n : Nat) (s : State) : State :=
  match (s.region r).resident with
  | some a => s.modCtx a (fun c => { c with budget := c.budget - n })
  | none => s

/-- The context on region `r` has budget left. [DEDUCED, log 32] -/
def hasBudget (r : Nat) (s : State) : Bool :=
  match s.ctxOf (s.region r) with
  | some c => decide (0 < c.budget)
  | none => true

end Sys2Proof.Machine
end

