-- ==== Sys2Proof/Machine/Flags.lean ====
section
/-! DEFINITION. The five flags (R46, R62). -/

namespace Sys2Proof.Machine

/-- A set of the five flags, bit for bit as FPFLAGS holds them (R46). -/
abbrev Flg := BitVec 5

/-- no flag -/
def flNone : Flg := 0
/-- invalid (R62) -/
def flInv : Flg := 1
/-- division by zero (R62) -/
def flDz : Flg := 2
/-- overflow (R57, R62) -/
def flOf : Flg := 4
/-- underflow (R62) -/
def flUf : Flg := 8
/-- inexact (R62) -/
def flNx : Flg := 16
/-- overflow and inexact, which an integer result that is wrapped or clamped raises (R57) -/
def flOfNx : Flg := 20
/-- A flag set if a condition holds. -/
def flIf (c : Bool) (f : Flg) : Flg := if c then f else 0

/-- Integer arithmetic of `w` bits (R57): the exact result `i` wraps or, with .sat, clamps to `lo` to `hi`; a result out of
range raises overflow and inexact. -/
def intResult (w : Nat) (sat : Bool) (lo hi i : Int) : Nat × Flg :=
  if lo ≤ i ∧ i ≤ hi then (wrapN w i, flNone)
  else if sat then (wrapN w (if i < lo then lo else hi), flOfNx)
  else (wrapN w i, flOfNx)

/-- The least signed integer of `w` bits. -/
def sMin (w : Nat) : Int := -((2 ^ (w - 1) : Nat) : Int)
/-- The greatest signed integer of `w` bits. -/
def sMax (w : Nat) : Int := ((2 ^ (w - 1) : Nat) : Int) - 1
/-- The greatest unsigned integer of `w` bits. -/
def uMax (w : Nat) : Int := ((2 ^ w : Nat) : Int) - 1

end Sys2Proof.Machine
end

