-- ==== Sys2Proof/Machine/Num.lean ====
section
/-! DEFINITION. Number formats and rounding (R49 to R65): the exact value of a code, the code of an exact value under a rounding mode,
exact sums and products, and the keyed mix. Exact values are fractions of natural numbers with a sign. -/

namespace Sys2Proof.Machine

/-- An exact value: a zero, a zero whose sign the rounding mode decides (R98), a nonzero fraction `n / d`, an infinity, or a NaN. -/
inductive XNum where
  | zero (neg : Bool)
  | szero
  | fin (neg : Bool) (n d : Nat)
  | inf (neg : Bool)
  | qnan
  | snan
deriving DecidableEq, Repr, Inhabited

/-- How the all-ones exponent is read (R50). -/
inductive Specials where
  | none
  | nanOnly
  | ieee
deriving DecidableEq, Repr

/-- A floating-point format (R50): exponent and fraction widths, bias, the magnitude code of the largest finite value. -/
structure FShape where
  w : Nat
  m : Nat
  bias : Nat
  top : Nat
  sp : Specials
deriving DecidableEq, Repr

/-- The kinds of format. -/
inductive FmtKind where
  | int (signed : Bool)
  | fp (s : FShape)
  | df8
deriving DecidableEq, Repr

/-- Bits of an element (R48). -/
def fmtBits : Fmt → Nat
  | .int4 | .fp4 => 4
  | .fp6a | .fp6b => 6
  | .int8 | .uint8 | .fp8a | .fp8b | .df8 => 8
  | .int16 | .fp16 | .bf16 | .uint16 => 16
  | .int32 | .fp32 => 32
  | .fp64 => 64

/-- The formats of R49, R50 and R53. -/
def fmtKind : Fmt → FmtKind
  | .int4 | .int8 | .int16 | .int32 => .int true
  | .uint8 | .uint16 => .int false
  | .fp4 => .fp { w := 2, m := 1, bias := 1, top := 7, sp := .none }
  | .fp6a => .fp { w := 2, m := 3, bias := 1, top := 0x1F, sp := .none }
  | .fp6b => .fp { w := 3, m := 2, bias := 3, top := 0x1F, sp := .none }
  | .fp8a => .fp { w := 4, m := 3, bias := 7, top := 0x7E, sp := .nanOnly }
  | .fp8b => .fp { w := 5, m := 2, bias := 15, top := 0x7B, sp := .ieee }
  | .df8 => .df8
  | .fp16 => .fp { w := 5, m := 10, bias := 15, top := 0x7BFF, sp := .ieee }
  | .bf16 => .fp { w := 8, m := 7, bias := 127, top := 0x7F7F, sp := .ieee }
  | .fp32 => .fp { w := 8, m := 23, bias := 127, top := 0x7F7FFFFF, sp := .ieee }
  | .fp64 => .fp { w := 11, m := 52, bias := 1023, top := 0x7FEFFFFFFFFFFFFF, sp := .ieee }

/-- The canonical NaN of a format (R51); an integer or a format without NaNs has none and is given 0. -/
def canonNaN : Fmt → Nat
  | .fp8a => 0x7F
  | .fp8b => 0x7E
  | .fp16 => 0x7E00
  | .bf16 => 0x7FC0
  | .fp32 => 0x7FC00000
  | .fp64 => 0x7FF8000000000000
  | .df8 => 0x80
  | _ => 0

/-! ### DF8 (R53 to R55) -/

/-- The zero bits above the marker of a payload (R53). -/
def df8R (p : Nat) : Nat := 6 - Nat.log2 p
/-- The width of the fraction field for `r`. -/
def df8FW : Nat → Nat
  | 0 => 5
  | 1 => 3
  | 2 => 1
  | _ => 0
/-- The exponents of a row, plus 14 (R53). -/
def df8Exps : Nat → List Nat
  | 0 => [13, 14]
  | 1 => [11, 12, 15, 16]
  | 2 => [7, 8, 9, 10, 17, 18, 19, 20]
  | 3 => [3, 4, 5, 6, 21, 22, 23, 24]
  | 4 => [1, 2, 25, 26]
  | 5 => [0, 27]
  | _ => [28]
/-- The fraction field of a payload. -/
def df8F (p : Nat) : Nat := p % 2 ^ df8FW (df8R p)
/-- The exponent of a payload, plus 14. -/
def df8E (p : Nat) : Nat := (df8Exps (df8R p)).getD ((p - 2 ^ Nat.log2 p) / 2 ^ df8FW (df8R p)) 0
/-- The magnitude of a payload in units of 2^-14. -/
def df8Mag (p : Nat) : Nat :=
  if p = 0 then 0 else 2 ^ df8E p * (2 ^ df8FW (df8R p) + df8F p) / 2 ^ df8FW (df8R p)
/-- The payloads in order of magnitude (R54). -/
def df8Sorted : List Nat :=
  [0, 2, 4, 5] ++ List.range' 8 4 ++ List.range' 16 8 ++ List.range' 32 16 ++ List.range' 64 64 ++ List.range' 48 16
    ++ List.range' 24 8 ++ List.range' 12 4 ++ [6, 7, 3, 1]
/-- The neighbours of the magnitude `n / d` in units of 2^-14 among the payloads that follow `lo`. -/
def df8Find (n d : Nat) : Nat → List Nat → Nat × Nat
  | lo, [] => (lo, lo)
  | lo, p :: t => if df8Mag p * d ≤ n then df8Find n d p t else (lo, p)
/-- On a tie the lower neighbour is not the one RNE picks (R55): even f first, then even E, zero counting as even, then the
smaller magnitude. -/
def df8TieUp (lo hi : Nat) : Bool :=
  let fe (p : Nat) : Nat := if p = 0 then 0 else df8F p % 2
  let ee (p : Nat) : Nat := if p = 0 then 0 else df8E p % 2
  if fe lo ≠ fe hi then decide (fe hi = 0)
  else decide (fe lo = 0) && decide (ee lo ≠ ee hi) && decide (ee hi = 0)

/-! ### The value of a code -/

/-- A dyadic value `k * 2^e`. -/
def dyad (neg : Bool) (k : Nat) (e : Int) : XNum :=
  if k = 0 then .zero neg else if 0 ≤ e then .fin neg (k * 2 ^ e.toNat) 1 else .fin neg k (2 ^ (-e).toNat)

/-- The value of an integer. -/
def numOfInt (i : Int) : XNum := if i = 0 then .zero false else .fin (decide (i < 0)) i.natAbs 1

/-- The value of a floating-point code (R50, R51). -/
def fpValue (s : FShape) (x : Nat) : XNum :=
  let neg := bit x (s.w + s.m)
  let mag := x % 2 ^ (s.w + s.m)
  let e := mag / 2 ^ s.m
  let f := mag % 2 ^ s.m
  if mag ≤ s.top then
    if e = 0 then dyad neg f (1 - (s.bias : Int) - s.m) else dyad neg (2 ^ s.m + f) ((e : Int) - s.bias - s.m)
  else
    match s.sp with
    | .none => .qnan
    | .nanOnly => .qnan
    | .ieee => if f = 0 then .inf neg else if f / 2 ^ (s.m - 1) = 1 then .qnan else .snan

/-- The value of a code of a format. -/
def decodeNum (f : Fmt) (x : Nat) : XNum :=
  match fmtKind f with
  | .int true => numOfInt (sextN (fmtBits f) x)
  | .int false => numOfInt ((x % 2 ^ fmtBits f : Nat) : Int)
  | .fp s => fpValue s x
  | .df8 =>
    let p := x % 128
    if p = 0 then (if bit x 7 then .qnan else .zero false) else .fin (bit x 7) (df8Mag p) (2 ^ 14)

/-! ### Rounding (R56 to R58) -/

/-- Whether the neighbour of larger magnitude is taken; `rem / den` is the discarded part of the gap, `tie` whether RNE takes
the larger one on a tie, `u` the top 32 bits of the keyed mix. -/
def roundUp (m : Rnd) (neg tie : Bool) (rem den u : Nat) : Bool :=
  if rem = 0 then false
  else
    match m with
    | .rne => decide (den < 2 * rem) || (decide (2 * rem = den) && tie)
    | .rz => false
    | .rp => !neg
    | .rm => neg
    | .rna => decide (den ≤ 2 * rem)
    | .rs => decide (2 ^ 32 ≤ rem * 2 ^ 32 / den + u)

/-- The greatest `e` with `2^e ≤ n / d`. -/
def floorLog2 (n d : Nat) : Int :=
  let e : Int := (Nat.log2 n : Int) - Nat.log2 d
  let below : Bool := if 0 ≤ e then decide (n < d * 2 ^ e.toNat) else decide (n * 2 ^ (-e).toNat < d)
  if below then e - 1 else e

/-- The code of an overflowing result without .sat (R57). -/
def overflowCode (s : FShape) (m : Rnd) (neg : Bool) : Nat :=
  match s.sp with
  | .none => s.top
  | .nanOnly => s.top + 1
  | .ieee =>
    match m with
    | .rne | .rna | .rs => s.top + 1
    | .rz => s.top
    | .rp => if neg then s.top else s.top + 1
    | .rm => if neg then s.top + 1 else s.top

/-- Round a nonzero fraction into a floating-point format (R56, R57, R62). -/
def fpRound (s : FShape) (m : Rnd) (sat : Bool) (u : Nat) (neg : Bool) (n d : Nat) : Nat × Flg :=
  let sign := b2n neg * 2 ^ (s.w + s.m)
  let emin : Int := 1 - s.bias
  let e := floorLog2 n d
  let g := (if e < emin then emin else e) - s.m
  let n' := if 0 ≤ g then n else n * 2 ^ (-g).toNat
  let d' := if 0 ≤ g then d * 2 ^ g.toNat else d
  let k := n' / d'
  let k' := if roundUp m neg (k % 2 == 1) (n' % d') d' u then k + 1 else k
  let code := (g + s.m - emin).toNat * 2 ^ s.m + k'
  if s.top < code then (sign + (if sat then s.top else overflowCode s m neg), flOfNx)
  else if n' % d' = 0 then (sign + code, flNone)
  else (sign + code, flNx ||| flIf (decide (code < 2 ^ s.m)) flUf)

/-- Round a nonzero fraction into DF8 (R55, R57, R62). A value above 16,384 always overflows, DF8 having no grid beyond (R56, R57). [DEDUCED, log 18; DESIGN CHOICE, log 73] -/
def df8Round (m : Rnd) (u : Nat) (neg : Bool) (n d : Nat) : Nat × Flg :=
  let sign := b2n neg * 128
  let x := n * 2 ^ 14
  if df8Mag 1 * d < x then (sign + 1, flOfNx)
  else
    let (lo, hi) := df8Find x d 0 df8Sorted.tail
    let rem := x - df8Mag lo * d
    if rem = 0 then (sign + lo, flNone)
    else
      let p := if roundUp m neg (df8TieUp lo hi) rem ((df8Mag hi - df8Mag lo) * d) u then hi else lo
      if p = 0 then (0, flNx ||| flUf) else (sign + p, flNx)

/-- Round a fraction to an integer of `bits` bits (R57, R61). `arith`: the source is integer arithmetic, which wraps without
.sat; otherwise a floating-point source, which clamps and raises invalid alone. [DEDUCED, log 18] -/
def intRound (bits : Nat) (signed arith : Bool) (m : Rnd) (sat : Bool) (u : Nat) (neg : Bool) (n d : Nat) : Nat × Flg :=
  let k := n / d
  let k' := if roundUp m neg (k % 2 == 1) (n % d) d u then k + 1 else k
  let v : Int := if neg then -(k' : Int) else k'
  let lo : Int := if signed then sMin bits else 0
  let hi : Int := if signed then sMax bits else uMax bits
  let nx := flIf (decide (n % d ≠ 0)) flNx
  if lo ≤ v ∧ v ≤ hi then (wrapN bits v, nx)
  else if arith then
    let (x, fl) := intResult bits sat lo hi v
    (x, fl ||| nx)
  else (wrapN bits (if v < lo then lo else hi), flInv)

/-- An infinity, or a NaN, as an integer (R61). -/
def intSpecial (bits : Nat) (signed : Bool) (v : XNum) : Nat × Flg :=
  match v with
  | .inf neg => (wrapN bits (if neg then (if signed then sMin bits else 0) else (if signed then sMax bits else uMax bits)), flInv)
  | _ => (0, flInv)

/-- An exact value in an integer of `bits` bits. -/
def encodeInt (bits : Nat) (signed arith : Bool) (m : Rnd) (sat : Bool) (u : Nat) (v : XNum) : Nat × Flg :=
  match v with
  | .zero _ | .szero => (0, flNone)
  | .fin neg n d => intRound bits signed arith m sat u neg n d
  | .inf _ | .qnan | .snan => intSpecial bits signed v

/-- An exact value in a floating-point format (R57, R61). [DESIGN CHOICE, log 66] -/
def encodeFp (f : Fmt) (s : FShape) (m : Rnd) (sat : Bool) (u : Nat) (v : XNum) : Nat × Flg :=
  let sign (neg : Bool) : Nat := b2n neg * 2 ^ (s.w + s.m)
  match v with
  | .zero neg => (sign neg, flNone)
  | .szero => (sign (decide (m = .rm)), flNone)
  | .fin neg n d => fpRound s m sat u neg n d
  | .inf neg =>
    match s.sp with
    | .ieee => (sign neg + s.top + 1, flNone)
    | .nanOnly => if sat then (sign neg + s.top, flOfNx) else (sign neg + s.top + 1, flInv)
    | .none => (sign neg + s.top, flOfNx)
  | .qnan =>
    match s.sp with
    | .none => (0, flInv)
    | _ => (canonNaN f, flNone)
  | .snan =>
    match s.sp with
    | .none => (0, flInv)
    | _ => (canonNaN f, flInv)

/-- An exact value in DF8 (R55, R61). -/
def encodeDf8 (m : Rnd) (u : Nat) (v : XNum) : Nat × Flg :=
  match v with
  | .zero _ | .szero => (0, flNone)
  | .fin neg n d => df8Round m u neg n d
  | .inf neg => (b2n neg * 128 + 1, flOfNx)
  | .qnan => (0x80, flNone)
  | .snan => (0x80, flInv)

/-- `round(fmt, mode, v)`: the code of an exact value in a format and the flags of the rounding (R56 to R61). `arith`: see
`intRound`. -/
def encodeNum (f : Fmt) (arith : Bool) (m : Rnd) (sat : Bool) (u : Nat) (v : XNum) : Nat × Flg :=
  match fmtKind f with
  | .int signed => encodeInt (fmtBits f) signed arith m sat u v
  | .fp s => encodeFp f s m sat u v
  | .df8 => encodeDf8 m u v

/-- A conversion between formats (R61). -/
def convert (dst src : Fmt) (m : Rnd) (sat : Bool) (u : Nat) (x : Nat) : Nat × Flg :=
  encodeNum dst (fmtInt src) m sat u (decodeNum src x)

/-! ### The keyed mix (R59, R60) -/

/-- SplitMix64's finaliser. -/
def mixFin (z : Word) : Word :=
  let a := (z ^^^ (z >>> 30)) * 0xBF58476D1CE4E5B9#64
  let b := (a ^^^ (a >>> 27)) * 0x94D049BB133111EB#64
  b ^^^ (b >>> 31)
/-- The keyed mix. -/
def mix (seed a b c : Word) : Word := mixFin (mixFin (mixFin (seed ^^^ a) ^^^ b) ^^^ c)
/-- The top 32 bits of a mix (R58). -/
def mixTop (h : Word) : Nat := h.toNat / 2 ^ 32

/-! ### Exact arithmetic (R62, R63, R98) -/

/-- A NaN. -/
def XNum.isNaN : XNum → Bool
  | .qnan | .snan => true
  | _ => false
/-- The sign; a zero of undecided sign counts as positive. -/
def XNum.neg : XNum → Bool
  | .zero s | .fin s _ _ | .inf s => s
  | .szero | .qnan | .snan => false
/-- A zero. -/
def XNum.isZero : XNum → Bool
  | .zero _ | .szero => true
  | _ => false
/-- An infinity. -/
def XNum.isInf : XNum → Bool
  | .inf _ => true
  | _ => false
/-- The value with its sign changed. -/
def XNum.negate : XNum → XNum
  | .zero s => .zero (!s)
  | .fin s n d => .fin (!s) n d
  | .inf s => .inf (!s)
  | x => x
/-- A finite value as a fraction. -/
def XNum.frac : XNum → Int × Nat
  | .fin s n d => (if s then -(n : Int) else n, d)
  | _ => (0, 1)
/-- The exact sum of two fractions. -/
def addFrac (x y : Int × Nat) : Int × Nat :=
  if x.2 % y.2 = 0 then (x.1 + y.1 * ((x.2 / y.2 : Nat) : Int), x.2)
  else if y.2 % x.2 = 0 then (x.1 * ((y.2 / x.2 : Nat) : Int) + y.1, y.2)
  else (x.1 * y.2 + y.1 * x.2, x.2 * y.2)
/-- The value of a fraction; a zero's sign is open. -/
def numOfFrac (x : Int × Nat) : XNum := if x.1 = 0 then .szero else .fin (decide (x.1 < 0)) x.1.natAbs x.2

/-- The exact sum of a list of values (R63, R98). -/
def numSum (l : List XNum) : XNum × Flg :=
  let pi := l.any (fun x => x == .inf false)
  let ni := l.any (fun x => x == .inf true)
  let inv := flIf (l.any (fun x => x == .snan) || (pi && ni)) flInv
  if inv ≠ 0 || l.any XNum.isNaN then (.qnan, inv)
  else if pi then (.inf false, flNone)
  else if ni then (.inf true, flNone)
  else if l.all XNum.isZero then
    if l.all (fun x => x == .zero true) then (.zero true, flNone)
    else if l.all (fun x => x == .zero false) then (.zero false, flNone)
    else (.szero, flNone)
  else (numOfFrac ((l.map XNum.frac).foldl addFrac (0, 1)), flNone)

/-- The exact product (R62, R63). -/
def numMul (x y : XNum) : XNum × Flg :=
  if x == .snan || y == .snan then (.qnan, flInv)
  else if x.isNaN || y.isNaN then (.qnan, flNone)
  else if (x.isInf && y.isZero) || (x.isZero && y.isInf) then (.qnan, flInv)
  else
    let s := x.neg != y.neg
    if x.isInf || y.isInf then (.inf s, flNone)
    else
      match x, y with
      | .fin _ n d, .fin _ n' d' => (.fin s (n * n') (d * d'), flNone)
      | _, _ => (.zero s, flNone)

/-- `x * y + z`, exact (R63). -/
def numFma (x y z : XNum) : XNum × Flg :=
  let (p, f) := numMul x y
  let (r, g) := numSum [p, z]
  (r, f ||| g)

/-- The exact quotient (R62, R98). -/
def numDiv (x y : XNum) : XNum × Flg :=
  if x == .snan || y == .snan then (.qnan, flInv)
  else if x.isNaN || y.isNaN then (.qnan, flNone)
  else if (x.isInf && y.isInf) || (x.isZero && y.isZero) then (.qnan, flInv)
  else
    let s := x.neg != y.neg
    if x.isInf then (.inf s, flNone)
    else if y.isInf || x.isZero then (.zero s, flNone)
    else
      match x, y with
      | .fin _ n d, .fin _ n' d' => (.fin s (n * d') (d * n'), flNone)
      | _, _ => (.inf s, flDz)

/-- The integer square root, bit by bit from bit `k` downwards. -/
def isqrtGo (n : Nat) : Nat → Nat → Nat
  | 0, r => r
  | k + 1, r =>
    let t := r + 2 ^ k
    isqrtGo n k (if t * t ≤ n then t else r)
/-- The integer square root. -/
def isqrt (n : Nat) : Nat := isqrtGo n (Nat.log2 n / 2 + 1) 0

/-- The square root of a positive fraction, exact where it is a fraction of this precision; else the middle of a cell of
width 2^-e that contains it and no point of a coarser grid, so that every rounding to fewer bits is that of the exact root. -/
def sqrtFrac (n d : Nat) : XNum :=
  let e := 256 + Nat.log2 d
  let x := n * 2 ^ (2 * e) / d
  let s := isqrt x
  if s * s * d = n * 2 ^ (2 * e) then .fin false s (2 ^ e) else .fin false (2 * s + 1) (2 ^ (e + 1))

/-- The square root (R62, R64, R98). -/
def numSqrt (x : XNum) : XNum × Flg :=
  match x with
  | .snan => (.qnan, flInv)
  | .qnan => (.qnan, flNone)
  | .zero s => (.zero s, flNone)
  | .szero => (.zero false, flNone)
  | .inf false => (.inf false, flNone)
  | .inf true => (.qnan, flInv)
  | .fin true _ _ => (.qnan, flInv)
  | .fin false n d => (sqrtFrac n d, flNone)

/-- Whether the lesser of two values that are not NaNs is the first: zeros of either sign are equal. -/
def numLt (x y : XNum) : Bool :=
  match x, y with
  | .inf s, .inf t => s && !t
  | .inf s, _ => s
  | _, .inf t => !t
  | _, _ =>
    let a := x.frac
    let b := y.frac
    decide (a.1 * b.2 < b.1 * a.2)
/-- Two values that are not NaNs are equal. -/
def numEq (x y : XNum) : Bool := !numLt x y && !numLt y x

/-- Minimum or maximum (R65): which operand is the result, or a NaN. `num`: minimumNumber and maximumNumber. -/
def numMinMax (mx num : Bool) (x y : XNum) : Option Bool × Flg :=
  let inv := x == .snan || y == .snan
  if inv then (none, flInv)
  else if x.isNaN && y.isNaN then (none, flNone)
  else if x.isNaN || y.isNaN then (if num then some y.isNaN else none, flNone)
  else
    let lt := numLt x y || (numEq x y && x.neg && !y.neg)
    (some (if mx then !lt else lt), flNone)

/-- The code of a minimum or maximum of two codes (R65). -/
def minMaxCode (f : Fmt) (mx num : Bool) (a b : Nat) : Nat × Flg :=
  match numMinMax mx num (decodeNum f a) (decodeNum f b) with
  | (none, fl) => (canonNaN f, fl)
  | (some true, fl) => (a, fl)
  | (some false, fl) => (b, fl)

end Sys2Proof.Machine
end

