-- ==== Sys2Proof/Machine/Crypto.lean ====
section
/-! DEFINITION. The ciphers that the spec names: AES-256 with XTS (R388), GMAC (R389), and SHA-384 with deterministic ECDSA over P-384
(R409). Bytes are in the order in which they are stored; a 128-bit block as a number has its first byte leftmost. -/

namespace Sys2Proof.Machine

/-! ### AES-256 (FIPS 197) -/

/-- Twice an element of GF(2^8). -/
def gf8Double (a : Nat) : Nat := if a < 128 then 2 * a else Nat.xor (2 * a) 0x11B
/-- The product of two elements of GF(2^8), over `n` bits of the second. -/
def gf8Mul : Nat → Nat → Nat → Nat
  | 0, _, _ => 0
  | n + 1, a, b => Nat.xor (if b % 2 = 1 then a else 0) (gf8Mul n (gf8Double a) (b / 2))
/-- The product of two elements of GF(2^8). -/
def gf8 (a b : Nat) : Nat := gf8Mul 8 a b
/-- The inverse in GF(2^8), 0 of 0: the power 254. -/
def gf8Inv (a : Nat) : Nat :=
  let a2 := gf8 a a
  let a4 := gf8 a2 a2
  let a8 := gf8 a4 a4
  let a16 := gf8 a8 a8
  let a32 := gf8 a16 a16
  let a64 := gf8 a32 a32
  gf8 a2 (gf8 a4 (gf8 a8 (gf8 a16 (gf8 a32 (gf8 a64 (gf8 a64 a64))))))
/-- A byte turned left by `n`. -/
def rotl8 (n x : Nat) : Nat := x * 2 ^ n % 256 + x / 2 ^ (8 - n)
/-- SubBytes of a byte. -/
def aesSub (x : Nat) : Nat :=
  let y := gf8Inv x
  Nat.xor 0x63 (Nat.xor y (Nat.xor (rotl8 1 y) (Nat.xor (rotl8 2 y) (Nat.xor (rotl8 3 y) (rotl8 4 y)))))
/-- InvSubBytes of a byte. -/
def aesUnsub (x : Nat) : Nat := gf8Inv (Nat.xor 0x05 (Nat.xor (rotl8 1 x) (Nat.xor (rotl8 3 x) (rotl8 6 x))))
/-- The exclusive or of two lists of bytes. -/
def xorBytes (a b : List Nat) : List Nat := (a.zip b).map (fun p => Nat.xor p.1 p.2)
/-- MixColumns, or its inverse, by the first row of its matrix: byte `r` of a column is the sum of the column's bytes, each times the row's
entry `r` places on. -/
def aesMix (row : List Nat) (x : List Nat) : List Nat :=
  (List.range 16).map (fun i => (List.range 4).foldl (fun a j =>
    Nat.xor a (gf8 (row.getD ((j + 4 - i % 4) % 4) 0) (x.getD (i / 4 * 4 + j) 0))) 0)
/-- ShiftRows. -/
def aesShift (x : List Nat) : List Nat := (List.range 16).map (fun i => x.getD ((i + 4 * (i % 4)) % 16) 0)
/-- InvShiftRows. -/
def aesUnshift (x : List Nat) : List Nat := (List.range 16).map (fun i => x.getD ((i + 12 * (i % 4)) % 16) 0)
/-- The big-endian bytes of a number. -/
def bytesBE (n x : Nat) : List Nat := ((bytesLE n x).map (fun b => b.toNat)).reverse
/-- The number that big-endian bytes make. -/
def ofBytesBE (l : List Nat) : Nat := l.foldl (fun a b => a * 256 + b) 0
/-- The words of the key schedule after the first eight, latest first, from the 52 that follow: `l` holds those made, latest first. -/
def aesSchedule : Nat → Nat → Nat → List (List Nat) → List (List Nat)
  | 0, _, _, l => l
  | n + 1, i, rcon, l =>
    let prev := l.getD 0 []
    let t := if i % 8 = 0 then xorBytes ((prev.drop 1 ++ prev.take 1).map aesSub) [rcon, 0, 0, 0]
             else if i % 8 = 4 then prev.map aesSub else prev
    aesSchedule n (i + 1) (if i % 8 = 0 then gf8Double rcon else rcon) (xorBytes (l.getD 7 []) t :: l)
/-- The fifteen round keys of a 256-bit key. -/
def aesKeys (k : BitVec 256) : List (List Nat) :=
  let b := bytesBE 32 k.toNat
  let w := (aesSchedule 52 8 1 (((List.range 8).map (fun i => (b.drop (4 * i)).take 4)).reverse)).reverse
  (List.range 15).map (fun i => ((w.drop (4 * i)).take 4).flatten)
/-- AES-256 of a block under round keys. -/
def aesEnc (ks : List (List Nat)) (x : List Nat) : List Nat :=
  let mid := (List.range' 1 13).foldl (fun x i => xorBytes (aesMix [2, 3, 1, 1] (aesShift (x.map aesSub))) (ks.getD i [])) (xorBytes x (ks.getD 0 []))
  xorBytes (aesShift (mid.map aesSub)) (ks.getD 14 [])
/-- The inverse of AES-256. -/
def aesDec (ks : List (List Nat)) (x : List Nat) : List Nat :=
  let mid := (List.range' 1 13).reverse.foldl (fun x i => aesMix [14, 11, 13, 9] (xorBytes ((aesUnshift x).map aesUnsub) (ks.getD i [])))
               (xorBytes x (ks.getD 14 []))
  xorBytes ((aesUnshift mid).map aesUnsub) (ks.getD 0 [])

/-! ### XTS (IEEE 1619) and GMAC (NIST SP 800-38D) -/

/-- The blocks of 16 bytes of `n` blocks. -/
def blocks16 : Nat → List Byte → List (List Nat)
  | 0, _ => []
  | n + 1, l => (l.take 16).map (fun b => b.toNat) :: blocks16 n (l.drop 16)
/-- The next block's tweak: times x in GF(2^128), the first byte lowest. -/
def xtsNext (t : Nat) : Nat := if t < 2 ^ 127 then 2 * t else Nat.xor (2 * t - 2 ^ 128) 0x87
/-- XTS of blocks from a masked tweak on, by a block cipher. -/
def xtsRun (f : List Nat → List Nat) : Nat → List (List Nat) → List Byte
  | _, [] => []
  | t, x :: rest =>
    let m := (bytesLE 16 t).map (fun b => b.toNat)
    (xorBytes (f (xorBytes x m)) m).map (BitVec.ofNat 8) ++ xtsRun f (xtsNext t) rest
/-- The first masked tweak. -/
def xtsStart (k2 : BitVec 256) (tweak : Nat) : Nat :=
  ofBytesBE (aesEnc (aesKeys k2) ((bytesLE 16 tweak).map (fun b => b.toNat))).reverse
/-- XTS-AES-256-Enc of a data unit of whole blocks. -/
def xtsEnc (k1 k2 : BitVec 256) (tweak : Nat) (p : List Byte) : List Byte :=
  xtsRun (aesEnc (aesKeys k1)) (xtsStart k2 tweak) (blocks16 (p.length / 16) p)
/-- XTS-AES-256-Dec. -/
def xtsDec (k1 k2 : BitVec 256) (tweak : Nat) (c : List Byte) : List Byte :=
  xtsRun (aesDec (aesKeys k1)) (xtsStart k2 tweak) (blocks16 (c.length / 16) c)

/-- The product of SP 800-38D in GF(2^128), over `n` bits of the first factor from its leftmost one down. -/
def ghashMul : Nat → Nat → Nat → Nat → Nat
  | 0, _, _, z => z
  | n + 1, x, v, z =>
    ghashMul n x (if v % 2 = 1 then Nat.xor (v / 2) (0xE1 * 2 ^ 120) else v / 2) (if bit x n then Nat.xor z v else z)
/-- GHASH of blocks. -/
def ghash (h : Nat) (l : List Nat) : Nat := l.foldl (fun y x => ghashMul 128 (Nat.xor y x) h 0) 0
/-- The leftmost 64 bits of GMAC over whole blocks of data, with a 128-bit IV, its bit 127 first. [DEDUCED, log 68] -/
def gmac64 (k : BitVec 256) (iv : Nat) (a : List Byte) : BitVec 64 :=
  let ks := aesKeys k
  let h := ofBytesBE (aesEnc ks (rep 16 0))
  let y := ghash h ((blocks16 (a.length / 16) a).map ofBytesBE ++ [8 * a.length * 2 ^ 64])
  let j := ghash h [iv, 128]
  BitVec.ofNat 64 (Nat.xor y (ofBytesBE (aesEnc ks (bytesBE 16 j))) / 2 ^ 64)

/-! ### SHA-384 (FIPS 180-4) -/

/-- The greatest `r` below 2^n more than `r` with r^p at most `x`, bit by bit. -/
def rootFloor (p x : Nat) : Nat → Nat → Nat
  | 0, r => r
  | n + 1, r => rootFloor p x n (if (r + 2 ^ n) ^ p ≤ x then r + 2 ^ n else r)
/-- The first primes up to 409. -/
def primes409 : List Nat := (List.range 410).filter (fun n => decide (2 ≤ n) && (List.range 21).all (fun d => decide (d < 2) || decide (n ≤ d) || n % d != 0))
/-- The 80 constants: the first 64 bits of the fractions of the cube roots of the primes. -/
def shaK : List Nat := primes409.map (fun p => rootFloor 3 (p * 2 ^ 192) 68 0 % 2 ^ 64)
/-- The initial hash value: the fractions of the square roots of the ninth to the sixteenth prime. -/
def shaInit : List Nat := ((primes409.drop 8).take 8).map (fun p => rootFloor 2 (p * 2 ^ 128) 68 0 % 2 ^ 64)
/-- A 64-bit word turned right. -/
def rotr64 (n x : Nat) : Nat := x / 2 ^ n + x % 2 ^ n * 2 ^ (64 - n)
/-- The exclusive or of three words. -/
def xor3 (a b c : Nat) : Nat := Nat.xor a (Nat.xor b c)
/-- The message schedule, latest first. -/
def shaSchedule : Nat → List Nat → List Nat
  | 0, l => l
  | n + 1, l =>
    let w (i : Nat) : Nat := l.getD (i - 1) 0
    let s0 := xor3 (rotr64 1 (w 15)) (rotr64 8 (w 15)) (w 15 / 2 ^ 7)
    let s1 := xor3 (rotr64 19 (w 2)) (rotr64 61 (w 2)) (w 2 / 2 ^ 6)
    shaSchedule n ((s1 + w 7 + s0 + w 16) % 2 ^ 64 :: l)
/-- A round. -/
def shaRound (st : List Nat) (kw : Nat × Nat) : List Nat :=
  let g (i : Nat) : Nat := st.getD i 0
  let e := g 4
  let a := g 0
  let ch := Nat.xor (Nat.land e (g 5)) (Nat.land (2 ^ 64 - 1 - e) (g 6))
  let maj := xor3 (Nat.land a (g 1)) (Nat.land a (g 2)) (Nat.land (g 1) (g 2))
  let t1 := g 7 + xor3 (rotr64 14 e) (rotr64 18 e) (rotr64 41 e) + ch + kw.1 + kw.2
  let t2 := xor3 (rotr64 28 a) (rotr64 34 a) (rotr64 39 a) + maj
  [(t1 + t2) % 2 ^ 64, a, g 1, g 2, (g 3 + t1) % 2 ^ 64, e, g 5, g 6]
/-- A block of 128 bytes. -/
def shaBlock (h : List Nat) (m : List Nat) : List Nat :=
  let w := (shaSchedule 64 ((List.range 16).map (fun i => ofBytesBE ((m.drop (8 * i)).take 8))).reverse).reverse
  (h.zip ((shaK.zip w).foldl shaRound h)).map (fun p => (p.1 + p.2) % 2 ^ 64)
/-- The hash value after `n` blocks. -/
def shaBlocks : Nat → List Nat → List Nat → List Nat
  | 0, h, _ => h
  | n + 1, h, m => shaBlocks n (shaBlock h (m.take 128)) (m.drop 128)
/-- SHA-384. -/
def sha384 (m : List Nat) : List Nat :=
  let n := m.length
  let pad := m ++ [128] ++ rep ((239 - n % 128) % 128) 0 ++ bytesBE 16 (8 * n)
  ((shaBlocks (pad.length / 128) shaInit pad).flatMap (bytesBE 8)).take 48
/-- HMAC-SHA-384, with a key of at most 128 bytes. -/
def hmac384 (k m : List Nat) : List Nat :=
  let key := k ++ rep (128 - k.length) 0
  sha384 (key.map (Nat.xor 0x5C) ++ sha384 (key.map (Nat.xor 0x36) ++ m))

/-! ### ECDSA over P-384 (FIPS 186-5) -/

/-- The prime of P-384. -/
def p384P : Nat := 2 ^ 384 - 2 ^ 128 - 2 ^ 96 + 2 ^ 32 - 1
/-- The base point. -/
def p384G : Nat × Nat :=
  (0xAA87CA22BE8B05378EB1C71EF320AD746E1D3B628BA79B9859F741E082542A385502F25DBF55296C3A545E3872760AB7,
   0x3617DE4A96262C6F5D9E98BF9292DC29F8F41DBD289A147CE9DA3113B5F0B8C00A60B1CE1D7E819D7A431D7C90EA0E5F)
/-- A power modulo `m`, over `n` bits of the exponent from the highest down. -/
def powMod (m a e : Nat) : Nat → Nat
  | 0 => 1
  | n + 1 => let x := powMod m a (e / 2) n
             x * x % m * (if e % 2 = 1 then a else 1) % m
/-- The inverse modulo a 384-bit prime. -/
def invMod (m a : Nat) : Nat := powMod m a (m - 2) 384
/-- The sum of two points; none is the point at infinity. -/
def ecAdd (a b : Option (Nat × Nat)) : Option (Nat × Nat) :=
  match a, b with
  | none, q => q
  | q, none => q
  | some (x1, y1), some (x2, y2) =>
    let p := p384P
    let out (l : Nat) : Option (Nat × Nat) :=
      let x := (l * l + 2 * p - x1 - x2) % p
      some (x, (l * (x1 + p - x) + p - y1) % p)
    if x1 = x2 then
      if (y1 + y2) % p = 0 then none else out ((3 * x1 * x1 + p - 3) * invMod p (2 * y1 % p) % p)
    else out ((y2 + p - y1) * invMod p ((x2 + p - x1) % p) % p)
/-- A multiple of a point, over `n` bits. -/
def ecMul (g : Option (Nat × Nat)) : Nat → Nat → Option (Nat × Nat)
  | 0, _ => none
  | n + 1, k => let q := ecMul g n (k / 2)
                let d := ecAdd q q
                if k % 2 = 1 then ecAdd d g else d
/-- The public point of a private key. -/
def publicPoint (d : Nat) : Nat × Nat := (ecMul (some p384G) 384 d).getD (0, 0)
/-- A signature by the secret number `k`; none where another must be taken. -/
def ecdsaWith (d z k : Nat) : Option (Nat × Nat) :=
  let r := ((ecMul (some p384G) 384 k).getD (0, 0)).1 % p384N
  let s := invMod p384N k * (z + r * d) % p384N
  if r = 0 ∨ s = 0 then none else some (r, s)
/-- The secret numbers of the deterministic procedure, tried `n` times. -/
def ecdsaTry (d z : Nat) : Nat → List Nat → List Nat → Nat × Nat
  | 0, _, _ => (0, 0)
  | n + 1, k, v =>
    let t := hmac384 k v
    let c := ofBytesBE t
    match (if 0 < c ∧ c < p384N then ecdsaWith d z c else none) with
    | some q => q
    | none => let k1 := hmac384 k (t ++ [0])
              ecdsaTry d z n k1 (hmac384 k1 t)
/-- The deterministic ECDSA signature of a message: r and s. [DEDUCED, log 69] -/
def ecdsaSign (d : Nat) (m : List Nat) : Nat × Nat :=
  let h := sha384 m
  let z := ofBytesBE h
  let seed := bytesBE 48 d ++ bytesBE 48 (z % p384N)
  let k0 := hmac384 (rep 48 0) (rep 48 1 ++ [0] ++ seed)
  let v0 := hmac384 k0 (rep 48 1)
  let k1 := hmac384 k0 (v0 ++ [1] ++ seed)
  ecdsaTry d z 16 k1 (hmac384 k1 v0)

end Sys2Proof.Machine
end

