-- ==== Sys2Proof/Machine/Seal.lean ====
section
/-! DEFINITION. Sealed memory (R385 to R401): the placement map, the tree of metadata tiles and its verified copies, filling and writing back
a tile at its home port's seal cache, poisoned tiles, and re-keying. State holds each tile's plaintext; what the tiers store is its
XTS-AES-256 encryption under the tile's owner, version and PTN, changed where something outside has changed it. -/

namespace Sys2Proof.Machine

/-- The outcome of an access: done, the tile being moved (R329), or a fatal cause, its record filled but for the engine's own
fields. -/
inductive MemRes (α : Type) where
  | ok (v : α) (s : State)
  | wait (s : State)
  | fail (x : StopRec) (s : State)

/-- The record of a fault of an access: cause, address field and detail words. -/
def accessRec (cause address d0 d1 : Nat) : StopRec :=
  { recOf cause 0 0 with address := toWord address, d0 := toWord d0, d1 := toWord d1 }

/-- Go on after an access that was done. -/
def MemRes.bind {α β : Type} (x : MemRes α) (f : α → State → MemRes β) : MemRes β :=
  match x with
  | .ok v s => f v s
  | .wait s => .wait s
  | .fail x s => .fail x s

/-- The greatest version (R400). -/
def maxVersion : Nat := 2 ^ 56 - 1

/-! ### The placement map (R385) -/

/-- A number is a PTN: tier 1 below 2^29, tier 2 from 2^33 on, 2^32 of them (R385). -/
def isPtn (n : Nat) : Bool := decide (n < 2 ^ 29) || (decide (2 ^ 33 ≤ n) && decide (n < 2 ^ 33 + 2 ^ 32))
/-- The `n`-th tile of the package: those of tier 1, then those of tier 2. [DESIGN CHOICE, log 63] -/
def nthPtn (n : Nat) : Nat := if n < 2 ^ 29 then n else 2 ^ 33 + (n - 2 ^ 29)
/-- How many tiles the package has: 2 TiB of tier 1 and 16 TiB of tier 2 (R17, R385). -/
def tileCount : Nat := 2 ^ 29 + 2 ^ 32
/-- The PTN at which a device tile is first put, from the `i`-th of its choices: its own number's tile, or the next ones in turn where others
have those. The spec leaves the placement to the root controller. [DESIGN CHOICE, log 63] -/
def defaultPtn (dev i : Nat) : Nat := nthPtn ((dev + i) % tileCount)
/-- The first PTN from the default on that no other tile has (R329, R385). [DESIGN CHOICE, log 63] -/
def firstPtn (s : State) (dev : Nat) : Nat :=
  defaultPtn dev (((List.range (s.places.length + 1)).find? (fun i => !s.places.any (fun q => decide (q.2.ptn = defaultPtn dev i)))).getD 0)
/-- A device tile's entry of the placement map; one not yet entered belongs to the first key that touches it. [DESIGN CHOICE, log 63] -/
def placeOf (s : State) (dev key : Nat) : Place :=
  match Assoc.find dev s.places with
  | some p => p
  | none => { ptn := firstPtn s dev, owner := key, moving := false }
/-- The device tile that lies at a PTN. -/
def devOf (s : State) (ptn : Nat) : Nat := ((s.places.find? (fun q => decide (q.2.ptn = ptn))).map (fun q => q.1)).getD 0
/-- The owner key ID of a PTN. -/
def ownerOf (s : State) (ptn : Nat) : Nat := ((s.places.find? (fun q => decide (q.2.ptn = ptn))).map (fun q => q.2.owner)).getD 0
/-- A key slot (R386). -/
def keySlot (s : State) (k : Nat) : KeySlot := Assoc.get KeySlot.none k s.keys

/-! ### Encryption and tags (R388, R389) -/

/-- The IV of a tag: level, key ID, version and number (R389). -/
def tagIv (lvl key version num : Nat) : Nat := lvl * 2 ^ 102 + key * 2 ^ 90 + version % 2 ^ 56 * 2 ^ 34 + num
/-- The tweak of a data tile (R388). -/
def tweakOf (version ptn : Nat) : Nat := version % 2 ^ 56 * 2 ^ 34 + ptn
/-- The stored bytes of a plaintext at a PTN under a key ID and a version (R388). -/
def sealBytes (s : State) (key version ptn : Nat) (p : List Byte) : List Byte :=
  xtsEnc (keySlot s key).xts1 (keySlot s key).xts2 (tweakOf version ptn) p
/-- The tag of a data tile's stored bytes (R389). -/
def tileTag (s : State) (key version ptn : Nat) (c : List Byte) : BitVec 64 := gmac64 (keySlot s key).integ (tagIv 0 key version ptn) c
/-- The plaintext of a device tile. -/
def plainOf (s : State) (dev : Nat) : List Byte := s.tmem.reads (dev * 4096) 4096
/-- The 4,096 bytes that tier memory holds of a tile: its sealed plaintext, changed where they have been changed from outside. [DESIGN CHOICE, log 38] -/
def storedBytes (s : State) (key version ptn dev : Nat) : List Byte :=
  ((sealBytes s key version ptn (plainOf s dev)).zipIdx (ptn * 4096)).map (fun q => q.1 ^^^ Assoc.get 0 q.2 s.spoilt)
/-- A tile's stored bytes were changed from outside. -/
def tileSpoilt (s : State) (ptn : Nat) : Bool := s.spoilt.any (fun q => decide (q.1 / 4096 = ptn))
/-- They are what the seal cache stored, or hold, again. -/
def unspoil (ptn : Nat) (s : State) : State := { s with spoilt := s.spoilt.filter (fun q => decide (q.1 / 4096 ≠ ptn)) }

/-! ### Metadata tiles (R390 to R392) -/

/-- The index of the metadata tile of a level that describes a PTN, with the tier above it (R391). -/
def metaTile (level ptn : Nat) : Nat := ptn / 2 ^ (8 * (level + 1))
/-- The key under which the model keeps metadata tile `m` of a level. -/
def metaKey (level m : Nat) : Nat := 4 * m + level
/-- The number of a metadata tile in its tag's IV: the tier in bit 33, its index within its level below (R389). -/
def metaNum (level m : Nat) : Nat := let n := 2 ^ (33 - 8 * (level + 1))
                                     m / n * 2 ^ 33 + m % n
/-- Entry `j` of a metadata tile. -/
def MetaTile.entry (t : MetaTile) (j : Nat) : Meta := Assoc.get t.base j t.entries
/-- The 128 bits of an entry (R390). -/
def Meta.bits (m : Meta) : Nat := b2n m.p * 2 ^ 121 + b2n m.z * 2 ^ 120 + m.version % 2 ^ 56 * 2 ^ 64 + m.tag.toNat
/-- The 4,096 bytes of a metadata tile. -/
def MetaTile.bytes (t : MetaTile) : List Byte := (List.range 256).flatMap (fun j => bytesLE 16 (t.entry j).bits)
/-- The tag of a metadata tile (R389): key ID 0 seals it. -/
def metaTag (s : State) (level m version : Nat) (t : MetaTile) : BitVec 64 :=
  gmac64 (keySlot s 0).integ (tagIv (level + 1) 0 version (metaNum level m)) t.bytes
/-- A metadata tile whose entries all hold `p` (R392, R398). -/
def MetaTile.poisoned (t : MetaTile) : MetaTile :=
  { base := { t.base with p := true }, entries := t.entries.map (fun q => (q.1, { q.2 with p := true })) }
/-- A metadata tile that tier memory holds. -/
def storedMeta (s : State) (level m : Nat) : MetaTile := Assoc.get { base := Meta.init, entries := [] } (metaKey level m) s.metas
/-- The tile beneath an entry, before any check: made anew where every tile beneath is fresh, with the entry's version (R392); poisoned where
the entry is (R398). -/
def tileUnder (e : Meta) (t : MetaTile) : MetaTile :=
  let t1 := if e.z then { base := { p := false, z := true, version := e.version, tag := 0 }, entries := [] } else t
  if e.p then t1.poisoned else t1
/-- Metadata tile `m` of level 2 - `d` as the seal cache holds or would read it. -/
def metaAt (s : State) : Nat → Nat → MetaTile
  | 0, m =>
    match Assoc.find (metaKey 2 m) s.metaHeld with
    | some h => h.tile
    | none => tileUnder (Assoc.get Meta.init m s.roots) (storedMeta s 2 m)
  | d + 1, m =>
    match Assoc.find (metaKey (1 - d) m) s.metaHeld with
    | some h => h.tile
    | none => tileUnder ((metaAt s d (m / 256)).entry (m % 256)) (storedMeta s (1 - d) m)
/-- The entry that describes metadata tile `m` of a level: a root register's, or that of the tile above (R391). -/
def parentEntry (s : State) (level m : Nat) : Meta :=
  if level = 2 then Assoc.get Meta.init m s.roots else (metaAt s (1 - level) (m / 256)).entry (m % 256)
/-- The metadata entry of a data tile (R390, R391). -/
def metaOf (s : State) (ptn : Nat) : Meta := (metaAt s 2 (metaTile 0 ptn)).entry (ptn % 256)

/-- Hold a metadata tile. -/
def holdMeta (level m : Nat) (t : MetaTile) (dirty : Bool) (s : State) : State :=
  { s with metaHeld := Assoc.put (metaKey level m) { tile := t, dirty := dirty } s.metaHeld }
/-- Change the entry that describes metadata tile `m` of a level; a root register is written at once (R392). -/
def setParent (level m : Nat) (e : Meta) (s : State) : State :=
  if level = 2 then { s with roots := Assoc.put m e s.roots }
  else
    let t := metaAt s (1 - level) (m / 256)
    holdMeta (level + 1) (m / 256) { t with entries := Assoc.put (m % 256) e t.entries } true s
/-- Put a data tile's metadata entry. -/
def setMeta (ptn : Nat) (e : Meta) (s : State) : State :=
  let m := metaTile 0 ptn
  let t := metaAt s 2 m
  holdMeta 0 m { t with entries := Assoc.put (ptn % 256) e t.entries } true s
/-- Write a dirty metadata tile back whole: its version rises by 1 in its parent entry, and its tag is computed anew (R392). -/
def metaWriteback (level m : Nat) (s : State) : State :=
  match Assoc.find (metaKey level m) s.metaHeld with
  | none => s
  | some h =>
    if h.dirty then
      let v := (parentEntry s level m).version + 1
      let s1 := setParent level m { p := false, z := false, version := v, tag := metaTag s level m v h.tile } s
      { holdMeta level m h.tile false s1 with metas := Assoc.put (metaKey level m) h.tile s1.metas }
    else s
/-- The contexts that own tiles beneath metadata tile `m` of a level. -/
def ownersBelow (s : State) (level m : Nat) : List Nat :=
  (s.contexts.filter (fun (q : Nat × Context) =>
    s.places.any (fun p => decide (p.2.owner = q.2.keyId) && decide (metaTile level p.2.ptn = m)))).map (fun q => q.1)
/-- A metadata tile has failed its tag: it is rewritten with every entry poisoned and its old versions, and the management firmware and the
host are told (R398). [DEDUCED, log 68] -/
def metaFails (level m : Nat) (s : State) : State :=
  metaWriteback level m (holdMeta level m (storedMeta s level m).poisoned true
    { s with notices := s.notices ++ [.metadataFailed level m, .ownersAffected (ownersBelow s level m)] })
/-- Bring metadata tile `m` of a level into the seal cache, verified against the entry above it; whether its tag failed (R391, R398). -/
def fetchLevel (level m : Nat) (s : State) : Bool × State :=
  if (Assoc.find (metaKey level m) s.metaHeld).isSome then (false, s)
  else
    let e := parentEntry s level m
    let t := storedMeta s level m
    if e.z || e.p then (false, holdMeta level m (tileUnder e t) false s)
    else if metaTag s level m e.version t == e.tag then (false, holdMeta level m t false s)
    else (true, metaFails level m s)
/-- Bring the three metadata tiles above a data tile into the seal cache, level 2 first; the level whose tag failed (R391). -/
def fetchMeta (ptn : Nat) (s : State) : Option Nat × State :=
  [2, 1, 0].foldl (fun acc l =>
    let q := fetchLevel l (metaTile l ptn) acc.2
    (if q.1 then some l else acc.1, q.2)) (none, s)
/-- Nothing beneath metadata tile `m` of a level is held. -/
def nothingBelow (s : State) (level m : Nat) : Bool :=
  if level = 0 then !s.held.any (fun q => decide (metaTile 0 q.1 = m))
  else !s.metaHeld.any (fun q => decide (q.1 % 4 + 1 = level) && decide (q.1 / 4 / 256 = m))
/-- Evict a metadata tile, written back first where it is dirty. The replacement policy is not architectural: this model's evicts none while
something beneath it is held. [DESIGN CHOICE, log 39] -/
def evictMeta (level m : Nat) (s : State) : State :=
  if nothingBelow s level m then
    let s1 := metaWriteback level m s
    { s1 with metaHeld := Assoc.erase (metaKey level m) s1.metaHeld }
  else s

/-! ### Held tiles -/

/-- Hold a tile in its seal cache. -/
def setHeld (ptn : Nat) (h : Held) (s : State) : State := { s with held := Assoc.put ptn h s.held }
/-- Drop a tile from its seal cache, with the soft errors in its held words (R396). -/
def dropHeld (ptn : Nat) (s : State) : State :=
  { s with held := Assoc.erase ptn s.held, errors := s.errors.filter (fun e => !(decide (e.code = 12) && decide (e.key / 512 = ptn))) }
/-- Mark a tile poisoned and drop it (R398). -/
def poison (ptn : Nat) (s : State) : State := dropHeld ptn (setMeta ptn { metaOf s ptn with p := true } s)
/-- The root controller sets a tile fresh: P = 0, Z = 1, its version kept (R392, R406). -/
def freshMeta (ptn : Nat) (s : State) : State :=
  let s1 := (fetchMeta ptn s).2
  unspoil ptn (setMeta ptn { metaOf s1 ptn with p := false, z := true } s1)

/-- The expander port of a tier-2 tile: eight ports share the tile numbers in turn. [DEDUCED, log 57] -/
def expanderOf (ptn : Nat) : Option Nat := if 2 ^ 33 ≤ ptn then some (ptn % 8) else none

/-- The home port of a tile: its stack's memory port, or its expander's (R393). Which of the 16 stacks holds a tier-1 tile is not stated: its
number modulo 16 (R17). [DESIGN CHOICE, log 73] -/
def homePort (ptn : Nat) : Nat :=
  match expanderOf ptn with
  | some p => 16 + p
  | none => ptn % 16

/-- The tile lies on an expander whose link has failed (R451). -/
def expanderDown (s : State) (ptn : Nat) : Bool :=
  match expanderOf ptn with
  | some p => s.expandersDown.contains p
  | none => false

/-- Soft errors that tier memory could not correct, met while a tile is filled (R396). -/
def tierErrors (s : State) (ptn : Nat) : List SoftErr :=
  s.errors.filter (fun e => decide (e.code = 13) && decide (e.key / 512 = ptn))
/-- Forget them. -/
def clearTier (ptn : Nat) (s : State) : State :=
  { s with errors := s.errors.filter (fun e => !(decide (e.code = 13) && decide (e.key / 512 = ptn))) }

/-- Hold a tile clean. -/
def holdClean (ptn version : Nat) (s : State) : State := setHeld ptn { version := version, dirty := false, rewrite := none, writer := 0 } s
/-- The plaintext of a tile as its stored bytes decrypt: other than before only where they were changed from outside and still match their tag. -/
def decrypted (key ptn dev version : Nat) (s : State) : State :=
  if tileSpoilt s ptn then
    let p := xtsDec (keySlot s key).xts1 (keySlot s key).xts2 (tweakOf version ptn) (storedBytes s key version ptn dev)
    unspoil ptn { s with tmem := VMem.writes s.moment (dev * 4096) p s.tmem, moment := s.moment + 1 }
  else s
/-- Fill a tile that is neither held nor poisoned (R394): errors of tier memory first, then the tag. [DESIGN CHOICE, log 38] -/
def fillTile (key dev ptn : Nat) (s : State) : MemRes Nat :=
  let m := metaOf s ptn
  if m.z then .ok ptn (holdClean ptn m.version s)
  else if (tierErrors s ptn).any (fun e => e.double) then .fail (accessRec 0x14 dev 13 ptn) (poison ptn (clearTier ptn s))
  else
    let s1 := { clearTier ptn s with corrected := s.corrected + (tierErrors s ptn).length }
    if tileTag s1 key m.version ptn (storedBytes s1 key m.version ptn dev) == m.tag then
      .ok ptn (holdClean ptn m.version (decrypted key ptn dev m.version s1))
    else .fail (accessRec 0x13 dev ptn 1) (poison ptn s1)

/-- A write at the last version: VERSION_EXHAUSTED, upon which the tenant's re-keying is due (R400). -/
def versionFails (key dev ptn : Nat) (s : State) : MemRes Nat :=
  .fail (accessRec 0x15 dev ptn key) { s with rekeys := if s.rekeys.contains key then s.rekeys else s.rekeys ++ [key] }
/-- An access to a poisoned tile that is not held (R398): a whole write makes it whole; a read fails; a sub-tile write either
fails or begins a rewrite, a free choice, since the rule says both. -/
def poisonedAccess (dev ptn r : Nat) (write whole : Bool) (s : State) : MemRes Nat :=
  let m := metaOf s ptn
  if whole then .ok ptn (setHeld ptn { version := m.version, dirty := true, rewrite := none, writer := r } s)
  else if write then
    let (n, s1) := s.draw
    if n % 2 = 0 then .fail (accessRec 0x13 dev ptn 2) s1
    else .ok ptn (setHeld ptn { version := m.version, dirty := false, rewrite := some [], writer := r } s1)
  else .fail (accessRec 0x13 dev ptn 2) s

/-- Bring a device tile into its seal cache for an access by key ID `key` of region `r`, checking the owner, the version and
the seal (R387, R394, R398, R400). -/
def openTile (key dev r : Nat) (write whole : Bool) (s : State) : MemRes Nat :=
  let p := placeOf s dev key
  if p.moving then .wait s
  else if p.owner ≠ key then .fail (accessRec 0x10 dev 0 4) s
  else
    let s1 := { s with places := Assoc.put dev p s.places }
    if expanderDown s1 p.ptn then .fail (accessRec 0x14 dev 13 p.ptn) s1
    else
      match Assoc.find p.ptn s1.held with
      | some h => if write && decide (h.version = maxVersion) then versionFails key dev p.ptn s1 else .ok p.ptn s1
      | none =>
        let q := fetchMeta p.ptn s1
        let s2 := q.2
        match q.1 with
        | some l => .fail (accessRec 0x13 dev p.ptn (3 + 256 * l)) s2
        | none =>
          let m := metaOf s2 p.ptn
          if write && decide (m.version = maxVersion) then versionFails key dev p.ptn s2
          else if m.p then poisonedAccess dev p.ptn r write whole s2
          else if whole then .ok p.ptn (setHeld p.ptn { version := m.version, dirty := true, rewrite := none, writer := r } s2)
          else fillTile key dev p.ptn s2

/-- Every byte of the range has been written in a rewrite (R398). -/
def maskCovers (m : Assoc Bool) (off n : Nat) : Bool := (List.range n).all (fun i => Assoc.get false (off + i) m)

/-- Soft errors in the held words of a tile that a range touches (R396). [DESIGN CHOICE, log 38] -/
def heldErrors (s : State) (ptn off n : Nat) : List SoftErr :=
  s.errors.filter (fun e => decide (e.code = 12) && decide (ptn * 512 + off / 8 ≤ e.key)
    && decide (e.key ≤ ptn * 512 + (off + n - 1) / 8))

/-- Read `n` bytes at `off` of a device tile, as they stood at moment `t` (R393, R394). [DESIGN CHOICE, log 38] -/
def tileRead (key dev off n t r : Nat) (s : State) : MemRes (List Byte) :=
  (openTile key dev r false false s).bind (fun ptn s1 =>
    let errs := heldErrors s1 ptn off n
    if errs.any (fun e => e.double) then
      .fail (accessRec 0x14 dev 12 ptn) (poison ptn { s1 with errors := s1.errors.filter (fun e => !errs.contains e) })
    else
      let s2 := { s1 with errors := s1.errors.filter (fun e => !errs.contains e), corrected := s1.corrected + errs.length }
      match (Assoc.get { version := 0, dirty := false, rewrite := none, writer := 0 } ptn s2.held).rewrite with
      | some m => if maskCovers m off n then .ok (s2.tmem.readsAt t (dev * 4096 + off) n) s2 else .fail (accessRec 0x13 dev ptn 2) s2
      | none => .ok (s2.tmem.readsAt t (dev * 4096 + off) n) s2)

/-- A tile after a write of the bytes at these offsets: dirty, or further on in its rewrite; a rewrite ends when every byte has
been written (R395, R398). -/
def Held.wrote (offs : List Nat) (r : Nat) (h : Held) : Held :=
  match h.rewrite with
  | none => { h with dirty := true }
  | some m =>
    let m' := offs.foldl (fun m o => Assoc.put o true m) m
    if 4096 ≤ m'.length then { h with dirty := true, rewrite := none, writer := r }
    else { h with rewrite := some m', writer := r }

/-- The bytes of the 8-byte word at `base` that are among these offsets. -/
def offMask (offs : List Nat) (base : Nat) : BitVec 8 :=
  (List.range 8).foldl (fun m i => if offs.contains (base + i) then m ||| (1#8 <<< i) else m) 0
/-- Write bytes of a device tile, each at its offset, at one moment (R394, R395). A write of all 4,096 bytes needs no fill. [DESIGN CHOICE, log 38] -/
def tileWrite (key dev : Nat) (l : List (Nat × Byte)) (r : Nat) (s : State) : MemRes Unit :=
  (openTile key dev r true (decide (4096 ≤ l.length)) s).bind (fun ptn s1 =>
    let h := Assoc.get { version := 0, dirty := false, rewrite := none, writer := r } ptn s1.held
    let offs := l.map (fun p => p.1)
    .ok () { setHeld ptn (h.wrote offs r) s1 with
      tmem := VMem.writeEach s1.moment (l.map (fun p => (dev * 4096 + p.1, p.2))) s1.tmem, moment := s1.moment + 1,
      errors := coverErrs (fun e => if e.code = 12 ∧ e.key / 512 = ptn then offMask offs (e.key % 512 * 8) else 0) s1.errors })

/-- A tile's contents are stored under a key ID, a version and a PTN, and its entry describes them (R388, R389, R395); what stood there is
overwritten, with its errors (R175). -/
def store (key version ptn dev : Nat) (s : State) : State :=
  let c := sealBytes s key version ptn (plainOf s dev)
  clearTier ptn (unspoil ptn (setMeta ptn { p := false, z := false, version := version, tag := tileTag s key version ptn c } s))
/-- The seal cache reads a whole held tile of its own accord: a word that it cannot correct drops the tile, which is poisoned; the others are
corrected (R396). No access of a context reads the word then, so that none meets UNCORRECTABLE. [DESIGN CHOICE, log 38] -/
def readHeld (ptn : Nat) (s : State) : State :=
  let errs := heldErrors s ptn 0 4096
  if errs.any (fun e => e.double) then poison ptn s
  else { s with errors := s.errors.filter (fun e => !errs.contains e), corrected := s.corrected + errs.length }
/-- Write a held tile back if it is dirty (R395): the version rises by one and the entry describes what is now stored. -/
def writeback (ptn : Nat) (s0 : State) : State :=
  match Assoc.find ptn s0.held with
  | none => s0
  | some h =>
    if h.dirty && h.rewrite.isNone then
      let s := readHeld ptn s0
      if (Assoc.find ptn s.held).isNone then s
      else setHeld ptn { h with version := h.version + 1, dirty := false } (store (ownerOf s ptn) (h.version + 1) ptn (devOf s ptn) s)
    else s0

/-- Write back every tile of a list. -/
def writebackAll (l : List Nat) (s : State) : State := l.foldl (fun s ptn => writeback ptn s) s

/-- The tiles whose owner is key ID `key`: device tile and PTN. -/
def tilesOf (s : State) (key : Nat) : List (Nat × Nat) :=
  (s.places.filter (fun q => q.2.owner == key)).map (fun q => (q.1, q.2.ptn))

/-- Write back every held tile of a key ID. -/
def writebackKey (key : Nat) (s : State) : State := writebackAll ((tilesOf s key).map (fun q => q.2)) s

/-- The rewrites of poisoned tiles that region `r`'s fabric load left unfinished are dropped, with the soft errors in their words (R396, R398). -/
def dropRewrites (r : Nat) (s : State) : State :=
  (s.held.filter (fun q => q.2.rewrite.isSome && decide (q.2.writer = r))).foldl (fun s q => dropHeld q.1 s) s

/-- The lowest free key ID from 1 up, if one is free (R386). [DEDUCED, log 40] -/
def freeKey (s : State) : Option Nat := (List.range' 1 4095).find? (fun k => decide ((keySlot s k).st = .free))

/-- The stored tile cannot be read back: it is poisoned, or its memory or its tag fails. [DEDUCED, log 40] -/
def lostTile (s : State) (key ptn dev : Nat) : Bool :=
  let m := metaOf s ptn
  m.p || (!m.z && (expanderDown s ptn || (tierErrors s ptn).any (fun e => e.double)
                   || tileTag s key m.version ptn (storedBytes s key m.version ptn dev) != m.tag))

/-- A tile of the tenant under its new key (R400 step 3): verified under the old one and encrypted anew, its version restarting at 0. A tile that
cannot be verified, or that is poisoned, is poisoned under the new key, a rewrite of it going on; a fresh tile stays fresh. [DEDUCED, log 40] -/
def rekeyTile (key key' : Nat) (s0 : State) (q : Nat × Nat) : State :=
  let (dev, ptn) := q
  let s := readHeld ptn (fetchMeta ptn s0).2
  let m := metaOf s ptn
  let s1 := { s with places := Assoc.put dev { ptn := ptn, owner := key', moving := false } s.places }
  match Assoc.find ptn s.held with
  | some h =>
    let s2 := setHeld ptn { h with version := 0, dirty := false } s1
    if h.rewrite.isSome || (!h.dirty && (m.p || m.z)) then setMeta ptn { m with version := 0 } s2
    else store key' 0 ptn dev s2
  | none =>
    if lostTile s key ptn dev then setMeta ptn { m with p := true, version := 0 } s1
    else if m.z then setMeta ptn { m with version := 0 } s1
    else store key' 0 ptn dev s1

end Sys2Proof.Machine
end

