-- ==== Sys2Proof/Machine/Translate.lean ====
section
/-! DEFINITION. Translation (R316 to R329): tensor-table entries, the layout unit, the walk of a tile table, the second stage, and window
entries; and the caches of translations, which may answer with an entry as it was before an invalidation (R323, R341, R342). -/

namespace Sys2Proof.Machine

/-! ### Tensors and their layout (R317 to R319) -/

/-- A tensor-table entry that is valid and well formed. -/
structure Tensor where
  x : List Nat
  lt : List Nat
  ord : List Nat
  nd : Nat
  fmt : Fmt
  lev : Nat
  root : Nat
  r : Bool
  w : Bool
deriving DecidableEq, Repr

/-- The ceiling of a quotient. -/
def ceilDiv (a b : Nat) : Nat := (a + b - 1) / b

/-- The extents of an entry (R317). -/
def entryX (e : Nat) : List Nat := [bits e 87 64, bits e 111 88, bits e 127 112, bits e 143 128, bits e 159 144]
/-- The tile extents' logarithms of an entry. -/
def entryLt (e : Nat) : List Nat := (List.range 5).map (fun d => bits e (4 * d + 19) (4 * d + 16))
/-- The order of the dimensions in tile numbering. -/
def entryOrd (e : Nat) : List Nat := (List.range 5).map (fun k => bits e (3 * k + 38) (3 * k + 36))

/-- What Σ lt must be for a format (R318). -/
def tileLog (f : Fmt) : Nat :=
  match fmtBits f with
  | 4 => 13
  | 6 => 12
  | 8 => 12
  | 16 => 11
  | 32 => 10
  | _ => 0

/-- The tiles of a tensor along each dimension (R319). -/
def tilesAlong (x lt : List Nat) : List Nat := (x.zip lt).map (fun p => ceilDiv p.1 (2 ^ p.2))

/-- An entry is malformed (R318). -/
def entryBad (e : Nat) : Bool :=
  let x := entryX e
  let lt := entryLt e
  let ord := entryOrd e
  let nd := bits e 10 8
  let f := fmtOf (bits e 7 4)
  let lev := bits e 52 51
  bits e 255 226 ≠ 0 || bits e 191 160 ≠ 0 || bits e 63 53 ≠ 0 || bits e 15 11 ≠ 0 || bit e 3
    || decide (4 < nd) || x.contains 0 || f == .fp64 || lev == 0
    || !((List.range 5).all (fun d => ord.contains d))
    || (List.range 5).any (fun d => decide (nd < d) && (lt.getD d 0 ≠ 0 || x.getD d 0 ≠ 1))
    || lt.foldl (· + ·) 0 ≠ tileLog f
    || decide (2 ^ (9 * lev) < (tilesAlong x lt).foldl (· * ·) 1)

/-- What an entry says of a tid: no tensor, a malformed entry, or a tensor. -/
inductive TName where
  | absent
  | malformed
  | tensor (t : Tensor)
deriving DecidableEq, Repr

/-- Read an entry. -/
def tensorOf (e : Nat) : TName :=
  if !bit e 0 then .absent
  else if entryBad e then .malformed
  else .tensor { x := entryX e, lt := entryLt e, ord := entryOrd e, nd := bits e 10 8, fmt := fmtOf (bits e 7 4), lev := bits e 52 51,
                 root := bits e 225 192, r := bit e 1, w := bit e 2 }

/-- A coordinate vector lies outside the extents. -/
def Tensor.outside (t : Tensor) (j : List Nat) : Bool := (List.range 5).any (fun d => decide (t.x.getD d 1 ≤ j.getD d 0))

/-- The tensor tile number of a coordinate vector inside the extents (R319). -/
def Tensor.tile (t : Tensor) (j : List Nat) : Nat :=
  let g := (j.zip t.lt).map (fun p => p.1 / 2 ^ p.2)
  let gs := tilesAlong t.x t.lt
  [4, 3, 2, 1, 0].foldl (fun acc k => let d := t.ord.getD k 0; acc * gs.getD d 1 + g.getD d 0) 0

/-- The element's index within its tile (R319). -/
def Tensor.elem (t : Tensor) (j : List Nat) : Nat :=
  [4, 3, 2, 1, 0].foldl (fun acc d => acc * 2 ^ t.lt.getD d 0 + j.getD d 0 % 2 ^ t.lt.getD d 0) 0

/-- The byte offset of an element within its tile: 4- and 6-bit elements as R52 packs them (R319). -/
def Tensor.offset (t : Tensor) (j : List Nat) : Nat := t.elem j * fmtBits t.fmt / 8

/-! ### Outcomes -/

/-- The outcome of a translation: a device tile; a missing entry of stage 1 or 2 (R327); waiting for a move; or a fatal cause. -/
inductive XRes (α : Type) where
  | ok (v : α) (s : State)
  | miss (stage : Nat) (s : State)
  | wait (s : State)
  | fail (x : StopRec) (s : State)

/-- Go on after a success. -/
def XRes.bind {α β : Type} (x : XRes α) (f : α → State → XRes β) : XRes β :=
  match x with
  | .ok v s => f v s
  | .miss k s => .miss k s
  | .wait s => .wait s
  | .fail x s => .fail x s

/-- An access's outcome as a translation's. -/
def XRes.lift {α : Type} (x : MemRes α) : XRes α :=
  match x with
  | .ok v s => .ok v s
  | .wait s => .wait s
  | .fail x s => .fail x s

/-! ### The second stage (R322) -/

/-- An R320 entry has a nonzero reserved field. -/
def tileEntryBad (e : Nat) : Bool := bits e 55 40 ≠ 0 || bits e 5 3 ≠ 0

/-- Read a table tile of the hypervisor through its seal cache, as its owner reads it (R393). [DEDUCED, log 46] -/
def tableRead (r tile off n : Nat) (s : State) : MemRes (List Byte) :=
  match Assoc.find tile s.places with
  | some p => tileRead p.owner tile off n s.moment r s
  | none => .ok (s.tmem.reads (tile * 4096 + off) n) s

/-- COPY_TRANSLATION_UNRESOLVED. -/
def causeUnresolved : Nat := 0x11
/-- COPY_PERMISSION. -/
def causePermission : Nat := 0x10

/-- A second-stage walk from `tile`: reads the entries at the given indices; the last one is the leaf (R322). -/
def walk2 (r : Nat) : Nat → List Nat → State → XRes Nat
  | _, [], s => .ok 0 s
  | tile, i :: rest, s =>
    (XRes.lift (tableRead r tile (8 * i) 8 s)).bind (fun bs s1 =>
      let e := ofBytesLE bs
      if tileEntryBad e then .fail (accessRec causeUnresolved 0 2 3) s1
      else if !bit e 0 then .miss 2 s1
      else
        match rest with
        | [] => .ok e s1
        | _ => walk2 r (bits e 39 6) rest s1)

/-- A first-stage output tile's device tile and the second stage's rights. A context of the physical function has no second
stage (R322). A cached entry may answer, or the tables as they stand; which, is free (R323, R342). -/
def stage2 (c : Context) (r mid : Nat) (s : State) : XRes (Nat × Bool × Bool) :=
  if c.attr.func = 0 then .ok (mid, true, true) s
  else
    let (n, s1) := s.draw
    let hit := s1.tlb2.filter (fun e => decide (e.asid = c.attr.asid) && decide (e.gen = c.gen) && decide (e.mid = mid))
    match (if n % 2 = 0 then hit[n / 2 % (hit.length + 1)]? else none) with
    | some e => .ok (e.dev, e.r, e.w) s1
    | none =>
      (walk2 r c.root [bits mid 33 27, bits mid 26 18, bits mid 17 9, bits mid 8 0] s1).bind (fun e s2 =>
        let x : SEntry := { asid := c.attr.asid, gen := c.gen, mid := mid, dev := bits e 39 6, r := bit e 1, w := bit e 2 }
        .ok (x.dev, x.r, x.w) { s2 with tlb2 := if s2.tlb2.contains x then s2.tlb2 else x :: s2.tlb2 })

/-- Read bytes of the first-stage output tile `mid`, at most to its end, as tenant memory of the context (R321). [DEDUCED, log 34] -/
def readMid (c : Context) (r mid off n : Nat) (s : State) : XRes (List Byte) :=
  (stage2 c r mid s).bind (fun p s1 =>
    if !p.2.1 then .fail (accessRec causePermission 0 2 0) s1
    else
      match tileRead c.keyId p.1 off n s1.moment r s1 with
      | .ok v s2 => .ok v s2
      | .wait s2 => .wait s2
      | .fail x s2 => .fail (if x.cause = causePermission then { x with d0 := 0xFFFF } else x) s2)

/-! ### The first stage (R316, R321) -/

/-- The tensor-table entry of a tid, from the cache or from memory (R316, R318). -/
def tensorName (c : Context) (r tid : Nat) (s : State) : XRes TName :=
  if c.attr.ttCount ≤ tid then .ok .absent s
  else
    let (n, s1) := s.draw
    let hit := s1.tnames.filter (fun e => decide (e.asid = c.attr.asid) && decide (e.gen = c.gen) && decide (e.tid = tid))
    match (if n % 2 = 0 then hit[n / 2 % (hit.length + 1)]? else none) with
    | some e => .ok (tensorOf e.bits.toNat) s1
    | none =>
      (readMid c r (c.attr.ttBase + 32 * tid / 4096) (32 * tid % 4096) 32 s1).bind (fun bs s2 =>
        let e := ofBytesLE bs
        let x : NEntry := { asid := c.attr.asid, gen := c.gen, tid := tid, bits := BitVec.ofNat 256 e }
        .ok (tensorOf e) { s2 with tnames := if s2.tnames.contains x then s2.tnames else x :: s2.tnames })

/-- One entry of a tile-table walk: of the table tile `tile` at index `i`, `k` levels above the leaf. An interior entry may come from a walk
cache, or is read and kept there; which, is free (R321, R323). [DEDUCED, log 30] -/
def walkEntry (c : Context) (r tid t tile i k : Nat) (s : State) : XRes Nat :=
  let (n, s1) := s.draw
  let hit := s1.walks.filter (fun e => decide (e.asid = c.attr.asid) && decide (e.gen = c.gen) && decide (e.tid = tid) && decide (e.tab = tile)
    && decide (e.idx = i) && decide (0 < k))
  match (if n % 2 = 0 then hit[n / 2 % (hit.length + 1)]? else none) with
  | some e => .ok e.bits.toNat s1
  | none =>
    (readMid c r tile (8 * i) 8 s1).bind (fun bs s2 =>
      let e := ofBytesLE bs
      if tileEntryBad e then .fail (accessRec causeUnresolved 0 1 3) s2
      else if !bit e 0 then .miss 1 s2
      else
        let lo := t / 2 ^ (9 * k) * 2 ^ (9 * k)
        let x : WEntry := { asid := c.attr.asid, gen := c.gen, tid := tid, tab := tile, idx := i, lo := lo, hi := lo + 2 ^ (9 * k) - 1,
                            bits := toWord e }
        .ok e (if k = 0 ∨ s2.walks.contains x then s2 else { s2 with walks := x :: s2.walks }))
/-- The walk of a tile table from `tile` for tile `t` of a tensor, the indices of the levels given (R321): the leaf's tile and rights. -/
def walk1 (c : Context) (r tid t : Nat) : Nat → List Nat → State → XRes Nat
  | _, [], s => .ok 0 s
  | tile, i :: rest, s =>
    (walkEntry c r tid t tile i rest.length s).bind (fun e s1 =>
      match rest with
      | [] => .ok e s1
      | _ => walk1 c r tid t (bits e 39 6) rest s1)

/-- The indices of a tile-table walk, the top level's first (R320). -/
def walkIdx (lev t : Nat) : List Nat := ((List.range lev).reverse).map (fun k => t / 2 ^ (9 * k) % 512)

/-- The first-stage output tile of tensor tile `t` of a tensor, with the rights of the leaf ANDed with the tensor's. [DEDUCED, log 30] -/
def stage1 (c : Context) (r tid : Nat) (tn : Tensor) (t : Nat) (s : State) : XRes (Nat × Bool × Bool) :=
  let (n, s1) := s.draw
  let hit := s1.tlb.filter (fun e => decide (e.asid = c.attr.asid) && decide (e.gen = c.gen) && decide (e.tid = tid)
    && decide (e.tile = t))
  match (if n % 2 = 0 then hit[n / 2 % (hit.length + 1)]? else none) with
  | some e => .ok (e.mid, e.r, e.w) s1
  | none =>
    (walk1 c r tid t tn.root (walkIdx tn.lev t) s1).bind (fun e s2 =>
      let x : TEntry := { asid := c.attr.asid, gen := c.gen, tid := tid, tile := t, mid := bits e 39 6, r := bit e 1 && tn.r,
                          w := bit e 2 && tn.w }
      .ok (x.mid, x.r, x.w) { s2 with tlb := if s2.tlb.contains x then s2.tlb else x :: s2.tlb })

/-- A window entry holds a tensor tile (R325). -/
def Window.holds (q : Window) (tid t : Nat) : Bool :=
  !q.off && decide (q.tid = tid) && decide (q.lo ≤ t) && decide (t ≤ q.hi)
/-- The first-stage output tile a window gives (R325). -/
def Window.out (q : Window) (t : Nat) : Nat := ((q.base : Int) + sextN 16 q.stride * ((t - q.lo : Nat) : Int)).toNat

/-- A first-stage output tile lies in a configured range of the context's decision-diagram table (R352). -/
def ddHolds (c : Context) (mid : Nat) : Bool :=
  match c.dd with
  | some T =>
    let within (b n : Nat) : Bool := decide (b ≤ mid) && decide (mid < b + n)
    within T.cfg.nbase (2 ^ (T.cfg.lc - 8)) || within T.cfg.ubase (2 ^ (T.cfg.lc - 8)) || within T.cfg.cbase (2 ^ (T.cfg.lk - 7))
  | none => false

/-- The device tile of a tensor tile for a read or a write: the windows given first, then the tile table, then the second
stage; a right that is withheld anywhere is COPY_PERMISSION (R322, R325, R328). -/
def tensorTile (c : Context) (r : Nat) (ws : List Window) (tid : Nat) (tn : Tensor) (t : Nat) (write : Bool) (s : State) : XRes Nat :=
  let first :=
    match ws.find? (fun q => q.holds tid t) with
    | some q => XRes.ok (q.out t, q.r && tn.r, q.w && tn.w) s
    | none => stage1 c r tid tn t s
  first.bind (fun p s1 =>
    if !(if write then p.2.2 else p.2.1) || (write && ddHolds c p.1) then .fail (accessRec causePermission 0 1 0) s1
    else
      (stage2 c r p.1 s1).bind (fun q s2 =>
        if !(if write then q.2.2 else q.2.1) then .fail (accessRec causePermission 0 2 0) s2 else .ok q.1 s2))

/-- The record of a failed access to a tensor: the tid, the stage and the direction in detail word 0, and the tensor tile number
as the address (R346); a seal's fault keeps its own fields (R401). -/
def forTensor (tid tile : Nat) (write : Bool) (x : StopRec) : StopRec :=
  let wr := 2 ^ 18 * b2n write
  if x.cause = causePermission ∧ x.d1 = 4 then
    (if x.d0 = 0 then { x with d0 := toWord (tid + wr) } else { x with d0 := toWord (x.d0.toNat + wr) })
  else if x.cause = causePermission ∨ x.cause = causeUnresolved then
    { x with address := toWord tile, d0 := toWord (tid + 2 ^ 16 * x.d0.toNat + wr) }
  else x

/-- The record of a failed access to the control segment or a table: no tid, the G offset as the address (R401). -/
def forG (off : Nat) (write : Bool) (x : StopRec) : StopRec :=
  let wr := 2 ^ 18 * b2n write
  let y := { x with address := toWord off }
  if x.cause = causePermission ∧ x.d1 = 4 then { y with d0 := toWord (0xFFFF + wr) }
  else if x.cause = causePermission ∨ x.cause = causeUnresolved then { y with d0 := toWord (0xFFFF + 2 ^ 16 * x.d0.toNat + wr) }
  else y

/-! ### Dropping cached translations -/

/-- Drop first-stage entries of a tensor's tiles: those in the caches of translations and in the walk caches for which `f` and `g` hold. -/
def dropStage1 (f : TEntry → Bool) (g : WEntry → Bool) (s : State) : State :=
  { s with tlb := s.tlb.filter (fun e => !f e), walks := s.walks.filter (fun e => !g e) }
/-- Drop everything cached under an ASID (R406). -/
def dropAsid (asid : Nat) (s : State) : State :=
  { s with tlb := s.tlb.filter (fun e => e.asid ≠ asid), tlb2 := s.tlb2.filter (fun e => e.asid ≠ asid),
           walks := s.walks.filter (fun e => e.asid ≠ asid), tnames := s.tnames.filter (fun e => e.asid ≠ asid) }

end Sys2Proof.Machine
end

