-- ==== Sys2Proof/Machine/Gmem.lean ====
section
/-! DEFINITION. The control segment, G space (R213, R413): reading and writing it through the second stage and the seal cache; publishing a
phase buffer (R172); and fetching an instruction. -/

namespace Sys2Proof.Machine

/-- The bytes of a context's control segment (R413). -/
def segSize (c : Context) : Nat := c.attr.csSize * 4096

/-- The device tile of a G offset (R413, R322). A core takes no translation fault: a missing second-stage entry is fatal. -/
def gTile (c : Context) (r off : Nat) (write : Bool) (s : State) : MemRes Nat :=
  match stage2 c r (c.attr.csBase + off / 4096) s with
  | .ok p s1 =>
    if !(if write then p.2.2 else p.2.1) then .fail (forG off write (accessRec causePermission 0 2 0)) s1 else .ok p.1 s1
  | .miss k s1 => .fail (forG off write (accessRec causeUnresolved 0 k 1)) s1
  | .wait s1 => .wait s1
  | .fail x s1 => .fail (forG off write x) s1

/-- The same outcome with the address and details of a G access. -/
def MemRes.atG {α : Type} (off : Nat) (write : Bool) (x : MemRes α) : MemRes α :=
  match x with
  | .ok v s => .ok v s
  | .wait s => .wait s
  | .fail y s => .fail (forG off write y) s

/-- Read `n` bytes of G space, which lie in one tile, as they stood at moment `t`. -/
def gReadAt (c : Context) (r off n t : Nat) (s : State) : MemRes (List Byte) :=
  (gTile c r off false s).bind (fun dev s1 => (tileRead c.keyId dev (off % 4096) n t r s1).atG off false)

/-- Read them now, at the seal cache. -/
def gRead (c : Context) (r off n : Nat) (s : State) : MemRes (List Byte) := gReadAt c r off n s.moment s

/-- Write bytes of G space, each at its offset, all in the tile of `off`. -/
def gWriteEach (c : Context) (r off : Nat) (l : List (Nat × Byte)) (s : State) : MemRes Unit :=
  (gTile c r off true s).bind (fun dev s1 =>
    (tileWrite c.keyId dev (l.map (fun p => (p.1 % 4096, p.2))) r s1).atG off true)

/-- Write consecutive bytes of G space in one tile. -/
def gWrite (c : Context) (r off : Nat) (bs : List Byte) (s : State) : MemRes Unit := gWriteEach c r off (withAddrs off bs) s

/-- Write a record of 64-byte lines to G space, each line in turn. -/
def gWriteLines (c : Context) (r : Nat) : Nat → List (List Byte) → State → MemRes Unit
  | _, [], s => .ok () s
  | off, l :: t, s => (gWrite c r off l s).bind (fun _ s1 => gWriteLines c r (off + l.length) t s1)

/-- The device key of a G byte, where the second stage has an entry for it now; for the history floor of a load (R214). -/
def gKey (c : Context) (r off : Nat) : Nat := (c.attr.asid * 2 ^ 16 + r) * 2 ^ 40 + off

/-! ### Which tile a write falls in (R300, R334) -/

/-- The number of a tensor tile among the units of copies. [DESIGN CHOICE, log 28] -/
def unitTile (tid tile : Nat) : Nat := 2 ^ 60 + tid * 2 ^ 27 + tile
/-- The first-stage output tile of a unit, as the translation stands; none for a scratchpad's block, and where nothing is mapped. [DEDUCED, log 27] -/
def midOf (c : Context) (r unit : Nat) (s : State) : Option Nat :=
  if unit < 2 ^ 60 then none
  else
    match tensorName c r ((unit - 2 ^ 60) / 2 ^ 27) s with
    | .ok (.tensor tn) s1 =>
      match stage1 c r ((unit - 2 ^ 60) / 2 ^ 27) tn (unit % 2 ^ 27) s1 with
      | .ok p _ => some p.1
      | _ => none
    | _ => none
/-- Two units lie in one memory tile or scratchpad block: they are one, or two tensors name the same tile (R300). -/
def sameTile (c : Context) (r : Nat) (s : State) (a b : Nat) : Bool :=
  a == b || (match midOf c r a s, midOf c r b s with
             | some x, some y => x == y
             | _, _ => false)
/-- A copy still writes a unit for which `same` holds, or may, having not started. -/
def Copy.writes (same : Nat → Bool) (y : Copy) : Bool := !y.started || (y.units.drop y.next).any same
/-- A graph copy of a lower index than `idx` still writes such a unit (R300). -/
def copyNodeHolds (R : Region) (idx : Nat) (same : Nat → Bool) : Bool := R.copies.any (fun y => y.node.any (fun m => decide (m < idx)) && y.writes same)
/-- The first-stage output tile of a byte of the control segment (R413). [DEDUCED, log 27] -/
def segMid (c : Context) (off : Nat) : Nat := c.attr.csBase + off / 4096
/-- The first-stage output tile that the result of entry `k` of a batch goes to (R377). -/
def batchMid (c : Context) (x : GNode) (k : Nat) : Nat := segMid c (x.arg0 + 32 * x.aux + 8 * k)
/-- The first-stage output tiles to which a batch has results still to write (R377). -/
def batchMids (c : Context) (x : GNode) : List Nat := (List.range (x.aux - x.entered)).map (fun k => batchMid c x (x.entered + k))
/-- A DDE batch of a lower index than `idx` still writes to an output tile (R300). -/
def batchHolds (c : Context) (R : Region) (idx : Nat) (mid : Option Nat) : Bool :=
  (R.graph.map (fun g => (g.nodes.zipIdx).any (fun q => decide (q.2 < idx) && q.1.kind == 2 && q.1.st == .running
    && mid.any (fun m => (batchMids c q.1).contains m)))).getD false
/-- A DDE batch of a higher index than `idx` has written to an output tile. [DEDUCED, log 27] -/
def batchAhead (c : Context) (R : Region) (idx mid : Nat) : Bool :=
  R.graph.any (fun g => (g.nodes.zipIdx).any (fun q => decide (idx < q.2) && q.1.kind == 2
    && (List.range q.1.entered).any (fun k => batchMid c q.1 k == mid)))
/-- In deterministic mode a write of the resident load to an output tile waits while a copy or a batch of a lower index still writes the tile;
and it never performs once one of a higher index has written there, which has gone first as a node that the load's writes do not meet (R300). [DEDUCED, log 27] -/
def loadWaits (c : Context) (r mid : Nat) (s : State) : Bool :=
  let R := s.region r
  detOn s R && R.graph.any (fun g => g.resident.any (fun l => copyNodeHolds R l (fun u => midOf c r u s == some mid)
    || batchHolds c R l (some mid) || g.ahead.contains mid || batchAhead c R l mid))

/-! ### Publishing (R172) -/

/-- The bytes of a phase-buffer word, at their addresses. -/
def PWord.bytes (w : PWord) : List (Nat × Byte) :=
  ((List.range 8).filter (fun i => w.mask.getLsbD i)).map (fun i => (w.addr + i, BitVec.ofNat 8 (w.data.toNat / 2 ^ (8 * i))))

/-- Perform one word of core `u`'s buffer at its destination, as one step (R497): the core's own loads see it from then on (R493). In run 1
of checking mode a G-space word is discarded (R312); one whose tile a lower node of the graph still writes waits (R300). [DEDUCED, log 11] -/
def performWord (r u : Nat) (w : PWord) (s : State) : MemRes Unit :=
  match w.sp with
  | .s =>
    .ok () (State.modCore r u (Core.sawEach .s (w.bytes.map (fun p => sKey r (uCl u) p.1)) (s.moment + 1))
      { s with smem := VMem.writeEach s.moment (w.bytes.map (fun p => (sKey r (uCl u) p.1, p.2))) s.smem, moment := s.moment + 1,
               errors := w.bytes.foldl (fun e p => clearErr r 6 (uCl u) p.1 1 e) s.errors })
  | .r =>
    let v := mkUnit (uCl u) 0 (w.addr / 2 ^ 16)
    .ok () (State.modCore r u (Core.sawEach .r (w.bytes.map (fun p => lKey r v (p.1 % 2 ^ 16))) (s.moment + 1))
      { s with lmem := VMem.writeEach s.moment (w.bytes.map (fun p => (lKey r v (p.1 % 2 ^ 16), p.2))) s.lmem, moment := s.moment + 1,
               errors := w.bytes.foldl (fun e p => clearErr r 0 v (p.1 % 2 ^ 16) 1 e) s.errors })
  | .g =>
    let R := s.region r
    if run1 s R then .ok () s
    else
      match s.ctxOf R with
      | none => .ok () s
      | some c =>
        if loadWaits c r (segMid c w.addr) s then .wait s
        else (gWriteEach c r w.addr w.bytes s).bind (fun _ s1 =>
          .ok () (s1.modCore r u (Core.sawEach .g (w.bytes.map (fun p => gKey c r p.1)) s1.moment)))

/-- Perform words in order. [DESIGN CHOICE, log 9] -/
def performWords (r u : Nat) : List PWord → State → MemRes Unit
  | [], s => .ok () s
  | w :: t, s => (performWord r u w s).bind (fun _ s1 => performWords r u t s1)

/-- A publish reads every word of core `u`'s buffer: UNCORRECTABLE where one fails its code (R175). -/
def phaseRead (r u : Nat) (s : State) : MemRes Unit :=
  let mine := s.errors.filter (SoftErr.hits r 3 u 0 (2 ^ 64))
  match mine.find? (fun e => e.double) with
  | some e => .fail (accessRec 0x14 (e.key / 4 * 8) 3 0) s
  | none => .ok () { s with errors := phaseGone r u s.errors, corrected := s.corrected + mine.length }

/-- Publish core `u`'s phase buffer: every word performs and the buffer is empty (R172). [DESIGN CHOICE, log 9] -/
def publish (r u : Nat) (s : State) : MemRes Unit :=
  (phaseRead r u s).bind fun _ s =>
  (performWords r u (s.core r u).phase s).bind (fun _ s1 => .ok () (s1.modCore r u (fun c => { c with phase := [] })))

/-- What lies behind the seal cache for G space is written through to tier memory: every dirty tile of the context (R217 step 2). -/
def writeThrough (r : Nat) (s : State) : State :=
  match s.ctxOf (s.region r) with
  | some c => writebackKey c.keyId s
  | none => s

/-- Carry out a publish of core `u`, then `k`; where a word's tile is being moved, nothing happens yet (the slot tries again);
a failing access raises its cause for the core. `scope` system writes G space through (R120). -/
def publishThen (r u : Nat) (x : StopRec) (scope : Scope) (k : State → State) (s : State) : State :=
  match publish r u s with
  | .ok _ s1 => k (if scope = .system then writeThrough r s1 else s1)
  | .wait _ => s
  | .fail y s1 => raise r { y with kind := x.kind, unit := x.unit, sub := x.sub, sk := x.sk, position := x.position } s1

/-! ### Fetching (R45, R104) -/

/-- Keep the word that a control core fetched, for the stop record (the model's own copy; a compute core has it in its store). -/
def keepWord (w : IWord) (s : State) : State :=
  s.modHereC (fun c => { c with istore := Assoc.set (BitVec.allOnes 64) s.here.pc.toNat w c.istore })

/-- Fetch the word at the cursor's slot (R45, R104); none where there is no word to go on with: a word index outside a compute
core's store is ILLEGAL; a control core reads its segment now, through its own phase buffer, and a fetch beyond the segment is
SEGMENT. -/
def fetch (s : State) : Option IWord × State :=
  let r := s.cur.region
  let u := s.cur.unit
  let pc := s.here.pc
  if s.hereR.halt then (none, s)
  else if isCtl u then
    match s.ctxOf s.hereR with
    | none => (none, s)
    | some c =>
      let a := 8 * pc.toNat
      let s0 := phaseChk r u .g a 1 (slotRec 0x14 0 0 0 s) id s
      if segSize c < a + 8 then (none, raise r (slotRec 0x04 0 (toWord a) (toWord (segSize c)) s) s)
      else if (s0.region r).halt then (none, s0)
      else
        match gRead c r a 8 s0 with
        | .ok bs s1 =>
          let w := BitVec.ofNat 64 (ofBytesLE (layOver (phaseWord .g a (s1.core r u).phase) a bs))
          (some w, keepWord w s1)
        | .wait _ => (none, s)
        | .fail x s1 => (none, raise r { x with kind := coreKind u, unit := u, sub := s.cur.slot, position := pc } s1)
  else if 2048 ≤ pc.toNat then (none, failIllegal pc s)
  else
    let s1 := readChk r 1 u pc.toNat pc.toNat pc.toNat (slotRec 0x14 0 0 0 s) id s
    if s1.hereR.halt then (none, s1) else (some (storeWord s1.hereC pc), s1)

end Sys2Proof.Machine
end

