-- ==== Sys2Proof/Machine/Operands.lean ====
section
/-! DEFINITION. Operand forms: the issue sequence that every word goes through (R23, R28 to R30), source values, effective addresses,
and what a word's completion writes. -/

namespace Sys2Proof.Machine

/-! ### The issue sequence -/

/-- EMPTY_TRAP of the cursor's slot over a source whose trap bit is set (R28, R84): the word is re-executed on resume (R83). -/
def emptyTrap (x : Src) (s : State) : State :=
  let sl := s.here
  takeTrap s.cur.region s.cur.unit s.cur.slot
    { cause := 0x02, operand := x.r.toNat, detail := if sl.fill x.r = .pending then 1 else 0, pc := sl.pc } sl.pc (curWord s) s

/-- The sources that are empty. -/
def emptySrcs (sl : Slot) (srcs : List Src) : List Nat :=
  (srcs.filter (fun x => sl.fill x.r != .full)).map (fun x => x.r.toNat)
/-- The destinations that are pending. -/
def pendingDests (sl : Slot) (dests : List Reg) : List Nat :=
  (dests.filter (fun d => sl.fill d == .pending)).map (fun d => d.toNat)

/-- One attempt to issue a legal word (R23, R28): a guard that does not allow it makes it a no-op; then the trap bits of empty
sources, the wait for empty sources, the wait for pending destinations; then the word's own effect. -/
def issue (g : Guard) (srcs : List Src) (dests : List Reg) (body : State → State) (s : State) : Host.Outcome State Fault Refusal :=
  let sl := s.here
  if !sl.allows g then nx (retire id s)
  else
    match srcs.find? (fun x => x.et && sl.fill x.r != .full) with
    | some x => nx (emptyTrap x s)
    | none =>
      if !(emptySrcs sl srcs).isEmpty then nx (park (.regs (emptySrcs sl srcs) []) s)
      else if !(pendingDests sl dests).isEmpty then nx (park (.regs [] (pendingDests sl dests)) s)
      else nx (body s)

/-- A word that may not stand on this kind of core is illegal, whatever its guard (R23, R42, R44). [DEDUCED, log 12] -/
def onCompute (k : State → Host.Outcome State Fault Refusal) (s : State) : Host.Outcome State Fault Refusal :=
  if isCtl s.cur.unit then nx (failIllegal (curWord s) s) else k s
/-- The same for the words of control cores only. [DEDUCED, log 12] -/
def onControl (k : State → Host.Outcome State Fault Refusal) (s : State) : Host.Outcome State Fault Refusal :=
  if isCtl s.cur.unit then k s else nx (failIllegal (curWord s) s)

/-! ### Values and completion -/

/-- A source's value at the cursor's slot. -/
def rv (s : State) (x : Src) : Word := s.here.rd x.r
/-- The word completes and writes a scalar register. -/
def done (d : Reg) (v : Word) (s : State) : State := retire (fun sl => sl.wr d v) s
/-- The word completes, writes a scalar register and raises flags. -/
def doneFl (d : Reg) (v : Word) (fl : Flg) (s : State) : State := retire (fun sl => (sl.wr d v).flag fl) s
/-- The word completes and writes a predicate. -/
def doneP (p : PReg) (b : Bool) (s : State) : State := retire (fun sl => sl.wrP p b) s
/-- The word completes and writes a predicate and raises flags. -/
def donePFl (p : PReg) (b : Bool) (fl : Flg) (s : State) : State := retire (fun sl => (sl.wrP p b).flag fl) s
/-- The word completes as a long-latency producer of these registers (R27). -/
def produce (ds : List Reg) (f : Flight) (s : State) : State := retire id (launch ds f s)

/-! ### Effective addresses (R33, R167, R213) -/

/-- The bytes of an access size. -/
def sizeBytes : Size → Nat
  | .b => 1
  | .h => 2
  | .w => 4
  | .d => 8
/-- `zext(base) + sext(offset)`. -/
def effAddr (base : Word) (off : Imm) : Int := (base.toNat : Int) + off.toInt
/-- The effective address as a stop record shows it. -/
def addrWord (i : Int) : Word := BitVec.ofInt 64 i
/-- An address that is not a multiple of the size, or lies outside `0` to `top`. -/
def addrBad (i : Int) (n top : Nat) : Bool := decide (i < 0) || decide ((top : Int) < i) || decide (i % n ≠ 0)
/-- The value that a store of `n` bytes enters. -/
def storeBytes (n : Nat) (v : Word) : List Byte := bytesLE n v.toNat

/-- Two ranges, each a base and a size, share a byte. -/
def meets (a n base size : Nat) : Bool := decide (a < base + size) && decide (base < a + n)
/-- The bytes that an arc deeper than 16 beats borrows from an MU (R193, R195). -/
def arcBorrows (x : Route) (a n : Nat) : Bool := meets a n (x.mu * 2 ^ 20 + x.mubase * 64) ((x.depth - 16) * 64)
/-- The bytes of a head core's hawk (R237). -/
def hawkHolds (c : CoatCore) (a n : Nat) : Bool :=
  c.head && meets a n (c.hmu * 2 ^ 20 + c.hbase * 64) ((c.hsize + 1) * 64)
/-- The range of S addresses lies partly in one borrowed by an arc or a hawk of the cluster (R213). The switch of an arc at key
`k` is unit `k / 64`. -/
def borrowed (R : Region) (cl a n : Nat) : Bool :=
  R.arcs.any (fun p => decide (uCl (p.1 / 64) = cl) && decide (16 < p.2.route.depth) && arcBorrows p.2.route a n)
  || R.coats.any (fun ch => ch.2.coats.any (fun k => k.2.cores.any (fun c => decide (uCl c.unit = cl) && hawkHolds c a n)))

end Sys2Proof.Machine
end

