-- ==== Sys2Proof/Machine/Channel.lean ====
section
/-! DEFINITION. Channels (R113 to R118): RECV, SEND, PEEK, and the arrival of a word. -/

namespace Sys2Proof.Machine

/-- Channel `j` is bound to the cursor's slot. -/
def isBound (j : Nat) (s : State) : Bool := s.here.chbind.getLsbD j

/-- RECV: pops the channel's oldest word; a word with ord set acquires (R114, R116); an empty channel is waited for; an unbound
one raises SPACE. -/
def execRecv (g : Guard) (d : Reg) (j : CReg) (s : State) : Host.Outcome State Fault Refusal :=
  issue g [] [d] (fun s =>
    if !isBound j.toNat s then failSpace 0 s
    else
      match (s.hereC.chan j.toNat).words with
      | [] => park (.word s.here.chbind) s
      | (v, ord) :: t =>
        let s1 := s.modHereC (fun c => c.setChan j.toNat { c.chan j.toNat with words := t })
        let s2 := if ord then refresh s.cur.region s.cur.unit s1 else s1
        done d v s2) s

/-- PEEK function 0: the head word's data, not popped; waits while the channel is empty (R118). -/
def execPeek (g : Guard) (d : Reg) (j : CReg) (s : State) : Host.Outcome State Fault Refusal :=
  issue g [] [d] (fun s =>
    if !isBound j.toNat s then failSpace 0 s
    else
      match (s.hereC.chan j.toNat).words with
      | [] => park (.word s.here.chbind) s
      | (v, _) :: _ => done d v s) s

/-- PEEK function 1: whether the channel holds a word, without waiting (R118). -/
def execPeekQ (g : Guard) (p : PReg) (j : CReg) (s : State) : Host.Outcome State Fault Refusal :=
  issue g [] [] (fun s =>
    if !isBound j.toNat s then failSpace 0 s
    else doneP p (!((s.hereC.chan j.toNat).words.isEmpty)) s) s

/-- The receiver lies within the scope of the sender (R115). -/
def inScope (sc : Scope) (u v : Nat) : Bool :=
  match sc with
  | .core => decide (u = v)
  | .cluster => decide (uCl u = uCl v)
  | .region | .package | .system => true

/-- The checks of SEND (R115, R117): the cause, if one holds. [DEDUCED, log 59] -/
def sendFault (dst : Word) (rel : Option Scope) (s : State) : Option Nat :=
  let v := bits dst.toNat 15 0
  let c := bits dst.toNat 19 16
  let R := s.hereR
  let outside : Bool := match rel with
                        | some sc => !inScope sc s.cur.unit v
                        | none => false
  if bits dst.toNat 63 20 ≠ 0 ∨ !isCoreUnit R v then some 0x03
  else if outside then some 0x03
  else if detOn s R ∧ ((R.core v).chan c).sender ≠ some (s.cur.unit, s.cur.slot) then some 0x06
  else none

/-- The beat departs: it is on its way to the channel (R113). -/
def depart (dst data : Word) (ord : Bool) (s : State) : State :=
  retire id (s.modHereR (fun R =>
    { R with flying := R.flying ++ [{ u := bits dst.toNat 15 0, c := bits dst.toNat 19 16, data := data, ord := ord,
                                      su := s.cur.unit, ss := s.cur.slot }] }))

/-- SEND: a word to a channel, once it has a free place (R115). [DEDUCED, log 59] -/
def execSend (g : Guard) (a b : Src) (s : State) : Host.Outcome State Fault Refusal :=
  issue g [a, b] [] (fun s =>
    let dst := rv s b
    match sendFault dst none s with
    | some c => fail c 0 (if c = 0x06 then dst else 0) s
    | none =>
      if 4 ≤ chanLoad s.hereR (bits dst.toNat 15 0) (bits dst.toNat 19 16) then
        park (.place (bits dst.toNat 15 0) (bits dst.toNat 19 16)) s
      else depart dst (rv s a) false s) s

/-- Begin a publish of the cursor's core and make the slot wait for it (R120, R172). [DESIGN CHOICE, log 9] -/
def beginPublish (sc : Scope) (w : Nat → Wait) (s : State) : State :=
  let r := s.cur.region
  publishThen r s.cur.unit (slotRec 0 0 0 0 s) sc (fun s =>
    let (id, s1) := s.takeId r
    parkAt (w id) .published (s1.modRegion r (fun R =>
      { R with publishes := R.publishes ++ [{ id := id, unit := s.cur.unit, slot := s.cur.slot, scope := sc }] }))) s

/-- SEND.rel: waits for a free place, publishes the core's phase buffer, then sends with ord set (R115, R116). [DEDUCED, log 59; DESIGN CHOICE, log 67] -/
def execSendRel (g : Guard) (a b : Src) (sc : Scope) (s : State) : Host.Outcome State Fault Refusal :=
  issue g [a, b] [] (fun s =>
    let dst := rv s b
    match sendFault dst (some sc) s with
    | some c => fail c 0 (if c = 0x06 then dst else 0) s
    | none =>
      if 4 ≤ chanLoad s.hereR (bits dst.toNat 15 0) (bits dst.toNat 19 16) then
        park (.place (bits dst.toNat 15 0) (bits dst.toNat 19 16)) s
      else if s.here.prog = .published then depart dst (rv s a) true s
      else beginPublish sc .sendPublish s) s

/-- CHANNEL_WORD_ARRIVAL: the `k`-th word on its way reaches its channel. Words of one slot to one channel arrive in order
(R113), so it moves only if no earlier word of the list has the same sender and channel. A slot that waits for a word and to which the
channel is bound wakes (R72). -/
def execChannelWordArrival (r k : Nat) (s : State) : Host.Outcome State Fault Refusal :=
  let R := s.region r
  if R.halt then nx s
  else
    match R.flying[k]? with
    | none => nx s
    | some f =>
      if (R.flying.take k).any (fun e => decide (e.u = f.u) && decide (e.c = f.c) && decide (e.su = f.su) && decide (e.ss = f.ss))
      then nx s
      else
        let c := R.core f.u
        let R1 := { R with flying := listDrop k R.flying }
        let c1 := c.setChan f.c { c.chan f.c with words := (c.chan f.c).words ++ [(f.data, f.ord)] }
        nx (s.setRegion r (R1.setCore f.u { c1 with slots := c1.slots.map (fun p => (p.1, p.2.heard f.c)) }))

/-- PUBLISH_COMPLETE: a publish of slot `k` of core `u` is over, and the slot that waits for it may go on (R120, R172). [DESIGN CHOICE, log 9] -/
def execPublishComplete (r u k : Nat) (s : State) : Host.Outcome State Fault Refusal :=
  let R := s.region r
  if R.halt then nx s
  else nx (s.setRegion r { R with publishes := R.publishes.filter (fun p => !(decide (p.unit = u) && decide (p.slot = k))) })

end Sys2Proof.Machine
end

