-- ==== Sys2Proof/Machine/Local.lean ====
section
/-! DEFINITION. Local stores: LDL, STL, LDR, STR (R165 to R168), and loads in flight. -/

namespace Sys2Proof.Machine

/-- The sources of a load and of a store word (R33): the trap bit guards the base, and on a store the data too. -/
def loadSrcs (base : Reg) (m : LoadOp) : List Src := [{ r := base, et := m.t }]
/-- The sources of a store word. [DESIGN CHOICE, log 65] -/
def storeSrcs (x base : Reg) (m : StoreOp) : List Src := [{ r := base, et := m.t }, { r := x, et := m.t }]
/-- The effective address of a load word. -/
def loadAddr (base : Reg) (m : LoadOp) (s : State) : Int := effAddr (s.here.rd base) m.off
/-- The effective address of a store word. -/
def storeAddr (base : Reg) (m : StoreOp) (s : State) : Int := effAddr (s.here.rd base) m.off

/-- LDL: a load from the issuing core's own store, complete at issue (R167, R168). -/
def execLdl (g : Guard) (x base : Reg) (m : LoadOp) (s : State) : Host.Outcome State Fault Refusal :=
  onCompute (issue g (loadSrcs base m) [x] (fun s =>
    let i := loadAddr base m s
    let n := sizeBytes m.size
    let a := i.toNat
    let u := s.cur.unit
    if addrBad i n (0x10000 - n) then failSpace (addrWord i) s
    else
      readChk s.cur.region 0 u (a / 8) (a / 8) (a / 8 * 8) (slotRec 0x14 0 0 0 s)
        (fun s => done x (extend m.sx (s.lRead s.cur.region u a n)) s) s)) s

/-- STL: a store to the issuing core's own store, at issue (R167, R168). -/
def execStl (g : Guard) (x base : Reg) (m : StoreOp) (s : State) : Host.Outcome State Fault Refusal :=
  onCompute (issue g (storeSrcs x base m) [] (fun s =>
    let i := storeAddr base m s
    let n := sizeBytes m.size
    if addrBad i n (0x10000 - n) then failSpace (addrWord i) s
    else retire id ((s.lWrite s.cur.region s.cur.unit i.toNat (storeBytes n (s.here.rd x))).modHereC (Core.storedLocal s.cur.slot)))) s

/-- An R-space address that raises SPACE: out of range, misaligned, or a compute core's own index (R165, R167). -/
def remoteBad (i : Int) (n u : Nat) : Bool :=
  addrBad i n 0x3FFFF || (!isCtl u && decide (i.toNat / 2 ^ 16 = uIdx u))

/-- The key of an address under which core `u` of region `r` keeps the moments of its own loads. [DEDUCED, log 11] -/
def spaceKey (sp : Space) (r u a : Nat) (s : State) : Nat :=
  match sp with
  | .s => sKey r (uCl u) a
  | .r => lKey r (mkUnit (uCl u) 0 (a / 2 ^ 16)) (a % 2 ^ 16)
  | .g => match s.ctxOf (s.region r) with
          | some c => gKey c r a
          | none => a
/-- A load of R or G space to be performed later: the phase buffer's bytes are those held now (R167, R169), and no byte is older than one
that the core has loaded or published before (R214, R493). [DEDUCED, log 11] -/
def loadReq (sp : Space) (a n : Nat) (sx : Bool) (s : State) : LoadReq :=
  { sp := sp, addr := a, n := n, sx := sx, lay := phaseWord sp (a / 8 * 8) s.hereC.phase,
    floor := floorOf s.hereC s.cur.slot sp (spaceKey sp s.cur.region s.cur.unit a s) n }
/-- A load enters its producer, once the word of the phase buffer under it has been read (R169, R175). -/
def loadLater (sp : Space) (a n : Nat) (k : LoadReq → State → State) (sx : Bool) (s : State) : State :=
  phaseChk s.cur.region s.cur.unit sp a 1 (slotRec 0x14 0 0 0 s) (fun s => k (loadReq sp a n sx s) (s.modHereC (fun c => c.did s.cur.slot c.behind))) s

/-- LDR: a load from another core's store, a long-latency producer (R167). -/
def execLdr (g : Guard) (x base : Reg) (m : LoadOp) (s : State) : Host.Outcome State Fault Refusal :=
  issue g (loadSrcs base m) [x] (fun s =>
    let i := loadAddr base m s
    let n := sizeBytes m.size
    if remoteBad i n s.cur.unit then failSpace (addrWord i) s
    else loadLater .r i.toNat n (fun l => produce [x] (.load l)) m.sx s) s

/-- Enter a store into the core's phase buffer and complete; PHASE_OVERFLOW where it is full (R170, R171). -/
def bufferStore (sp : Space) (a n : Nat) (v : Word) (s : State) : State :=
  match phaseStore sp a n v s.hereC.phase with
  | some l =>
    let new := decide (s.hereC.phase.length < l.length)
    retire id { s.modHereC (fun c => { c.stored s.cur.slot with phase := l }) with errors := phaseClear s.cur.unit sp a n new s.cur.region s.errors }
  | none => fail 0x0A (toWord a) (toWord (spaceCode sp)) s

/-- STR: a store to another core's store, through the phase buffer (R167, R168). -/
def execStr (g : Guard) (x base : Reg) (m : StoreOp) (s : State) : Host.Outcome State Fault Refusal :=
  issue g (storeSrcs x base m) [] (fun s =>
    let i := storeAddr base m s
    let n := sizeBytes m.size
    if remoteBad i n s.cur.unit then failSpace (addrWord i) s
    else bufferStore .r i.toNat n (s.here.rd x) s) s

/-! ### Loads in flight (R27, R168, R214) -/

/-- The stop record of a producer of slot `k` of core `u`. -/
def producerRec (u : Nat) (p : Producer) : StopRec :=
  { recOf 0 (coreKind u) u with sub := p.slot, position := p.pc }

/-- The value of a load of core `u` from memory's bytes. [DEDUCED, log 11] -/
def loadValue (l : LoadReq) (bs : List Byte) : Word := extend l.sx (layOver l.lay l.addr bs)

/-- A load of R space performs: any moment from its floor to now (R168, R214). [DEDUCED, log 11] -/
def performR (r u : Nat) (p : Producer) (l : LoadReq) (s : State) : State :=
  let v := mkUnit (uCl u) 0 (l.addr / 2 ^ 16)
  let key := lKey r v (l.addr % 2 ^ 16)
  let (n, s1) := s.draw
  let t := chooseMoment (max l.floor ((s1.core r u).seenOf .r key l.n)) s1.moment n
  readChk r 0 v (l.addr % 2 ^ 16 / 8) (l.addr % 2 ^ 16 / 8) (l.addr / 8 * 8) (producerRec u p) (fun s =>
    complete r u p [loadValue l (s.lmem.readsAt t key l.n)] flNone (s.modCore r u (Core.saw .r key l.n t))) s1

/-- A load of G space performs at its seal cache, at moment `t`. [DEDUCED, log 11] -/
def performG (r u : Nat) (p : Producer) (l : LoadReq) (t : Nat) (s : State) : State :=
  match s.ctxOf (s.region r) with
  | none => s
  | some c =>
    match gReadAt c r l.addr l.n t s with
    | .ok bs s1 => complete r u p [loadValue l bs] flNone (s1.modCore r u (Core.saw .g (gKey c r l.addr) l.n t))
    | .wait s1 => s1
    | .fail x s1 =>
      let y := producerRec u p
      raise r { x with kind := y.kind, unit := y.unit, sub := y.sub, position := y.position } s1

/-- The moment of a plain load of G space. -/
def momentG (r u : Nat) (l : LoadReq) (s : State) : Nat × State :=
  let (n, s1) := s.draw
  match s1.ctxOf (s1.region r) with
  | none => (s1.moment, s1)
  | some c => (chooseMoment (max l.floor ((s1.core r u).seenOf .g (gKey c r l.addr) l.n)) s1.moment n, s1)

/-- A load of the core, issued earlier, is in flight to some of the same bytes: it performs first, so that no byte is read older after newer
(R168, R214). [DEDUCED, log 11] -/
def olderLoad (c : Core) (k : Nat) (l : LoadReq) : Bool :=
  (c.producers.takeWhile (fun q => decide (q.id ≠ k))).any (fun q => match q.work with
                                                                  | .load o => o.sp == l.sp && meets o.addr o.n l.addr l.n
                                                                  | .acquire o _ => o.sp == l.sp && meets o.addr o.n l.addr l.n
                                                                  | _ => false)

/-- PRODUCER_COMPLETION: producer number `k` of core `u` writes its destinations (R27): a value computed at issue with its flags, or a
load that performs now. An atomic, a DDE command and a collective complete by their own events. -/
def execProducerCompletion (r u k : Nat) (s : State) : Host.Outcome State Fault Refusal :=
  if (s.region r).halt then nx s
  else
    match (s.core r u).producers.find? (fun p => decide (p.id = k)) with
    | none => nx s
    | some p =>
      match p.work with
      | .value vs fl _ => nx (complete r u p vs fl s)
      | .load l =>
        if olderLoad (s.core r u) k l then nx s else
        match l.sp with
        | .r => nx (performR r u p l s)
        | .g => nx (performG r u p l (momentG r u l s).1 (momentG r u l s).2)
        | .s => nx s
      | .acquire l _ => nx (let s1 := performG r u p l s.moment s
                            if (s1.core r u).producers.any (fun q => decide (q.id = k)) then s1
                            else (refresh r u s1).modCore r u (fun c => { c with every := joinOrder c.every [(0, c.refresh)] }))
      | .atomic | .dde | .coll => nx s

end Sys2Proof.Machine
end

