-- ==== Sys2Proof/Machine/Scratch.lean ====
section
/-! DEFINITION. Scratchpad and control-segment loads and stores: LDS, STS, LDG, STG (R212 to R215). -/

namespace Sys2Proof.Machine

/-- An S address that raises SPACE (R213). -/
def scratchBad (i : Int) (n : Nat) (s : State) : Bool :=
  addrBad i n 0x3FFFFF || borrowed s.hereR s.hereCl i.toNat n

/-- LDS: any value the bytes held from the core's floor to now, under the core's own buffer; complete at issue (R213, R214). -/
def execLds (g : Guard) (x base : Reg) (m : LoadOp) (s : State) : Host.Outcome State Fault Refusal :=
  issue g (loadSrcs base m) [x] (fun s =>
    let i := loadAddr base m s
    let n := sizeBytes m.size
    let a := i.toNat
    if scratchBad i n s then failSpace (addrWord i) s
    else
      readChk s.cur.region 6 s.hereCl (a / 8) (a / 8) (a / 8 * 8) (slotRec 0x14 0 0 0 s)
       (phaseChk s.cur.region s.cur.unit .s a 1 (slotRec 0x14 0 0 0 s) (fun s =>
        let key := sKey s.cur.region s.hereCl a
        let (f, s1) := s.draw
        let t := chooseMoment (floorOf s1.hereC s.cur.slot .s key n) s1.moment f
        let bs := layOver (phaseWord .s (a / 8 * 8) s1.hereC.phase) a (s1.smem.readsAt t key n)
        done x (extend m.sx bs) (s1.modHereC (fun c => (c.saw .s key n t).after s.cur.slot c.behind)))) s) s

/-- STS: a store through the phase buffer (R213). -/
def execSts (g : Guard) (x base : Reg) (m : StoreOp) (s : State) : Host.Outcome State Fault Refusal :=
  issue g (storeSrcs x base m) [] (fun s =>
    let i := storeAddr base m s
    let n := sizeBytes m.size
    if scratchBad i n s then failSpace (addrWord i) s
    else bufferStore .s i.toNat n (s.here.rd x) s) s

/-- The bytes of the control segment of the cursor's context; none where no context is resident. -/
def hereSeg (s : State) : Nat :=
  match s.ctxOf s.hereR with
  | some c => segSize c
  | none => 0

/-- The cause that a G access raises: SPACE where misaligned, SEGMENT beyond the segment (R213). -/
def segFault (i : Int) (n seg : Nat) : Option Nat :=
  if i % n ≠ 0 then some 0x03 else if i < 0 ∨ (seg : Int) < i + n then some 0x04 else none

/-- Check a G access of `n` bytes, then go on (R213, R233). -/
def segChk (i : Int) (n : Nat) (k : State → State) (s : State) : State :=
  match segFault i n (hereSeg s) with
  | some c => fail c (addrWord i) (if c = 0x04 then toWord (hereSeg s) else 0) s
  | none => k s

/-- LDG: a plain load of the control segment, a long-latency producer (R213, R214). -/
def execLdg (g : Guard) (x base : Reg) (m : LoadOp) (s : State) : Host.Outcome State Fault Refusal :=
  onControl (issue g (loadSrcs base m) [x] (fun s =>
    let i := loadAddr base m s
    let n := sizeBytes m.size
    segChk i n (loadLater .g i.toNat n (fun l => produce [x] (.load l)) m.sx) s)) s

/-- A load that orders what follows it: the slot waits until it has completed and the core has refreshed (R215). -/
def orderedLoad (sc : Bool) (g : Guard) (x base : Reg) (m : LoadOp) (s : State) : Host.Outcome State Fault Refusal :=
  issue g (loadSrcs base m) [x] (fun s =>
    if s.here.prog = .accepted then retire id s
    else
      let i := loadAddr base m s
      let n := sizeBytes m.size
      segChk i n (fun s =>
        loadLater .g i.toNat n (fun l s =>
          let id := s.hereR.nextId
          parkAt (.ordered id) .accepted (launch [x] (.acquire l sc) s)) m.sx s) s) s

/-- LDG.acq: reads memory directly, then the core refreshes (R215). -/
def execLdgAcq (g : Guard) (x base : Reg) (m : LoadOp) (s : State) : Host.Outcome State Fault Refusal :=
  onControl (orderedLoad false g x base m) s

/-- LDG.sc: as LDG.acq, in the one order of .sc accesses, which is that of the moments at which they perform (R215). -/
def execLdgSc (g : Guard) (x base : Reg) (m : LoadOp) (s : State) : Host.Outcome State Fault Refusal :=
  onControl (orderedLoad true g x base m) s

/-- STG: a plain store to the control segment, through the phase buffer (R213). -/
def execStg (g : Guard) (x base : Reg) (m : StoreOp) (s : State) : Host.Outcome State Fault Refusal :=
  onControl (issue g (storeSrcs x base m) [] (fun s =>
    let i := storeAddr base m s
    let n := sizeBytes m.size
    segChk i n (fun s => bufferStore .g i.toNat n (s.here.rd x) s) s)) s

/-- The store itself, directly at memory (R215); discarded in run 1 of checking mode (R312); tried again while its tile moves,
or while a node of the graph holds it back (R300). [DEDUCED, log 11] -/
def directStore (a n : Nat) (v : Word) (s : State) : State :=
  if run1 s s.hereR then retire id s
  else
    match s.ctxOf s.hereR with
    | none => retire id s
    | some c =>
      if loadWaits c s.cur.region (segMid c a) s then s else
      match gWrite c s.cur.region a (storeBytes n v) s with
      | .ok _ s1 => retire id (s1.modHereC (fun k => ((k.saw .g (gKey c s.cur.region a) n s1.moment).stored s.cur.slot).after s.cur.slot (byteOrder .g (gKey c s.cur.region a) n s1.moment)))
      | .wait _ => s
      | .fail x s1 =>
        let y := slotRec 0 0 0 0 s
        raise s.cur.region { x with kind := y.kind, unit := y.unit, sub := y.sub, position := y.position } s1

/-- A store that the core's earlier stores precede: publishes, waits for the publish, then stores (R215). -/
def orderedStore (g : Guard) (x base : Reg) (m : StoreOp) (s : State) : Host.Outcome State Fault Refusal :=
  issue g (storeSrcs x base m) [] (fun s =>
    let i := storeAddr base m s
    let n := sizeBytes m.size
    segChk i n (fun s =>
      if s.here.prog = .published then directStore i.toNat n (s.here.rd x) s else beginPublish .region .publish s) s) s

/-- STG.rel (R215). -/
def execStgRel (g : Guard) (x base : Reg) (m : StoreOp) (s : State) : Host.Outcome State Fault Refusal :=
  onControl (orderedStore g x base m) s

/-- STG.sc: as STG.rel, in the one order of .sc accesses (R215). -/
def execStgSc (g : Guard) (x base : Reg) (m : StoreOp) (s : State) : Host.Outcome State Fault Refusal :=
  onControl (orderedStore g x base m) s

end Sys2Proof.Machine
end

