-- ==== Sys2Proof/Machine/Atomic.lean ====
section
/-! DEFINITION. Memory-side atomics: ATS, ATSV, ATG, ATGV, and an atomic's performance at its unit (R218 to R223). -/

namespace Sys2Proof.Machine

/-- The bytes of an atomic: 8 where `dbl` (R218). -/
def atomBytes (dbl : Bool) : Nat := if dbl then 8 else 4
/-- The format in which an atomic of `n` bytes does floating point (R219). -/
def atomFmt (n : Nat) : Fmt := if n = 8 then .fp64 else .fp32

/-- The new value of an update (R219). -/
def atomUpdate (op : AtomOp) (n old x : Nat) : Nat :=
  let w := 8 * n
  let f := atomFmt n
  match op with
  | .add => (old + x) % 2 ^ w
  | .fadd => (encodeNum f false .rne false 0 (numSum [decodeNum f old, decodeNum f x]).1).1
  | .min => if sextN w x < sextN w old then x else old
  | .max => if sextN w old < sextN w x then x else old
  | .fmin => (minMaxCode f false true old x).1
  | .fmax => (minMaxCode f true true old x).1
  | .and => old &&& x
  | .or => old ||| x
  | .xor => old ^^^ x

/-- The new value of any atomic (R219). -/
def atomNew (a : Atomic) (old : Nat) : Nat :=
  match a.op with
  | .upd op => atomUpdate op a.n old a.x
  | .val .swap => a.x
  | .val .fetchAdd => (old + a.x) % 2 ^ (8 * a.n)
  | .val .cas => if old = a.cmp then a.x else old

/-- The key of the cursor's next atomic (R221). -/
def nextKey (s : State) : Key :=
  { interval := s.here.interval, issuer := issuerOf s.cur.unit s.cur.slot, seq := s.here.aseq }

/-- Whether an atomic raises DETERMINISM (R221, R223): in deterministic mode, from a slot off the roster, or a value-returning
one without batch fallback. [DEDUCED, log 31] -/
def atomBarred (val : Bool) (s : State) : Bool :=
  let d := detMode s s.hereR
  bit d 0 && (!s.here.roster || (val && !bit d 1))

/-- The memory-side unit of an atomic: that of its MU; for G space that of the home port of the word's tile, the first port's where the second
stage maps none (R220, R393). [DEDUCED, log 31] -/
def atomUnit (glob : Bool) (addr : Nat) (s : State) : Nat :=
  if !glob then muUnit s.cur.unit addr
  else
    match s.ctxOf s.hereR with
    | none => portUnit 0
    | some c =>
      match gTile c s.cur.region addr false s with
      | .ok dev _ => portUnit (homePort (placeOf s dev c.keyId).ptn)
      | _ => portUnit 0

/-- Memory-side unit `m` pushes back an atomic of this issuer: its holding buffer is full (R222), and it holds updates, in deterministic mode or
while the context has no budget (R448). [DEDUCED, log 31; DEDUCED, log 32] -/
def atomPushed (m me : Nat) (s : State) : Bool :=
  (detOn s s.hereR || !hasBudget s.cur.region s) && !atomRoom s.hereR m me
/-- An atomic leaves for its memory-side unit (R219), unless that pushes it back (R222, R448). A value-returning one is a long-latency
producer. [DEDUCED, log 31] -/
def sendAtomic (glob : Bool) (a b c : Src) (op : AtomKind) (dest : Option Reg) (dbl : Bool) (s : State) : State :=
  let n := atomBytes dbl
  let addr := (rv s a).toNat
  let m := atomUnit glob addr s
  let me := issuerOf s.cur.unit s.cur.slot
  if atomPushed m me s then park (.holding m) s
  else
    let s1 := match dest with
              | some d => launch [d] .atomic s
              | none => (s.takeId s.cur.region).2
    let x : Atomic := { id := s.hereR.nextId, unit := s.cur.unit, slot := s.cur.slot, glob := glob, addr := addr, mem := m, n := n, op := op,
                        x := (rv s b).toNat % 2 ^ (8 * n), cmp := (rv s c).toNat % 2 ^ (8 * n), key := nextKey s, pc := s.here.pc,
                        view := s.hereC.viewOf s.cur.slot }
    retire (fun sl => { sl with aseq := sl.aseq + 1 }) (s1.modHereR (fun R => { R with atomics := R.atomics ++ [x] }))

/-- DETERMINISM of an atomic: where a compute core's value-returning one finds no batch fallback, the fields of R176's row, which sets what a
compute core fills in; of every other atomic those of R233's row. [DEDUCED, log 31] -/
def failAtomic (i : Int) (dest : Option Reg) (s : State) : State :=
  match dest with
  | some d => if uKind s.cur.unit = 0 ∧ bit (detMode s s.hereR) 1 = false then fail 0x06 0 (toWord d.toNat) s else fail 0x06 (addrWord i) 0 s
  | none => fail 0x06 (addrWord i) 0 s

/-- An atomic on S space: the checks of R213, then DETERMINISM, then it leaves. -/
def atomS (g : Guard) (a b c : Src) (srcs : List Src) (op : AtomKind) (dest : Option Reg) (dbl : Bool) (s : State) :
    Host.Outcome State Fault Refusal :=
  issue g srcs dest.toList (fun s =>
    let i : Int := (rv s a).toNat
    if scratchBad i (atomBytes dbl) s then failSpace (addrWord i) s
    else if atomBarred dest.isSome s then failAtomic i dest s
    else sendAtomic false a b c op dest dbl s) s

/-- An atomic on G space: the same with the checks of the segment. -/
def atomG (g : Guard) (a b c : Src) (srcs : List Src) (op : AtomKind) (dest : Option Reg) (dbl : Bool) (s : State) :
    Host.Outcome State Fault Refusal :=
  issue g srcs dest.toList (fun s =>
    let i : Int := (rv s a).toNat
    segChk i (atomBytes dbl) (fun s =>
      if atomBarred dest.isSome s then failAtomic i dest s else sendAtomic true a b c op dest dbl s) s) s

/-- The source s0, for a field that is not read. -/
def noSrc : Src := { r := 0, et := false }
/-- The sources of a value-returning atomic: field c is read by CAS only (R218). -/
def atomVSrcs (a b c : Src) (op : AtomVOp) : List Src := if op = .cas then [a, b, c] else [a, b]

/-- ATS: an update of a scratchpad word at its memory-side unit (R219). -/
def execAts (g : Guard) (a b : Src) (op : AtomOp) (dbl : Bool) (s : State) : Host.Outcome State Fault Refusal :=
  atomS g a b noSrc [a, b] (.upd op) none dbl s

/-- ATSV: swap, fetch-add or compare-and-swap of a scratchpad word, a long-latency producer of the old value (R219). -/
def execAtsv (g : Guard) (d : Reg) (a b c : Src) (op : AtomVOp) (dbl : Bool) (s : State) : Host.Outcome State Fault Refusal :=
  atomS g a b c (atomVSrcs a b c op) (.val op) (some d) dbl s

/-- ATG: an update of a word of the control segment (R219). -/
def execAtg (g : Guard) (a b : Src) (op : AtomOp) (dbl : Bool) (s : State) : Host.Outcome State Fault Refusal :=
  onControl (atomG g a b noSrc [a, b] (.upd op) none dbl) s

/-- ATGV: swap, fetch-add or compare-and-swap of a word of the control segment (R219). -/
def execAtgv (g : Guard) (d : Reg) (a b c : Src) (op : AtomVOp) (dbl : Bool) (s : State) : Host.Outcome State Fault Refusal :=
  onControl (atomG g a b c (atomVSrcs a b c op) (.val op) (some d) dbl) s

/-! ### At the memory-side unit -/

/-- An atomic may perform (R220, R221): at any time outside deterministic mode; in it, only in key order at its address. [DEDUCED, log 31] -/
def atomReady (s : State) (R : Region) (a : Atomic) : Bool :=
  !detOn s R || (keyReady R a.key
    && !(R.atomics.any (fun b => b.glob == a.glob && decide (b.addr / 8 = a.addr / 8)
          && (a.glob || decide (uCl b.unit = uCl a.unit)) && Key.lt b.key a.key)))

/-- The stop record of an atomic. -/
def atomRec (a : Atomic) : StopRec :=
  { recOf 0 (coreKind a.unit) a.unit with sub := a.slot, position := a.pc }

/-- A memory-side unit charges the context one budget unit for every 256 atomics performed (R448). [DEDUCED, log 32] -/
def chargeAtom (r m : Nat) (s : State) : State :=
  match (s.region r).resident with
  | none => s
  | some a =>
    s.modCtx a (fun c =>
      let n := Assoc.get 0 m c.atoms + 1
      if 256 ≤ n then { c with atoms := Assoc.erase m c.atoms, budget := c.budget - 1 } else { c with atoms := Assoc.put m n c.atoms })

/-- The atomic is over: off the list, and its destination, if it has one, receives the old value. -/
def atomEnd (r : Nat) (a : Atomic) (old : Nat) (s : State) : State :=
  let s1 := (chargeAtom r a.mem s).modRegion r (fun R => { R with atomics := R.atomics.filter (fun b => b.id ≠ a.id) })
  match (s1.core r a.unit).producers.find? (fun p => decide (p.id = a.id)) with
  | some p => complete r a.unit p [toWord old] flNone s1
  | none => s1

/-- An atomic has performed on the `n` bytes at `key`, at the moment now: it is behind the atomics that performed there before and what those were
behind, all of this is ordered before the words behind its slot's next FENCE.wait, and with what the atomic itself was behind before later
atomics on a byte (R120, R220, R494). [DEDUCED, log 11] -/
def passOn (r : Nat) (a : Atomic) (sp : Space) (key : Nat) (s : State) : State :=
  let ks := (List.range' key a.n).map (seenKey sp)
  let m := (s.region r).cores.foldl (fun m q => ks.foldl (fun m k => joinOrder m (Assoc.get [] k q.2.passed)) m) (byteOrder sp key a.n s.moment)
  s.modCore r a.unit (fun c =>
    let c1 := c.did a.slot m
    { c1 with passed := ks.foldl (fun l k => Assoc.put k (joinOrder (Assoc.get [] k l) (joinOrder m a.view)) l) c1.passed })

/-- Perform an atomic on S space, as one step on its bytes; its slot reads nothing older there after a FENCE.wait (R219, R493, R497). -/
def atomPerformS (r : Nat) (a : Atomic) (s : State) : State :=
  readChk r 6 (uCl a.unit) (a.addr / 8) (a.addr / 8) (a.addr / 8 * 8) (atomRec a) (fun s =>
    let old := ofBytesLE (s.sRead r (uCl a.unit) a.addr a.n)
    let s1 := s.sWrite r (uCl a.unit) a.addr (bytesLE a.n (atomNew a old))
    atomEnd r a old (passOn r a .s (sKey r (uCl a.unit) a.addr) s1)) s

/-- Perform an atomic on G space. In run 1 of checking mode the write is discarded and the old value still returned (R312). -/
def atomPerformG (r : Nat) (a : Atomic) (s : State) : State :=
  match s.ctxOf (s.region r) with
  | none => s
  | some c =>
    let res := (gRead c r a.addr a.n s).bind (fun bs s1 =>
      let old := ofBytesLE bs
      if run1 s1 (s1.region r) then .ok old s1
      else (gWrite c r a.addr (bytesLE a.n (atomNew a old)) s1).bind (fun _ s2 => .ok old s2))
    match res with
    | .ok old s1 => atomEnd r a old (passOn r a .g (gKey c r a.addr) s1)
    | .wait _ => s
    | .fail x s1 =>
      let y := atomRec a
      raise r { x with kind := y.kind, unit := y.unit, sub := y.sub, position := y.position } s1

/-- A node of the graph holds an atomic on G space back (R300). [DEDUCED, log 27] -/
def atomHeld (r : Nat) (a : Atomic) (s : State) : Bool :=
  a.glob && (s.ctxOf (s.region r)).any (fun c => loadWaits c r (segMid c a.addr) s)
/-- A value-returning atomic in flight. [DESIGN CHOICE, log 51] -/
def valueAtomic (R : Region) (a : Atomic) : Bool :=
  (R.core a.unit).producers.any (fun p => decide (p.id = a.id) && (match p.work with
                                                                  | .atomic => true
                                                                  | _ => false))
/-- A value-returning atomic of a unit for which `f` holds waits for a copy of the graph alone (R300). [DEDUCED, log 27] -/
def copyAwaited (r : Nat) (f : Nat → Bool) (s : State) : Bool :=
  (s.region r).atomics.any (fun a => f a.unit && valueAtomic (s.region r) a && atomReady s (s.region r) a && atomHeld r a s)
/-- An atomic performs: its unit's holding buffer is read, then its word (R219, R234). [DEDUCED, log 41] -/
def atomPerform (r : Nat) (a : Atomic) (s : State) : State :=
  readChk r 7 a.mem 0 (2 ^ 64) a.addr (atomRec a) (fun s => if a.glob then atomPerformG r a s else atomPerformS r a s) s
/-- ATOMIC_PERFORM: atomic number `k` of the region performs at its memory-side unit, which waits for budget (R219 to R223, R448). [DEDUCED, log 31; DEDUCED, log 41] -/
def execAtomicPerform (r k : Nat) (s : State) : Host.Outcome State Fault Refusal :=
  let R := s.region r
  if R.halt then nx s
  else
    match R.atomics.find? (fun a => decide (a.id = k)) with
    | none => nx s
    | some a =>
      if !hasBudget r s || !atomReady s R a || atomHeld r a s then nx s
      else nx (atomPerform r a s)

end Sys2Proof.Machine
end

