-- ==== Sys2Proof/Machine/Fp.lean ====
section
/-! DEFINITION. Scalar floating point (R96 to R102). -/

namespace Sys2Proof.Machine

/-- The format of a precision (R97). -/
def precFmt : Prec → Fmt
  | .s => .fp32
  | .d => .fp64
/-- A register's bits as an operand: an FP32 operand is bits 31:0 (R97). -/
def precBits (p : Prec) (w : Word) : Nat := w.toNat % 2 ^ fmtBits (precFmt p)
/-- An operand's exact value. -/
def fpVal (p : Prec) (w : Word) : XNum := decodeNum (precFmt p) (precBits p w)
/-- The context seed (R46, R123); 0 where no context is resident. -/
def seedOf (s : State) : Word :=
  match s.ctxOf s.hereR with
  | some c => c.seed
  | none => 0
/-- The mode a word rounds in: its own, or FPMODE's (R98). -/
def effMode (rm : RMode) (s : State) : Rnd :=
  match rm with
  | .fixed m => m
  | .dyn => rndOf s.here.fpmode.toNat
/-- The keyed mix's top 32 bits for a scalar stochastic rounding (R60). -/
def slotMix (s : State) : Nat :=
  mixTop (mix (seedOf s) s.here.count (toWord (s.cur.slot)) (toWord s.cur.unit))
/-- A word of effective mode 5 advances the slot's stochastic count (R98). -/
def Slot.drew (m : Rnd) (sl : Slot) : Slot := if m = .rs then { sl with count := sl.count + 1 } else sl

/-- An arithmetic form: the exact result of its operands, rounded once (R98). -/
def fpArith (f : List XNum → XNum × Flg) (fm : FMode) (g : Guard) (d : Reg) (srcs : List Src) (s : State) :
    Host.Outcome State Fault Refusal :=
  issue g srcs [d] (fun s =>
    let m := effMode fm.rm s
    let v := f (srcs.map (fun x => fpVal fm.prec (rv s x)))
    let r := encodeNum (precFmt fm.prec) false m fm.sat (slotMix s) v.1
    retire (fun sl => ((sl.wr d (toWord r.1)).flag (v.2 ||| r.2)).drew m) s) s

/-- A long-latency arithmetic form: its value and flags are delivered at completion (R27, R98). -/
def fpLong (f : List XNum → XNum × Flg) (fm : FMode) (g : Guard) (d : Reg) (srcs : List Src) (s : State) :
    Host.Outcome State Fault Refusal :=
  issue g srcs [d] (fun s =>
    let m := effMode fm.rm s
    let v := f (srcs.map (fun x => fpVal fm.prec (rv s x)))
    let r := encodeNum (precFmt fm.prec) false m fm.sat (slotMix s) v.1
    retire (Slot.drew m) (launch [d] (.value [toWord r.1] (v.2 ||| r.2) true) s)) s

/-- A minimum or maximum (R65). -/
def fpMinMax (mx : Bool) (pr : Prec) (g : Guard) (d : Reg) (a b : Src) (s : State) : Host.Outcome State Fault Refusal :=
  issue g [a, b] [d] (fun s =>
    let r := minMaxCode (precFmt pr) mx true (precBits pr (rv s a)) (precBits pr (rv s b))
    doneFl d (toWord r.1) r.2 s) s

/-- The `n`-th value of a list. -/
def nth (l : List XNum) (n : Nat) : XNum := l.getD n .qnan

/-- FADD: `round(a + b)` (R97). -/
def execFadd (g : Guard) (d : Reg) (a b : Src) (f : FMode) (s : State) : Host.Outcome State Fault Refusal :=
  fpArith (fun l => numSum [nth l 0, nth l 1]) f g d [a, b] s

/-- FSUB: `round(a - b)` (R97). -/
def execFsub (g : Guard) (d : Reg) (a b : Src) (f : FMode) (s : State) : Host.Outcome State Fault Refusal :=
  fpArith (fun l => numSum [nth l 0, (nth l 1).negate]) f g d [a, b] s

/-- FMUL: `round(a * b)` (R97). -/
def execFmul (g : Guard) (d : Reg) (a b : Src) (f : FMode) (s : State) : Host.Outcome State Fault Refusal :=
  fpArith (fun l => numMul (nth l 0) (nth l 1)) f g d [a, b] s

/-- FFMA: `round(a * b + c)`, one rounding (R63, R97). -/
def execFfma (g : Guard) (d : Reg) (a b c : Src) (f : FMode) (s : State) : Host.Outcome State Fault Refusal :=
  fpArith (fun l => numFma (nth l 0) (nth l 1) (nth l 2)) f g d [a, b, c] s

/-- FDIV: `round(a / b)`, a long-latency producer (R97, R98). -/
def execFdiv (g : Guard) (d : Reg) (a b : Src) (f : FMode) (s : State) : Host.Outcome State Fault Refusal :=
  fpLong (fun l => numDiv (nth l 0) (nth l 1)) f g d [a, b] s

/-- FSQRT: `round(sqrt a)`, a long-latency producer (R97, R98). -/
def execFsqrt (g : Guard) (d : Reg) (a : Src) (f : FMode) (s : State) : Host.Outcome State Fault Refusal :=
  fpLong (fun l => numSqrt (nth l 0)) f g d [a] s

/-- FMIN: minimumNumber (R65). -/
def execFmin (g : Guard) (d : Reg) (a b : Src) (pr : Prec) (s : State) : Host.Outcome State Fault Refusal :=
  fpMinMax false pr g d a b s

/-- FMAX: maximumNumber (R65). -/
def execFmax (g : Guard) (d : Reg) (a b : Src) (pr : Prec) (s : State) : Host.Outcome State Fault Refusal :=
  fpMinMax true pr g d a b s

/-- The value and the invalid flag of a comparison (R99). -/
def fpCompare (c : FCond) (x y : XNum) : Bool × Flg :=
  let nan := x.isNaN || y.isNaN
  let sig := x == .snan || y == .snan
  match c with
  | .eq => (!nan && numEq x y, flIf sig flInv)
  | .lt => (!nan && numLt x y, flIf nan flInv)
  | .le => (!nan && !numLt y x, flIf nan flInv)
  | .un => (nan, flIf sig flInv)

/-- FCMP: a predicate by the condition (R99). -/
def execFcmp (g : Guard) (p : PReg) (a b : Src) (pr : Prec) (c : FCond) (s : State) : Host.Outcome State Fault Refusal :=
  issue g [a, b] [] (fun s =>
    let r := fpCompare c (fpVal pr (rv s a)) (fpVal pr (rv s b))
    donePFl p r.1 r.2 s) s

/-- A source of FCVT by its kind (R100). -/
def fcvtVal (k : FKind) (w : Word) : XNum :=
  match k with
  | .s => fpVal .s w
  | .d => fpVal .d w
  | .l => numOfInt w.toInt
  | .lu => numOfInt w.toNat
/-- A result of FCVT by its kind (R57, R61, R100). -/
def fcvtCode (k : FKind) (m : Rnd) (sat : Bool) (u : Nat) (v : XNum) : Nat × Flg :=
  match k with
  | .s => encodeNum .fp32 false m sat u v
  | .d => encodeNum .fp64 false m sat u v
  | .l => encodeInt 64 true false m sat u v
  | .lu => encodeInt 64 false false m sat u v

/-- FCVT: converts between FP32, FP64, INT64 and UINT64 with one rounding (R100). -/
def execFcvt (g : Guard) (d : Reg) (a : Src) (sk dk : FKind) (rm : RMode) (sat : Bool) (s : State) :
    Host.Outcome State Fault Refusal :=
  issue g [a] [d] (fun s =>
    let m := effMode rm s
    let r := fcvtCode dk m sat (slotMix s) (fcvtVal sk (rv s a))
    retire (fun sl => ((sl.wr d (toWord r.1)).flag r.2).drew m) s) s

/-- The class mask of a code (R101). -/
def fpClass (pr : Prec) (x : Nat) : Nat :=
  let f := precFmt pr
  let sub : Bool := match fmtKind f with
                    | .fp sh => decide (x % 2 ^ (sh.w + sh.m) < 2 ^ sh.m)
                    | _ => false
  match decodeNum f x with
  | .inf true => 1
  | .inf false => 2 ^ 7
  | .fin true _ _ => if sub then 2 ^ 2 else 2
  | .fin false _ _ => if sub then 2 ^ 5 else 2 ^ 6
  | .zero true => 2 ^ 3
  | .zero false => 2 ^ 4
  | .szero => 2 ^ 4
  | .snan => 2 ^ 8
  | .qnan => 2 ^ 9

/-- FCLASS: the class of the operand, one bit of ten (R101). -/
def execFclass (g : Guard) (d : Reg) (a : Src) (pr : Prec) (s : State) : Host.Outcome State Fault Refusal :=
  issue g [a] [d] (fun s => done d (toWord (fpClass pr (precBits pr (rv s a)))) s) s

end Sys2Proof.Machine
end

