-- ==== Sys2Proof/Machine/Arcs.lean ====
section
/-! DEFINITION. Arcs: beats, tokens and free slots (R79, R126, R193 to R201), pushing from a producer port and taking at a consumer port. -/

namespace Sys2Proof.Machine

/-! ### Elements of a beat (R52, R126) -/

/-- Elements per beat of a format (R126). -/
def beatElems (f : Fmt) : Nat := if fmtBits f ≤ 8 then 64 else 512 / fmtBits f
/-- The codes of a beat's elements. -/
def elemsOf (f : Fmt) (l : Line) : List Nat :=
  (List.range (beatElems f)).map (fun i => l.toNat / 2 ^ (fmtBits f * i) % 2 ^ fmtBits f)
/-- The number that codes of `w` bits make, element 0 lowest. -/
def packElems (w : Nat) : List Nat → Nat
  | [] => 0
  | x :: t => x % 2 ^ w + 2 ^ w * packElems w t
/-- A beat of these codes. -/
def lineOf (f : Fmt) (l : List Nat) : Line := BitVec.ofNat 512 (packElems (fmtBits f) l)

/-! ### Control bits (R79) -/

/-- A data beat without side lanes. -/
def dataBeat (l : Line) : Beat := { data := l, ctl := 0, side := 0 }
/-- The end-of-invocation marker. -/
def eoiBeat : Beat := { data := 0, ctl := 1, side := 0 }
/-- The lift marker. -/
def liftBeat : Beat := { data := 0, ctl := 8, side := 0 }
/-- eoi is set. -/
def Beat.eoi (b : Beat) : Bool := b.ctl.getLsbD 0
/-- eor is set. -/
def Beat.eor (b : Beat) : Bool := b.ctl.getLsbD 1
/-- hdr is set. -/
def Beat.hdr (b : Beat) : Bool := b.ctl.getLsbD 2
/-- lift is set. -/
def Beat.lift (b : Beat) : Bool := b.ctl.getLsbD 3
/-- A marker beat. -/
def Beat.marker (b : Beat) : Bool := b.eoi || b.lift
/-- A beat that is neither a marker nor a header. -/
def Beat.isData (b : Beat) : Bool := !b.marker && !b.hdr
/-- The same beat with eor. -/
def Beat.withEor (b : Beat) : Beat := { b with ctl := b.ctl ||| 2 }
/-- Side lanes of BF16 1.0 in every slot (R200, R268). -/
def oneSide : BitVec 64 := 0x3F803F803F803F80

/-- A header's scale, and whether it is laid out as R67 says. -/
def headerScale (b : Beat) : Nat := b.data.toNat % 256
/-- blen is 31 and every unlisted bit is zero. -/
def headerOk (b : Beat) : Bool := decide (b.data.toNat / 2 ^ 8 % 2 ^ 8 = 31) && decide (b.data.toNat / 2 ^ 17 = 0)
/-- The last-of-tile mark. -/
def headerLot (b : Beat) : Bool := bit b.data.toNat 16
/-- The value of an E8M0 scale (R67). -/
def e8m0 (e : Nat) : XNum :=
  if e = 255 then .qnan else if 127 ≤ e then .fin false (2 ^ (e - 127)) 1 else .fin false 1 (2 ^ (127 - e))

/-! ### The arcs of a region -/

/-- An arc just loaded, without beats. [DEDUCED, log 19] -/
def Arc.fresh (x : Route) : Arc :=
  { route := x, inbox := [], fifo := [], ring := [], out := 0, rpos := 0, part := [], partSide := [], partEor := false, latch := 127, held := 127, count := 0, flags := 0 }
/-- The switch unit of an arc's key, and its entry number. -/
def arcUnit (k : Nat) : Nat := k / 64
/-- The route entry number. -/
def arcEntry (k : Nat) : Nat := k % 64
/-- The key of entry `e` of the switch `u`. [DEDUCED, log 57] -/
def arcKey (u e : Nat) : Nat := u * 64 + e
/-- The producer of an arc is port `p` of unit `u`. -/
def arcFrom (u p k : Nat) (x : Route) : Bool :=
  decide (uCl (arcUnit k) = uCl u) && decide (x.skind = uKind u) && decide (x.sidx = uIdx u) && decide (x.sport = p)
/-- The arcs out of port `p` of unit `u`. -/
def Region.outArcs (R : Region) (u p : Nat) : List (Nat × Arc) := R.arcs.filter (fun e => arcFrom u p e.1 e.2.route)
/-- The arc into port `p` of unit `u`. -/
def Region.inArc (R : Region) (u p : Nat) : Option (Nat × Arc) :=
  R.arcs.find? (fun e => decide (e.2.route.dunit = u) && decide (e.2.route.dport = p))
/-- Put an arc back. -/
def Region.setArc (k : Nat) (a : Arc) (R : Region) : Region := { R with arcs := Assoc.put k a R.arcs }
/-- Change an arc, if it exists. -/
def Region.modArc (k : Nat) (f : Arc → Arc) (R : Region) : Region :=
  match Assoc.find k R.arcs with
  | some a => R.setArc k (f a)
  | none => R

/-- A conversion stands in the arc (R196). -/
def Route.converts (x : Route) : Bool := decide (x.sfmt ≠ x.dfmt) || decide (x.smod ≠ x.dmod) || x.tsc
/-- Elements per beat at the producer's side and at the consumer's. -/
def Route.es (x : Route) : Nat := beatElems x.sfmt
/-- Elements per beat at the consumer's side. -/
def Route.ed (x : Route) : Nat := beatElems x.dfmt
/-- The switch consumes header beats on this route (R498). -/
def Route.eatsHeaders (x : Route) : Bool := decide (x.smod = 2) && decide (x.dmod = 0)

/-- The consumer-side beats that producer-side beats will make, after `p` elements of a partly filled beat (R197). -/
def inboxBeats (x : Route) : Nat → List Inbound → Nat
  | p, [] => if p = 0 then 0 else 1
  | p, b :: t =>
    if b.beat.hdr && x.eatsHeaders then inboxBeats x p t
    else if b.beat.isData then
      if x.ed ≤ x.es then x.es / x.ed + inboxBeats x 0 t
      else if p + x.es < x.ed then inboxBeats x (p + x.es) t
      else 1 + inboxBeats x 0 t
    else (if p = 0 then 1 else 2) + inboxBeats x 0 t

/-- free_slots for `n` more producer-side beats: they fit (R77, R197, R198, R201). -/
def Arc.room (a : Arc) (n : Nat) : Bool :=
  let extra := rep n { beat := dataBeat 0, scale := 0 }
  a.route.spill || decide (a.fifo.length + inboxBeats a.route a.part.length (a.inbox ++ extra) ≤ a.route.depth)
/-- A marker or a header fits. -/
def Arc.roomMark (a : Arc) : Bool :=
  a.route.spill || decide (a.fifo.length + inboxBeats a.route a.part.length (a.inbox ++ [{ beat := eoiBeat, scale := 0 }]) ≤ a.route.depth)
/-- Every arc of a producer port has room for `n` beats (R195). -/
def Region.roomOut (R : Region) (u p n : Nat) : Bool := (R.outArcs u p).all (fun e => e.2.room n)
/-- Every arc of a producer port has room for a marker. -/
def Region.roomOutMark (R : Region) (u p : Nat) : Bool := (R.outArcs u p).all (fun e => e.2.roomMark)

/-- The MX tensor scale that a beat is emitted under; 0 where the producer is no MX (R196). -/
def Region.emitScale (R : Region) (u : Nat) : BitVec 32 := if uKind u = 2 then (R.mx u).scale else 0
/-- Push beats on every arc of a producer port. [DEDUCED, log 19] -/
def Region.pushOut (u p : Nat) (bs : List Beat) (R : Region) : Region :=
  let sc := R.emitScale u
  { R with arcs := R.arcs.map (fun e =>
      if arcFrom u p e.1 e.2.route then
        (e.1, { e.2 with inbox := e.2.inbox ++ bs.map (fun b => { beat := b, scale := sc }) })
      else e) }
/-- Data beats of a producer without scales of its own (R268). -/
def plainBeat (l : Line) : Beat := { data := l, ctl := 0, side := oneSide }

/-- The data beats at the head of an arc, before any marker or header (R77, R198). -/
def Arc.run (a : Arc) : List Beat := a.fifo.takeWhile Beat.isData
/-- tokens(arc) (R198). -/
def Arc.tokens (a : Arc) : Nat := a.run.length
/-- Pop `n` beats. -/
def Arc.pop (n : Nat) (a : Arc) : Arc := { a with fifo := a.fifo.drop n, out := a.out + n }
/-- The head beat. -/
def Arc.head (a : Arc) : Option Beat := a.fifo.head?

/-- The tokens at an input port; none without an arc. -/
def Region.tokensIn (R : Region) (u p : Nat) : Nat :=
  match R.inArc u p with
  | some e => e.2.tokens
  | none => 0
/-- The consumer at an input port begins its next invocation: its header latch holds 2^0 again (R67). -/
def Region.unlatch (u p : Nat) (R : Region) : Region :=
  match R.inArc u p with
  | some e => R.setArc e.1 { e.2 with held := 127 }
  | none => R
/-- The same for each of a list of input ports. -/
def Region.unlatchAll (u : Nat) (ps : List Nat) (R : Region) : Region := ps.foldl (fun R p => R.unlatch u p) R
/-- The head beat at an input port. -/
def Region.headIn (R : Region) (u p : Nat) : Option Beat :=
  match R.inArc u p with
  | some e => e.2.head
  | none => none
/-- The beat at place `i` of an input port. -/
def Region.beatIn (R : Region) (u p i : Nat) : Option Beat :=
  match R.inArc u p with
  | some e => e.2.fifo[i]?
  | none => none
/-- Pop `n` beats at an input port. -/
def Region.popIn (u p n : Nat) (R : Region) : Region :=
  match R.inArc u p with
  | some e => R.setArc e.1 (e.2.pop n)
  | none => R
/-- An eoi marker stands at place `i` of an input port. -/
def Region.eoiIn (R : Region) (u p i : Nat) : Bool :=
  match R.beatIn u p i with
  | some b => b.eoi
  | none => false
/-- A lift marker stands at place `i` of an input port. -/
def Region.liftIn (R : Region) (u p i : Nat) : Bool :=
  match R.beatIn u p i with
  | some b => b.lift
  | none => false

/-- The record of a FIFO word or a route entry that fails its code (R207). -/
def arcRec (k : Nat) : StopRec := { recOf 0x14 5 (arcUnit k) with sub := arcEntry k, sk := 3 }
/-- The key of word number `n` of the FIFO of entry `e`, among a switch's words of structure 4 (R207). [DEDUCED, log 41] -/
def fifoKey (e n : Nat) : Nat := e * 2 ^ 48 + n
/-- Read words of arcs' FIFOs - of an arc the words of so many beats from a place on - then go on (R207). [DEDUCED, log 41] -/
def fifosChk (r : Nat) : List (Nat × Nat × Nat) → (State → State) → State → State
  | [], k, s => k s
  | (e, i, n) :: t, k, s =>
    let m := (Assoc.get default e (s.region r).arcs).out + i
    if n = 0 then fifosChk r t k s
    else readChkBy r 4 (arcUnit e) (fifoKey (arcEntry e) m) (fifoKey (arcEntry e) (m + n - 1)) (fun _ => arcEntry e) (arcRec e)
      (fun s => fifosChk r t k s) s
/-- So many beats from the head of each of the given input ports of a unit. -/
def Region.heads (R : Region) (u : Nat) (l : List (Nat × Nat)) : List (Nat × Nat × Nat) :=
  l.filterMap (fun q => (R.inArc u q.1).map (fun e => (e.1, 0, q.2)))
/-- The head beat of each of the given input ports of a unit. -/
def Region.headOf (R : Region) (u : Nat) (ps : List Nat) : List (Nat × Nat × Nat) := R.heads u (ps.map (fun p => (p, 1)))
/-- The beat at place `i` of the FIFO of arc `k` leaves it: the words of the beats before it move up, with their errors (R207). -/
def shiftWords (r k i : Nat) (s : State) : State :=
  let m := (Assoc.get default k (s.region r).arcs).out
  { s with errors := s.errors.map (fun e =>
      if e.r = r ∧ e.code = 4 ∧ e.unit = arcUnit k ∧ fifoKey (arcEntry k) m ≤ e.key ∧ e.key < fifoKey (arcEntry k) (m + i) then { e with key := e.key + 1 } else e) }

/-! ### What the switch does with a beat (R196, R197, R201, R498) -/

/-- The seed of the context on region `r`; 0 where there is none. -/
def regionSeed (r : Nat) (s : State) : Word :=
  match s.ctxOf (s.region r) with
  | some c => c.seed
  | none => 0

/-- The side lane of a beat whose elements begin these blocks (R268). -/
def sideLane (l : List (Option Nat)) : BitVec 64 := BitVec.ofNat 64 (packElems 16 ((l.filterMap id).take 4))
/-- The scales of the blocks that begin at the elements of a producer-side beat, the first of which is element `q` of the stream:
slot `j` of its side lane belongs to the `j`-th block that begins in it (R268). -/
def beginScales (x : Route) (side : BitVec 64) (q : Nat) : List (Option Nat) :=
  let lead := (32 - q % 32) % 32
  (List.range x.es).map (fun i =>
    if (q + i) % 32 = 0 then some (side.toNat / 2 ^ (16 * ((i - lead) / 32)) % 2 ^ 16) else none)

/-- The scale of each element's block in native mode: the one that begins there, else the one before (R196, R268). -/
def runScales : Nat → List (Option Nat) → List Nat
  | _, [] => []
  | _, some v :: t => v :: runScales v t
  | v, none :: t => v :: runScales v t

/-- The factor of an element whose block's scale has the code `sc` (R196). -/
def arcFactor (x : Route) (b : Inbound) (sc : Nat) : XNum × Flg :=
  let one : XNum := .fin false 1 1
  let f := if x.smod ≠ 0 ∧ x.dmod = 0 then (if x.smod = 1 then decodeNum .bf16 sc else e8m0 sc) else one
  if x.tsc then numMul f (decodeNum .fp32 b.scale.toNat) else (f, flNone)

/-- The factor 1. -/
def XNum.isOne : XNum → Bool
  | .fin false n d => decide (n = d)
  | _ => false

/-- One element converted (R196). -/
def arcElem (x : Route) (b : Inbound) (sc u e : Nat) : Nat × Flg :=
  let f := arcFactor x b sc
  if x.sfmt = x.dfmt ∧ f.1.isOne = true then (e, f.2)
  else
    let p := if f.1.isOne then (decodeNum x.sfmt e, flNone) else numMul (decodeNum x.sfmt e) f.1
    let q := encodeNum x.dfmt (fmtInt x.sfmt) x.rnd x.sat u p.1
    (q.1, f.2 ||| p.2 ||| q.2)

/-- The mix of consumer-side beat `n`, element `i` (R60). -/
def arcMix (seed : Word) (k n i : Nat) : Nat :=
  mixTop (mix seed (toWord n) (toWord i) (toWord (2 ^ 32 + arcUnit k * 2 ^ 8 + arcEntry k)))

/-- The elements of a producer-side beat converted, each with the scale code of its block; `n` consumer-side beats and `p` elements
of the next stand before them. -/
def arcElems (seed : Word) (k : Nat) (a : Arc) (b : Inbound) (scs : List Nat) : List (Nat × Flg) :=
  let x := a.route
  let p := a.part.length
  (((elemsOf x.sfmt b.beat.data).zip scs).zipIdx).map (fun q =>
    arcElem x b q.1.2 (arcMix seed k (a.count + (p + q.2) / x.ed) ((p + q.2) % x.ed)) q.1.1)

/-- A list cut into beats of `n` elements: the full ones, and what is left. -/
def cutBeats {α : Type} (n : Nat) : Nat → List α → List (List α) × List α
  | 0, l => ([], l)
  | m + 1, l =>
    if l.length < n ∨ n = 0 then ([], l)
    else
      let t := cutBeats n m (l.drop n)
      (l.take n :: t.1, t.2)

/-- The beats of a spill ring that take a place in it: a lift marker takes none (R428). -/
def ringBeats (l : List Beat) : List Beat := l.filter (fun b => !b.lift)
/-- The beats that a ring holds at most (R193, R201). -/
def Route.ringSize (x : Route) : Nat := 64 * 2 ^ x.ring
/-- Consumer-side beats go to the FIFO or, on a spillable arc whose FIFO is full, to its ring; none where the ring is full too
(R201). [DEDUCED, log 19] -/
def Arc.put : List Beat → Arc → Option Arc
  | [], a => some a
  | b :: t, a =>
    if a.route.spill && (!a.ring.isEmpty || decide (a.route.depth ≤ a.fifo.length)) then
      if (ringBeats a.ring).length < a.route.ringSize then Arc.put t { a with ring := a.ring ++ [b] } else none
    else Arc.put t { a with fifo := a.fifo ++ [b] }

/-- The partly filled beat, with its unfilled elements at +0 (R197). -/
def Arc.padded (a : Arc) : List Beat :=
  if a.part.isEmpty then []
  else
    let b := { dataBeat (lineOf a.route.dfmt a.part) with side := if a.route.dmod = 1 then sideLane a.partSide else 0 }
    [if a.partEor then b.withEor else b]
/-- The arc without a partly filled beat. -/
def Arc.unpart (a : Arc) : Arc := { a with part := [], partSide := [], partEor := false, count := a.count + a.padded.length }

/-- A data beat through the arc: the consumer-side beats it makes, and the arc after it (R196, R197). [DEDUCED, log 19] -/
def Arc.convert (seed : Word) (k : Nat) (b : Inbound) (a : Arc) : List Beat × Arc :=
  let x := a.route
  if !x.converts then ([b.beat], { a with count := a.count + 1 })
  else
    let bg := beginScales x b.beat.side (a.count * x.ed + a.part.length)
    let scs := if x.smod = 1 then runScales a.latch bg else rep x.es a.latch
    let es := arcElems seed k a b scs
    let fl := es.foldl (fun f e => f ||| e.2) flNone
    let sc := a.partSide ++ bg
    let c := cutBeats x.ed 64 ((a.part ++ es.map (fun e => e.1)).zip sc)
    let eor := b.beat.eor || a.partEor
    let bs := c.1.map (fun l => { dataBeat (lineOf x.dfmt (l.map (fun e => e.1))) with
                                  side := if x.smod = 1 ∧ x.dmod = 1 then sideLane (l.map (fun e => e.2)) else 0 })
    let out := if c.2.isEmpty && eor then bs.dropLast ++ (bs.getLast?.map Beat.withEor).toList else bs
    (out, { a with part := c.2.map (fun e => e.1), partSide := c.2.map (fun e => e.2), partEor := eor && !c.2.isEmpty,
                   latch := if x.smod = 1 then scs.getLastD a.latch else a.latch,
                   count := a.count + bs.length, flags := a.flags ||| fl })

/-- A breach of R498, or a full ring. -/
inductive ArcRes where
  | ok (a : Arc)
  | header (b : Beat)
  | full
deriving DecidableEq, Repr

/-- An arc that took a beat out of its inbox, or met a full ring. -/
def ArcRes.ofPut : Option Arc → ArcRes
  | some a => .ok a
  | none => .full

/-- A lift marker goes behind the beats already converted; it leaves a partly filled beat as it stands and takes no place of its own
(R206, R428). -/
def Arc.putLift (a : Arc) : Arc :=
  if a.route.spill && (!a.ring.isEmpty || decide (a.route.depth ≤ a.fifo.length)) then { a with ring := a.ring ++ [liftBeat] }
  else { a with fifo := a.fifo ++ [liftBeat] }

/-- The switch takes one beat from the arc's inbox (R67, R196, R197, R201, R498). A header that passes through is not counted among the beats of
the stochastic key (R60). [DEDUCED, log 19; DESIGN CHOICE, log 73] -/
def Arc.step (seed : Word) (k : Nat) (b : Inbound) (a : Arc) : ArcRes :=
  if b.beat.lift then .ok a.putLift
  else if b.beat.isData then
    let c := Arc.convert seed k b a
    .ofPut (Arc.put c.1 c.2)
  else if b.beat.hdr && a.route.eatsHeaders then
    if headerOk b.beat then .ok { a with latch := headerScale b.beat } else .header b.beat
  else
    let a1 := a.unpart
    let a2 := if b.beat.eoi then { a1 with count := 0, latch := 127 } else a1
    .ofPut (Arc.put (a.padded ++ [b.beat]) a2)

/-- The stop record of a switch about an arc (R201, R498). -/
def switchRec (cause k : Nat) (position d0 : Word) : StopRec :=
  { recOf cause 5 (arcUnit k) with sub := arcEntry k, sk := 3, position := position, d0 := d0 }

end Sys2Proof.Machine
end

