-- ==== Sys2Proof/Machine/Lattice.lean ====
section
/-! DEFINITION. Lattices: the descriptor's fields (R241), the cells that a tap reads (R243), and the edges (R245 to R247). -/

namespace Sys2Proof.Machine

/-- Axes minus 1 (R241). -/
def latAxes (d : Nat) : Nat := bits d 1 0
/-- Fields. -/
def latFields (d : Nat) : Nat := bits d 3 2 + 1
/-- Cell format. -/
def latFmt (d : Nat) : Fmt := fmtOf (bits d 7 4)
/-- Neighbourhood radius. -/
def latH (d : Nat) : Nat := bits d 10 8
/-- Cells per block. -/
def latL (d : Nat) : Nat := 2 ^ bits d 13 11
/-- The edge policy of axis `a`, side `s`. -/
def latEdge (d a s : Nat) : Nat := bits d (16 + 6 * a + 3 * s + 2) (16 + 6 * a + 3 * s)
/-- FIXED values come from the edge table. -/
def latTable (d : Nat) : Bool := bit d 34
/-- The buffers are tensors. -/
def latTensor (d : Nat) : Bool := bit d 35
/-- Total steps. -/
def latSteps (d : Nat) : Nat := bits d 87 64
/-- The extent of axis `a`. -/
def latX (d a : Nat) : Nat := bits d (143 + 16 * a) (128 + 16 * a)
/-- Buffer `k`. -/
def latBuf (d k : Nat) : Nat := bits d (255 + 64 * k) (192 + 64 * k)
/-- The FIXED word of side `m` in the descriptor. -/
def latFix (d m : Nat) : Nat := bits d (32 * m + 351) (32 * m + 320)

/-- A signed tap offset. -/
def tapOff (x : Nat) : Int := sextN 4 x

/-- A coordinate on an axis after CLAMP, REFLECT and PERIODIC (R245); FIXED and ZERO leave it outside. -/
def latMap (d a : Nat) (j : Int) : Int :=
  let n : Int := latX d a
  if 0 ≤ j ∧ j < n then j
  else
    let low := decide (j < 0)
    match latEdge d a (if low then 0 else 1) with
    | 2 => if low then 0 else n - 1
    | 3 => if low then -j else 2 * (n - 1) - j
    | 4 => j % n
    | _ => j

/-- A coordinate still lies outside its axis. -/
def latOut (d a : Nat) (j : Int) : Bool := decide (j < 0) || decide ((latX d a : Int) ≤ j)

/-- The FIXED or ZERO value of an axis and side for field `q` (R245, R246). -/
def latEdgeValue (d : Nat) (edge : List (BitVec 32)) (a : Nat) (j : Int) (q : Nat) : Nat :=
  let s := if j < 0 then 0 else 1
  if latEdge d a s = 1 then 0
  else
    let w := if latTable d then (edge.getD (4 * (2 * a + s) + q) 0).toNat else latFix d (2 * a + s)
    w % 2 ^ fmtBits (latFmt d)

/-- Field `q` of the cell at stream index `i`, if its block has arrived. -/
def latCell (d : Nat) (cells : List Line) (i q : Nat) : Option Nat :=
  let w := fmtBits (latFmt d)
  (cells[i / latL d]?).map (fun l => l.toNat / 2 ^ (w * (q * latL d + i % latL d)) % 2 ^ w)

/-- Field `q` of the cell at a coordinate (R245); none where it has not arrived, or lies beyond the high side of the slowest axis
and the drain has not begun (R247). -/
def latRead (d : Nat) (cells : List Line) (drain : Bool) (edge : List (BitVec 32)) (q : Nat) (j0 j1 j2 : Int) : Option Nat :=
  let slow := match latAxes d with
              | 0 => j0
              | 1 => j1
              | _ => j2
  if !drain && decide ((latX d (latAxes d) : Int) ≤ slow) then none
  else
    let k0 := latMap d 0 j0
    let k1 := latMap d 1 j1
    let k2 := latMap d 2 j2
    if latOut d 0 k0 then some (latEdgeValue d edge 0 k0 q)
    else if latOut d 1 k1 then some (latEdgeValue d edge 1 k1 q)
    else if latOut d 2 k2 then some (latEdgeValue d edge 2 k2 q)
    else latCell d cells ((k2.toNat * latX d 1 + k1.toNat) * latX d 0 + k0.toNat) q

/-- Element `e` of what a tap reads for block `n` (R243). -/
def tapElem (d : Nat) (cells : List Line) (drain : Bool) (edge : List (BitVec 32)) (n : Nat) (t : Tap) (e : Nat) : Option Nat :=
  let l := e % latL d
  let f := e / latL d
  let p := n * latL d
  latRead d cells drain edge (if t.fsel = 4 then f else t.fsel)
    (((p % latX d 0 + l : Nat) : Int) + tapOff t.dx) (((p / latX d 0 % latX d 1 : Nat) : Int) + tapOff t.dy)
    (((p / (latX d 0 * latX d 1) : Nat) : Int) + tapOff t.dz)

/-- All of a list's values, if each is there. -/
def allSome {α : Type} : List (Option α) → Option (List α)
  | [] => some []
  | some x :: t => (allSome t).map (fun l => x :: l)
  | none :: _ => none

/-- The vector that a tap reads for block `n` (R243); none where a cell is missing. -/
def tapLine (d : Nat) (cells : List Line) (drain : Bool) (edge : List (BitVec 32)) (n : Nat) (t : Tap) : Option Line :=
  (allSome ((List.range (latFields d * latL d)).map (tapElem d cells drain edge n t))).map (lineOf (latFmt d))

end Sys2Proof.Machine
end

