-- ==== Sys2Proof/Machine/Pipe.lean ====
section
/-! DEFINITION. The vector pipeline: what a stage's word reads and at which rates (R126 to R132), where its operands come from, when it
may fire (R77), and the start of a firing (R78). -/

namespace Sys2Proof.Machine

/-! ### The shape of a stage -/

/-- The opcode of a word. -/
def wordOp (w : IWord) : Nat := w.toNat / 2 ^ 56
/-- How many of the source fields A, B, C the operation reads (R139). -/
def vReads (w : IWord) : Nat :=
  let op := wordOp w
  if [0x86, 0x87, 0x95, 0x97, 0x98, 0x99, 0x9A, 0x9C, 0xA3, 0xA4].contains op then 1
  else if [0x83, 0x8C, 0x94, 0xA2].contains op || (op == 0x9B && (wV w.toNat).fn == 1) then 3
  else 2
/-- VNRW reads an accumulator: its function bit 3 is 0 (R154). -/
def isNrwAcc (w : IWord) : Bool := wordOp w == 0xA3 && !(wV w.toNat).fn.getLsbD 3
/-- VNRW in stream mode. -/
def isNrwStream (w : IWord) : Bool := wordOp w == 0xA3 && (wV w.toNat).fn.getLsbD 3
/-- The format in which source A is read (R127). -/
def vFmtA (w : IWord) : Fmt :=
  let v := wV w.toNat
  if wordOp w = 0x95 then fmtOf v.fn.toNat else if isNrwStream w then .fp32 else v.ty

/-- The mode of a stage type (R138). -/
def accModeOf : Fmt → Nat
  | .fp8a | .fp8b | .df8 => 0
  | .fp16 | .bf16 => 1
  | .fp32 => 2
  | .int8 | .uint8 => 4
  | .int16 | .uint16 => 5
  | .int32 => 6
  | _ => 3
/-- The elements of a mode (R161). -/
def accCount (m : Nat) : Nat := if m % 4 = 0 then 64 else if m % 4 = 1 then 32 else 16
/-- An integer mode. -/
def accInt (m : Nat) : Bool := decide (4 ≤ m)
/-- The element width of a mode. -/
def accWidth (m : Nat) : Nat := if m % 4 = 2 then 64 else 32

/-- A source operand of a stage: selector, sticky index, beats per firing. -/
structure Opnd where
  sel : Nat
  k : Nat
  rate : Nat
deriving DecidableEq, Repr

/-- The beats of source A per firing (R132). -/
def rateA (w : IWord) : Nat :=
  let e := beatElems (wV w.toNat).ty
  if wordOp w = 0x95 then max 1 (e / beatElems (vFmtA w)) else if isNrwStream w then max 1 (e / 16) else 1
/-- The beats that a firing delivers, where accumulator `n` is in mode `modes n` (R132). -/
def rateOut (modes : Nat → Nat) (w : IWord) : Nat :=
  let v := wV w.toNat
  let e := beatElems v.ty
  if wordOp w = 0x95 then max 1 (beatElems (vFmtA w) / e)
  else if isNrwAcc w then max 1 (accCount (modes (v.fn.toNat % 8)) / e)
  else 1
/-- The source operands, in order. -/
def opnds (w : IWord) : List Opnd :=
  let v := wV w.toNat
  [{ sel := v.selA.toNat, k := v.kA.toNat, rate := rateA w }, { sel := v.selB.toNat, k := v.kB.toNat, rate := 1 },
   { sel := v.selC.toNat, k := v.kC.toNat, rate := 1 }].take (vReads w)
/-- The destination code. -/
def vDest (w : IWord) : Nat := (wV w.toNat).dest.toNat
/-- The output ports that a stage writes: a VSTEER both (R153). -/
def outPorts (w : IWord) : List Nat :=
  if wordOp w = 0xA1 then [0, 1] else if vDest w = 1 then [0] else if vDest w = 2 then [1] else []
/-- The input ports that a stage reads. -/
def inPorts (w : IWord) : List Nat := ((opnds w).filter (fun o => decide (o.sel < 4))).map (fun o => o.sel)
/-- The accumulator that a stage writes. -/
def accWritten (w : IWord) : Option Nat := if 8 ≤ vDest w then some (vDest w % 8) else none
/-- The accumulator that a VNRW reads. -/
def accRead (w : IWord) : Option Nat := if isNrwAcc w then some ((wV w.toNat).fn.toNat % 8) else none
/-- The stage reads a lattice tap. -/
def readsTap (w : IWord) : Bool := (opnds w).any (fun o => decide (64 ≤ o.sel))

/-- The modes of a core's accumulators. -/
def Core.modes (c : Core) (n : Nat) : Nat := (Assoc.get AccEntry.init n c.accs).mode.toNat
/-- Stage `j` of a template, counted from 1. -/
def Template.stage (T : Template) (j : Nat) : Option Stage := if j = 0 then none else T.stages[j - 1]?
/-- Put stage `j` back. -/
def Template.setStage (j : Nat) (st : Stage) (T : Template) : Template := { T with stages := listSet (j - 1) st T.stages }
/-- The word of stage `j`; all zeros where there is none. -/
def Template.word (T : Template) (j : Nat) : IWord :=
  match T.stage j with
  | some st => st.word
  | none => 0
/-- The stages that read `w_p`. -/
def Template.readers (T : Template) (p : Nat) : List Nat :=
  (List.range' 1 T.stages.length).filter (fun j => (opnds (T.word j)).any (fun o => o.sel == p + 3))
/-- The key of the internal arc from stage `p` to stage `j`. -/
def innerKey (p j : Nat) : Nat := 16 * p + j
/-- The beats on that arc. -/
def Template.inner (T : Template) (p j : Nat) : List Beat := Assoc.get [] (innerKey p j) T.arcs
/-- Its depth: 2, or the largest rate on it (R131). -/
def innerDepth (modes : Nat → Nat) (T : Template) (p j : Nat) : Nat :=
  let rin := ((opnds (T.word j)).filter (fun o => o.sel == p + 3)).foldl (fun m o => max m o.rate) 1
  max 2 (max (rateOut modes (T.word p)) rin)
/-- Put beats on every arc from stage `p` to its readers. -/
def Template.pushInner (p : Nat) (bs : List Beat) (T : Template) : Template :=
  { T with arcs := (T.readers p).foldl (fun l j => Assoc.set [] (innerKey p j) (Assoc.get [] (innerKey p j) l ++ bs) l) T.arcs }
/-- Every arc from stage `p` has `n` free places. -/
def Template.roomInner (modes : Nat → Nat) (T : Template) (p n : Nat) : Bool :=
  (T.readers p).all (fun j => decide ((T.inner p j).length + n ≤ innerDepth modes T p j))

/-- The chain that runs a template. -/
def Core.chainOf (c : Core) (t : Nat) : Option Chain := c.chains.find? (fun q => q.running && q.tmpl == t)
/-- The local-store address of a chain's memory stream `f` (0 to 3 inputs, 4 and 5 outputs); none for a port stream (R156). -/
def memField (ch : Option Chain) (f : Nat) : Option Nat :=
  match ch with
  | some q => if q.fields.getD f 0xFFFF = 0xFFFF then none else some (q.fields.getD f 0xFFFF)
  | none => none

/-- What the arcs between stage `j` and the stages of `l`, whose firings are known, say of its firings (R132): of its sources the first such
stage, else of its readers. A count is a numerator and a denominator, per firing of stage 1. -/
def arcRatio (modes : Nat → Nat) (T : Template) (l : List (Nat × Nat × Nat)) (j : Nat) : Option (Nat × Nat) :=
  match (opnds (T.word j)).findSome? (fun o => if 4 ≤ o.sel ∧ o.sel < 12 then (Assoc.find (o.sel - 3) l).map (fun p => (o, p)) else none) with
  | some (o, p) => some (p.1 * rateOut modes (T.word (o.sel - 3)), p.2 * o.rate)
  | none => ((opndsOn T j).findSome? (fun q => (Assoc.find q.1 l).map (fun p => (q.2, p)))).map
              (fun q => (q.2.1 * q.1, q.2.2 * rateOut modes (T.word j)))
where
  /-- The stages that read `w_j`, each with the beats it takes. -/
  opndsOn (T : Template) (j : Nat) : List (Nat × Nat) :=
    (List.range' 1 T.stages.length).flatMap (fun i => ((opnds (T.word i)).filter (fun o => o.sel == j + 3)).map (fun o => (i, o.rate)))
/-- Every stage whose firings follow from those known, once. -/
def ratioRound (modes : Nat → Nat) (T : Template) (l : List (Nat × Nat × Nat)) : List (Nat × Nat × Nat) :=
  (List.range' 1 T.stages.length).foldl (fun l j =>
    if (Assoc.find j l).isSome then l
    else match arcRatio modes T l j with
         | some p => l ++ [(j, p)]
         | none => l) l
/-- The firings of every stage in one firing of stage 1 (R132): of those that no arc joins to it, the lowest fires as it does. [DEDUCED, log 14] -/
def ratios (modes : Nat → Nat) (T : Template) : Nat → List (Nat × Nat × Nat) → List (Nat × Nat × Nat)
  | 0, l => l
  | fuel + 1, l =>
    let l1 := ratioRound modes T l
    if l1.length ≠ l.length then ratios modes T fuel l1
    else match (List.range' 1 T.stages.length).find? (fun j => (Assoc.find j l).isNone) with
         | some j => ratios modes T fuel (l ++ [(j, (1, 1))])
         | none => l
/-- The firings of stage `j` in one firing of stage 1: numerator and denominator (R132). [DEDUCED, log 14] -/
def stageRatio (modes : Nat → Nat) (T : Template) (j : Nat) : Nat × Nat := Assoc.get (1, 1) j (ratios modes T 16 [(1, (1, 1))])
/-- The firings of stage `j` in `n` firings of stage 1. [DESIGN CHOICE, log 71] -/
def stageTotal (modes : Nat → Nat) (T : Template) (j n : Nat) : Nat :=
  let q := stageRatio modes T j
  n * q.1 / q.2
/-- The rate product: the least factor that makes every stage's count whole (R132). -/
def rateProduct (modes : Nat → Nat) (T : Template) : Nat :=
  ((List.range' 1 T.stages.length).map (fun j => let q := stageRatio modes T j
                                                 q.2 / Nat.gcd q.1 q.2)).foldl Nat.lcm 1
/-- A sticky-table entry (R173, R191). -/
def Core.table (c : Core) (k : Nat) : Nat := Assoc.get 1 k c.sticky
/-- `beats(f, n)`: the beats of a stream field in `n` stage-1 firings, with sticky fetches (R156, R173); 0 where no stage uses it. [DESIGN CHOICE, log 71] -/
def fieldBeats (c : Core) (T : Template) (f n : Nat) : Nat :=
  (List.range' 1 T.stages.length).foldl (fun m j =>
    let w := T.word j
    if f < 4 then
      match (opnds w).find? (fun o => o.sel == f) with
      | some o =>
        let b := stageTotal c.modes T j n * o.rate
        max m ((b + c.table o.k - 1) / c.table o.k)
      | none => m
    else if (outPorts w).contains (f - 4) then max m (stageTotal c.modes T j n * rateOut c.modes w) else m) 0

/-! ### Coats around a template (R133, R236 to R249) -/

/-- The coat whose template `t` on core `u` belongs to it: the chain's number, the coat's number, and its core. -/
def Region.coatAt (R : Region) (u t : Nat) : Option (Nat × Nat × CoatCore) :=
  (R.coats.flatMap (fun ch => ch.2.coats.flatMap (fun k => k.2.cores.filterMap (fun c =>
    if c.unit = u ∧ c.tmpl = t then some (ch.1, k.1, c) else none)))).head?
/-- Coat `k` of chain `ch`. -/
def Region.coat (R : Region) (ch k : Nat) : Coat := Assoc.get default k (Assoc.get default ch R.coats).coats
/-- Change a coat. -/
def Region.modCoat (ch k : Nat) (f : Coat → Coat) (R : Region) : Region :=
  let C := Assoc.get default ch R.coats
  { R with coats := Assoc.put ch { C with coats := Assoc.put k (f (Assoc.get default k C.coats)) C.coats } R.coats }
/-- The step that coat `k` of a chain produces in its current pass (R249). -/
def CoatChain.step (C : CoatChain) (k : Nat) : Nat := C.pass * C.depth + k
/-- The coat computes in this pass; otherwise beats pass through it (R249). -/
def CoatChain.computes (C : CoatChain) (k : Nat) : Bool := C.running && decide (C.step k ≤ latSteps C.desc.toNat)

/-- The tap values of a firing of block `n` on the head core `u`: none where the tap's cell is not there, zero where the tap is not
valid (R151, R243). -/
def tapValue (R : Region) (ch k : Nat) (c : CoatCore) (n i : Nat) : Option Line :=
  let C := Assoc.get default ch R.coats
  let K := R.coat ch k
  match Assoc.find i c.taps with
  | none => some 0
  | some t => tapLine C.desc.toNat K.cells K.drain K.edgeNow n t

/-- A stage whose firings are tied to a coat's blocks: it reads a tap, or takes no token at all (R240). -/
def blockTied (T : Template) (j : Nat) : Bool :=
  readsTap (T.word j) || (opnds (T.word j)).all (fun o => decide (16 ≤ o.sel))
/-- The stage takes no token from a port or another stage. -/
def sourceless (T : Template) (j : Nat) : Bool := (opnds (T.word j)).all (fun o => decide (16 ≤ o.sel))

/-- The name of a stage among those of a coat's cores. -/
def stageKey (u j : Nat) : Nat := u * 16 + j
/-- A coat lets stage `j` at stream position `n` fire: a stage of a coat's template fires in a computing pass only, and a stage tied to
the blocks only on an admitted block of a pass whose end it has not handled. -/
def coatAllows (R : Region) (u t : Nat) (T : Template) (j n : Nat) : Bool :=
  match R.coatAt u t with
  | none => !readsTap (T.word j)
  | some (ch, k, c) =>
    (Assoc.get default ch R.coats).computes k && (!c.head || !blockTied T j || (decide (n < (R.coat ch k).next) && !(R.coat ch k).ended.contains (stageKey u j)))

/-! ### Operands -/

/-- The token at the head of an input port is resident: it has served a firing (R81). [DEDUCED, log 14] -/
def Stage.resident (st : Stage) (p : Nat) : Bool := Assoc.get 0 p st.served != 0

/-- An operand's tokens are there (R77). -/
def opndReady (R : Region) (u : Nat) (T : Template) (ch : Option Chain) (j : Nat) (o : Opnd) : Bool :=
  if o.sel < 4 then
    match memField ch o.sel with
    | some _ => true
    | none => decide (o.rate ≤ R.tokensIn u o.sel)
  else if o.sel < 12 then decide (o.rate ≤ ((T.inner (o.sel - 3) j).takeWhile Beat.isData).length)
  else true

/-- The operands a firing takes, in the order in which they are read: of a VMERGE, C and the input that C's head beat selects (R153);
of a VSTEER the select first. -/
def liveOpnds (R : Region) (u : Nat) (T : Template) (ch : Option Chain) (j : Nat) (w : IWord) (pick : Option Line) : List Opnd :=
  if wordOp w = 0xA1 then (opnds w).reverse
  else if wordOp w ≠ 0xA2 then opnds w
  else
    match (opnds w)[2]? with
    | none => []
    | some c =>
      if !opndReady R u T ch j c then [c]
      else
        match pick with
        | some l => c :: ((opnds w)[if bit l.toNat 0 then 1 else 0]?).toList
        | none => [c]

/-- A constant operand: `n_k` in every element (R128). [DESIGN CHOICE, log 16] -/
def constLine (f : Fmt) (n : BitVec 32) : Line := lineOf f (rep (beatElems f) n.toNat)

/-- The head beats of an operand that is no memory stream. -/
def opndBeats (R : Region) (u t : Nat) (c : Core) (T : Template) (j n : Nat) (f : Fmt) (o : Opnd) : List Line :=
  if o.sel < 4 then
    match R.inArc u o.sel with
    | some e => (e.2.run.take o.rate).map (fun b => b.data)
    | none => []
  else if o.sel < 12 then ((T.inner (o.sel - 3) j).take o.rate).map (fun b => b.data)
  else if o.sel < 64 then rep o.rate (constLine f (Assoc.get 0 (16 * t + (o.sel - 16)) c.consts))
  else
    match R.coatAt u t with
    | some (ch, k, cc) => (tapValue R ch k cc n (o.sel - 64)).toList
    | none => []

/-- The record of a firing's fault (R176). -/
def firingRec (cause u t : Nat) (st : Stage) : StopRec :=
  { recOf cause 0 u with sub := t, sk := 1, position := toWord st.pos, d0 := st.word }

/-- A memory input reads a new beat: no resident one serves (R173). -/
def memFetches (st : Stage) (o : Opnd) : Bool := !st.resident o.sel
/-- The local-store offsets of the beats that an operand fetches. -/
def fetchOffs (q : Chain) (st : Stage) (o : Opnd) : List Nat :=
  match memField (some q) o.sel with
  | some a =>
    if o.sel < 4 ∧ memFetches st o = true then (List.range o.rate).map (fun i => a + 64 * (Assoc.get 0 o.sel q.rd + i)) else []
  | none => []
/-- Check the local-store blocks at these offsets (R175). -/
def blocksChk (r u : Nat) (x : StopRec) : List Nat → (State → State) → State → State
  | [], k, s => k s
  | a :: t, k, s => readChk r 0 u (a / 8) (a / 8 + 7) a x (fun s => blocksChk r u x t k s) s
/-- Read a 64-byte block of the local store at some moment since `lo` (R159). -/
def readBlock (r u lo a : Nat) (s : State) : Line × State :=
  let (n, s1) := s.draw
  (BitVec.ofNat 512 (ofBytesLE (s1.lmem.readsAt (chooseMoment lo s1.moment n) (lKey r u a) 64)), s1)
/-- Read several blocks. -/
def readBlocks (r u lo : Nat) : List Nat → State → List Line × State
  | [], s => ([], s)
  | a :: t, s =>
    let p := readBlock r u lo a s
    let q := readBlocks r u lo t p.2
    (p.1 :: q.1, q.2)

/-- An operand's beats at the start of a firing. -/
def gather1 (r u t j : Nat) (st : Stage) (f : Fmt) (o : Opnd) (s : State) : List Line × State :=
  let R := s.region r
  let c := R.core u
  let T := Assoc.get default t c.templates
  match c.chainOf t with
  | none => (opndBeats R u t c T j st.pos f o, s)
  | some q =>
    if 4 ≤ o.sel ∨ memField (some q) o.sel = none then (opndBeats R u t c T j st.pos f o, s)
    else if memFetches st o then readBlocks r u q.since (fetchOffs q st o) s
    else ((Assoc.find o.sel q.held).toList.map (fun b => b.data), s)
/-- The beats of several operands; a port or memory stream that stands in two fields is read once (R131). -/
def gather (r u t j : Nat) (st : Stage) : List (Opnd × Fmt) → State → List (Nat × List Line) × State
  | [], s => ([], s)
  | (o, f) :: rest, s =>
    let p := gather1 r u t j st f o s
    let q := gather r u t j st rest p.2
    (if o.sel < 16 then ((o.sel, p.1) :: q.1.filter (fun e => e.1 ≠ o.sel), q.2) else ((o.sel, p.1) :: q.1, q.2))

/-- What an element operation computes from: its word, the beats of its operands, the keyed mix of each lane, VSCAN's carry and the
coat's taps. -/
structure FireIn where
  v : VWord
  a : List Line
  b : Line
  c : Line
  seed : Word
  pos : Nat
  key : Nat
  carry : Word
  /-- the core's tensor scale, FP32 (R277) -/
  scale : BitVec 32
  taps : List (Nat × Line)
deriving Repr

/-- What it computes. -/
structure FireOut where
  outs : List Line
  flags : Flg
  mag : Option (Nat × Nat) := none
  carry : Option Word := none
  steer : Option Nat := none
deriving Repr

/-- The mix of a lane (R60). -/
def FireIn.mix (x : FireIn) (i : Nat) : Nat := mixTop (Sys2Proof.Machine.mix x.seed (toWord x.pos) (toWord i) (toWord x.key))
/-- Source A's first beat. -/
def FireIn.a0 (x : FireIn) : Line := x.a.headD 0

/-- The template key of R60. -/
def tmplKey (u t j : Nat) : Nat := u * 2 ^ 8 + t * 2 ^ 3 + (j - 1)

/-- The output ports that a firing delivers to; a VSTEER's by bit 0 of source B (R153). -/
def firePorts (w : IWord) (steer : Option Nat) : List Nat :=
  if wordOp w = 0xA1 then steer.toList else outPorts w
/-- The firing has its free slots (R77). -/
def outReady (R : Region) (u : Nat) (c : Core) (T : Template) (ch : Option Chain) (j : Nat) (w : IWord) (ports : List Nat) : Bool :=
  ports.all (fun p => (memField ch (4 + p)).isSome || R.roomOut u p (rateOut c.modes w))
    && (wordOp w == 0xA1 || T.roomInner c.modes j (rateOut c.modes w))

/-- The head beat of source field `i`, without fetching: what VMERGE and VSTEER choose by. A memory stream's is the block as it stands
now or the resident beat. -/
def peekField (r u t j : Nat) (st : Stage) (w : IWord) (i : Nat) (s : State) : Option Line :=
  match (opnds w)[i]? with
  | none => none
  | some o => ((gather1 r u t j st (wV w.toNat).ty o s).1).head?

/-- The stage may start a firing of the word `w` (R77), the region running and the stage not saved by a pre-emption (R428). -/
def canFire (w : IWord) (s : State) : Bool :=
  let r := s.cur.region
  let u := s.cur.unit
  let t := s.cur.tmpl
  let j := s.cur.stage
  let R := s.region r
  let c := R.core u
  match Assoc.find t c.templates with
  | none => false
  | some T =>
    match T.stage j with
    | none => false
    | some st =>
      let ch := c.chainOf t
      !R.halt && (T.res || ch.isSome) && st.firing.isNone
        && (match R.preempt with
            | some p => !(p.saved.contains (.stage u t j))
            | none => true)
        && (match ch with
            | some q => !q.short && decide (st.pos < stageTotal c.modes T j q.n)
            | none => true)
        && coatAllows R u t T j st.pos
        && (liveOpnds R u T ch j w (peekField r u t j st w 2 s)).all (opndReady R u T ch j)
        && outReady R u c T ch j w (if wordOp w = 0xA1 then [b2n (bit ((peekField r u t j st w 1 s).getD 0).toNat 0)] else outPorts w)

/-- The beats of a selector among those gathered. -/
def gathered (g : List (Nat × List Line)) (o : Option Opnd) : List Line :=
  match o with
  | some o => Assoc.get [] o.sel g
  | none => []

/-- The selectors and beats that a firing takes, each port and internal arc once (R131). -/
def firingTakes (l : List Opnd) : List (Nat × Nat) :=
  l.foldl (fun acc o => if 16 ≤ o.sel ∨ acc.any (fun p => p.1 / 16 == o.sel) then acc else acc ++ [(o.sel * 16 + o.k, o.rate)]) []

/-- Operations whose effect is formed at the commit: VMAC and VDOT4, VMOV into an accumulator, VNRW from one (R138, R141, R155). -/
def isLate (w : IWord) : Bool := isNrwAcc w || decide (8 ≤ vDest w)

/-- Start a firing of the stage under the cursor: read its operands, compute, and reserve (R78). A constant that is source A of a VCVT or of a
VNRW of streams is taken at the width of the format in which A is read (R128). [DEDUCED, log 14; DESIGN CHOICE, log 73] -/
def recordFiring (w : IWord) (f : FireIn → FireOut) (s : State) : State :=
  let r := s.cur.region
  let u := s.cur.unit
  let t := s.cur.tmpl
  let j := s.cur.stage
  let R := s.region r
  let c := R.core u
  let T := Assoc.get default t c.templates
  match T.stage j with
  | none => s
  | some st =>
    let ch := c.chainOf t
    let live := liveOpnds R u T ch j w (peekField r u t j st w 2 s)
    let fmts := live.map (fun o => (o, if (opnds w)[0]? = some o then vFmtA w else (wV w.toNat).ty))
    let offs := match ch with
                | some q => live.flatMap (fetchOffs q st)
                | none => []
    let ports := (live.filter (fun o => decide (o.sel < 4) && (memField ch o.sel).isNone)).map (fun o => (o.sel, o.rate))
    blocksChk r u { firingRec 0x14 u t st with d0 := 0 } offs (fifosChk r (R.heads u ports) (fun s =>
      let p := gather r u t j st fmts s
      let s1 := p.2
      let x : FireIn :=
        { v := wV w.toNat, a := gathered p.1 (opnds w)[0]?, b := (gathered p.1 (opnds w)[1]?).headD 0,
          c := (gathered p.1 (opnds w)[2]?).headD 0, seed := regionSeed r s1, pos := st.pos, key := tmplKey u t j, carry := st.carry, scale := c.scale,
          taps := match R.coatAt u t with
                  | some (cn, k, cc) => (List.range 64).map (fun i => (i, (tapValue R cn k cc st.pos i).getD 0))
                  | none => [] }
      let y := f x
      let late : Option Late := if isLate w then some { word := w, a := x.a0, b := x.b, scale := c.scale } else none
      let fr : Firing := { takes := firingTakes live, steer := y.steer, outs := y.outs, flags := y.flags, mag := y.mag,
                           carry := y.carry, late := late }
      let held := match ch with
                  | some q => (live.filter (fun o => decide (o.sel < 4) && (memField (some q) o.sel).isSome && decide (o.k ≠ 0))).foldl
                      (fun h o => Assoc.put o.sel (dataBeat ((gathered p.1 (some o)).headD 0)) h) q.held
                  | none => []
      let s2 := s1.modCore r u (fun c =>
        let c1 := { c with templates := Assoc.put t (T.setStage j { st with firing := some fr }) c.templates }
        if ch.isSome then { c1 with chains := c1.chains.map (fun q => if q.running && q.tmpl == t then { q with held := held } else q) }
        else c1)
      match R.coatAt u t with
      | some (cn, k, cc) =>
        if cc.head && blockTied T j then s2.modRegion r (fun R => R.modCoat cn k (fun K => { K with begun := max K.begun (st.pos + 1) })) else s2
      | none => s2)) s

/-- An element operation: the stage under the cursor starts a firing if it may (R77, R78); otherwise nothing happens. [DEDUCED, log 14] -/
def fireStage (op : Nat) (v : VWord) (f : FireIn → FireOut) (s : State) : Host.Outcome State Fault Refusal :=
  if canFire (packV op v) s then nx (recordFiring (packV op v) f s) else nx s

end Sys2Proof.Machine
end

