-- ==== Sys2Proof/Machine/Xform.lean ====
section
/-! DEFINITION. XFORM: transforms of a scratchpad range in its banks (R224, R225). -/

namespace Sys2Proof.Machine

/-- Bytes of an element of 8, 16 or 32 bits. -/
def elemBytes (f : Fmt) : Nat := fmtBits f / 8

/-- A max-magnitude register after one element (R69): FP32 magnitude in bits 30:0, NaN seen in bit 31. -/
def magUpdate (m : Nat) (v : XNum) : Nat :=
  if v.isNaN then (if m < 2 ^ 31 then m + 2 ^ 31 else m)
  else
    let c := (encodeNum .fp32 false .rp false 0 (if v.neg then v.negate else v)).1
    if m % 2 ^ 31 < c then m / 2 ^ 31 * 2 ^ 31 + c else m

/-- The operands of XFORM are refused (R224, R225): a count out of range, a misaligned start, a range that leaves its MU or
touches a borrowed one, or a conversion between widths. -/
def xformBad (cmd : XCmd) (f : Fmt) (a n : Nat) (s : State) : Bool :=
  let w := elemBytes f
  n == 0 || decide (2 ^ 20 < n * w) || decide (a % w ≠ 0) || decide (0x3FFFFF < a)
    || decide (a / 2 ^ 20 ≠ (a + n * w - 1) / 2 ^ 20) || borrowed s.hereR s.hereCl a (n * w)
    || (match cmd with
        | .cvt d => decide (fmtBits d ≠ fmtBits f)
        | _ => false)

/-- XFORM's common course: checks, then the transform is under way and the slot waits; its answer completes the word (R225). -/
def xformWord (cmd : XCmd) (f : Fmt) (rnd : Rnd) (sat : Bool) (g : Guard) (d : Reg) (a b c : Src) (srcs : List Src) (s : State) :
    Host.Outcome State Fault Refusal :=
  issue g srcs [d] (fun s =>
    match s.here.prog with
    | .answered v fl => doneFl d v fl s
    | _ =>
      let addr := (rv s a).toNat
      let n := (rv s b).toNat
      if xformBad cmd f addr n s then failSpace (rv s a) s
      else
        let (id, s1) := s.takeId s.cur.region
        let x : Xform := { id := id, unit := s.cur.unit, slot := s.cur.slot, cmd := cmd, fmt := f, rnd := rnd, sat := sat,
                           addr := addr, n := n, v := rv s c }
        parkAt (.xform id) .accepted (s1.modHereR (fun R => { R with xforms := R.xforms ++ [x] }))) s

/-- XFORM cvt (R225). -/
def execXformCvt (g : Guard) (d : Reg) (a b : Src) (fmt dfmt : Fmt) (rnd : Rnd) (sat : Bool) (s : State) :
    Host.Outcome State Fault Refusal :=
  xformWord (.cvt dfmt) fmt rnd sat g d a b { r := 0, et := false } [a, b] s
/-- XFORM scale (R225). -/
def execXformScale (g : Guard) (d : Reg) (a b c : Src) (fmt : Fmt) (rnd : Rnd) (sat : Bool) (s : State) :
    Host.Outcome State Fault Refusal :=
  xformWord .scale fmt rnd sat g d a b c [a, b, c] s
/-- XFORM fill (R225). [DESIGN CHOICE, log 72] -/
def execXformFill (g : Guard) (d : Reg) (a b c : Src) (fmt : Fmt) (sat : Bool) (s : State) : Host.Outcome State Fault Refusal :=
  xformWord .fill fmt .rne sat g d a b c [a, b, c] s
/-- XFORM add (R225). -/
def execXformAdd (g : Guard) (d : Reg) (a b c : Src) (fmt : Fmt) (rnd : Rnd) (sat : Bool) (s : State) :
    Host.Outcome State Fault Refusal :=
  xformWord .add fmt rnd sat g d a b c [a, b, c] s
/-- XFORM amax (R225). [DESIGN CHOICE, log 72] -/
def execXformAmax (g : Guard) (d : Reg) (a b : Src) (fmt : Fmt) (sat : Bool) (s : State) : Host.Outcome State Fault Refusal :=
  xformWord .amax fmt .rne sat g d a b { r := 0, et := false } [a, b] s

/-- One element of a transform: its new code and the flags (R225). -/
def xformElem (x : Xform) (u : Nat) (e : Nat) : Nat × Flg :=
  let v := decodeNum x.fmt e
  match x.cmd with
  | .cvt d => convert d x.fmt x.rnd x.sat u e
  | .scale =>
    let p := numMul v (decodeNum .fp32 (x.v.toNat % 2 ^ 32))
    let r := encodeNum x.fmt (fmtInt x.fmt) x.rnd x.sat u p.1
    (r.1, p.2 ||| r.2)
  | .fill => (x.v.toNat % 2 ^ fmtBits x.fmt, flNone)
  | .add =>
    let p := numSum [v, decodeNum x.fmt (x.v.toNat % 2 ^ fmtBits x.fmt)]
    let r := encodeNum x.fmt (fmtInt x.fmt) x.rnd x.sat u p.1
    (r.1, p.2 ||| r.2)
  | .amax => (e, flNone)

/-- The bytes of a range cut into elements. -/
def chunks (w : Nat) : Nat → List Byte → List Nat
  | 0, _ => []
  | n + 1, l => ofBytesLE (l.take w) :: chunks w n (l.drop w)

/-- The keyed mix of element `i` of a range (R225). -/
def xformMix (seed : Word) (x : Xform) (i : Nat) : Nat := mixTop (mix seed (toWord i) 0 (toWord (2 ^ 33 + x.addr)))

/-- The whole range transformed: the new codes, the flags, and the greatest magnitude. -/
def xformAll (seed : Word) (x : Xform) (l : List Nat) : List Nat × Flg × Nat :=
  let rs := (l.zipIdx).map (fun p => xformElem x (xformMix seed x p.2) p.1)
  (rs.map (fun r => r.1), rs.foldl (fun f r => f ||| r.2) flNone, l.foldl (fun m e => magUpdate m (decodeNum x.fmt e)) 0)

/-- Carry a transform out at its banks: the range at one moment, then the answer to its slot (R225). [DESIGN CHOICE, log 10] -/
def xformPerform (r : Nat) (x : Xform) (s : State) : State :=
  let w := elemBytes x.fmt
  let cl := uCl x.unit
  let seed := match s.ctxOf (s.region r) with
              | some c => c.seed
              | none => 0
  let rec0 : StopRec := { recOf 0 1 (mkUnit cl 1 (x.addr / 2 ^ 20)) with sub := x.slot }
  let go : State → State := fun s =>
    let l := chunks w x.n (s.sRead r cl x.addr (x.n * w))
    let t := xformAll seed x l
    let s1 := match x.cmd with
              | .amax => s
              | _ => s.sWrite r cl x.addr (t.1.flatMap (fun e => bytesLE w e))
    let v := match x.cmd with
             | .amax => toWord t.2.2
             | _ => 0
    (s1.modRegion r (fun R => { R with xforms := R.xforms.filter (fun y => y.id ≠ x.id) })).modSlot r x.unit x.slot
      (fun sl => { sl with prog := .answered v t.2.1 })
  if x.cmd = .fill then go s else readChk r 6 cl (x.addr / 8) ((x.addr + x.n * w - 1) / 8) (x.addr / 8 * 8) rec0 go s

/-- XFORM_COMPLETE: the transform of slot `k` of core `u` is done at its banks and the slot receives its status and flags (R225). [DESIGN CHOICE, log 10] -/
def execXformComplete (r u k : Nat) (s : State) : Host.Outcome State Fault Refusal :=
  let R := s.region r
  if R.halt then nx s
  else
    match R.xforms.find? (fun x => decide (x.unit = u) && decide (x.slot = k)) with
    | none => nx s
    | some x => nx (xformPerform r x s)

end Sys2Proof.Machine
end

