-- ==== Sys2Proof/Machine/Commit.lean ====
section
/-! DEFINITION. The commit of a firing (R78), accumulators (R138, R141, R154, R155, R161), ends of invocation (R80), header beats (R67), and
the steer and merge nodes of a switch (R202, R203). -/

namespace Sys2Proof.Machine

/-! ### Accumulators -/

/-- The elements of an entry at its mode (R161). -/
def AccEntry.elems (e : AccEntry) : List Nat :=
  let m := e.mode.toNat
  (List.range (accCount m)).map (fun i => e.bits.toNat / 2 ^ (accWidth m * i) % 2 ^ accWidth m)
/-- An entry of these elements. -/
def accOf (m : Nat) (l : List Nat) : AccEntry :=
  { mode := BitVec.ofNat 3 m, bits := BitVec.ofNat 2048 (packElems (accWidth m) l) }
/-- The value of an element. [DESIGN CHOICE, log 16] -/
def accDecode (m x : Nat) : XNum :=
  if accInt m then numOfInt (sextN (accWidth m) x) else decodeNum (if accWidth m = 64 then .fp64 else .fp32) x
/-- The element of a value. [DESIGN CHOICE, log 16] -/
def accEncode (m : Nat) (rnd : Rnd) (sat : Bool) (u : Nat) (v : XNum) : Nat × Flg :=
  if accInt m then encodeInt (accWidth m) true true rnd sat u v
  else encodeNum (if accWidth m = 64 then .fp64 else .fp32) false rnd sat u v

/-- The terms that a firing brings to accumulator elements: the element, its terms and the flags of forming them (R141, R155). -/
def lateTerms (L : Late) : List (Nat × List XNum × Flg) :=
  let v := wV L.word.toNat
  let xs := (elemsOf v.ty L.a).map (decodeNum v.ty)
  let ps := (xs.zip ((elemsOf v.ty L.b).map (decodeNum v.ty))).map (fun p => numMul p.1 p.2)
  if wordOp L.word = 0xA4 then (xs.zipIdx).map (fun p => (p.2, [p.1], flNone))
  else if wordOp L.word = 0x84 then (ps.zipIdx).map (fun p => (p.2, [p.1.1], p.1.2))
  else
    let e := xs.length / 4
    (List.range e).map (fun g =>
      let l := (ps.drop (4 * g)).take 4
      (v.fn.toNat % 4 * e + g, l.map (fun p => p.1), l.foldl (fun f p => f ||| p.2) flNone))

/-- One accumulator element updated: accumulate adds to it, overwrite does not (R141, R155). [DESIGN CHOICE, log 66] -/
def lateElem (x : FireIn) (acc : Bool) (m : Nat) (L : Late) (old : List Nat) (t : Nat × List XNum × Flg) : Nat × Nat × Flg :=
  let v := wV L.word.toNat
  let terms := if acc then t.2.1 ++ [accDecode m (old.getD t.1 0)] else t.2.1
  let p := numSum terms
  let q := accEncode m v.rnd v.sat (x.mix t.1) p.1
  (t.1, q.1, if wordOp L.word = 0xA4 ∧ acc = false then flNone else t.2.2 ||| p.2 ||| q.2)

/-- The bytes of an entry that a firing reads or writes: VDOT4's quarter, else every element of the mode (R141, R161). -/
def lateSpan (L : Late) : Nat × Nat :=
  let v := wV L.word.toNat
  let n := accCount (accModeOf v.ty) * accWidth (accModeOf v.ty) / 8
  if wordOp L.word = 0x85 then (v.fn.toNat % 4 * (n / 4), n / 4) else (0, n)
/-- Accumulator `n` after a firing that writes it, and the flags; none where an accumulate finds another mode (R138). [DESIGN CHOICE, log 16] -/
def lateWrite (x : FireIn) (L : Late) (e : AccEntry) : Option (AccEntry × Flg) :=
  let m := accModeOf (wV L.word.toNat).ty
  let acc := decide (vDest L.word < 16)
  if acc && decide (e.mode.toNat ≠ m) then none
  else
    let old := if e.mode.toNat = m then e.elems else rep (accCount m) 0
    let l := (lateTerms L).map (lateElem x acc m L old)
    some (accOf m (l.foldl (fun o u => listSet u.1 u.2.1 o) old), l.foldl (fun f u => f ||| u.2.2) flNone)

/-- The beats that VNRW makes of an entry: scaled and rounded once (R68, R154). -/
def lateRead (x : FireIn) (L : Late) (e : AccEntry) : List Line × Flg :=
  let v := wV L.word.toNat
  let m := e.mode.toNat
  let n := beatElems v.ty
  let t : XNum := if v.fn.getLsbD 4 then .fin false 1 1 else decodeNum .fp32 L.scale.toNat
  let xs := e.elems.map (accDecode m) ++ rep (n - accCount m) (.zero false)
  let ys := (xs.zipIdx).map (fun p =>
    let q := numMul p.1 t
    let y := encodeNum v.ty (accInt m) v.rnd v.sat (x.mix p.2) q.1
    (y.1, q.2 ||| y.2))
  ((cutBeats n 64 (ys.map (fun y => y.1))).1.map (lineOf v.ty), ys.foldl (fun f y => f ||| y.2) flNone)

/-! ### The commit -/

/-- What a commit works on: the region, the template, the stage and the chain. -/
structure Work where
  R : Region
  T : Template
  st : Stage
  ch : Option Chain

/-- Take the beats of one selector (R78, R81, R173). -/
def takeOne (u j : Nat) (c : Core) (x : Nat × Nat) (w : Work) : Work :=
  let sel := x.1 / 16
  let k := x.1 % 16
  if sel < 4 then
    let n := Assoc.get 0 sel w.st.served + 1
    if k ≠ 0 ∧ n < c.table k then { w with st := { w.st with served := Assoc.put sel n w.st.served } }
    else
      let w1 := { w with st := { w.st with served := Assoc.erase sel w.st.served } }
      match memField w.ch sel, w.ch with
      | some _, some q => { w1 with ch := some { q with rd := Assoc.put sel (Assoc.get 0 sel q.rd + x.2) q.rd, held := Assoc.erase sel q.held } }
      | _, _ => { w1 with R := w.R.popIn u sel x.2 }
  else
    let p := sel - 3
    { w with T := { w.T with arcs := Assoc.set [] (innerKey p j) ((w.T.inner p j).drop x.2) w.T.arcs } }

/-- What becomes of the last beat that a firing delivers to a port (R286): it is like every other, carries eor, or is kept back. -/
inductive LastBeat where
  | plain
  | eor
  | keep
deriving DecidableEq, Repr

/-- The beats that an output port carries now. -/
def portBeats (m : LastBeat) (ls : List Line) : List Beat :=
  let bs := ls.map plainBeat
  match m with
  | .plain => bs
  | .eor => bs.dropLast ++ (bs.getLast?.map Beat.withEor).toList
  | .keep => bs.dropLast

/-- Every stage of a running chain that reads a port stream, but for stage `j`, has made its last firing or has started it: the chain reaches
its count (R157, R286). -/
def countSure (c : Core) (T : Template) (q : Chain) (j : Nat) : Bool :=
  (List.range' 1 T.stages.length).all (fun i =>
    match T.stage i with
    | some st => i == j || ((inPorts st.word).all (fun p => (memField (some q) p).isSome))
        || decide (stageTotal c.modes T i q.n ≤ st.pos + b2n st.firing.isSome)
    | none => true)
/-- The last beat of stage `j`'s firing at position `pos` (R286): a chain that ends with eoi sets eor on the last beat of each port, but a
chain that ends short on none. -/
def lastBeat (c : Core) (T : Template) (ch : Option Chain) (j pos : Nat) : LastBeat :=
  match ch with
  | some q =>
    if q.eoi && decide (pos + 1 = stageTotal c.modes T j q.n) then (if countSure c T q j then .eor else .keep) else .plain
  | none => .plain

/-- A coat's last core has emitted `n` blocks. -/
def coatEmits (u t p n : Nat) (R : Region) : Region :=
  match R.coatAt u t with
  | some (ch, k, c) => if c.last ∧ c.oport = p then R.modCoat ch k (fun K => { K with emitted := K.emitted + n }) else R
  | none => R

/-- Write beats to the local store, 64 bytes each (R157). -/
def writeBlocks (r u : Nat) : Nat → List Line → State → State
  | _, [], s => s
  | a, l :: t, s => writeBlocks r u (a + 64) t (s.lWrite r u a (bytesLE 64 l.toNat))

/-- Merge a firing's greatest magnitude into a register (R69). -/
def magMerge (m c : BitVec 32) : BitVec 32 :=
  let lo := if m.toNat % 2 ^ 31 < c.toNat % 2 ^ 31 then c else m
  BitVec.ofNat 32 (lo.toNat % 2 ^ 31) ||| ((m ||| c) &&& 0x80000000)

/-- A firing's outputs, flags and registers become visible, and its tokens are popped (R78). -/
def finishFiring (r u t j : Nat) (f : Firing) (outs : List Line) (fl : Flg) (s : State) : State :=
  let R := s.region r
  let c := R.core u
  let T := Assoc.get default t c.templates
  match T.stage j with
  | none => s
  | some st =>
    let w0 : Work := { R := R, T := T, st := st, ch := c.chainOf t }
    let w := f.takes.foldl (fun w x => takeOne u j c x w) w0
    let last := lastBeat c T w.ch j st.pos
    let ports := firePorts st.word f.steer
    let arcs := ports.filter (fun p => (memField w.ch (4 + p)).isNone)
    let mems := ports.filterMap (fun p => (memField w.ch (4 + p)).map (fun a => (p, a)))
    let R1 := arcs.foldl (fun R p => coatEmits u t p outs.length (R.pushOut u p (portBeats last outs))) w.R
    let T1 := if wordOp st.word = 0xA1 then w.T else w.T.pushInner j (outs.map dataBeat)
    let mags := match f.mag with
                | some (i, v) => listSet i (magMerge (T1.mags.getD i 0) (BitVec.ofNat 32 v)) T1.mags
                | none => T1.mags
    let st1 := { w.st with pos := st.pos + 1, carry := f.carry.getD st.carry, firing := none }
    let T2 := { T1.setStage j st1 with flags := T1.flags ||| fl, mags := mags }
    let kept := if last = .keep then arcs.flatMap (fun p => (outs.getLast?.map (fun l => (p, plainBeat l))).toList) else []
    let q1 := w.ch.map (fun q => { q with flags := q.flags ||| fl, kept := q.kept ++ kept,
                                          wr := mems.foldl (fun m p => Assoc.put p.1 (Assoc.get 0 p.1 m + outs.length) m) q.wr })
    let c1 := { c with templates := Assoc.put t T2 c.templates,
                       chains := match q1 with
                                 | some q' => c.chains.map (fun q => if q.running && q.tmpl == t then q' else q)
                                 | none => c.chains }
    let s1 := s.setRegion r (R1.setCore u c1)
    mems.foldl (fun s p => writeBlocks r u (p.2 + 64 * (match w.ch with
                                                        | some q => Assoc.get 0 p.1 q.wr
                                                        | none => 0)) outs s) s1

/-- The operands of the mixes of a commit (R60). -/
def commitIn (r u t j : Nat) (st : Stage) (L : Late) (s : State) : FireIn :=
  { v := wV L.word.toNat, a := [L.a], b := L.b, c := 0, seed := regionSeed r s, pos := st.pos, key := tmplKey u t j, carry := st.carry,
    scale := L.scale, taps := [] }

/-- The commit of a firing that writes an accumulator (R138, R141, R155). [DEDUCED, log 14] -/
def commitWrite (r u t j : Nat) (st : Stage) (f : Firing) (L : Late) (n : Nat) (s : State) : State :=
  let c := s.core r u
  match lateWrite (commitIn r u t j st L s) L (Assoc.get AccEntry.init n c.accs) with
  | none => raise r (firingRec 0x03 u t st) s
  | some (e, fl) =>
    let same := decide ((Assoc.get AccEntry.init n c.accs).mode = e.mode)
    let p := if same then lateSpan L else (0, 256)
    let s1 := s.modCore r u (fun c => { c with accs := Assoc.put n e c.accs })
    finishFiring r u t j f [] fl { s1 with errors := clearErr r 2 u (256 * n + p.1) p.2 s1.errors }

/-- The commit of a VNRW that reads an accumulator: it waits where its beats find no room. [DEDUCED, log 14] -/
def commitRead (r u t j : Nat) (st : Stage) (f : Firing) (L : Late) (n : Nat) (s : State) : State :=
  let R := s.region r
  let c := R.core u
  let T := Assoc.get default t c.templates
  if outReady R u c T (c.chainOf t) j st.word (outPorts st.word) then
    let y := lateRead (commitIn r u t j st L s) L (Assoc.get AccEntry.init n c.accs)
    finishFiring r u t j f y.1 y.2 s
  else s

/-- Read the words of these bytes of accumulator `n`, then go on (R175). -/
def accChk (r u n : Nat) (p : Nat × Nat) (x : StopRec) (k : State → State) (s : State) : State :=
  readChk r 2 u (32 * n + p.1 / 8) (32 * n + (p.1 + p.2) / 8 - 1) (256 * n + p.1) x k s
/-- NODE_FIRING_COMMIT: the firing that stage `j` of template `t` has started commits (R78). [DEDUCED, log 14] -/
def execNodeFiringCommit (r u t j : Nat) (s : State) : Host.Outcome State Fault Refusal :=
  let R := s.region r
  if R.halt then nx s
  else
    match (Assoc.find t (R.core u).templates).bind (fun T => T.stage j) with
    | none => nx s
    | some st =>
      match st.firing with
      | none => nx s
      | some f =>
        match f.late with
        | none => nx (finishFiring r u t j f f.outs f.flags s)
        | some L =>
          let x := { firingRec 0x14 u t st with d0 := 0 }
          match accWritten L.word, accRead L.word with
          | some n, _ =>
            let m := (Assoc.get AccEntry.init n (s.core r u).accs).mode.toNat
            if vDest L.word < 16 ∧ m = accModeOf (wV L.word.toNat).ty then
              nx (accChk r u n (lateSpan L) x (commitWrite r u t j st f L n) s)
            else nx (commitWrite r u t j st f L n s)
          | none, some n =>
            let m := (Assoc.get AccEntry.init n (s.core r u).accs).mode.toNat
            nx (accChk r u n (0, accCount m * accWidth m / 8) x (commitRead r u t j st f L n) s)
          | none, none => nx (finishFiring r u t j f f.outs f.flags s)

/-! ### Ends of invocation (R80, R134) -/

/-- A list's values, each once. -/
def uniq (l : List Nat) : List Nat := l.foldr (fun x t => if t.contains x then t else x :: t) []

/-- The header beats that stand directly behind a resident token of port `p`: they reach the head only with the end of the token's residence. -/
def markHeaders (R : Region) (u : Nat) (st : Stage) (p : Nat) : List Beat :=
  match st.resident p, R.inArc u p with
  | true, some (_, a) => (a.fifo.drop 1).takeWhile (fun b => b.hdr && !b.marker)
  | _, _ => []
/-- The place of a marker that has reached the head of port `p`: behind a resident token, if there is one, and the headers that follow it. [DEDUCED, log 15] -/
def stageMarkAt (R : Region) (u : Nat) (st : Stage) (p : Nat) : Nat :=
  if st.resident p then 1 + (markHeaders R u st p).length else 0
/-- The headers that a stage takes with the markers of these ports have the right layout (R67). [DEDUCED, log 15] -/
def markHeadersOk (R : Region) (u : Nat) (st : Stage) (ps : List Nat) : Bool := ps.all (fun p => (markHeaders R u st p).all headerOk)

/-- The internal arcs that bring markers to stage `j`: those from stages that take tokens, or, in a coat's head, from any stage. A stage that
reads constants alone handles no end of invocation, and its readers wait for no marker of its (R80, R134). [DESIGN CHOICE, log 73] -/
def markedInner (coat : Bool) (T : Template) (j : Nat) : List Nat :=
  (uniq (((opnds (T.word j)).filter (fun o => decide (4 ≤ o.sel) && decide (o.sel < 12))).map (fun o => o.sel - 3))).filter
    (fun p => coat || !sourceless T p)

/-- Stage `j` takes part in an end of invocation: a marker comes to one of its inputs, or the drain of the coat's blocks is its marker. -/
def meetsEoi (R : Region) (u t : Nat) (T : Template) (j : Nat) (st : Stage) : Bool :=
  let head := match R.coatAt u t with
              | some (_, _, c) => c.head
              | none => false
  (head && blockTied T j) || !(uniq (inPorts st.word)).isEmpty || !(markedInner head T j).isEmpty
/-- Every input of stage `j` has an eoi marker at its head (R80). A stage tied to a coat's blocks has one where the coat has drained and
the stage has fired on every block of the pass. [DEDUCED, log 15] -/
def eoiReady (R : Region) (u t : Nat) (T : Template) (j : Nat) (st : Stage) : Bool :=
  let co := R.coatAt u t
  let head := match co with
              | some (_, _, c) => c.head
              | none => false
  let ports := uniq (inPorts st.word)
  let inner := markedInner head T j
  let tied := head && blockTied T j
  meetsEoi R u t T j st
    && ports.all (fun p => R.eoiIn u p (stageMarkAt R u st p))
    && inner.all (fun p => match T.inner p j with
                           | b :: _ => b.eoi
                           | [] => false)
    && (!tied || (match co with
                  | some (ch, k, _) => (R.coat ch k).drain && !(R.coat ch k).ended.contains (stageKey u j)
                      && decide (st.pos = latticeBlocks (Assoc.get default ch R.coats).desc.toNat)
                  | none => false))

/-- The m registers that a stage's invocation owns: that of a VAMAX (R69, R148). -/
def magsReset (w : IWord) (l : List (BitVec 32)) : List (BitVec 32) :=
  if wordOp w = 0x97 then listSet ((wV w.toNat).fn.toNat % 4) 0 l else l

/-- A stage of a coat has handled the pass's end of invocation. [DEDUCED, log 15] -/
def coatEoi (u t j : Nat) (ports : List Nat) (R : Region) : Region :=
  match R.coatAt u t with
  | some (ch, k, c) =>
    R.modCoat ch k (fun K => { K with fin := K.fin || (c.last && ports.contains c.oport),
                                      ended := stageKey u j :: K.ended })
  | none => R

/-- A stage handles an end of invocation as one action (R80); a header of a wrong layout behind a resident token is SPACE (R67). [DEDUCED, log 15] -/
def eoiStage (r u t j : Nat) (s : State) : State :=
  let R := s.region r
  let c := R.core u
  match Assoc.find t c.templates with
  | none => s
  | some T =>
    match T.stage j with
    | none => s
    | some st =>
      let ports := outPorts st.word
      let saved := match R.preempt with
                   | some p => p.saved.contains (.stage u t j)
                   | none => false
      if T.res && st.firing.isNone && !saved && eoiReady R u t T j st && ports.all (R.roomOutMark u) && T.roomInner c.modes j 1 then
        fifosChk r (R.heads u ((uniq (inPorts st.word)).map (fun p => (p, stageMarkAt R u st p + 1)))) (fun s =>
        let R := s.region r
        if !markHeadersOk R u st (uniq (inPorts st.word)) then raise r (firingRec 0x03 u t st) s else
        let R1 := ((uniq (inPorts st.word)).foldl (fun R' p => R'.popIn u p (stageMarkAt R u st p + 1)) R).unlatchAll u (inPorts st.word)
        let R2 := ports.foldl (fun R p => R.pushOut u p [eoiBeat]) R1
        let inner := markedInner (match R.coatAt u t with
                                  | some (_, _, cc) => cc.head
                                  | none => false) T j
        let T1 := { T with arcs := inner.foldl (fun l p => Assoc.set [] (innerKey p j) ((T.inner p j).drop 1) l) T.arcs,
                           mags := magsReset st.word T.mags }
        let T2 := (T1.setStage j { st with pos := 0, carry := 0, served := [] }).pushInner j [eoiBeat]
        s.setRegion r (coatEoi u t j ports (R2.setCore u { c with templates := Assoc.put t T2 c.templates }))) s
      else s

/-! ### Steer and merge nodes (R202, R203) -/

/-- Node `j` of the switch `u`. -/
def Region.node (R : Region) (u j : Nat) : Option SwitchNode := Assoc.find (arcKey u j) R.nodes
/-- The data inputs of a node. -/
def nodeIns (j : Nat) (x : SwitchNode) : List Nat := if x.merge then List.range' (8 * j) (x.n + 1) else [8 * j]
/-- The outputs of a node. -/
def nodeOuts (j : Nat) (x : SwitchNode) : List Nat := if x.merge then [8 * j] else List.range' (8 * j) (x.n + 1)
/-- The stop record of a node (R67, R203). -/
def nodeRec (u j : Nat) (d0 : Word) : StopRec := { recOf 0x03 5 u with sub := j, sk := 3, d0 := d0 }

/-- Read the entry of node `j` of the switch `u`, then go on (R207). -/
def nodeChk (r u j : Nat) (k : State → State) (s : State) : State :=
  readChk r 5 u (64 + j) (64 + j) j { recOf 0x14 5 u with sub := j, sk := 3 } k s
/-- A node handles an end of invocation over every used port (R203). -/
def eoiNode (r u j : Nat) (s : State) : State :=
  let R := s.region r
  match R.node u j with
  | none => s
  | some x =>
    let ins := nodeIns j x ++ [8 * j + 4]
    if ins.all (fun p => R.eoiIn u p 0) && (nodeOuts j x).all (R.roomOutMark u) then
      nodeChk r u j (fifosChk r (R.headOf u ins) (fun s => s.modRegion r (fun R =>
        (nodeOuts j x).foldl (fun R p => R.pushOut u p [eoiBeat]) ((ins.foldl (fun R p => R.popIn u p 1) R).unlatchAll u ins)))) s
    else s

/-- The select value at a node's head, if a token is there. -/
def nodeSelect (R : Region) (u j : Nat) : Option Nat :=
  match R.headIn u (8 * j + 4) with
  | some b => if b.isData then some (b.data.toNat % 4) else none
  | none => none

/-- A node moves the head beat of input `i` to output `o` and takes its select (R203). -/
def nodeMove (r u j i o : Nat) (s : State) : State :=
  let R := s.region r
  match R.headIn u i with
  | none => s
  | some b =>
    if b.isData && R.roomOut u o 1 then
      nodeChk r u j (fifosChk r (R.headOf u [i, 8 * j + 4]) (fun s => s.modRegion r (fun R =>
        ((R.popIn u i 1).popIn u (8 * j + 4) 1).pushOut u o [b]))) s
    else s

/-- A select value that names no path is SPACE at the node (R203), once its words have been read (R207). -/
def badSelect (r u j q : Nat) (s : State) : State :=
  nodeChk r u j (fifosChk r ((s.region r).headOf u [8 * j + 4]) (fun s => raise r (nodeRec u j (toWord q)) s)) s
/-- A switch's node may move: it exists with this kind, and the region runs. -/
def nodeOf (R : Region) (merge : Bool) (u j : Nat) : Option SwitchNode :=
  match R.node u j with
  | some x => if R.halt || x.merge != merge || (match R.preempt with
                                               | some p => p.saved.contains (.switch u j)
                                               | none => false) then none else some x
  | none => none

/-- STEER_NODE_FIRING: a steer node pushes its data beat to the selected path (R203). -/
def execSteerNodeFiring (r u j : Nat) (s : State) : Host.Outcome State Fault Refusal :=
  let R := s.region r
  match nodeOf R false u j with
  | none => nx s
  | some x =>
    match nodeSelect R u j with
    | none => nx s
    | some q =>
      if x.n < q then (if R.tokensIn u (8 * j) = 0 then nx s else nx (badSelect r u j q s))
      else nx (nodeMove r u j (8 * j) (8 * j + q) s)

/-- MERGE_NODE_FIRING: a merge node delivers the beat of the selected input (R203). -/
def execMergeNodeFiring (r u j : Nat) (s : State) : Host.Outcome State Fault Refusal :=
  let R := s.region r
  match nodeOf R true u j with
  | none => nx s
  | some x =>
    match nodeSelect R u j with
    | none => nx s
    | some q =>
      if x.n < q then nx (badSelect r u j q s) else nx (nodeMove r u j (8 * j + q) (8 * j) s)

end Sys2Proof.Machine
end

