-- ==== Sys2Proof/Machine/Chain.lean ====
section
/-! DEFINITION. Issued chains: CHAIN and CWAIT (R156 to R158), the start and the end of a chain (R157, R164, R174). -/

namespace Sys2Proof.Machine

/-- The stages of a template share one with another's (R130). -/
def stagesMeet (a b : Template) : Bool := decide (a.base < b.base + b.len) && decide (b.base < a.base + a.len)
/-- The accumulators that a template writes. -/
def Template.writes (T : Template) : List Nat := T.stages.filterMap (fun st => accWritten st.word)
/-- The accumulators that a template writes or reads. -/
def Template.touches (T : Template) : List Nat := T.writes ++ T.stages.filterMap (fun st => accRead st.word)
/-- The stream fields that a template uses: 0 to 3 its inputs, 4 and 5 its outputs. -/
def Template.fieldsUsed (T : Template) : List Nat :=
  uniq (T.stages.flatMap (fun st => inPorts st.word ++ (outPorts st.word).map (fun p => p + 4)))
/-- The resident templates of a core. -/
def Core.residents (c : Core) : List Template := (c.templates.filter (fun e => e.2.res)).map (fun e => e.2)

/-- The six stream fields of a descriptor's 16 bytes. -/
def chainFields (d : Nat) : List Nat := (List.range 6).map (fun i => d / 2 ^ (16 * i) % 2 ^ 16)

/-- A stream field breaks R156. -/
def fieldBad (c : Core) (T : Template) (n f x : Nat) : Bool :=
  if !T.fieldsUsed.contains f then x != 0xFFFF
  else if x = 0xFFFF then c.residents.any (fun q => q.fieldsUsed.contains f)
  else decide (x % 64 ≠ 0) || decide (2 ^ 16 < x + 64 * fieldBeats c T f n)

/-- The template may not run, or the descriptor or the count breaks R156 or R164. [DESIGN CHOICE, log 71] -/
def chainBad (c : Core) (T : Template) (d n : Nat) : Bool :=
  decide (d / 2 ^ 96 ≠ 0) || n == 0 || decide (2 ^ 20 < n) || decide (n % rateProduct c.modes T ≠ 0)
    || c.residents.any (fun q => stagesMeet T q || T.writes.any (fun a => q.writes.contains a))
    || ((chainFields d).zipIdx).any (fun x => fieldBad c T n x.2 x.1)

/-- CHAIN: checks an issued template and queues it; its ticket is the status (R156). [DESIGN CHOICE, log 71] -/
def execChain (g : Guard) (d : Reg) (a b : Src) (t : Tmpl) (eoi : Bool) (s : State) : Host.Outcome State Fault Refusal :=
  onCompute (issue g [a, b] [d] (fun s =>
    let c := s.hereC
    let addr := (rv s a).toNat
    let n := (rv s b).toNat
    match Assoc.find t.toNat c.templates with
    | none => failSpace (rv s a) s
    | some T =>
      if T.res ∨ addr % 16 ≠ 0 ∨ 0xFFF0 < addr then failSpace (rv s a) s
      else
        readChk s.cur.region 0 s.cur.unit (addr / 8) (addr / 8 + 1) addr (slotRec 0x14 0 0 0 s) (fun s =>
          let desc := ofBytesLE (s.lRead s.cur.region s.cur.unit addr 16)
          if chainBad c T desc n then failSpace (rv s a) s
          else if 4 ≤ c.chains.length then park .chainQueue s
          else
            let q : Chain := { tmpl := t.toNat, fields := chainFields desc, n := n, eoi := eoi, ticket := c.nextTicket % 2 ^ 16,
                               running := false, since := s.moment, rd := [], wr := [], held := [], kept := [], short := false, flags := 0 }
            done d (toWord (c.nextTicket % 2 ^ 16))
              (s.modHereC (fun c => { c with chains := c.chains ++ [q], nextTicket := c.nextTicket + 1 }))) s)) s

/-- CWAIT, function 0: waits for a chain and every earlier one, and returns its status word (R158). Once 2^16 tickets or more have been issued a
ticket outside the window is an older one, none not yet issued. [DESIGN CHOICE, log 73] -/
def execCwait (g : Guard) (d : Reg) (a : Src) (s : State) : Host.Outcome State Fault Refusal :=
  onCompute (issue g [a] [d] (fun s =>
    let c := s.hereC
    let t := (rv s a).toNat
    let back := age (c.nextTicket + 2 ^ 16 - 1) t
    if 2 ^ 16 ≤ t ∨ c.nextTicket ≤ back then failSpace 0 s
    else if 2 ^ 15 ≤ back then done d 0 s
    else if c.chains.any (fun q => decide (age t q.ticket < 2 ^ 15)) then park (.chain t) s
    else
      let v := Assoc.get 0 t c.ended
      retire (fun sl => (sl.wr d v).flag (BitVec.ofNat 5 v.toNat)) s)) s

/-- CWAIT, function 1: reads and clears a template's flags word (R135, R158). [DESIGN CHOICE, log 67] -/
def execCwaitFlags (g : Guard) (d : Reg) (t : Tmpl) (s : State) : Host.Outcome State Fault Refusal :=
  onCompute (issue g [] [d] (fun s =>
    match Assoc.find t.toNat s.hereC.templates with
    | none => done d 0 s
    | some T =>
      done d (toWord T.flags.toNat)
        (s.modHereC (fun c => { c with templates := Assoc.put t.toNat { T with flags := 0 } c.templates })))) s

/-- CWAIT, function 2: reads a max-magnitude register (R69, R158). [DESIGN CHOICE, log 67] -/
def execCwaitMag (g : Guard) (d : Reg) (t : Tmpl) (m : Two) (s : State) : Host.Outcome State Fault Refusal :=
  onCompute (issue g [] [d] (fun s =>
    let v := match Assoc.find t.toNat s.hereC.templates with
             | some T => (T.mags.getD m.toNat 0).toNat
             | none => 0
    done d (toWord v) s)) s

/-! ### The course of a chain -/

/-- A node or unit has saved its state in the pre-emption under way and does no more (R428). -/
def Region.frozen (R : Region) (nd : NodeRef) : Bool :=
  match R.preempt with
  | some p => p.saved.contains nd
  | none => false

/-- The stream fields of a chain that are port streams. -/
def Chain.ports (T : Template) (q : Chain) : List Nat := T.fieldsUsed.filter (fun f => (memField (some q) f).isNone)

/-- Two chains may not run together: their stages, their port streams or an accumulator that the running one writes meet
(R157, R164). -/
def chainsMeet (c : Core) (q run : Chain) : Bool :=
  let T := Assoc.get default q.tmpl c.templates
  let U := Assoc.get default run.tmpl c.templates
  stagesMeet T U || (q.ports T).any (fun f => (run.ports U).contains f) || T.touches.any (fun a => U.writes.contains a)

/-- A template's state at the start of a chain (R134, R157). -/
def Template.restart (T : Template) : Template :=
  { T with stages := T.stages.map (fun st => { st with pos := 0, carry := 0, served := [], firing := none }), arcs := [],
           mags := [0, 0, 0, 0] }

/-- CHAIN_START: chain `k` of the core's queue starts where all before it have started and nothing it needs is in use (R157). -/
def execChainStart (r u k : Nat) (s : State) : Host.Outcome State Fault Refusal :=
  let R := s.region r
  let c := R.core u
  match c.chains[k]? with
  | none => nx s
  | some q =>
    if R.halt || R.frozen (.unit u) || q.running || !((c.chains.take k).all (fun p => p.running))
        || c.chains.any (fun p => p.running && chainsMeet c q p) then nx s
    else
      let T := (Assoc.get default q.tmpl c.templates).restart
      nx (s.modRegion r (fun R => (R.setCore u { R.core u with
        chains := listSet k { q with running := true } c.chains, templates := Assoc.put q.tmpl T c.templates }).unlatchAll u
          ((q.ports (Assoc.get default q.tmpl c.templates)).filter (fun f => decide (f < 4)))))

/-- Stage `j` of the chain that runs template `t` has its inputs, whatever room its outputs have: of a VMERGE the select and the input that it
selects (R153). -/
def stageFed (r u : Nat) (T : Template) (q : Chain) (s : State) (j : Nat) : Bool :=
  match T.stage j with
  | none => false
  | some st =>
    decide (st.pos < stageTotal (s.core r u).modes T j q.n)
      && (liveOpnds (s.region r) u T (some q) j st.word (peekField r u q.tmpl j st st.word 2 s)).all (opndReady (s.region r) u T (some q) j)

/-- Of the stages that may still move, those that are not blocked for good by a full internal arc. -/
def liveStages (c : Core) (T : Template) : Nat → List Nat → List Nat
  | 0, l => l
  | n + 1, l =>
    liveStages c T n (l.filter (fun j => (T.readers j).all (fun p =>
      l.contains p || decide ((T.inner j p).length + rateOut c.modes (T.word j) ≤ innerDepth c.modes T j p))))

/-- A stage of the chain can still move with what stands before it. -/
def chainAlive (r u : Nat) (T : Template) (q : Chain) (s : State) : Bool :=
  !(liveStages (s.core r u) T 8 ((List.range' 1 T.stages.length).filter (stageFed r u T q s))).isEmpty

/-- The input port at whose head an eoi marker stands, behind a resident token if there is one. -/
def eoiPort (R : Region) (u : Nat) (T : Template) (q : Chain) : Option (Nat × Nat) :=
  (T.stages.flatMap (fun st => ((inPorts st.word).filter (fun p => (memField (some q) p).isNone)).map (fun p => (p, stageMarkAt R u st p)))).find?
    (fun x => R.eoiIn u x.1 x.2)

/-- The status word of a chain (R158). -/
def chainStatus (done : Nat) (short : Bool) (fl : BitVec 5) : Word := toWord (done * 2 ^ 32 + b2n short * 2 ^ 8 + fl.toNat)

/-- A kept-back beat leaves on its port, with eor where the chain has reached its count (R286). [DESIGN CHOICE, log 71] -/
def sendKept (r u k : Nat) (q : Chain) (s : State) : State :=
  match q.kept.find? (fun x => (s.region r).roomOut u x.1 1) with
  | none => s
  | some x =>
    let R := (s.region r).pushOut u x.1 [if q.short then x.2 else x.2.withEor]
    s.setRegion r (R.setCore u { R.core u with chains := listSet k { q with kept := List.erase q.kept x } (R.core u).chains })

/-- The input ports of a chain, but for port `p`, at whose head a token is resident. [DESIGN CHOICE, log 71] -/
def chainResidents (T : Template) (q : Chain) (p : Nat) : List Nat :=
  (q.ports T).filter (fun f => decide (f < 4) && f != p && T.stages.any (fun st => st.resident f))
/-- An eoi marker at the head of port `p` ends a chain short: it is popped, and every resident token of the chain is dropped (R80, R157, R174);
a header of a wrong layout behind the port's resident token is SPACE (R67). [DESIGN CHOICE, log 71] -/
def cutShort (r u k : Nat) (T : Template) (q : Chain) (p n : Nat) (s : State) : State :=
  match T.stages.find? (fun st => (inPorts st.word).contains p && decide (stageMarkAt (s.region r) u st p = n)) with
  | none => s
  | some st =>
    fifosChk r ((s.region r).heads u ((p, n + 1) :: (chainResidents T q p).map (fun f => (f, 1)))) (fun s =>
      if !markHeadersOk (s.region r) u st [p] then raise r (firingRec 0x03 u q.tmpl st) s
      else
        let R := (chainResidents T q p).foldl (fun R f => R.popIn u f 1) ((s.region r).popIn u p (n + 1))
        let c := R.core u
        s.setRegion r (R.setCore u { c with chains := listSet k { q with short := true, held := [] } c.chains,
                                            templates := Assoc.put q.tmpl { T with stages := T.stages.map (fun st => { st with served := [] }) } c.templates })) s

/-- The output ports on which a chain's end carries an eoi marker (R157). -/
def chainOuts (T : Template) (q : Chain) : List Nat := if q.eoi then ((q.ports T).filter (fun f => decide (4 ≤ f))).map (fun f => f - 4) else []
/-- A chain ends, as one action: its eoi on the output ports, its status, its place in the queue (R157). [DESIGN CHOICE, log 71] -/
def endChain (r u k : Nat) (T : Template) (q : Chain) (s : State) : State :=
  let outs := chainOuts T q
  if !outs.all ((s.region r).roomOutMark u) then s
  else
    let R := outs.foldl (fun R p => R.pushOut u p [eoiBeat]) (s.region r)
    let pos := match T.stage 1 with
               | some st => st.pos
               | none => 0
    let c := R.core u
    let T1 := { T with stages := T.stages.map (fun st => { st with served := [], firing := none }), arcs := [] }
    s.setRegion r (R.setCore u { c with chains := listDrop k c.chains, templates := Assoc.put q.tmpl T1 c.templates,
                                        ended := Assoc.put q.ticket (chainStatus pos q.short q.flags) c.ended })

/-- Every stage of a chain has made its firings. -/
def chainDone (c : Core) (T : Template) (q : Chain) : Bool :=
  (List.range' 1 T.stages.length).all (fun j => match T.stage j with
                                                | some st => decide (stageTotal c.modes T j q.n ≤ st.pos)
                                                | none => true)
/-- CHAIN_END: chain `k` of the core's queue ends, at its count once every stage has drained, or short at an eoi marker once nothing
before the marker can move any more (R157). The marker is popped first, then the beats kept back leave, one at a time as their ports have
room, and last the chain's own markers. [DESIGN CHOICE, log 71] -/
def execChainEnd (r u k : Nat) (s : State) : Host.Outcome State Fault Refusal :=
  let R := s.region r
  let c := R.core u
  match c.chains[k]? with
  | none => nx s
  | some q =>
    let T := Assoc.get default q.tmpl c.templates
    if R.halt || R.frozen (.unit u) || !q.running || T.stages.any (fun st => st.firing.isSome) then nx s
    else if q.short || chainDone c T q then nx (if q.kept.isEmpty then endChain r u k T q s else sendKept r u k q s)
    else
      match eoiPort R u T q with
      | none => nx s
      | some x => if chainAlive r u T q s then nx s else nx (cutShort r u k T q x.1 x.2 s)

end Sys2Proof.Machine
end

