-- ==== Sys2Proof/Machine/Records.lean ====
section
/-! DEFINITION. Records and descriptors that an instruction reads as loads of its core (R214): each aligned 8-byte word at a moment of its
own, under the core's phase buffer. -/

namespace Sys2Proof.Machine

/-- An aligned word of S space as core `u` loads it (R213, R214). [DEDUCED, log 11] -/
def loadSWord (r u a : Nat) (s : State) : List Byte × State :=
  let key := sKey r (uCl u) a
  let (n, s1) := s.draw
  let c := s1.core r u
  let t := chooseMoment (floorOf c s.cur.slot .s key 8) s1.moment n
  (layOver (phaseWord .s a c.phase) a (s1.smem.readsAt t key 8), s1.modCore r u (Core.saw .s key 8 t))

/-- `n` words of S space. -/
def loadSWords (r u : Nat) : Nat → Nat → State → List Byte × State
  | _, 0, s => ([], s)
  | a, n + 1, s =>
    let p := loadSWord r u a s
    let q := loadSWords r u (a + 8) n p.2
    (p.1 ++ q.1, q.2)

/-- A record of `n` words at an S address of the issuing core's cluster, then `k` with its value; SPACE where the bytes are borrowed
(R213), UNCORRECTABLE where they fail their code (R234). -/
def withSRecord (a n : Nat) (k : Nat → State → State) (s : State) : State :=
  if borrowed s.hereR s.hereCl a (8 * n) then failSpace (toWord a) s
  else
    readChk s.cur.region 6 s.hereCl (a / 8) (a / 8 + n - 1) a (slotRec 0x14 0 0 0 s)
     (phaseChk s.cur.region s.cur.unit .s a n (slotRec 0x14 0 0 0 s) (fun s =>
      let p := loadSWords s.cur.region s.cur.unit a n s
      k (ofBytesLE p.1) p.2)) s

/-- An aligned word of G space as core `u` loads it. [DEDUCED, log 11] -/
def loadGWord (c : Context) (r u a : Nat) (s : State) : MemRes (List Byte) :=
  let key := gKey c r a
  let (n, s1) := s.draw
  let k := s1.core r u
  let t := chooseMoment (floorOf k s.cur.slot .g key 8) s1.moment n
  (gReadAt c r a 8 t s1).bind (fun bs s2 => .ok (layOver (phaseWord .g a k.phase) a bs) (s2.modCore r u (Core.saw .g key 8 t)))

/-- `n` words of G space. -/
def loadGWords (c : Context) (r u : Nat) : Nat → Nat → State → MemRes (List Byte)
  | _, 0, s => .ok [] s
  | a, n + 1, s =>
    (loadGWord c r u a s).bind (fun bs s1 => (loadGWords c r u (a + 8) n s1).bind (fun t s2 => .ok (bs ++ t) s2))

/-- Go on with the outcome of a G access of the cursor's slot; tried again while its tile is moved. -/
def slotAccess {α : Type} (k : α → State → State) (s : State) (res : MemRes α) : State :=
  match res with
  | .ok v s1 => k v s1
  | .wait _ => s
  | .fail x s1 =>
    let y := slotRec 0 0 0 0 s
    raise s.cur.region { x with kind := y.kind, unit := y.unit, sub := y.sub, position := y.position } s1

/-- A record of `n` words at a G offset, then `k` with its value. -/
def withGRecord (a n : Nat) (k : Nat → State → State) (s : State) : State :=
  match s.ctxOf s.hereR with
  | none => k 0 s
  | some c =>
    phaseChk s.cur.region s.cur.unit .g a n (slotRec 0x14 0 0 0 s) (fun s =>
      slotAccess (fun bs s1 => k (ofBytesLE bs) s1) s (loadGWords c s.cur.region s.cur.unit a n s)) s

end Sys2Proof.Machine
end

