-- ==== Sys2Proof/Machine/Digest.lean ====
section
/-! DEFINITION. CRC-64 and the digests of checking mode (R122, R313). -/

namespace Sys2Proof.Machine

/-- One bit of CRC-64/ECMA-182. -/
def crcBit (c : Word) : Word := if c.getLsbD 63 then (c <<< 1) ^^^ 0x42F0E1EBA9EA3693#64 else c <<< 1
/-- Apply a function `n` times. -/
def iter {α : Type} (f : α → α) : Nat → α → α
  | 0, x => x
  | n + 1, x => iter f n (f x)
/-- One byte. -/
def crcByte (c : Word) (b : Byte) : Word := iter crcBit 8 (c ^^^ (BitVec.setWidth 64 b <<< 56))
/-- `crc(a, b)`: continued from `a` over the eight bytes of `b`, the least significant first (R122). -/
def crc (a b : Word) : Word := (bytesLE 8 b.toNat).foldl crcByte a

/-- Change the digest of a stream of the graph that region `r` runs; more than 1,024 streams is DIGEST_MISMATCH with the key all
ones (R313). [DEDUCED, log 37] -/
def digestStream (r : Nat) (key : Nat) (f : Word → Word) (s : State) : State :=
  let R := s.region r
  match R.graph with
  | none => s
  | some gr =>
    if (Assoc.find key gr.digests).isNone && decide (1024 ≤ gr.digests.length) then
      raise r { recOf 0x07 7 0 with d0 := BitVec.allOnes 64 } s
    else s.setRegion r { R with graph := some { gr with digests := Assoc.put key (f (Assoc.get 0 key gr.digests)) gr.digests } }

/-- The name of a task output stream (R313). -/
def taskStream (u k : Nat) (id : Nat) : Nat := u * 2 ^ 19 + k * 2 ^ 16 + id % 2 ^ 16

end Sys2Proof.Machine
end

