-- ==== Sys2Proof/Machine/Tensor.lean ====
section
/-! DEFINITION. Accesses of engines to tensors (R316 to R328): naming a tensor, reading and writing elements of a tile, the digests of
checking mode (R312, R313), and posting a translation fault to the host (R327, R447). -/

namespace Sys2Proof.Machine

/-- The tensor of a tid: one that names no tensor is COPY_PERMISSION, a malformed entry is COPY_TRANSLATION_UNRESOLVED (R327, R328). [DEDUCED, log 30] -/
def tensorFor (c : Context) (r tid : Nat) (s : State) : XRes Tensor :=
  (tensorName c r tid s).bind (fun n s1 =>
    match n with
    | .tensor t => .ok t s1
    | .absent => .fail (accessRec causePermission 0 0 0) s1
    | .malformed => .fail (accessRec causeUnresolved 0 1 2) s1)

/-! ### Elements in bytes (R52) -/

/-- Bit `i` of the element code `x` laid into a table of bytes at bit `p`, over the bytes that `old` gives. -/
def layBit (old : Nat → Byte) (p : Nat) (b : Bool) (m : Assoc Byte) : Assoc Byte :=
  let v := match Assoc.find (p / 8) m with
           | some v => v
           | none => old (p / 8)
  let one : Byte := 1#8 <<< (p % 8)
  Assoc.put (p / 8) (if b then v ||| one else v &&& ~~~one) m
/-- The bytes that elements of `w` bits make, each at its bit offset. -/
def laidBytes (w : Nat) (old : Nat → Byte) (l : List (Nat × Nat)) : List (Nat × Byte) :=
  if w % 8 = 0 then l.flatMap (fun e => withAddrs (e.1 / 8) (bytesLE (w / 8) e.2))
  else l.foldl (fun m e => (List.range w).foldl (fun m i => layBit old (e.1 + i) (bit e.2 i) m) m) []
/-- The element of `w` bits at bit `p` of bytes that begin at byte `lo`. -/
def elemAt (w lo : Nat) (bs : List Byte) (p : Nat) : Nat :=
  ofBytesLE ((bs.drop (p / 8 - lo)).take ((p % 8 + w + 7) / 8)) / 2 ^ (p % 8) % 2 ^ w

/-! ### Tiles -/

/-- Read the elements at these bit offsets of tensor tile `t`, now (R344). -/
def tensorRead (c : Context) (r : Nat) (ws : List Window) (tid : Nat) (tn : Tensor) (t : Nat) (ps : List Nat) (s : State) : XRes (List Nat) :=
  let w := fmtBits tn.fmt
  let lo := (ps.foldl min (8 * 4096)) / 8
  let hi := ps.foldl (fun m p => max m ((p + w + 7) / 8)) (lo + 1)
  (tensorTile c r ws tid tn t false s).bind (fun dev s1 =>
    (XRes.lift (tileRead c.keyId dev lo (hi - lo) s1.moment r s1)).bind (fun bs s2 => .ok (ps.map (elemAt w lo bs)) s2))

/-- The 8-byte words that bytes of a tile touch. -/
def wordsOf (l : List (Nat × Byte)) : List Nat :=
  (l.map (fun p => p.1 / 8)).foldr (fun x t => if t.contains x then t else x :: t) []
/-- The term that a written word adds to a tensor's digest (R313). -/
def wordTerm (key tile : Nat) (l : List (Nat × Byte)) (k : Nat) : Word :=
  let own := l.filter (fun p => decide (p.1 / 8 = k))
  let mask := own.foldl (fun m p => m ||| 2 ^ (p.1 % 8)) 0
  let data := own.foldl (fun m p => m + p.2.toNat * 2 ^ (8 * (p.1 % 8))) 0
  crc (crc (crc 0 (toWord (key + mask * 2 ^ 48))) (toWord (tile * 4096 + 8 * k))) (toWord data)
/-- The digest of a listed output tensor takes the words written, in checking mode (R313). [DEDUCED, log 37] -/
def tensorDigest (r tid tile : Nat) (l : List (Nat × Byte)) (s : State) : State :=
  let R := s.region r
  match R.graph with
  | none => s
  | some g =>
    if chkOn s R && g.outs.contains tid then
      let key := 2 ^ 40 + tid
      digestStream r key (fun x => (wordsOf l).foldl (fun x k => x + wordTerm key tile l k) x) s
    else s

/-- Write elements at their bit offsets of tensor tile `t`. In run 1 of checking mode the write is folded into its digest and
discarded (R312). -/
def tensorWrite (c : Context) (r : Nat) (ws : List Window) (tid : Nat) (tn : Tensor) (t : Nat) (l : List (Nat × Nat)) (s : State) :
    XRes Unit :=
  (tensorTile c r ws tid tn t true s).bind (fun dev s1 =>
    let bs := laidBytes (fmtBits tn.fmt) (fun o => s1.tmem.read (dev * 4096 + o)) l
    let s2 := tensorDigest r tid t bs s1
    if run1 s2 (s2.region r) || (s2.region r).halt then .ok () s2 else .lift (tileWrite c.keyId dev bs r s2))

/-! ### Host memory and interrupts (R443 to R447) -/

/-- Function `f` of the host interface. -/
def State.func (s : State) (f : Nat) : Func := Assoc.get Func.init f s.funcs
/-- Put a function back. -/
def State.setFunc (f : Nat) (F : Func) (s : State) : State := { s with funcs := Assoc.put f F s.funcs }
/-- Raise an MSI-X vector of a function (R446). -/
def msix (f v : Nat) (s : State) : State :=
  let F := s.func f
  s.setFunc f { F with msix := Assoc.put v (Assoc.get 0 v F.msix + 1) F.msix }
/-- The key of a byte of host memory, as function `f`'s requester ID addresses it. [DEDUCED, log 50] -/
def hostKey (f a : Nat) : Nat := f * 2 ^ 64 + a
/-- Write bytes to host memory. [DESIGN CHOICE, log 2; DEDUCED, log 50] -/
def hostWrite (f a : Nat) (bs : List Byte) (s : State) : State :=
  { s with hostMem := (withAddrs (hostKey f a) bs).foldl (fun m p => Assoc.put p.1 p.2 m) s.hostMem }

/-- The fault ring of a function is full (R447). -/
def Func.faultFull (F : Func) : Bool := decide ((F.fwidx + 2 ^ (F.flsz + 1) - F.fridx) % 2 ^ (F.flsz + 1) = 2 ^ F.flsz)
/-- The 32 bytes of a fault entry (R447). [DEDUCED, log 49] -/
def FaultEntry.bytes (e : FaultEntry) (gen : Nat) (pfn : Nat) : List Byte :=
  bytesLE 2 e.tag ++ bytesLE 2 e.asid ++ bytesLE 1 gen ++ bytesLE 1 (b2n e.write + 2 * e.stage) ++ bytesLE 2 e.tid ++ bytesLE 8 e.tile
    ++ bytesLE 2 pfn ++ rep 14 0

/-- The outcome of posting a fault. -/
inductive Posted where
  /-- posted under this tag -/
  | tag (t : Nat) (s : State)
  /-- the ring is full: the fault waits -/
  | full
  /-- the ring is disabled: the fault is an abort -/
  | off

/-- Post a translation fault of an engine of region `r`: to the context's own function, or the physical function's for a second-stage
miss (R327, R447). [DEDUCED, log 49] -/
def postFault (c : Context) (r : Nat) (write : Bool) (stage tid tile : Nat) (copy : Option Nat) (port : Option (Nat × Nat)) (s : State) :
    Posted :=
  let f := if stage = 2 then 0 else c.attr.func
  let F := s.func f
  if !F.fen then .off
  else if F.faultFull then .full
  else
    let tag := s.nextTag % 2 ^ 16
    let e : FaultEntry := { tag := tag, func := f, asid := c.attr.asid, region := r, write := write, stage := stage, tid := tid,
                            tile := tile, copy := copy, port := port }
    let s1 := hostWrite f (F.fbase.toNat + 32 * (F.fwidx % 2 ^ F.flsz)) (e.bytes c.gen (if f = 0 then c.attr.func else 0)) s
    .tag tag (msix f 2 ({ s1 with faults := s1.faults ++ [e], nextTag := s1.nextTag + 1 }.setFunc f
      { F with fwidx := (F.fwidx + 1) % 2 ^ (F.flsz + 1) }))

/-- COPY_TRANSLATION_UNRESOLVED after an abort (R327, R346). -/
def abortRec (tid tile stage : Nat) (write : Bool) : StopRec :=
  forTensor tid tile write (accessRec causeUnresolved 0 stage 1)

/-- A port's translation fault waits for a place in the fault ring, or no longer does (R309, R447). -/
def portFull (r : Nat) (port : Option (Nat × Nat)) (b : Bool) (s : State) : State :=
  match port with
  | some q => if ((s.region r).port q.1 q.2).full == b then s else s.modRegion r (fun R => R.modPort q.1 q.2 (fun P => { P with full := b }))
  | none => s

/-- Serve an engine's access to tile `tile` of a tensor (R327 to R329): on success `k` goes on; a missing entry is posted and `hold`
records the tag, or it waits for a place in the ring; while a tile is moved nothing happens; a fatal cause is raised with the engine's fields. -/
def serve {α : Type} (c : Context) (r : Nat) (x : StopRec) (tid tile : Nat) (write : Bool) (copy : Option Nat) (port : Option (Nat × Nat))
    (hold : Nat → State → State) (k : α → State → State) (res : XRes α) (s : State) : State :=
  let own (y : StopRec) : StopRec := { y with kind := x.kind, unit := x.unit, sub := x.sub, sk := x.sk, position := x.position }
  match res with
  | .ok v s1 => if (s1.region r).halt then s1 else k v (portFull r port false s1)
  | .wait _ => s
  | .miss st s1 =>
    match postFault c r write st tid tile copy port s1 with
    | .tag t s2 => hold t (portFull r port false s2)
    | .full => portFull r port true s
    | .off => raise r (own (abortRec tid tile st write)) s1
  | .fail y s1 => raise r (own (forTensor tid tile write y)) s1

end Sys2Proof.Machine
end

