-- ==== Sys2Proof/Machine/Streams.lean ====
section
/-! DEFINITION. Stream ports (R226 to R235, R326): SBIND, SCLOSE, SBAR, and the beats, ends, closes and barriers of a port's queue. -/

namespace Sys2Proof.Machine

/-! ### Ports -/

/-- The AG unit that a word's ag bit names. -/
def agUnit (s : State) (ag : Bool) : Nat := mkUnit s.hereCl 3 (b2n ag)
/-- Pattern `p` of AG `u`. -/
def Region.pattern (R : Region) (u p : Nat) : Option Pattern := Assoc.find p (Assoc.get Ag.init u R.ags).patterns
/-- The port belongs to a running coat chain (R251). -/
def Region.chainOwns (R : Region) (u p : Nat) : Bool :=
  R.coats.any (fun c => c.2.running && ((decide (c.2.sunit = u) && decide (c.2.sport = p)) || (decide (c.2.kunit = u) && decide (c.2.kport = p))))
/-- A route leaves the port. -/
def Region.isSource (R : Region) (u p : Nat) : Bool := !(R.outArcs u p).isEmpty
/-- The port takes no more entries: closed, closing, or owned by a coat chain (R230, R251). -/
def Region.portShut (R : Region) (u p : Nat) : Bool := (R.port u p).closed || (R.port u p).closing || R.chainOwns u p

/-- A bad pattern, count or port for SBIND (R226, R228). -/
def bindBad (R : Region) (u k n : Nat) : Option Pattern → Bool
  | none => true
  | some p =>
    let fmts := if p.write then ((R.inArc u k).toList.map (fun e => e.2.route.dfmt)) else (R.outArcs u k).map (fun e => e.2.route.sfmt)
    n == 0 || decide (2 ^ 20 < n) || R.portShut u k || fmts.isEmpty || (p.col && fmts.any (fun f => decide (f ≠ p.fmt)))

/-- Append an entry that takes a ticket. -/
def portAppend (u k : Nat) (f : Nat → PortEntry) (closing : Bool) (R : Region) : Region :=
  R.modPort u k (fun P => { P with queue := P.queue ++ [f P.ticket], ticket := (P.ticket + 1) % 2 ^ 16, closing := P.closing || closing })

/-- SBIND: places a command on a port (R228). -/
def execSbind (g : Guard) (d : Reg) (a b : Src) (eoi : Bool) (port : Three) (ag : Bool) (pat : Tmpl) (s : State) :
    Host.Outcome State Fault Refusal :=
  issue g [a, b] [d] (fun s =>
    let R := s.hereR
    let u := agUnit s ag
    let k := port.toNat
    let n := (rv s b).toNat
    if bindBad R u k n (R.pattern u pat.toNat) then failSpace 0 s
    else if 8 ≤ (R.port u k).queue.length then park (.portQueues [(u, k)]) s
    else
      done d (toWord (R.port u k).ticket)
        (s.modHereR (portAppend u k (fun t => .cmd pat.toNat (rv s a) n eoi t) false))) s

/-- SCLOSE: appends a close entry (R230). -/
def execSclose (g : Guard) (d : Reg) (port : Three) (ag : Bool) (s : State) : Host.Outcome State Fault Refusal :=
  issue g [] [d] (fun s =>
    let R := s.hereR
    let u := agUnit s ag
    let k := port.toNat
    if R.portShut u k then failSpace 0 s
    else if 8 ≤ (R.port u k).queue.length then park (.portQueues [(u, k)]) s
    else done d (toWord (R.port u k).ticket) (s.modHereR (portAppend u k .close true))) s

/-- The beats that the current command has transferred; one that ended short has its record (R229, R230). -/
def Port.transferred (P : Port) : Nat :=
  match P.queue with
  | .cmd _ _ _ _ _ :: _ => if P.done = 0 then 0 else P.lastShort.getD P.done
  | _ => 0

/-- SCLOSE.abort: the port closes at once; a read port still pushes eoi (R230). -/
def execScloseAbort (g : Guard) (d : Reg) (port : Three) (ag : Bool) (s : State) : Host.Outcome State Fault Refusal :=
  issue g [] [d] (fun s =>
    let R := s.hereR
    let u := agUnit s ag
    let k := port.toNat
    if (R.port u k).closed || R.chainOwns u k then failSpace 0 s
    else
      done d (toWord (R.port u k).transferred)
        (s.modHereR (fun R => R.modPort u k (fun P =>
          { P with queue := [], closed := true, closing := false, done := 0, tail := R.isSource u k, fault := none,
                   full := false })))) s

/-- The ports of a mask: AG 0's in bits 7:0, AG 1's in bits 15:8 (R231). -/
def maskPorts (cl : Nat) (m : Mask16) : List (Nat × Nat) :=
  ((List.range 16).filter (fun i => m.getLsbD i)).map (fun i => (mkUnit cl 3 (i / 8), i % 8))

/-- Append a barrier entry to each masked port, or wait or fail (R231); `k` goes on with the barrier's number. -/
def placeBarrier (m : Mask16) (k : Nat → State → State) (s : State) : State :=
  let R := s.hereR
  let ps := maskPorts s.hereCl m
  if ps.isEmpty || ps.any (fun p => R.portShut p.1 p.2) then failSpace 0 s
  else if ps.any (fun p => decide (8 ≤ (R.port p.1 p.2).queue.length)) then park (.portQueues ps) s
  else
    let (id, s1) := s.takeId s.cur.region
    k id (s1.modHereR (fun R => ps.foldl (fun R p => R.modPort p.1 p.2 (fun P => { P with queue := P.queue ++ [.barrier id] })) R))

/-- SBAR: a barrier entry in each masked queue (R231). -/
def execSbar (g : Guard) (mask : Mask16) (s : State) : Host.Outcome State Fault Refusal :=
  issue g [] [] (placeBarrier mask (fun _ s => retire id s)) s

/-- SBAR.wait: the slot waits until the barrier passes, and the core refreshes (R231). -/
def execSbarWait (g : Guard) (mask : Mask16) (s : State) : Host.Outcome State Fault Refusal :=
  issue g [] [] (fun s =>
    if s.here.prog = .accepted then retire id (refresh s.cur.region s.cur.unit s)
    else placeBarrier mask (fun id s => parkAt (.streamBarrier id) .accepted s) s) s

/-! ### The beats of a command (R226, R227, R242, R326) -/

/-- The beats of one repetition. -/
def Pattern.per (p : Pattern) : Nat := p.loops.foldl (fun n l => n * l.1) 1
/-- The loop counters of beat `i` of a repetition, loop 0 fastest, with their strides. -/
def loopSteps : List (Nat × Nat) → Nat → List (Nat × Nat)
  | [], _ => []
  | (c, st) :: t, i => (i % c, st) :: loopSteps t (i / c)

/-- What a beat touches: scratchpad pieces (address, bytes), in order of the beat's bytes, or elements of a tensor. -/
inductive BeatAt where
  | scratch (addr : Int) (pieces : Option (List (Nat × Nat)))
  | tensor (f : Fmt) (tid : Nat) (j : List Int)
deriving Repr

/-- The allocation that holds an S address (R209). [DEDUCED, log 57] -/
def Region.allocOf (R : Region) (cl a : Nat) : Option Alloc :=
  let o := a % 2 ^ 20
  ((List.range 16).filterMap (fun j => Assoc.find (mkUnit cl 1 (a / 2 ^ 20) * 16 + j) R.allocs)).find?
    (fun x => decide (x.base * 4096 ≤ o) && decide (o < (x.base + x.size) * 4096))

/-- The pieces of a row-mode beat (R227). -/
def rowPieces (R : Region) (cl : Nat) (a : Int) : Option (List (Nat × Nat)) :=
  if addrBad a 64 0x3FFFC0 || borrowed R cl a.toNat 64 then none else some [(a.toNat, 64)]
/-- The pieces of a column-mode beat (R227). -/
def colPieces (R : Region) (cl : Nat) (f : Fmt) (a : Int) : Option (List (Nat × Nat)) :=
  let z := fmtBits f / 8
  if addrBad a z (0x400000 - z) then none
  else
    match R.allocOf cl a.toNat with
    | none => none
    | some x =>
      let l := (List.range (beatElems f)).map (fun i => (a.toNat + 16 * 2 ^ (x.f - 1) * i, z))
      let top := a.toNat / 2 ^ 20 * 2 ^ 20 + (x.base + x.size) * 4096
      if x.f = 0 || l.any (fun p => decide (top < p.1 + p.2) || borrowed R cl p.1 p.2) then none else some l

/-- Where beat `i` of a command lies. -/
def cmdBeat (R : Region) (u : Nat) (p : Pattern) (base : Word) (i : Nat) : BeatAt :=
  let st := loopSteps p.loops (i % p.per)
  if p.tensor then
    let origin : List Int := [(bits base.toNat 23 0 : Nat), (bits base.toNat 47 24 : Nat), 0, 0, 0]
    .tensor p.fmt (bits base.toNat 63 48)
      ((List.range 5).map (fun d => st.foldl (fun (x : Int) q => if bits q.2 23 21 = d then x + sextN 21 q.2 * (q.1 : Int) else x) (origin.getD d 0)))
  else
    let a : Int := st.foldl (fun (x : Int) q => x + sextN 24 q.2 * (q.1 : Int)) (base.toNat : Int)
    .scratch a (if p.col then colPieces R (uCl u) p.fmt a else rowPieces R (uCl u) a)

/-- Where block `i` of a coat chain's buffer lies (R242). -/
def coatBeat (R : Region) (u ch : Nat) (base : Word) (i : Nat) : BeatAt :=
  let d := (Assoc.get default ch R.coats).desc.toNat
  if latTensor d then
    let w := latX d 0 / latL d
    .tensor (latFmt d) (bits base.toNat 63 48)
      [((bits base.toNat 23 0 + beatElems (latFmt d) * (i % w) : Nat) : Int), ((bits base.toNat 47 24 + i / w % latX d 1 : Nat) : Int),
       ((i / (w * latX d 1) : Nat) : Int), 0, 0]
  else .scratch ((base.toNat + 64 * i : Nat) : Int) (rowPieces R (uCl u) ((base.toNat + 64 * i : Nat) : Int))

/-- The current command of a port: its pattern number, beats in all, whether it ends with eoi, and where a beat lies. -/
structure Command where
  pat : Nat
  total : Nat
  eoi : Bool
  write : Bool
  place : Nat → BeatAt

/-- The command at the head of a port's queue. -/
def commandAt (R : Region) (u p : Nat) : Option Command :=
  match (R.port u p).queue with
  | .cmd pat base n eoi _ :: _ =>
    match R.pattern u pat with
    | some q => some { pat := pat, total := q.per * n, eoi := eoi, write := q.write, place := cmdBeat R u q base }
    | none => none
  | .coat ch base beats :: _ =>
    let C := Assoc.get default ch R.coats
    some { pat := 0, total := beats, eoi := true, write := decide (C.kunit = u) && decide (C.kport = p), place := coatBeat R u ch base }
  | _ => none

/-- The stop record of a port (R233). -/
def portRec (cause u p : Nat) (c : Command) (done : Nat) (a : Word) : StopRec :=
  { recOf cause 3 u with sub := p, sk := 3, position := toWord done, address := a,
                         d0 := toWord (c.pat + p * 2 ^ 8 + uIdx u * 2 ^ 11), d1 := toWord done }

/-- Check the words of scratchpad pieces (R234). -/
def piecesChk (r cl : Nat) (x : StopRec) : List (Nat × Nat) → (State → State) → State → State
  | [], k, s => k s
  | q :: t, k, s =>
    readChk r 6 cl (q.1 / 8) ((q.1 + q.2 - 1) / 8) (q.1 / 8 * 8) x (fun s => piecesChk r cl x t k s) s
/-- The bytes of pieces now, at their banks (R232). -/
def readPieces (s : State) (r cl : Nat) (l : List (Nat × Nat)) : List Byte := l.flatMap (fun q => s.sRead r cl q.1 q.2)
/-- Bytes with the addresses of pieces. -/
def spread : List (Nat × Nat) → List Byte → List (Nat × Byte)
  | [], _ => []
  | q :: t, bs => withAddrs q.1 (bs.take q.2) ++ spread t (bs.drop q.2)
/-- Write scratchpad bytes at their addresses, at one moment. -/
def State.sWriteEach (r cl : Nat) (l : List (Nat × Byte)) (pieces : List (Nat × Nat)) (s : State) : State :=
  { s with smem := VMem.writeEach s.moment (l.map (fun p => (sKey r cl p.1, p.2))) s.smem, moment := s.moment + 1,
           errors := pieces.foldl (fun e q => clearErr r 6 cl q.1 q.2 e) s.errors }

/-- The elements of a tensor beat that lie inside the extents: coordinates as naturals, and how many; none where the beat breaks R326. -/
def tensorSpan (tn : Tensor) (f : Fmt) (j : List Int) : Option (List Nat × Nat) :=
  let e := beatElems f
  let j0 := j.getD 0 0
  let rest := (List.range 4).any (fun d => let x := j.getD (d + 1) 0
                                           decide (x < 0) || decide ((tn.x.getD (d + 1) 1 : Int) ≤ x))
  if tn.fmt ≠ f ∨ j0 % (e : Int) ≠ 0 ∨ 2 ^ tn.lt.getD 0 0 < e then none
  else if rest ∨ j0 < 0 ∨ (tn.x.getD 0 1 : Int) ≤ j0 then some ([], 0)
  else some (j.map (fun x => x.toNat), min e (tn.x.getD 0 1 - j0.toNat))
/-- The bit offsets of `n` elements from a coordinate up along dimension 0, in one tile. -/
def runOffsets (tn : Tensor) (j : List Nat) (n : Nat) : List Nat := (List.range n).map (fun i => (tn.elem j + i) * fmtBits tn.fmt)

/-- SPACE at a tensor beat (R346): its address in the form of a pattern's base, the tid above coordinates 1 and 0 (R326). [DEDUCED, log 30] -/
def tensorSpace (tid : Nat) (j : List Int) : StopRec :=
  accessRec 0x03 (tid * 2 ^ 48 + wrapN 24 (j.getD 1 0) * 2 ^ 24 + wrapN 24 (j.getD 0 0)) tid 0
/-- The port waits on a translation fault. -/
def portHold (r u p tag : Nat) (s : State) : State := s.modRegion r (fun R => R.modPort u p (fun P => { P with fault := some tag }))
/-- One beat of the current command is done; the last one of a command that ends with eoi leaves the eoi due. -/
def portDid (c : Command) (P : Port) : Port :=
  { P with done := P.done + 1, lastShort := none, tail := c.eoi && decide (P.done + 1 = c.total) }

/-- Read a beat of tensor `tid`, then `k` with its line (R326). -/
def readTensorBeat (r u p : Nat) (x : StopRec) (f : Fmt) (tid : Nat) (j : List Int) (k : Line → State → State) (s : State) : State :=
  match s.ctxOf (s.region r) with
  | none => s
  | some c =>
    let ws := ((s.region r).port u p).windows.map (fun q => q.2)
    serve c r x tid 0 false none (some (u, p)) (portHold r u p) (fun tn s1 =>
      match tensorSpan tn f j with
      | none => raise r { tensorSpace tid j with kind := x.kind, unit := x.unit, sub := x.sub, sk := x.sk, position := x.position } s1
      | some (jn, n) =>
        if n = 0 then k 0 s1
        else
          let t := tn.tile jn
          serve c r x tid t false none (some (u, p)) (portHold r u p) (fun l s2 => k (lineOf f l) s2)
            (tensorRead c r ws tid tn t (runOffsets tn jn n) s1) s1) (tensorFor c r tid s) s

/-- A stream's write of a tensor tile is a write of the resident load: in deterministic mode it waits for the graph's other nodes (R300). -/
def tileHeld (c : Context) (r tid tile : Nat) (s : State) : Bool :=
  (midOf c r (unitTile tid tile) s).any (fun m => loadWaits c r m s)
/-- Write a beat of tensor `tid`, then `k` (R326). -/
def writeTensorBeat (r u p : Nat) (x : StopRec) (f : Fmt) (tid : Nat) (j : List Int) (l : Line) (k : State → State) (s : State) : State :=
  match s.ctxOf (s.region r) with
  | none => s
  | some c =>
    let ws := ((s.region r).port u p).windows.map (fun q => q.2)
    serve c r x tid 0 true none (some (u, p)) (portHold r u p) (fun tn s1 =>
      match tensorSpan tn f j with
      | none => raise r { tensorSpace tid j with kind := x.kind, unit := x.unit, sub := x.sub, sk := x.sk, position := x.position } s1
      | some (jn, n) =>
        if n = 0 then k s1
        else
          let t := tn.tile jn
          if tileHeld c r tid t s1 then s
          else
          serve c r x tid t true none (some (u, p)) (portHold r u p) (fun _ s2 => k s2)
            (tensorWrite c r ws tid tn t ((runOffsets tn jn n).zip (elemsOf f l)) s1) s1) (tensorFor c r tid s) s

/-- A port may move: the region runs, the port has not saved its state, and no translation fault holds it. -/
def portRuns (R : Region) (u p : Nat) : Bool := !R.halt && !R.frozen (.port u p) && (R.port u p).fault.isNone

/-- Push a beat of the current read command: the last one of a command that ends with eoi carries eor (R289). -/
def pushBeat (r u p : Nat) (c : Command) (l : Line) (s : State) : State :=
  s.modRegion r (fun R =>
    let b := if c.eoi && decide ((R.port u p).done + 1 = c.total) then (plainBeat l).withEor else plainBeat l
    (R.modPort u p (portDid c)).pushOut u p [b])

/-- Push the eoi that is due. -/
def pushTail (r u p : Nat) (s : State) : State :=
  s.modRegion r (fun R => (R.modPort u p (fun P => { P with tail := false })).pushOut u p [eoiBeat])

/-- Read the words of the ports' queues, then go on (R234). -/
def queuesChk (r : Nat) : List (Nat × Nat) → (State → State) → State → State
  | [], k, s => k s
  | q :: t, k, s =>
    readChk r 8 q.1 q.2 q.2 0 { recOf 0x14 3 q.1 with sub := q.2, sk := 3, position := toWord ((s.region r).port q.1 q.2).done }
      (fun s => queuesChk r t k s) s
/-- The eoi that is due is one to be pushed: a read command's, or that of an aborted port (R229, R230). -/
def tailOut (R : Region) (u p : Nat) : Bool :=
  (R.port u p).tail && (match commandAt R u p with
                        | some c => !c.write
                        | none => true)

/-- STREAM_READ_BEAT: a read port fetches its next beat and pushes it, or pushes the eoi that is due (R229). A source port is gated
while a pre-emption is under way (R230). [DESIGN CHOICE, log 10] -/
def execStreamReadBeat (r u p : Nat) (s : State) : Host.Outcome State Fault Refusal :=
  let R := s.region r
  let P := R.port u p
  if !portRuns R u p || R.preempt.isSome || !R.isSource u p then nx s
  else if tailOut R u p then (if R.roomOutMark u p then nx (pushTail r u p s) else nx s)
  else
    match commandAt R u p with
    | none => nx s
    | some c =>
      if c.write || decide (c.total ≤ P.done) || !R.roomOut u p 1 then nx s
      else
        let x := portRec 0x03 u p c P.done 0
        nx (readChk r 8 u p p 0 x (fun s =>
          match c.place P.done with
          | .scratch a none => raise r { x with address := addrWord a } s
          | .scratch _ (some l) =>
            piecesChk r (uCl u) x l (fun s => pushBeat r u p c (BitVec.ofNat 512 (ofBytesLE (readPieces s r (uCl u) l))) s) s
          | .tensor f tid j => readTensorBeat r u p x f tid j (pushBeat r u p c) s) s)

/-- A write port is done with its head beat. -/
def popWritten (r u p : Nat) (f : Port → Port) (s : State) : State := s.modRegion r (fun R => (R.popIn u p 1).modPort u p f)
/-- An eoi before a command's last beat: the command ends short (R229). -/
def portShort (total : Nat) (P : Port) : Port := { P with done := total, tail := false, lastShort := some P.done }

/-- Write the head beat at its place (R227, R229). -/
def writeBeat (r u p : Nat) (c : Command) (b : Beat) (s : State) : State :=
  let P := (s.region r).port u p
  let x := portRec 0x03 u p c P.done 0
  readChk r 8 u p p 0 x (fifosChk r ((s.region r).headOf u [p]) (fun s =>
    match c.place P.done with
    | .scratch a none => raise r { x with address := addrWord a } s
    | .scratch _ (some l) =>
      popWritten r u p (portDid c) (s.sWriteEach r (uCl u) (spread l (bytesLE 64 b.data.toNat)) l)
    | .tensor f tid j => writeTensorBeat r u p x f tid j b.data (popWritten r u p (portDid c)) s)) s

/-- STREAM_WRITE_BEAT: a write port takes the beat at its head: a data beat is written, a header dropped, an eoi ends the command
(R229). [DESIGN CHOICE, log 10] -/
def execStreamWriteBeat (r u p : Nat) (s : State) : Host.Outcome State Fault Refusal :=
  let R := s.region r
  let P := R.port u p
  if !portRuns R u p then nx s
  else
    match R.headIn u p with
    | none => nx s
    | some b =>
      if b.lift then nx s
      else if b.hdr && !b.eoi then nx (fifosChk r (R.headOf u [p]) (popWritten r u p id) s)
      else
        match commandAt R u p with
        | none => nx s
        | some c =>
          if !c.write then nx s
          else if b.eoi then
            if P.done < c.total then nx (queuesChk r [(u, p)] (fifosChk r (R.headOf u [p]) (popWritten r u p (portShort c.total))) s)
            else if P.tail then nx (queuesChk r [(u, p)] (fifosChk r (R.headOf u [p]) (popWritten r u p (fun P => { P with tail := false }))) s)
            else nx s
          else if P.done < c.total then nx (writeBeat r u p c b s)
          else nx s

/-- STREAM_COMMAND_COMPLETE: a command whose beats have all performed leaves its queue (R229); at a gated port too, since it moves no beat (R230,
R256). -/
def execStreamCommandComplete (r u p : Nat) (s : State) : Host.Outcome State Fault Refusal :=
  let R := s.region r
  let P := R.port u p
  if R.halt || P.fault.isSome then nx s
  else
    match commandAt R u p with
    | none => nx s
    | some c =>
      if c.total ≤ P.done ∧ P.tail = false then
        nx (s.modRegion r (fun R => R.modPort u p (fun P => { P with queue := P.queue.drop 1, done := 0 })))
      else nx s

/-- PORT_CLOSE_REACHED: a close entry at the head closes the port; a read port pushes one eoi, and is gated like every source port while a
pre-emption is under way (R230). -/
def execPortCloseReached (r u p : Nat) (s : State) : Host.Outcome State Fault Refusal :=
  let R := s.region r
  if !portRuns R u p || (R.preempt.isSome && R.isSource u p) then nx s
  else
    match (R.port u p).queue with
    | .close _ :: _ =>
      if R.isSource u p && !R.roomOutMark u p then nx s
      else
        nx (queuesChk r [(u, p)] (fun s => s.modRegion r (fun R =>
          let R1 := R.modPort u p (fun P => { P with queue := [], closed := true, closing := false })
          if R.isSource u p then R1.pushOut u p [eoiBeat] else R1)) s)
    | _ => nx s

/-- A port holds the barrier entry. -/
def Port.holdsBar (id : Nat) (P : Port) : Bool :=
  P.queue.any (fun e => match e with
                        | .barrier j => j == id
                        | _ => false)
/-- The barrier entry stands at its head. -/
def Port.atBar (id : Nat) (P : Port) : Bool :=
  match P.queue with
  | .barrier j :: _ => j == id
  | _ => false

/-- STREAM_BARRIER_PASS: the barrier passes once every port that holds its entry has reached it (R231). -/
def execStreamBarrierPass (r cl id : Nat) (s : State) : Host.Outcome State Fault Refusal :=
  let R := s.region r
  let ps := (maskPorts cl 0xFFFF).filter (fun p => (R.port p.1 p.2).holdsBar id)
  if R.halt || ps.isEmpty || !ps.all (fun p => (R.port p.1 p.2).atBar id && portRuns R p.1 p.2) then nx s
  else nx (queuesChk r ps (fun s => s.modRegion r (fun R => ps.foldl (fun R p => R.modPort p.1 p.2 (fun P => { P with queue := P.queue.drop 1 })) R)) s)

/-! ### The writes of a load that are on their way (R300) -/

/-- `f` holds of a number below `n`. -/
def anyBelow (f : Nat → Bool) : Nat → Bool
  | 0 => false
  | n + 1 => f n || anyBelow f n
/-- A stream's beat writes to an output tile. -/
def beatHits (c : Context) (r mid : Nat) (s : State) (b : BeatAt) : Bool :=
  match b with
  | .scratch _ _ => false
  | .tensor f tid j =>
    match tensorName c r tid s with
    | .ok (.tensor tn) s1 =>
      match tensorSpan tn f j with
      | some (jn, n) => decide (n ≠ 0) && midOf c r (unitTile tid (tn.tile jn)) s1 == some mid
      | none => false
    | _ => false
/-- A command in the queue of write port `p` of AG `u` has still to write to an output tile. -/
def entryHits (c : Context) (r u p mid : Nat) (s : State) (i : Nat) (e : PortEntry) : Bool :=
  let R := s.region r
  let did := if i = 0 then (R.port u p).done else 0
  match e with
  | .cmd pat base n _ _ =>
    match R.pattern u pat with
    | some q => q.write && q.tensor && anyBelow (fun k => decide (did ≤ k) && beatHits c r mid s (cmdBeat R u q base k)) (q.per * n)
    | none => false
  | .coat ch base beats =>
    decide ((Assoc.get default ch R.coats).kunit = u) && decide ((Assoc.get default ch R.coats).kport = p)
      && anyBelow (fun k => decide (did ≤ k) && beatHits c r mid s (coatBeat R u ch base k)) beats
  | _ => false
/-- A stream of the resident load has still to write to an output tile. [DEDUCED, log 27] -/
def streamHits (c : Context) (r mid : Nat) (s : State) : Bool :=
  (s.region r).ags.any (fun a => a.2.ports.any (fun p => (p.2.queue.zipIdx).any (fun q => entryHits c r a.1 p.1 mid s q.2 q.1)))
/-- A store in a phase buffer or an atomic of the resident load has still to write to an output tile. [DEDUCED, log 27] -/
def storeHits (c : Context) (r mid : Nat) (s : State) : Bool :=
  (s.region r).cores.any (fun q => q.2.phase.any (fun w => w.sp == .g && decide (segMid c w.addr = mid)))
    || (s.region r).atomics.any (fun a => a.glob && decide (segMid c a.addr = mid))
/-- A write of the resident load, of index `l`, has been overtaken at its output tile by a node of a higher index, so that it never performs and
the run comes to nothing (R300). [DEDUCED, log 27] -/
def overtaken (c : Context) (r l : Nat) (s : State) : Bool :=
  let hits (m : Nat) : Bool := streamHits c r m s || storeHits c r m s
  (s.region r).graph.any (fun g => g.ahead.any hits || (g.nodes.zipIdx).any (fun q =>
    decide (l < q.2) && q.1.kind == 2 && (List.range q.1.entered).any (fun k => hits (batchMid c q.1 k))))
/-- A fabric load of a lower index than `n` runs. -/
def loadBelow (g : Graph) (n : Nat) : Bool := (g.nodes.zipIdx).any (fun q => decide (q.2 < n) && q.1.kind == 0 && q.1.st == .running)
/-- A fabric load of a lower index than node `n` runs and has writes on their way to an output tile (R300). What it may write there later is not
known: whether the node goes first is free. [DEDUCED, log 27] -/
def loadHolds (c : Context) (r n : Nat) (mid : Option Nat) (s : State) : Bool :=
  (s.region r).graph.any (fun g => loadBelow g n) && mid.any (fun m => streamHits c r m s || storeHits c r m s)

end Sys2Proof.Machine
end

