-- ==== Sys2Proof/Machine/Coat.lean ====
section
/-! DEFINITION. Coat chains (R236 to R259): CRUN, CEDGE, and the moves of a coat and of its chain's pass controller. -/

namespace Sys2Proof.Machine

/-! ### The checks of CRUN (R241 to R244, R251) -/

/-- The edge policies of an axis that the lattice has. -/
def axisBad (d a : Nat) : Bool :=
  let e0 := latEdge d a 0
  let e1 := latEdge d a 1
  if latAxes d < a then e0 ≠ 0 || e1 ≠ 0 || decide (latX d a ≠ 1)
  else
    latX d a == 0 || decide (4 < e0) || decide (4 < e1)
      || (decide (e0 = 4) != decide (e1 = 4)) || (decide (e0 = 4) && (a ≠ 0 || decide (latX d 0 < latH d)))
      || ((decide (e0 = 3) || decide (e1 = 3)) && decide (latX d a ≤ latH d))

/-- A lattice descriptor breaks R241. -/
def latBad (d : Nat) : Bool :=
  bits d 15 14 ≠ 0 || bits d 63 36 ≠ 0 || bits d 127 88 ≠ 0 || bits d 191 176 ≠ 0
    || latAxes d == 3 || !xformFmt (latFmt d) || latH d == 0 || decide (4 < latH d) || bits d 13 11 == 7 || latSteps d == 0
    || axisBad d 0 || axisBad d 1 || axisBad d 2
    || decide (beatElems (latFmt d) < latFields d * latL d) || decide (latX d 0 % latL d ≠ 0)

/-- Two runs of coordinates share one. -/
def runsMeet (a b n : Nat) : Bool := decide (a < b + n) && decide (b < a + n)
/-- The buffers break R242: in a scratchpad, beyond its end, in a borrowed range, or overlapping; in tensors, overlapping. [DESIGN CHOICE, log 72] -/
def buffersBad (R : Region) (cls : List Nat) (d : Nat) : Bool :=
  let n := latticeBlocks d
  let b0 := latBuf d 0
  let b1 := latBuf d 1
  if latTensor d then
    bits b0 63 48 == bits b1 63 48
      && runsMeet (bits b0 23 0) (bits b1 23 0) (beatElems (latFmt d) * (latX d 0 / latL d))
      && runsMeet (bits b0 47 24) (bits b1 47 24) (latX d 1)
  else
    [b0, b1].any (fun b => decide (2 ^ 22 < b + 64 * n) || cls.any (fun cl => borrowed R cl b (64 * n))) || runsMeet b0 b1 (64 * n)

/-- A tensor holds the blocks of a lattice from the coordinates of a buffer on (R242). [DEDUCED, log 58] -/
def tensorHolds (d b : Nat) (tn : Tensor) : Bool :=
  decide (bits b 23 0 + beatElems (latFmt d) * (latX d 0 / latL d - 1) + latFields d * latL d ≤ tn.x.getD 0 1)
    && decide (bits b 47 24 + latX d 1 ≤ tn.x.getD 1 1) && decide (latX d 2 ≤ tn.x.getD 2 1)
/-- Whether a buffer in a tensor holds a lattice's blocks, then `k`: its tensor-table entry is read for the issuing word, which tries again
while the table's tile is moved. A tid that names no tensor holds none (R242, R251). [DEDUCED, log 58] -/
def withBuffer (d b : Nat) (k : Bool → State → State) (s : State) : State :=
  match s.ctxOf s.hereR with
  | none => k false s
  | some c =>
    let own (x : StopRec) : StopRec := { forTensor (bits b 63 48) 0 false x with
      kind := coreKind s.cur.unit, unit := s.cur.unit, sub := s.cur.slot, position := s.here.pc }
    match tensorName c s.cur.region (bits b 63 48) s with
    | .ok (.tensor tn) s1 => k (tensorHolds d b tn) s1
    | .ok _ s1 => k false s1
    | .wait _ => s
    | .miss st s1 => raise s.cur.region (own (accessRec causeUnresolved 0 st 1)) s1
    | .fail x s1 => raise s.cur.region (own x) s1
/-- Whether both buffers of a descriptor hold the lattice, as far as its tensors say, then `k`. -/
def withBuffers (d : Nat) (k : Bool → State → State) (s : State) : State :=
  if latTensor d then withBuffer d (latBuf d 0) (fun a s => if a then withBuffer d (latBuf d 1) k s else k false s) s else k true s

/-- The 64-byte units a hawk needs (R244). [DEDUCED, log 58] -/
def hawkUnits (d : Nat) : Nat :=
  let h := latH d
  let q := ceilDiv h (latL d)
  let bl := latX d 0 / latL d + 2 * q
  match latAxes d with
  | 0 => if latEdge d 0 0 = 4 then bl + 1 else 2 * q + 2
  | 1 => (2 * h + 1) * bl + 1
  | _ => (2 * h + 1) * (latX d 1 + 2 * h) * bl + 1

/-- A valid tap breaks R243. -/
def tapBad (d : Nat) (t : Tap) : Bool :=
  let far (o : Nat) (a : Nat) : Bool := decide (latH d < (tapOff o).natAbs) || (decide (latAxes d < a) && decide (tapOff o ≠ 0))
  far t.dx 0 || far t.dy 1 || far t.dz 2 || (decide (t.fsel < 4) && decide (latFields d ≤ t.fsel))

/-- The head core of a coat. -/
def Coat.headCore (K : Coat) : Option CoatCore := K.cores.find? (fun c => c.head)
/-- The last core of a coat. -/
def Coat.lastCore (K : Coat) : Option CoatCore := K.cores.find? (fun c => c.last)
/-- The routes of a chain: into each head's iport, and into the sink port (R240). -/
def chainRoutes (R : Region) (C : CoatChain) : List Route :=
  ((C.coats.filterMap (fun k => k.2.headCore)).filterMap (fun c => R.inArc c.unit c.iport) ++ (R.inArc C.kunit C.kport).toList).map
    (fun e => e.2.route)
/-- The types of the stages that read taps in a coat's head. -/
def tapTypes (R : Region) (c : CoatCore) : List Fmt :=
  ((Assoc.get default c.tmpl (R.core c.unit).templates).stages.filter (fun st => readsTap st.word)).map (fun st => (wV st.word.toNat).ty)

/-- A coat breaks R243, R244 or R251 under a descriptor. -/
def coatBad (R : Region) (d : Nat) (K : Coat) : Bool :=
  match K.headCore with
  | none => true
  | some c => decide (c.hsize + 1 < hawkUnits d) || c.taps.any (fun t => tapBad d t.2) || (tapTypes R c).any (fun f => decide (f ≠ latFmt d))

/-- A port of the chain is closed or has an entry (R251). -/
def portTaken (P : Port) : Bool := P.closed || P.closing || !P.queue.isEmpty

/-- A descriptor that CRUN refuses (R251). [DEDUCED, log 58] -/
def crunBad (R : Region) (C : CoatChain) (d : Nat) : Bool :=
  latBad d || buffersBad R [uCl C.sunit, uCl C.kunit] d || C.coats.any (fun k => coatBad R d k.2)
    || (chainRoutes R C).any (fun x => decide (x.dfmt ≠ latFmt d))
    || portTaken (R.port C.sunit C.sport) || portTaken (R.port C.kunit C.kport)

/-! ### Passes (R249) -/

/-- A coat at the start of a pass. -/
def Coat.restart (K : Coat) : Coat := { K with cells := [], next := 0, begun := 0, emitted := 0, drain := false, fin := false, ended := [], edgeNow := [] }

/-- Pass `p` of chain `ch` starts: each coat anew, its header latch too, the source's command over buffer `p` mod 2 and the sink's over the other. -/
def startPass (ch p : Nat) (R : Region) : Region :=
  let C := Assoc.get default ch R.coats
  let d := C.desc.toNat
  let C1 := { C with pass := p, coats := C.coats.map (fun k => (k.1, k.2.restart)) }
  let R1 := (C.coats.filterMap (fun k => k.2.headCore)).foldl (fun R c => R.unlatch c.unit c.iport) { R with coats := Assoc.put ch C1 R.coats }
  let add (b : Nat) (P : Port) : Port := { P with queue := P.queue ++ [.coat ch (toWord b) (latticeBlocks d)], done := 0 }
  (R1.modPort C.sunit C.sport (add (latBuf d (p % 2)))).modPort C.kunit C.kport (add (latBuf d ((p + 1) % 2)))

/-- The chain's status word (R252). -/
def chainWord (C : CoatChain) : Word :=
  if !C.ran then 0
  else toWord (C.steps * 2 ^ 40 + C.passes * 2 ^ 16 + 2 * (C.passes % 2) + b2n (!C.running))

/-- CRUN: checks a lattice descriptor and starts a chain (R250, R251). -/
def execCrun (g : Guard) (d : Reg) (a : Src) (ch : Two) (s : State) : Host.Outcome State Fault Refusal :=
  issue g [a] [d] (fun s =>
    let addr := (rv s a).toNat
    match Assoc.find ch.toNat s.hereR.coats with
    | none => failSpace (rv s a) s
    | some C =>
      if C.running ∨ addr % 64 ≠ 0 ∨ 0x3FFFC0 < addr then failSpace (rv s a) s
      else
        withSRecord addr 8 (fun desc s =>
          if crunBad s.hereR C desc then failSpace (rv s a) s
          else
            withBuffers desc (fun held s =>
              if !held then failSpace (rv s a) s
              else
                done d 0 (s.modHereR (fun R => startPass ch.toNat 0
                  { R with coats := Assoc.put ch.toNat { C with running := true, ran := true, desc := BitVec.ofNat 512 desc, steps := 0, passes := 0 }
                                      R.coats }))) s) s) s

/-- CRUN.wait: waits while the chain runs, then returns its status word and refreshes (R252). -/
def execCrunWait (g : Guard) (d : Reg) (ch : Two) (s : State) : Host.Outcome State Fault Refusal :=
  issue g [] [d] (fun s =>
    match Assoc.find ch.toNat s.hereR.coats with
    | none => failSpace 0 s
    | some C =>
      if C.running then park (.coats ch.toNat) s
      else done d (chainWord C) (refresh s.cur.region s.cur.unit s)) s

/-- The lowest step that the current run still reads (R255). -/
def chainLow (C : CoatChain) : Nat :=
  match chainLowest C (latticeBlocks C.desc.toNat) with
  | some lo => lo
  | none => latSteps C.desc.toNat

/-- The 32-bit words of a record. -/
def words32 (n x : Nat) : List (BitVec 32) := (List.range n).map (fun i => BitVec.ofNat 32 (x / 2 ^ (32 * i)))

/-- New edge words of step `st` replace those under which a block has been admitted and not yet started to fire (R255). [DEDUCED, log 58] -/
def reEdge (ch st : Nat) (l : List (BitVec 32)) (R : Region) : Region :=
  let C := Assoc.get default ch R.coats
  { R with coats := Assoc.put ch { C with coats := C.coats.map (fun k =>
      (k.1, if C.computes k.1 && decide (C.step k.1 = st + 1) && latTable C.desc.toNat && decide (k.2.begun < k.2.next)
            then { k.2 with edgeNow := l } else k.2)) } R.coats }

/-- CEDGE: enters the edge values of a step (R254, R255). -/
def execCedge (g : Guard) (d : Reg) (a b : Src) (ch : Two) (s : State) : Host.Outcome State Fault Refusal :=
  issue g [a, b] [d] (fun s =>
    let addr := (rv s a).toNat
    let st := (rv s b).toNat
    match Assoc.find ch.toNat s.hereR.coats with
    | none => failSpace (rv s a) s
    | some C =>
      if addr % 32 ≠ 0 ∨ 0x3FFFA0 < addr ∨ 2 ^ 24 - 2 < st then failSpace (rv s a) s
      else
        withSRecord addr 12 (fun x s =>
          if C.running ∧ st < chainLow C then done d 1 s
          else if !edgeFree C st then park (.edge ch.toNat st) s
          else
            done d 0 (s.modHereR (fun R => reEdge ch.toNat st (words32 24 x)
              { R with coats := Assoc.put ch.toNat { C with edge := Assoc.put (st % 64) (st, words32 24 x) C.edge } R.coats }))) s) s

/-! ### The moves of a coat (R247, R248) -/

/-- The stop record of a coat: its head core, and the number of the block (R258). -/
def coatRec (C : CoatChain) (ch k : Nat) (K : Coat) (c : CoatCore) : StopRec :=
  { recOf 0x03 0 c.unit with sk := 3, position := toWord K.cells.length, d0 := toWord (ch * 2 ^ 24 + C.step k % 2 ^ 24),
                             d1 := toWord (C.pass * 2 ^ 40 + K.cells.length) }

/-- The edge words of the step that coat `k` reads; none where the table is used and lacks them (R246). -/
def edgeWords (C : CoatChain) (k : Nat) : Option (List (BitVec 32)) :=
  if latTable C.desc.toNat then
    match Assoc.find ((C.step k - 1) % 64) C.edge with
    | some (st, l) => if st = C.step k - 1 then some l else none
    | none => none
  else some []

/-- Every tap of the head finds its cells for block `n` (R248). -/
def blockReady (d : Nat) (K : Coat) (c : CoatCore) (edge : List (BitVec 32)) (n : Nat) : Bool :=
  c.taps.all (fun t => (tapLine d K.cells K.drain edge n t.2).isSome)

/-- The stages tied to the head's blocks have all fired on every block before `n`, or have met the pass's end. -/
def tiedAt (R : Region) (K : Coat) (c : CoatCore) (n : Nat) : Bool :=
  let T := Assoc.get default c.tmpl (R.core c.unit).templates
  (List.range' 1 T.stages.length).all (fun j => !blockTied T j || K.ended.contains (stageKey c.unit j) || (match T.stage j with
                                                                                                          | some st => decide (st.pos = n)
                                                                                                          | none => true))

/-- The next block may be admitted: under which edge words. -/
def admits (R : Region) (C : CoatChain) (k : Nat) (K : Coat) (c : CoatCore) : Option (List (BitVec 32)) :=
  let d := C.desc.toNat
  if K.next < latticeBlocks d ∧ tiedAt R K c K.next = true then
    match edgeWords C k with
    | some e => if blockReady d K c e K.next then some e else none
    | none => none
  else none

/-- A pass-through coat forwards the beat at its head's iport (R249). [DEDUCED, log 58] -/
def coatForward (r ch k : Nat) (c o : CoatCore) (s : State) : State :=
  let R := s.region r
  match R.headIn c.unit c.iport with
  | none => s
  | some b =>
    if b.lift then s
    else if !(if b.marker then R.roomOutMark o.unit o.oport else R.roomOut o.unit o.oport 1) then s
    else
      fifosChk r (R.headOf c.unit [c.iport]) (fun s => s.modRegion r (fun R =>
        ((R.popIn c.unit c.iport 1).pushOut o.unit o.oport [b]).modCoat ch k (fun K => { K with fin := K.fin || b.eoi }))) s

/-- A computing coat takes a data beat into its hawk; one beyond the count is SPACE (R247). [DEDUCED, log 58] -/
def coatTake (r ch k : Nat) (C : CoatChain) (K : Coat) (c : CoatCore) (s : State) : State :=
  let R := s.region r
  match R.headIn c.unit c.iport with
  | none => s
  | some b =>
    if !b.isData then s
    else
      fifosChk r (R.headOf c.unit [c.iport]) (fun s =>
        if latticeBlocks C.desc.toNat ≤ K.cells.length then raise r (coatRec C ch k K c) s
        else s.modRegion r (fun R => (R.popIn c.unit c.iport 1).modCoat ch k (fun K => { K with cells := K.cells ++ [b.data] }))) s

/-- The hawk of coat `k` may move: the chain runs, the region runs, and the coat has not saved its state. -/
def coatLive (R : Region) (ch k : Nat) : Bool :=
  !R.halt && !R.frozen (.coat ch k) && (Assoc.get default ch R.coats).running && !(R.coat ch k).fin

/-- COAT_FIRING: coat `k` of chain `ch` admits its next block, on which its templates then fire; or takes a beat into its hawk; a
pass-through coat forwards a beat (R247 to R249). [DEDUCED, log 58] -/
def execCoatFiring (r ch k : Nat) (s : State) : Host.Outcome State Fault Refusal :=
  let R := s.region r
  let C := Assoc.get default ch R.coats
  let K := R.coat ch k
  match K.headCore, K.lastCore with
  | some c, some o =>
    if !coatLive R ch k then nx s
    else if !C.computes k then nx (coatForward r ch k c o s)
    else
      match admits R C k K c with
      | some e =>
        nx (readChk r 6 (uCl c.unit) (c.hmu * 2 ^ 17 + c.hbase * 8) (c.hmu * 2 ^ 17 + (c.hbase + c.hsize) * 8 + 7)
          (c.hmu * 2 ^ 20 + c.hbase * 64) { coatRec C ch k K c with position := toWord K.next }
          (fun s => s.modRegion r (fun R => R.modCoat ch k (fun K => { K with next := K.next + 1, edgeNow := e }))) s)
      | none => nx (coatTake r ch k C K c s)
  | _, _ => nx s

/-- COAT_DRAIN: the pass's eoi at a computing coat's iport begins its drain: the high side is synthesised and the remaining blocks may fire;
the coat's last stage emits eoi behind its last block (R247, R80). Too few cells is SPACE. [DEDUCED, log 58] -/
def execCoatDrain (r ch k : Nat) (s : State) : Host.Outcome State Fault Refusal :=
  let R := s.region r
  let C := Assoc.get default ch R.coats
  let K := R.coat ch k
  match K.headCore with
  | none => nx s
  | some c =>
    if !coatLive R ch k || K.drain || !C.computes k || !R.eoiIn c.unit c.iport 0 then nx s
    else
      nx (fifosChk r (R.headOf c.unit [c.iport]) (fun s =>
        if K.cells.length < latticeBlocks C.desc.toNat then raise r (coatRec C ch k K c) s
        else s.modRegion r (fun R => ((R.popIn c.unit c.iport 1).unlatch c.unit c.iport).modCoat ch k (fun K => { K with drain := true }))) s)

/-- A port still holds a chain's command. -/
def holdsCoat (ch : Nat) (P : Port) : Bool :=
  P.queue.any (fun e => match e with
                        | .coat c _ _ => c == ch
                        | _ => false)

/-- Coat `k` has handled the pass's eoi: its last core has sent it on, and where it computes every stage of its cores' templates to which one
comes has met it (R249). [DEDUCED, log 15] -/
def coatOver (R : Region) (C : CoatChain) (k : Nat) (K : Coat) : Bool :=
  K.fin && (!C.computes k || K.cores.all (fun c =>
    let T := Assoc.get default c.tmpl (R.core c.unit).templates
    (List.range' 1 T.stages.length).all (fun j => K.ended.contains (stageKey c.unit j) || (match T.stage j with
                                                                                          | some st => !meetsEoi R c.unit c.tmpl T j st
                                                                                          | none => true))))

/-- COAT_PASS_START: once the sink has written its last beat and every coat has handled the eoi, the pass is over; the next pass starts, or
the run ends (R249, R252); while a pre-emption is under way too, so that the controller saves the pass about to start (R256). [DEDUCED, log 58] -/
def execCoatPassStart (r ch : Nat) (s : State) : Host.Outcome State Fault Refusal :=
  let R := s.region r
  let C := Assoc.get default ch R.coats
  if R.halt || !C.running || holdsCoat ch (R.port C.sunit C.sport) || holdsCoat ch (R.port C.kunit C.kport)
      || !C.coats.all (fun k => coatOver R C k.1 k.2) then nx s
  else
    let t := latSteps C.desc.toNat
    let C1 := { C with passes := C.passes + 1, steps := min t ((C.pass + 1) * C.depth) }
    let last := decide (t ≤ (C.pass + 1) * C.depth)
    let R1 := { R with coats := Assoc.put ch { C1 with running := !last } R.coats }
    nx (s.setRegion r (if last then R1 else startPass ch (C.pass + 1) R1))

end Sys2Proof.Machine
end

