-- ==== Sys2Proof/Machine/Mx.lean ====
section
/-! DEFINITION. The matrix unit (R260 to R283): MSCALE, MWLOAD, MARM and GARM, panel loads, and the firings of a section. -/

namespace Sys2Proof.Machine

/-! ### Sections and panels -/

/-- The MX of the cursor's cluster. -/
def mxUnit (s : State) : Nat := mkUnit s.hereCl 2 0
/-- Section `sec` of MX `u`, if it exists. -/
def Region.section (R : Region) (u sec : Nat) : Option Section := Assoc.find sec (R.mx u).sections
/-- Put a section back. -/
def Region.setSection (u sec : Nat) (x : Section) (R : Region) : Region :=
  R.modMx u (fun m => { m with sections := Assoc.put sec x m.sections })
/-- The section names the panel slot. -/
def Section.names (x : Section) (slot : Nat) : Bool := decide (x.pfirst ≤ slot) && decide (slot < x.pfirst + x.kp)
/-- A section with a count above 0 names the slot. -/
def Mx.armedSlot (m : Mx) (slot : Nat) : Bool := m.sections.any (fun p => decide (0 < p.2.count) && p.2.names slot)
/-- Two runs of units share one. -/
def unitsMeet (a n b k : Nat) : Bool := decide (a < b + k) && decide (b < a + n)
/-- The units overlap a valid slot that an armed section names (R275). -/
def Mx.armedUnits (m : Mx) (off len : Nat) : Bool :=
  m.panels.any (fun p => p.2.valid && m.armedSlot p.1 && unitsMeet off len p.2.off p.2.len)

/-- K-vectors per firing (R261). -/
def Section.q (x : Section) : Nat := if fmtBits x.afmt = 4 ∧ fmtBits x.bfmt = 4 then 2 else 1
/-- A beats per firing (R261). -/
def Section.rate (x : Section) : Nat := x.q * 128 / beatElems x.afmt
/-- Firings per work tile (R270). -/
def Section.tile (x : Section) : Nat := x.kp / x.q * x.g
/-- The accumulator format is INT32. -/
def Section.isInt (x : Section) : Bool := fmtInt x.bfmt

/-- The formats of an MX operand (R260). -/
def mxFmt : Fmt → Bool
  | .int32 | .fp64 => false
  | .int4 | .int8 | .uint8 | .int16 | .fp4 | .fp6a | .fp6b | .fp8a | .fp8b | .df8 | .fp16 | .bf16 | .fp32 | .uint16 => true

/-! ### Panel images (R265, R266) -/

/-- Fields of a panel header. -/
def hdrNnz (h : Nat) : Nat := bits h 47 32
/-- No bitmap, and every element stored. -/
def hdrDense (h : Nat) : Bool := bit h 6
/-- The scale mode. -/
def hdrSmod (h : Nat) : Nat := bits h 5 4
/-- The format of B. -/
def hdrFmt (h : Nat) : Fmt := fmtOf (bits h 3 0)
/-- A header that MWLOAD refuses (R265), but for the bitmap's count. [DEDUCED, log 33] -/
def hdrBad (h : Nat) : Bool :=
  h / 2 ^ 48 ≠ 0 || bits h 31 7 ≠ 0 || !mxFmt (hdrFmt h) || hdrSmod h == 3 || decide (16384 < hdrNnz h)
    || (hdrDense h && decide (hdrNnz h ≠ 16384))
/-- Units of the bitmap, of the scales, and of the values. -/
def hdrMapUnits (h : Nat) : Nat := if hdrDense h then 0 else 32
/-- Units of the scales. -/
def hdrScaleUnits (h : Nat) : Nat :=
  match hdrSmod h with
  | 1 => 16
  | 2 => 8
  | _ => 0
/-- Units of the values. -/
def hdrValueUnits (h : Nat) : Nat := ((hdrNnz h * fmtBits (hdrFmt h) + 7) / 8 + 63) / 64
/-- Units of the image. -/
def hdrUnits (h : Nat) : Nat := 1 + hdrMapUnits h + hdrScaleUnits h + hdrValueUnits h

/-- Unit `i` of the weight buffer. -/
def Mx.unit (m : Mx) (i : Nat) : Line := Assoc.get 0 i m.buffer
/-- The bits of `n` units from `i` on, as one number. -/
def Mx.unitBits (m : Mx) (i n : Nat) : Nat := packElems 512 ((List.range n).map (fun k => (m.unit (i + k)).toNat))
/-- The bitmap of an image. -/
def Mx.bitmap (m : Mx) (off : Nat) : List Bool :=
  let h := (m.unit off).toNat
  if hdrDense h then rep 16384 true
  else
    let b := m.unitBits (off + 1) 32
    (List.range 16384).map (fun i => bit b i)
/-- Lay the stored values where the bitmap has them, and zero elsewhere (R266). -/
def expandBits : List Bool → List Nat → List Nat
  | [], _ => []
  | true :: t, v :: vs => v :: expandBits t vs
  | true :: t, [] => 0 :: expandBits t []
  | false :: t, vs => 0 :: expandBits t vs
/-- The elements of a panel's image: element `128 n + k` is row `k` of column `n`. -/
def Mx.panelElems (m : Mx) (off : Nat) : List Nat :=
  let h := (m.unit off).toNat
  let w := fmtBits (hdrFmt h)
  let v := m.unitBits (off + 1 + hdrMapUnits h + hdrScaleUnits h) (hdrValueUnits h)
  expandBits (m.bitmap off) ((List.range (hdrNnz h)).map (fun i => v / 2 ^ (w * i) % 2 ^ w))
/-- The scale of block `b` of column `n`. -/
def Mx.panelScale (m : Mx) (off n b : Nat) : XNum :=
  let h := (m.unit off).toNat
  let z := m.unitBits (off + 1 + hdrMapUnits h) (hdrScaleUnits h)
  match hdrSmod h with
  | 1 => decodeNum .bf16 (z / 2 ^ (16 * (4 * n + b)) % 2 ^ 16)
  | 2 => e8m0 (z / 2 ^ (8 * (4 * n + b)) % 2 ^ 8)
  | _ => .fin false 1 1

/-! ### MSCALE (R277) -/

/-- `round(FP32, RNE, exact(tA * tB))`, with its flags. -/
def scaleProduct (a b : Word) : Nat × Flg :=
  let p := numMul (decodeNum .fp32 (bits a.toNat 31 0)) (decodeNum .fp32 (bits b.toNat 31 0))
  let q := encodeNum .fp32 false .rne false 0 p.1
  (q.1, p.2 ||| q.2)

/-- MSCALE: the core's tensor scale, once the chains accepted before have ended (R277). -/
def execMscale (g : Guard) (d : Reg) (a b : Src) (s : State) : Host.Outcome State Fault Refusal :=
  issue g [a, b] [d] (fun s =>
    let c := s.hereC
    let t := scaleProduct (rv s a) (rv s b)
    if isCtl s.cur.unit then failSpace 0 s
    else if !c.chains.isEmpty && decide (s.here.prog ≠ .accepted) then parkAt (.chainsEnd ((c.nextTicket + 2 ^ 16 - 1) % 2 ^ 16)) .accepted s
    else doneFl d (toWord t.1) t.2 (s.modHereC (fun c => { c with scale := BitVec.ofNat 32 t.1 }))) s

/-- MSCALE.mx: the MX's tensor scale (R277). -/
def execMscaleMx (g : Guard) (d : Reg) (a b : Src) (s : State) : Host.Outcome State Fault Refusal :=
  issue g [a, b] [d] (fun s =>
    let t := scaleProduct (rv s a) (rv s b)
    doneFl d (toWord t.1) t.2 (s.modHereR (fun R => R.modMx (mxUnit s) (fun m => { m with scale := BitVec.ofNat 32 t.1 })))) s

/-! ### MWLOAD (R275) -/

/-- Mark a slot invalid. -/
def Mx.invalidate (slot : Nat) (m : Mx) : Mx :=
  match Assoc.find slot m.panels with
  | some p => { m with panels := Assoc.put slot { p with valid := false } m.panels }
  | none => m

/-- Append a load, or wait for a place in the queue. -/
def queueLoad (d : Reg) (slot off : Nat) (src : Option Nat) (len : Nat) (s : State) : State :=
  let u := mxUnit s
  if 4 ≤ ((s.hereR.mx u).loads).length then park (.mxQueue u) s
  else
    done d 0 (s.modHereR (fun R => R.modMx u (fun m =>
      { m.invalidate slot with
        loads := m.loads ++ [{ slot := slot, off := off, src := src, started := false, len := len, got := 0, id := m.loadId }],
        loadId := m.loadId + 1 })))

/-- MWLOAD: a panel from the scratchpad (R275). -/
def execMwload (g : Guard) (d : Reg) (a b c : Src) (s : State) : Host.Outcome State Fault Refusal :=
  issue g [a, b, c] [d] (fun s =>
    let m := s.hereR.mx (mxUnit s)
    let addr := (rv s a).toNat
    let slot := (rv s b).toNat
    let off := (rv s c).toNat
    if 63 < slot ∨ 24575 < off ∨ m.armedSlot slot = true ∨ addr % 64 ≠ 0 ∨ 0x3FFFC0 < addr ∨ borrowed s.hereR s.hereCl addr 64 = true then
      failSpace (rv s a) s
    else
      readChk s.cur.region 6 s.hereCl (addr / 8) (addr / 8 + 7) addr (slotRec 0x14 0 0 0 s) (fun s =>
        let h := ofBytesLE (s.sRead s.cur.region s.hereCl addr 64)
        let n := hdrUnits h
        if hdrBad h || decide (2 ^ 22 < addr + 64 * n) || borrowed s.hereR s.hereCl addr (64 * n) || decide (24576 < off + n)
            || (s.hereR.mx (mxUnit s)).armedUnits off n then failSpace (rv s a) s
        else queueLoad d slot off (some addr) n s) s) s

/-- MWLOAD.p: a panel from input 4 (R275). -/
def execMwloadP (g : Guard) (d : Reg) (b c : Src) (s : State) : Host.Outcome State Fault Refusal :=
  issue g [b, c] [d] (fun s =>
    let slot := (rv s b).toNat
    let off := (rv s c).toNat
    if 63 < slot ∨ 24575 < off ∨ (s.hereR.mx (mxUnit s)).armedSlot slot = true then failSpace 0 s
    else queueLoad d slot off none 0 s) s

/-! ### MARM and GARM (R276, R304) -/

/-- A slot of the section is not valid, or holds another format or scale mode. -/
def Mx.mismatch (m : Mx) (x : Section) : Option Nat :=
  (List.range' x.pfirst x.kp).find? (fun k =>
    match Assoc.find k m.panels with
    | some p => !p.valid || decide (p.fmt ≠ x.bfmt) || decide (p.smod ≠ x.smod)
    | none => true)

/-- A count that may not be added (R276). -/
def armBad (x : Section) (n : Nat) : Bool := n == 0 || decide (2 ^ 24 - 1 < n) || decide (2 ^ 32 - 1 < x.count + n)

/-- MARM: adds to a section's count once the loads accepted before to its slots have ended (R276). -/
def execMarm (g : Guard) (d : Reg) (a : Src) (sec : Two) (s : State) : Host.Outcome State Fault Refusal :=
  issue g [a] [d] (fun s =>
    let u := mxUnit s
    let m := s.hereR.mx u
    let n := (rv s a).toNat
    match s.hereR.section u sec.toNat with
    | none => failSpace 0 s
    | some x =>
      if armBad x n then failSpace 0 s
      else if m.loads.any (fun l => x.names l.slot) && decide (s.here.prog ≠ .accepted) then
        parkAt (.panels u x.pfirst (x.pfirst + x.kp - 1) m.loadId) .accepted s
      else if (m.mismatch x).isSome then failSpace 0 s
      else
        done d (toWord (x.count + n)) (s.modHereR (fun R => R.setSection u sec.toNat { x with count := x.count + n }))) s

/-- MARM.q: a section's count (R276). -/
def execMarmQ (g : Guard) (d : Reg) (sec : Two) (s : State) : Host.Outcome State Fault Refusal :=
  issue g [] [d] (fun s =>
    match s.hereR.section (mxUnit s) sec.toNat with
    | none => failSpace 0 s
    | some x => done d (toWord x.count) s) s

/-- MARM.wait: waits until the section's count is 0; the work tiles completed since load (R276). -/
def execMarmWait (g : Guard) (d : Reg) (sec : Two) (s : State) : Host.Outcome State Fault Refusal :=
  issue g [] [d] (fun s =>
    match s.hereR.section (mxUnit s) sec.toNat with
    | none => failSpace 0 s
    | some x => if x.count = 0 then done d (toWord x.tiles) s else park (.mxIdle (mxUnit s) sec.toNat) s) s

/-- MARM.flags: reads and clears a section's flags word (R276). -/
def execMarmFlags (g : Guard) (d : Reg) (sec : Two) (s : State) : Host.Outcome State Fault Refusal :=
  issue g [] [d] (fun s =>
    match s.hereR.section (mxUnit s) sec.toNat with
    | none => failSpace 0 s
    | some x =>
      done d (toWord x.flags.toNat) (s.modHereR (fun R => R.setSection (mxUnit s) sec.toNat { x with flags := 0 }))) s

/-- The section that GARM's operands name; none where they name none (R304). -/
def garmSection (R : Region) (u : Word) (sec : Nat) : Option Section :=
  if 2 ^ 16 ≤ u.toNat ∨ unitOk R u.toNat = false ∨ uKind u.toNat ≠ 2 then none else R.section u.toNat sec

/-- GARM: adds to a section's count anywhere in the region, and leaves the check of its slots to the MX (R304). [DEDUCED, log 60] -/
def execGarm (g : Guard) (d : Reg) (a b : Src) (sec : Two) (s : State) : Host.Outcome State Fault Refusal :=
  issue g [a, b] [d] (fun s =>
    let n := (rv s b).toNat
    match garmSection s.hereR (rv s a) sec.toNat with
    | none => failSpace 0 s
    | some x =>
      if armBad x n then failSpace 0 s
      else
        done d (toWord (x.count + n))
          (s.modHereR (fun R => R.setSection (rv s a).toNat sec.toNat { x with count := x.count + n, check := true }))) s

/-- GARM.q: a section's count anywhere in the region (R304). -/
def execGarmQ (g : Guard) (d : Reg) (a : Src) (sec : Two) (s : State) : Host.Outcome State Fault Refusal :=
  issue g [a] [d] (fun s =>
    match garmSection s.hereR (rv s a) sec.toNat with
    | none => failSpace 0 s
    | some x => done d (toWord x.count) s) s

/-! ### Panel loads (R275) -/

/-- SPACE raised by the MX about a load (R279). [DEDUCED, log 33] -/
def loadRec (u : Nat) (l : PanelLoad) : StopRec :=
  { recOf 0x03 2 u with sub := if l.src.isSome then 5 else 4, sk := 3,
                        d0 := toWord ((if l.src.isSome then 5 else 4) + l.slot * 2 ^ 8), d1 := 1 }
/-- The load at the head of the queue, if the MX may move. [DEDUCED, log 33] -/
def loadAt (R : Region) (u : Nat) : Option PanelLoad :=
  if R.halt || R.frozen (.unit u) then none else (R.mx u).loads.head?
/-- Put the load at the head of the queue back. -/
def setLoad (l : PanelLoad) (m : Mx) : Mx := { m with loads := l :: m.loads.drop 1 }
/-- A load starts writing `len` units: every valid slot that it overlaps is invalid from now on. -/
def Mx.startLoad (l : PanelLoad) (len : Nat) (m : Mx) : Mx :=
  setLoad { l with started := true, len := len }
    { m with panels := m.panels.map (fun p => (p.1, if unitsMeet l.off len p.2.off p.2.len then { p.2 with valid := false } else p.2)) }
/-- Write unit `i` of the weight buffer. -/
def writeUnit (r u i : Nat) (x : Line) (s : State) : State :=
  let s1 := s.modRegion r (fun R => R.modMx u (fun m => { m with buffer := Assoc.set 0 i x m.buffer }))
  { s1 with errors := clearErr r 9 u (8 * i) 8 s1.errors }
/-- One more unit has arrived. -/
def gotUnit (r u : Nat) (l : PanelLoad) (s : State) : State := s.modRegion r (fun R => R.modMx u (setLoad { l with got := l.got + 1 }))

/-- PANEL_LOAD_START: the queue's head load starts: from the scratchpad at once, from input 4 with its header beat; the armed slots are
checked again (R275). -/
def execPanelLoadStart (r u : Nat) (s : State) : Host.Outcome State Fault Refusal :=
  let R := s.region r
  match loadAt R u with
  | none => nx s
  | some l =>
    if l.started then nx s
    else
      match l.src with
      | some _ =>
        if (R.mx u).armedUnits l.off l.len then nx (raise r (loadRec u l) s)
        else nx (s.setRegion r (R.modMx u (Mx.startLoad l l.len)))
      | none =>
        match R.headIn u 4 with
        | none => nx s
        | some b =>
          if !b.isData then nx s
          else
            nx (fifosChk r (R.headOf u [4]) (fun s =>
              let R := s.region r
              let h := b.data.toNat
              let s1 := s.setRegion r (R.popIn u 4 1)
              if hdrBad h || decide (24576 < l.off + hdrUnits h) || (R.mx u).armedUnits l.off (hdrUnits h) then raise r (loadRec u l) s1
              else
                writeUnit r u l.off b.data
                  (s1.modRegion r (fun R => R.modMx u (Mx.startLoad { l with got := 1 } (hdrUnits h))))) s)

/-- PANEL_UNIT_ARRIVAL: the next unit of the load under way arrives; an eoi on input 4 before the last one is SPACE (R275). [DEDUCED, log 33] -/
def execPanelUnitArrival (r u : Nat) (s : State) : Host.Outcome State Fault Refusal :=
  let R := s.region r
  match loadAt R u with
  | none => nx s
  | some l =>
    if !l.started || decide (l.len ≤ l.got) then nx s
    else
      match l.src with
      | some a =>
        nx (piecesChk r (uCl u) (loadRec u l) [(a + 64 * l.got, 64)] (fun s =>
          gotUnit r u l (writeUnit r u (l.off + l.got) (BitVec.ofNat 512 (ofBytesLE (s.sRead r (uCl u) (a + 64 * l.got) 64))) s)) s)
      | none =>
        match R.headIn u 4 with
        | none => nx s
        | some b =>
          if b.eoi then nx (fifosChk r (R.headOf u [4]) (raise r (loadRec u l)) s)
          else if !b.isData then nx s
          else
            nx (fifosChk r (R.headOf u [4]) (fun s =>
              gotUnit r u l (writeUnit r u (l.off + l.got) b.data (s.modRegion r (fun R => R.popIn u 4 1)))) s)

/-- The digest of an image (R267): R122's loop over its bytes. [DEDUCED, log 37] -/
def imageDigest (m : Mx) (off len : Nat) : Word := (bytesLE (64 * len) (m.unitBits off len)).foldl crcByte 0

/-- PANEL_LOAD_END: every unit has arrived: the bitmap's count is compared, and the slot is valid (R275). [DEDUCED, log 33] -/
def execPanelLoadEnd (r u : Nat) (s : State) : Host.Outcome State Fault Refusal :=
  let R := s.region r
  match loadAt R u with
  | none => nx s
  | some l =>
    if !l.started || decide (l.got < l.len) then nx s
    else
      let m := R.mx u
      let h := (m.unit l.off).toNat
      if hdrBad h || decide (hdrUnits h ≠ l.len) || (!hdrDense h && decide (((m.bitmap l.off).filter id).length ≠ hdrNnz h)) then
        nx (raise r (loadRec u l) s)
      else
        let p : Panel := { valid := true, off := l.off, len := l.len, fmt := hdrFmt h, smod := hdrSmod h, src := l.src,
                           digest := imageDigest m l.off l.len }
        let s1 := s.setRegion r (R.modMx u (fun m => { m with panels := Assoc.put l.slot p m.panels, loads := m.loads.drop 1 }))
        nx { s1 with errors := clearErr r 9 u (8 * (24576 + l.slot)) 8 s1.errors }

/-- INPUT4_EOI_DROP: an eoi at the head of input 4 while no port load is under way is dropped (R275). -/
def execInput4EoiDrop (r u : Nat) (s : State) : Host.Outcome State Fault Refusal :=
  let R := s.region r
  if R.halt || R.frozen (.unit u) || !R.eoiIn u 4 0 || (R.mx u).loads.any (fun l => l.started && l.src.isNone) then nx s
  else nx (fifosChk r (R.headOf u [4]) (fun s => s.modRegion r (fun R => R.popIn u 4 1)) s)

/-! ### Firings (R268 to R272) -/

/-- The stop record of a section (R279): the reason, and the slot concerned. -/
def sectionRec (u sec : Nat) (x : Section) (reason slot : Nat) : StopRec :=
  { recOf 0x03 2 u with sub := sec, sk := 3, position := toWord (x.tiles * 2 ^ 16 + x.j), d0 := toWord (sec + slot * 2 ^ 8),
                        d1 := toWord reason }

/-- GARM_CHECK: the slots of a check-pending section are all valid: their formats and scale modes are checked (R304). [DEDUCED, log 60] -/
def execGarmCheck (r u sec : Nat) (s : State) : Host.Outcome State Fault Refusal :=
  let R := s.region r
  match R.section u sec with
  | none => nx s
  | some x =>
    let ok (k : Nat) : Bool := match Assoc.find k (R.mx u).panels with
                               | some p => p.valid
                               | none => false
    if R.halt || R.frozen (.mx u sec) || !x.check || !(List.range' x.pfirst x.kp).all ok then nx s
    else
      match (R.mx u).mismatch x with
      | some k => nx (raise r (sectionRec u sec x 1 k) s)
      | none => nx (s.setRegion r (R.setSection u sec { x with check := false }))

/-- What a header beat does to a section: its scale and mark are latched (R67, R269); none where its layout is wrong. -/
def Section.header (b : Beat) (x : Section) : Option Section :=
  if headerOk b then some { x with latch := headerScale b, lot := headerLot b, hdr := true } else none

/-- The outcome of collecting a firing's A beats: the data beats, each with the header scale it stands under, the section's latch after
them, and how many beats were taken; or too few beats; or a breach, by its reason and the beats read up to it. -/
inductive Collect where
  | ok (l : List (Beat × Nat)) (x : Section) (taken : Nat)
  | short
  | breach (reason taken : Nat)

/-- Take data beats off a FIFO until there are enough, latching headers in compatibility mode on the way (R67, R269, R270): beat `i` of
the firing. -/
def collect (x : Section) (taken i : Nat) : List Beat → Collect
  | [] => if x.rate ≤ i then .ok [] x taken else .short
  | b :: t =>
    if x.rate ≤ i then .ok [] x taken
    else if b.marker then .short
    else if b.hdr then
      match x.header b with
      | some y => collect y (taken + 1) i t
      | none => .breach 2 (taken + 1)
    else if x.hdr && decide (i * beatElems x.afmt % 32 ≠ 0) then .breach 3 (taken + 1)
    else if x.hdr && x.lot && decide (x.j + 1 ≠ x.tile) then .breach 4 (taken + 1)
    else
      match collect { x with hdr := false } (taken + 1) (i + 1) t with
      | .ok l y n => .ok ((b, x.latch) :: l) y n
      | c => c

/-- The beats of the section's next firing: those in its operand collector, then those of its arc (R270, R282). -/
def collectAll (x : Section) (l : List Beat) : Collect :=
  match collect x 0 x.coll.length l with
  | .ok t y n => .ok (x.coll ++ t) { y with coll := [] } n
  | c => c
/-- What the operand collector takes at a lift marker: the beats of a firing that is not complete, and how many beats leave the arc (R282). -/
def gatherShort (x : Section) (taken : Nat) : List Beat → Section × Nat
  | [] => (x, taken)
  | b :: t =>
    if b.marker || decide (x.rate ≤ x.coll.length + 1) then (x, taken)
    else if b.hdr then
      match x.header b with
      | some y => gatherShort y (taken + 1) t
      | none => (x, taken)
    else if (x.hdr && decide (x.coll.length * beatElems x.afmt % 32 ≠ 0)) || (x.hdr && x.lot && decide (x.j + 1 ≠ x.tile)) then (x, taken)
    else gatherShort { x with hdr := false, coll := x.coll ++ [(b, x.latch)] } (taken + 1) t

/-- The A elements of a firing. -/
def aElems (x : Section) (l : List (Beat × Nat)) : List Nat := l.flatMap (fun b => elemsOf x.afmt b.1.data)
/-- The scale of the block that begins at element `q` of a firing: in native mode from the side lane of the beat that carries it
(R268), in compatibility mode the latched header's (R269). -/
def aScale (x : Section) (l : List (Beat × Nat)) (q : Nat) : XNum :=
  let e := beatElems x.afmt
  match l[q / e]? with
  | none => .fin false 1 1
  | some b =>
    match x.smod with
    | 1 => decodeNum .bf16 (b.1.side.toNat / 2 ^ (16 * (q % e / 32)) % 2 ^ 16)
    | 2 => e8m0 b.2
    | _ => .fin false 1 1

/-- A zero of either sign, or of an undecided one, as +0 (R271). -/
def plusZero (x : XNum) : XNum := if x.isZero then .zero false else x

/-- A value rounded to FP32, RNE, without .sat. -/
def toFp32 (x : XNum) : Nat × Flg := encodeNum .fp32 false .rne false 0 (plusZero x)

/-- accumulate() of the float set (R271): the block's products, its scale, and the accumulator. -/
def accFloat (acc : Nat × Flg) (ps : List (XNum × Flg)) (sc : XNum × Flg) : Nat × Flg :=
  let sum := numSum (ps.map (fun p => p.1))
  let pf := ps.foldl (fun f p => f ||| p.2) flNone
  let m := numMul sum.1 sc.1
  let blk := toFp32 m.1
  let add := numSum [decodeNum .fp32 acc.1, decodeNum .fp32 blk.1]
  let out := toFp32 add.1
  (out.1, acc.2 ||| pf ||| sum.2 ||| sc.2 ||| m.2 ||| blk.2 ||| add.2 ||| out.2)

/-- An integer element's value. -/
def intVal (f : Fmt) (x : Nat) : Int :=
  match fmtKind f with
  | .int false => (x % 2 ^ fmtBits f : Nat)
  | _ => sextN (fmtBits f) x

/-- accumulate() of the integer set: one clamp per block. -/
def accIntBlock (acc : Nat × Flg) (sum : Int) : Nat × Flg :=
  let q := intResult 32 true (sMin 32) (sMax 32) (sextN 32 acc.1 + sum)
  (q.1, acc.2 ||| (if q.2 = 0 then flNone else flOfNx))

/-- One output element after a firing: blocks in increasing K order (R270). -/
def outElem (x : Section) (m : Mx) (l : List (Beat × Nat)) (as : List Nat) (offs : List (Nat × List Nat)) (n : Nat) (acc : Nat) : Nat × Flg :=
  ((offs.zipIdx).flatMap (fun p => (List.range 4).map (fun b => (p.2, p.1, b)))).foldl (fun a p =>
    let u := p.1
    let bs := (p.2.1.2.drop (128 * n + 32 * p.2.2)).take 32
    let xs := (as.drop (128 * u + 32 * p.2.2)).take 32
    if x.isInt then accIntBlock a ((xs.zip bs).foldl (fun (t : Int) e => t + intVal x.afmt e.1 * intVal x.bfmt e.2) 0)
    else
      accFloat a ((xs.zip bs).map (fun e => numMul (decodeNum x.afmt e.1) (decodeNum x.bfmt e.2)))
        (if x.smod = 0 then (.fin false 1 1, flNone) else numMul (aScale x l (128 * u + 32 * p.2.2)) (m.panelScale p.2.1.1 n p.2.2))) (acc, flNone)

/-- The node of the section's next firing. -/
def Section.node (x : Section) : Nat := x.node0 + x.j % x.g
/-- The panels of the section's next firing: offset in the weight buffer and elements. -/
def Section.steps (m : Mx) (x : Section) : List (Nat × List Nat) :=
  (List.range x.q).map (fun u =>
    let p := Assoc.get default (x.pfirst + x.j / x.g * x.q + u) m.panels
    (p.off, m.panelElems p.off))

/-- The row of a node. -/
def Mx.row (m : Mx) (node : Nat) : List Nat := (List.range 128).map (fun n => (Assoc.get 0 (128 * node + n) m.bank).toNat)
/-- Put a row. -/
def Mx.setRow (node : Nat) (l : List Nat) (m : Mx) : Mx :=
  { m with bank := (l.zipIdx).foldl (fun b p => Assoc.set 0 (128 * node + p.2) (BitVec.ofNat 32 p.1) b) m.bank }
/-- The beats of a released row: element `n` in beat `n / 16`, with no control bit (R272). -/
def rowBeats (l : List Nat) : List Beat := (cutBeats 16 8 l).1.map (fun t => dataBeat (BitVec.ofNat 512 (packElems 32 t)))

/-- The section after a firing (R270): the next firing of the tile, or the next tile. -/
def Section.advance (fl : Flg) (x : Section) : Section :=
  let y := { x with flags := x.flags ||| fl }
  if x.tile ≤ x.j + 1 then { y with j := 0, count := x.count - 1, tiles := x.tiles + 1 } else { y with j := x.j + 1 }

/-- A firing of section `sec` (R270 to R272): the beats taken, the row formed, and the row pushed and cleared where it is released. -/
def fireSection (r u sec : Nat) (l : List (Beat × Nat)) (y : Section) (taken : Nat) (s : State) : State :=
  let R := s.region r
  let m := R.mx u
  let as := aElems y l
  let ps := y.steps m
  let es := ((m.row y.node).zipIdx).map (fun p => outElem y m l as ps p.2 p.1)
  let row := es.map (fun e => e.1)
  let fl := es.foldl (fun f e => f ||| e.2) flNone
  let n := Assoc.get 0 y.node m.eors + b2n (l.any (fun b => b.1.eor))
  let out := decide (y.ecnt ≤ n)
  let m1 := (m.setRow y.node (if out then rep 128 0 else row))
  let m2 := { m1 with eors := Assoc.set 0 y.node (if out then 0 else n) m1.eors }
  let R1 := (R.popIn u sec taken).modMx u (fun _ => { m2 with rot := (sec + 1) % 4 })
  let R2 := R1.setSection u sec (y.advance fl)
  s.setRegion r (if out then R2.pushOut u sec (rowBeats row) else R2)

/-- The firing releases its row. -/
def releases (m : Mx) (x : Section) (l : List (Beat × Nat)) : Bool :=
  l.any (fun b => b.1.eor) && decide (x.ecnt ≤ Assoc.get 0 x.node m.eors + 1)

/-- Check the words of a firing's panels (R280): the address is the unit's offset. -/
def panelsChk (r u : Nat) (x : StopRec) : List Panel → (State → State) → State → State
  | [], k, s => k s
  | p :: t, k, s => readChkBy r 9 u p.off (p.off + p.len - 1) id x (fun s => panelsChk r u x t k s) s

/-- The place of a slot of the panel directory among the words of structure 9 (R280). [DEDUCED, log 41] -/
def dirKey (k : Nat) : Nat := 24576 + k
/-- Check the directory entries of a firing's slots (R280). -/
def slotsChk (r u : Nat) (x : StopRec) : List Nat → (State → State) → State → State
  | [], k, s => k s
  | n :: t, k, s => readChkBy r 9 u (dirKey n) (dirKey n) id x (fun s => slotsChk r u x t k s) s

/-- MX_FIRING: an armed section fires on its A beats and accumulates into a node (R270). -/
def execMxFiring (r u sec : Nat) (s : State) : Host.Outcome State Fault Refusal :=
  let R := s.region r
  match R.section u sec, R.inArc u sec with
  | some x, some e =>
    if R.halt || R.frozen (.mx u sec) || x.count == 0 || x.check then nx s
    else
      match collectAll x e.2.fifo with
      | .short => nx s
      | .breach k n => nx (fifosChk r [(e.1, 0, n)] (raise r (sectionRec u sec x k 0)) s)
      | .ok l y n =>
        if releases (R.mx u) x l && !R.roomOut u sec 8 then nx s
        else
          let ks := (List.range x.q).map (fun v => x.pfirst + x.j / x.g * x.q + v)
          let ps := ks.map (fun k => Assoc.get default k (R.mx u).panels)
          nx (slotsChk r u (sectionRec u sec x 0 0) ks (panelsChk r u (sectionRec u sec x 0 0) ps (readChkBy r 10 u (128 * x.node) (128 * x.node + 127) id (sectionRec u sec x 0 0)
            (fifosChk r [(e.1, 0, n)] (fireSection r u sec l y n)))) s)
  | _, _ => nx s

/-- A section handles an end of invocation: only between work tiles; the header latch returns to 2^0 (R273, R80). Beats
that its collector has kept over a pre-emption stay for the next invocation. [DESIGN CHOICE, log 73] -/
def eoiSection (r u sec : Nat) (s : State) : State :=
  let R := s.region r
  match R.section u sec with
  | none => s
  | some x =>
    if !R.eoiIn u sec 0 || x.check then s
    else if x.j ≠ 0 then fifosChk r (R.headOf u [sec]) (raise r (sectionRec u sec x 5 0)) s
    else if R.roomOutMark u sec then
      fifosChk r (R.headOf u [sec]) (fun s => s.modRegion r (fun R =>
        ((R.popIn u sec 1).pushOut u sec [eoiBeat]).setSection u sec { x with latch := 127, lot := false, hdr := false })) s
    else s

/-- A header at the head of a section's input is latched (R67), by a section that is not armed too (R270). [DESIGN CHOICE, log 73] -/
def headerSection (r u sec : Nat) (s : State) : State :=
  let R := s.region r
  match R.section u sec, R.headIn u sec with
  | some x, some b =>
    if b.hdr && !b.marker && !x.check then
      fifosChk r (R.headOf u [sec]) (fun s =>
        match x.header b with
        | some y => s.modRegion r (fun R => (R.popIn u sec 1).setSection u sec y)
        | none => raise r (sectionRec u sec x 2 0) s) s
    else s
  | _, _ => s

end Sys2Proof.Machine
end

