-- ==== Sys2Proof/Machine/Markers.lean ====
section
/-! DEFINITION. Markers and headers at the inputs of the nodes (R67, R80). -/

namespace Sys2Proof.Machine

/-- EOI_HANDLING: a node with an eoi marker at the head of every input pops them, resets its invocation and emits eoi, as one action
(R80). A write port takes its eoi with its command, a pass-through coat forwards it, and a computing coat's is that of its templates
(R229, R247, R249). [DEDUCED, log 15] -/
def execEoiHandling (r : Nat) (nd : NodeRef) (s : State) : Host.Outcome State Fault Refusal :=
  let R := s.region r
  if R.halt || R.frozen nd then nx s
  else
    match nd with
    | .stage u t j => nx (eoiStage r u t j s)
    | .switch u j => nx (eoiNode r u j s)
    | .mx u sec => nx (eoiSection r u sec s)
    | .port _ _ | .coat _ _ | .unit _ => nx s

/-- The place of the first header before which fewer than `n` data beats stand and no marker. -/
def headerPlace : Nat → Nat → List Beat → Option Nat
  | _, _, [] => none
  | i, n, b :: t => if b.marker then none else if b.hdr then some i else if n ≤ 1 then none else headerPlace (i + 1) (n - 1) t

/-- Take a header off input `p` of unit `u`, whose node takes `n` beats at a time: its scale is latched, or its layout is SPACE with the
node's record (R67). -/
def takeHeader (r u p n : Nat) (x : StopRec) (s : State) : State :=
  let R := s.region r
  match R.inArc u p with
  | none => s
  | some (k, a) =>
    match headerPlace 0 n a.fifo with
    | none => s
    | some i =>
      match a.fifo[i]? with
      | none => s
      | some b =>
        fifosChk r [(k, i, 1)] (fun s =>
          if headerOk b then
            (shiftWords r k i s).modRegion r (fun R => R.setArc k { a with fifo := listDrop i a.fifo, out := a.out + 1, held := headerScale b })
          else raise r x s) s

/-- The beats that stage `j` takes from input `p`. -/
def stageRate (w : IWord) (p : Nat) : Nat := ((opnds w).filter (fun o => o.sel == p)).foldl (fun m o => max m o.rate) 1

/-- HEADER_LATCH: the consumer at input `p` of a node takes a header beat and latches its scale (R67); a stage consumes at a port while its
template is resident or runs a chain that reads the port as a port stream (R156). -/
def execHeaderLatch (r : Nat) (nd : NodeRef) (p : Nat) (s : State) : Host.Outcome State Fault Refusal :=
  let R := s.region r
  if R.halt || R.frozen nd then nx s
  else
    match nd with
    | .stage u t j =>
      let c := R.core u
      match (Assoc.find t c.templates).bind (fun T => if T.res || (c.chainOf t).any (fun q => !q.short) then T.stage j else none) with
      | some st => if (inPorts st.word).contains p && (memField (c.chainOf t) p).isNone then nx (takeHeader r u p (stageRate st.word p) (firingRec 0x03 u t st) s) else nx s
      | none => nx s
    | .switch u j =>
      match R.node u j with
      | some x => if (nodeIns j x ++ [8 * j + 4]).contains p then nx (takeHeader r u p 1 (nodeRec u j 0) s) else nx s
      | none => nx s
    | .mx u sec => nx (headerSection r u sec s)
    | .coat ch k =>
      match (R.coat ch k).headCore with
      | some c =>
        let C := Assoc.get default ch R.coats
        if C.computes k then nx (takeHeader r c.unit c.iport 1 (coatRec C ch k (R.coat ch k) c) s) else nx s
      | none => nx s
    | .port _ _ | .unit _ => nx s

end Sys2Proof.Machine
end

