-- ==== Sys2Proof/Machine/Barrier.lean ====
section
/-! DEFINITION. Phase boundaries: CBAR and PHASE (R216, R217). -/

namespace Sys2Proof.Machine

/-- The barrier that a word names: one of its cluster's, or one of the region's. -/
structure BarName where
  /-- none for a PHASE barrier -/
  cl : Option Nat
  id : Nat
deriving DecidableEq, Repr

/-- A barrier's state. -/
def barAt (n : BarName) (R : Region) : Bar :=
  match n.cl with
  | some cl => Assoc.get Bar.init (cl * 16 + n.id) R.bars
  | none => Assoc.get Bar.init n.id R.phases
/-- Put a barrier's state. -/
def setBar (n : BarName) (b : Bar) (R : Region) : Region :=
  match n.cl with
  | some cl => { R with bars := Assoc.put (cl * 16 + n.id) b R.bars }
  | none => { R with phases := Assoc.put n.id b R.phases }
/-- The slots that may arrive (R216). -/
def parties (n : BarName) (R : Region) : Nat :=
  match n.cl with
  | some _ => 33
  | none => 33 * (R.w * R.h)

/-- The cores with an arriving slot, in increasing unit number. -/
def arrivingCores (l : List (Nat × Nat)) : List Nat := sortBy (fun a b => decide (a ≤ b)) ((l.map (fun p => p.1)).dedup)

/-- Publish the phase buffers of cores in turn, as one boundary (R217 step 1). -/
def publishCores (r : Nat) : List Nat → State → MemRes Unit
  | [], s => .ok () s
  | u :: t, s =>
    match publish r u s with
    | .ok _ s1 => publishCores r t s1
    | .wait s1 => .wait s1
    | .fail x s1 => .fail { x with kind := coreKind u, unit := u } s1

/-- An arriving slot is released with its instance number (R217 step 4). -/
def releaseSlot (r : Nat) (inst : BitVec 32) (s : State) (p : Nat × Nat) : State :=
  s.modSlot r p.1 p.2 (fun sl => { sl with st := .runnable, prog := .released inst })

/-- The record of a publish that fails at a barrier: the slot of its core that arrived last, and that slot's program counter (R176). -/
def barRec (r : Nat) (b : Bar) (x : StopRec) (s : State) : StopRec :=
  match (b.arrived.filter (fun p => decide (p.1 = x.unit))).getLast? with
  | some p => { x with sub := p.2, position := (s.slot r p.1 p.2).pc }
  | none => x

/-- Complete a barrier's instance as one boundary (R217): publishes, the reach of the scope, refreshes, releases. Where a tile
of a publish is being moved, nothing has happened yet. -/
def completeBar (r : Nat) (n : BarName) (sys : Bool) (b : Bar) (s : State) : State :=
  let cores := arrivingCores b.arrived
  match publishCores r cores s with
  | .wait _ => s
  | .fail x s1 => raise r (barRec r b x s1) s1
  | .ok _ s1 =>
    let s2 := if sys then writeThrough r s1 else s1
    let s3 := cores.foldl (fun s u => refresh r u s) s2
    let s4 := b.arrived.foldl (releaseSlot r b.inst) s3
    s4.modRegion r (setBar n { b with count := 0, inst := b.inst + 1, arrived := [] })

/-- The slot's arrival (R217): its atomic interval closes, the count rises, and the last arrival completes the instance, at the
scope that it names itself, where others named another. [DEDUCED, log 13; DESIGN CHOICE, log 73] -/
def arrive (n : BarName) (sys : Bool) (e : Nat) (s : State) : State :=
  let r := s.cur.region
  let b := barAt n s.hereR
  let b1 := { b with e := e, count := b.count + 1, arrived := b.arrived ++ [(s.cur.unit, s.cur.slot)] }
  let s1 := s.modHere (fun sl => { sl with interval := sl.interval + 1, aseq := 0, dseq := 0, st := .waiting .barrier, prog := .arrived })
  let s2 := s1.modRegion r (setBar n b1)
  if b1.count = e then
    let s3 := completeBar r n sys b1 s2
    if (s3.slot r s.cur.unit s.cur.slot).st = .waiting .barrier ∧ !(s3.region r).halt then s else s3
  else s2

/-- CBAR and PHASE (R216, R217): SPACE for a bad arrival count; the slot's earlier atomics perform first; then the arrival and
the wait; a released slot receives the number of its instance. -/
def barrierWord (n : State → BarName) (sys : Bool) (g : Guard) (d : Reg) (a : Src) (s : State) : Host.Outcome State Fault Refusal :=
  issue g [a] [d] (fun s =>
    match s.here.prog with
    | .released inst => done d (BitVec.setWidth 64 inst) s
    | .arrived => park .barrier s
    | _ =>
      let e := (rv s a).toNat
      let b := barAt (n s) s.hereR
      if e = 0 ∨ parties (n s) s.hereR < e then failSpace 0 s
      else if 0 < b.count ∧ b.e ≠ e then failSpace 0 s
      else if !waitDone s.hereR s.cur.unit s.cur.slot .ownAtomics then park .ownAtomics s
      else arrive (n s) sys e s) s

/-- CBAR: a phase boundary over a cluster barrier. -/
def execCbar (g : Guard) (d : Reg) (a : Src) (id : Tmpl) (s : State) : Host.Outcome State Fault Refusal :=
  barrierWord (fun s => { cl := some s.hereCl, id := id.toNat }) false g d a s

/-- PHASE: a phase boundary over a barrier of the region; at system scope the published bytes reach tier memory (R217 step 2). -/
def execPhase (g : Guard) (d : Reg) (a : Src) (sc : Scope) (id : Tmpl) (s : State) : Host.Outcome State Fault Refusal :=
  barrierWord (fun _ => { cl := none, id := id.toNat }) (decide (sc = .system)) g d a s

end Sys2Proof.Machine
end

