-- ==== Sys2Proof/Machine/DdTable.lean ====
section
/-! DEFINITION. The decision-diagram table (R348 to R357): edges, nodes, the unique table, the operation cache, reference counts, and the
recursive operations of the commands (R364 to R375). Every operation threads the table; a result of none is a full table, with the
insertions made so far left in it (R355). -/

namespace Sys2Proof.Machine

/-! ### Edges and nodes (R348, R349) -/

/-- The complement of an edge. -/
def compl (x : Nat) : Nat := if x % 2 = 0 then x + 1 else x - 1
/-- The complement where `b` holds. -/
def complIf (b : Bool) (x : Nat) : Nat := if b then compl x else x
/-- The edge is terminal. -/
def isTerm (x : Nat) : Bool := decide (x / 2 = 0)
/-- The node capacity C. -/
def DdTable.cap (T : DdTable) : Nat := 2 ^ T.cfg.lc
/-- Node `i`; the terminal where there is none. -/
def DdTable.node (T : DdTable) (i : Nat) : DdNode :=
  match Assoc.find i T.nodes with
  | some n => n
  | none => { level := 0xFFFF, hi := 0, lo := 0, count := 0xFFFF }
/-- lvl(x): nv for the terminal (R350). -/
def DdTable.lvl (T : DdTable) (x : Nat) : Nat := if isTerm x then T.cfg.nv else (T.node (x / 2)).level
/-- cof(x, L): the then- and else-cofactor (R350). -/
def DdTable.cof (T : DdTable) (x l : Nat) : Nat × Nat :=
  if l < T.lvl x then (x, x)
  else (complIf (x % 2 = 1) (T.node (x / 2)).hi, complIf (x % 2 = 1) (T.node (x / 2)).lo)

/-- level(v). -/
def DdTable.levelOf (T : DdTable) (v : Nat) : Nat := Assoc.get v v T.level
/-- var(L). -/
def DdTable.varOf (T : DdTable) (l : Nat) : Nat := Assoc.get l l T.var

/-! ### Counts (R357) -/

/-- Change the count of an edge's node by a function; the terminal and immortal nodes keep theirs. -/
def DdTable.modCount (x : Nat) (f : Nat → Nat) (T : DdTable) : DdTable :=
  match Assoc.find (x / 2) T.nodes with
  | some n => if isTerm x ∨ n.count = 0xFFFF then T else { T with nodes := Assoc.put (x / 2) { n with count := min 0xFFFF (f n.count) } T.nodes }
  | none => T
/-- Add one. -/
def DdTable.incr (x : Nat) (T : DdTable) : DdTable := T.modCount x (· + 1)
/-- Subtract one. -/
def DdTable.decr (x : Nat) (T : DdTable) : DdTable := T.modCount x (· - 1)

/-! ### The unique table (R353) -/

/-- Where a probe ends. -/
inductive Probe where
  | found (i : Nat)
  | place (slot : Nat)
  | full
deriving DecidableEq, Repr

/-- The hash of a triple. -/
def ddHash (l t e : Nat) : Nat := (mix 0 (toWord l) (toWord t) (toWord e)).toNat

/-- Probe slots from `p` on, at most the given number, remembering the first tombstone. -/
def DdTable.probe (T : DdTable) (l t e : Nat) : Nat → Nat → Option Nat → Probe
  | 0, _, tomb =>
    match tomb with
    | some q => .place q
    | none => .full
  | n + 1, p, tomb =>
    let s := p % (2 * T.cap)
    match Assoc.get DdSlot.empty s T.uniq with
    | .empty => .place (tomb.getD s)
    | .tomb => T.probe l t e n (p + 1) (some (tomb.getD s))
    | .node i =>
      let x := T.node i
      if x.level = l ∧ x.hi = t ∧ x.lo = e then .found i else T.probe l t e n (p + 1) tomb

/-- The lowest free index from `k` on, among rising keys. -/
def lowestFree : Nat → Assoc DdNode → Nat
  | k, [] => k
  | k, (i, _) :: t => if i = k then lowestFree (k + 1) t else if k < i then k else lowestFree k t

/-- The command in hand is left here, before its next insertion (R380, R381). -/
def DdTable.left (T : DdTable) : Bool := T.quota == some 0
/-- One insertion of the command in hand has been made. -/
def DdTable.spend (T : DdTable) : DdTable := { T with quota := T.quota.map (fun n => n - 1) }

/-- find_or_insert (R353): the index, or none where the table is full or the command is left; `bound` probes. -/
def DdTable.findOrInsert (bound l t e : Nat) (T : DdTable) : Option Nat × DdTable :=
  match T.probe l t e bound (ddHash l t e % (2 * T.cap)) none with
  | .found i => (some i, T)
  | .full => (none, T)
  | .place q =>
    let i := lowestFree 1 T.nodes
    if T.left || decide (T.cap ≤ i) then (none, T)
    else
      let T1 := { T.spend with nodes := Assoc.put i { level := l, hi := t, lo := e, count := 0 } T.nodes, uniq := Assoc.put q (.node i) T.uniq }
      (some i, (T1.incr t).incr e)

/-- mk(L, t, e) with at most `bound` probes (R350). -/
def DdTable.mkB (bound l t e : Nat) (T : DdTable) : Option Nat × DdTable :=
  if t = e then (some t, T)
  else if t % 2 = 1 then
    let p := T.findOrInsert bound l (compl t) (compl e)
    (p.1.map (fun i => 2 * i + 1), p.2)
  else
    let p := T.findOrInsert bound l t e
    (p.1.map (fun i => 2 * i), p.2)
/-- mk(L, t, e). -/
def DdTable.mkEdge (l t e : Nat) (T : DdTable) : Option Nat × DdTable := T.mkB 64 l t e

/-- Go on with a result. -/
def ddBind (p : Option Nat × DdTable) (f : Nat → DdTable → Option Nat × DdTable) : Option Nat × DdTable :=
  match p.1 with
  | some x => f x p.2
  | none => (none, p.2)

/-! ### The operation cache (R354) -/

/-- The first key word. -/
def ddKey (op f : Nat) : Nat := op * 2 ^ 48 + f
/-- The slot of a key. -/
def DdTable.cacheSlot (T : DdTable) (k0 k1 k2 : Nat) : Nat := (mix 0 (toWord k0) (toWord k1) (toWord k2)).toNat % 2 ^ T.cfg.lk
/-- A hit only where the whole key agrees. -/
def DdTable.hit (T : DdTable) (k0 k1 k2 : Nat) : Option Nat :=
  match Assoc.find (T.cacheSlot k0 k1 k2) T.cache with
  | some (a, b, c, r) => if a = k0 ∧ b = k1 ∧ c = k2 then some r else none
  | none => none
/-- Insert a formed result. -/
def DdTable.keep (k0 k1 k2 r : Nat) (T : DdTable) : DdTable :=
  { T with cache := Assoc.put (T.cacheSlot k0 k1 k2) (k0, k1, k2, r) T.cache }
/-- Look a key up, or form the result and insert it, unless the command is left before that. -/
def ddMemo (k0 k1 k2 : Nat) (T : DdTable) (f : DdTable → Option Nat × DdTable) : Option Nat × DdTable :=
  match T.hit k0 k1 k2 with
  | some r => (some r, T)
  | none => ddBind (f T) (fun r T1 => if T1.left then (none, T1) else (some r, T1.spend.keep k0 k1 k2 r))

/-! ### Combining functions (R365) -/

/-- mk(L, a, b) of two recursive results, the first formed first. -/
def ddPair (l : Nat) (a b : DdTable → Option Nat × DdTable) (T : DdTable) : Option Nat × DdTable :=
  ddBind (a T) (fun x T1 => ddBind (b T1) (fun y T2 => T2.mkEdge l x y))

/-- ite(f, g, h); the levels rise with every call, so `nv + 1` bounds the depth. -/
def ddIte : Nat → Nat → Nat → Nat → DdTable → Option Nat × DdTable
  | 0, _, _, _, T => (none, T)
  | n + 1, f, g, h, T =>
    if f = 0 then (some g, T) else if f = 1 then (some h, T) else if g = h then (some g, T)
    else if g = 0 ∧ h = 1 then (some f, T) else if g = 1 ∧ h = 0 then (some (compl f), T)
    else
      ddMemo (ddKey 1 f) g h T (fun T =>
        let l := min (T.lvl f) (min (T.lvl g) (T.lvl h))
        let cf := T.cof f l
        let cg := T.cof g l
        let ch := T.cof h l
        ddPair l (ddIte n cf.1 cg.1 ch.1) (ddIte n cf.2 cg.2 ch.2) T)

/-- un(u0, u1, x). -/
def ddUn (u0 u1 : Bool) (x : Nat) : Nat := if u0 = u1 then (if u1 then 0 else 1) else if u1 then x else compl x
/-- val of a terminal edge: 1 for TRUE. -/
def termVal (x : Nat) : Nat := if x = 0 then 1 else 0

/-- ap(op, f, g). -/
def ddAp (op : Nat) : Nat → Nat → Nat → DdTable → Option Nat × DdTable
  | 0, _, _, T => (none, T)
  | n + 1, f, g, T =>
    let o (i : Nat) : Bool := bit op i
    if op = 0 then (some 1, T) else if op = 15 then (some 0, T)
    else if isTerm f && isTerm g then (some (if o (2 * termVal f + termVal g) then 0 else 1), T)
    else if isTerm f then (some (ddUn (o (2 * termVal f)) (o (2 * termVal f + 1)) g), T)
    else if isTerm g then (some (ddUn (o (termVal g)) (o (2 + termVal g)) f), T)
    else if f = g then (some (ddUn (o 0) (o 3) f), T)
    else if f = compl g then (some (ddUn (o 1) (o 2) f), T)
    else
      let q := if o 1 = o 2 ∧ g < f then (g, f) else (f, g)
      ddMemo (ddKey (16 + op) q.1) q.2 0 T (fun T =>
        let l := min (T.lvl q.1) (T.lvl q.2)
        let cf := T.cof q.1 l
        let cg := T.cof q.2 l
        ddPair l (ddAp op n cf.1 cg.1) (ddAp op n cf.2 cg.2) T)

/-! ### Cubes (R366, R368) -/

/-- The rest of a cube below its top node. -/
def DdTable.cubeRest (T : DdTable) (c : Nat) : Nat :=
  let p := T.cof c (T.lvl c)
  if p.1 = 1 then p.2 else p.1

/-- Where an edge breaks the form of a cube, of positive literals only where `pos` holds: the node of the path at which it does, 0 for
FALSE. `none`: it is a cube. [DEDUCED, log 34] -/
def DdTable.cubeBreak (T : DdTable) (pos : Bool) : Nat → Nat → Option Nat
  | 0, _ => some 0
  | n + 1, c =>
    if c = 0 then none
    else if c = 1 then some 0
    else
      let p := T.cof c (T.lvl c)
      if (decide (p.1 = 1) != decide (p.2 = 1)) && (!pos || decide (p.2 = 1)) then T.cubeBreak pos n (T.cubeRest c) else some (c / 2)

/-- rs(f, c). -/
def ddRs : Nat → Nat → Nat → DdTable → Option Nat × DdTable
  | 0, _, _, T => (none, T)
  | n + 1, f, c, T =>
    if c = 0 ∨ isTerm f = true then (some f, T)
    else if T.lvl c < T.lvl f then ddRs n f (T.cubeRest c) T
    else
      ddMemo (ddKey 3 f) c 0 T (fun T =>
        let cf := T.cof f (T.lvl f)
        if T.lvl c = T.lvl f then ddRs n (if (T.cof c (T.lvl c)).1 = 1 then cf.2 else cf.1) (T.cubeRest c) T
        else ddPair (T.lvl f) (ddRs n cf.1 c) (ddRs n cf.2 c) T)

/-- ex(f, c). -/
def ddEx (k : Nat) : Nat → Nat → Nat → DdTable → Option Nat × DdTable
  | 0, _, _, T => (none, T)
  | n + 1, f, c, T =>
    if c = 0 ∨ isTerm f = true then (some f, T)
    else
      let c1 := (T.cof c (T.lvl c)).1
      if T.lvl c < T.lvl f then ddEx k n f c1 T
      else
        ddMemo (ddKey 4 f) c 0 T (fun T =>
          let cf := T.cof f (T.lvl f)
          if T.lvl c = T.lvl f then
            ddBind (ddEx k n cf.1 c1 T) (fun x T1 => ddBind (ddEx k n cf.2 c1 T1) (fun y T2 => ddAp 14 k x y T2))
          else ddPair (T.lvl f) (ddEx k n cf.1 c) (ddEx k n cf.2 c) T)

/-- sat(f). -/
def ddSat : Nat → Nat → DdTable → Option Nat × DdTable
  | 0, _, T => (none, T)
  | n + 1, f, T =>
    if isTerm f then (some f, T)
    else
      ddMemo (ddKey 5 f) 0 0 T (fun T =>
        let l := T.lvl f
        let cf := T.cof f l
        if cf.2 ≠ 1 then ddBind (ddSat n cf.2 T) (fun x T1 => T1.mkEdge l 1 x) else ddBind (ddSat n cf.1 T) (fun x T1 => T1.mkEdge l x 1))

/-- A depth that bounds every recursion of a command: each call raises a level. -/
def DdTable.depth (T : DdTable) : Nat := T.cfg.nv + 2
/-- DDCOMPOSE (R367). -/
def ddCompose (f v g : Nat) (T : DdTable) : Option Nat × DdTable :=
  let n := 2 * T.depth
  ddBind (T.mkEdge (T.levelOf v) 0 1) (fun x T1 => ddBind (ddRs n f x T1) (fun p T2 => ddBind (ddRs n f (compl x) T2) (fun q T3 =>
    ddIte T3.depth g p q T3)))

/-! ### Weighted counting (R369) -/

/-- A number rounded to FP64, RNE, with the flags of forming it. -/
def toFp64 (x : XNum × Flg) : Nat × Flg :=
  let q := encodeNum .fp64 false .rne false 0 x.1
  (q.1, x.2 ||| q.2)
/-- One product. -/
def mul64 (a b : Nat × Flg) : Nat × Flg :=
  let p := toFp64 (numMul (decodeNum .fp64 a.1) (decodeNum .fp64 b.1))
  (p.1, a.2 ||| b.2 ||| p.2)
/-- One sum. -/
def add64 (a b : Nat × Flg) : Nat × Flg :=
  let p := toFp64 (numSum [decodeNum .fp64 a.1, decodeNum .fp64 b.1])
  (p.1, a.2 ||| b.2 ||| p.2)
/-- One difference. -/
def sub64 (a b : Nat × Flg) : Nat × Flg :=
  let p := toFp64 (numSum [decodeNum .fp64 a.1, (decodeNum .fp64 b.1).negate])
  (p.1, a.2 ||| b.2 ||| p.2)
/-- FP64 1.0. -/
def one64 : Nat × Flg := (0x3FF0000000000000, flNone)

/-- Q(k, m): the weights of the levels in order. -/
def wQ (w : Nat → Nat × Nat) (k m : Nat) : Nat × Flg :=
  (List.range' k (m - k)).foldl (fun q l => mul64 q (add64 ((w l).1, flNone) ((w l).2, flNone))) one64
/-- lvl'(x). -/
def DdTable.lvlN (T : DdTable) (n x : Nat) : Nat := if isTerm x then n else T.lvl x
/-- base of an edge over levels below `n`, its weights given by level. -/
def wBase (T : DdTable) (w : Nat → Nat × Nat) (n : Nat) : Nat → Nat → Nat × Flg
  | 0, _ => one64
  | fuel + 1, x =>
    let b : Nat × Flg :=
      if isTerm x then one64
      else
        let d := T.node (x / 2)
        let c (y : Nat) : Nat × Flg := mul64 (wQ w (d.level + 1) (T.lvlN n y)) (wBase T w n fuel y)
        add64 (mul64 ((w d.level).2, flNone) (c d.hi)) (mul64 ((w d.level).1, flNone) (c d.lo))
    if x % 2 = 0 then b else sub64 (wQ w (T.lvlN n x) n) b
/-- cnt(f, 0). -/
def wCount (T : DdTable) (w : Nat → Nat × Nat) (n f : Nat) : Nat × Flg := mul64 (wQ w 0 (T.lvlN n f)) (wBase T w n T.depth f)

/-! ### Reaching and evaluating (R369, R370) -/

/-- Put an entry at the head of a list that does not hold it. -/
def addOnce (i : Nat) (l : List Nat) : List Nat := if l.contains i then l else i :: l
/-- The nodes reachable from `x` whose level `ok` does not admit. [DEDUCED, log 34] -/
def DdTable.outside (T : DdTable) (ok : Nat → Bool) : Nat → Nat → List Nat
  | 0, _ => []
  | n + 1, x =>
    if isTerm x then []
    else
      let l := (T.outside ok n (T.node (x / 2)).hi).foldr addOnce (T.outside ok n (T.node (x / 2)).lo)
      if ok (T.lvl x) then l else addOnce (x / 2) l
/-- The value of an edge, the variable at level `l` being `v l`. -/
def DdTable.eval (T : DdTable) (v : Nat → Bool) : Nat → Nat → Bool
  | 0, x => decide (x % 2 = 0)
  | n + 1, x =>
    if isTerm x then decide (x % 2 = 0)
    else
      let d := T.node (x / 2)
      (T.eval v n (if v d.level then d.hi else d.lo)) != decide (x % 2 = 1)

/-! ### Collecting (R374) -/

/-- The unique-table slot of a node becomes a tombstone. [DEDUCED, log 36] -/
def DdTable.bury (i : Nat) (T : DdTable) : DdTable :=
  { T with uniq := T.uniq.map (fun (p : Nat × DdSlot) => if p.2 = .node i then (p.1, DdSlot.tomb) else p) }
/-- Free one node. -/
def DdTable.freeNode (i : Nat) (T : DdTable) : DdTable :=
  let d := T.node i
  (({ T.bury i with nodes := Assoc.erase i T.nodes }).decr d.hi).decr d.lo
/-- The dead nodes. -/
def DdTable.dead (T : DdTable) : List Nat := (T.nodes.filter (fun p => decide (p.2.count = 0))).map (fun p => p.1)
/-- Free the dead nodes until none is left. -/
def ddCollect : Nat → DdTable → DdTable
  | 0, T => T
  | n + 1, T => if T.dead.isEmpty then T else ddCollect n (T.dead.foldl (fun T i => T.freeNode i) T)
/-- A cache entry names an index that is free. -/
def DdTable.stale (T : DdTable) (e : Nat × Nat × Nat × Nat) : Bool :=
  [e.1 % 2 ^ 48, e.2.1, e.2.2.1, e.2.2.2].any (fun x => !isTerm x && (Assoc.find (x / 2) T.nodes).isNone)
/-- DDGC: the table after it, and the nodes freed. -/
def ddGc (T : DdTable) : Nat × DdTable :=
  let T1 := ddCollect (T.nodes.length + 1) T
  (T.nodes.length - T1.nodes.length, { T1 with cache := T1.cache.filter (fun p => !T1.stale p.2) })

/-! ### Swapping levels (R375) -/

/-- Enter a node's triple into the unique table, without a bound on the probes. [DEDUCED, log 36] -/
def DdTable.enter (i : Nat) (T : DdTable) : DdTable :=
  let d := T.node i
  match T.probe d.level d.hi d.lo (2 * T.cap) (ddHash d.level d.hi d.lo % (2 * T.cap)) none with
  | .place q => { T with uniq := Assoc.put q (.node i) T.uniq }
  | .found _ | .full => T
/-- Give a node another triple: its old slot is a tombstone, the new triple is entered, its count stays. -/
def DdTable.rewrite (i l t e : Nat) (T : DdTable) : DdTable :=
  ({ T.bury i with nodes := Assoc.put i { level := l, hi := t, lo := e, count := (T.node i).count } T.nodes }).enter i

/-- The node at level `l` depends on the variable at level `l + 1`. -/
def DdTable.depends (T : DdTable) (l : Nat) (d : DdNode) : Bool := decide (T.lvl d.hi = l + 1) || decide (T.lvl d.lo = l + 1)

/-- A dependent node's rewriting: its four cofactors, taken before the swap. -/
structure SwapJob where
  i : Nat
  hi : Nat
  lo : Nat
  f11 : Nat
  f10 : Nat
  f01 : Nat
  f00 : Nat

/-- The jobs of a swap, in increasing index order. [DEDUCED, log 36] -/
def DdTable.swapJobs (T : DdTable) (l : Nat) : List SwapJob :=
  (T.nodes.filter (fun p => decide (p.2.level = l) && T.depends l p.2)).map (fun p =>
    let a := T.cof p.2.hi (l + 1)
    let b := T.cof p.2.lo (l + 1)
    { i := p.1, hi := p.2.hi, lo := p.2.lo, f11 := a.1, f10 := a.2, f01 := b.1, f00 := b.2 })

/-- Do one job: the then-child first; the counts follow the changed child fields. [DEDUCED, log 36] -/
def swapOne (l : Nat) (T : DdTable) (q : SwapJob) : DdTable :=
  let a := T.mkB (2 * T.cap) (l + 1) q.f11 q.f01
  let b := a.2.mkB (2 * T.cap) (l + 1) q.f10 q.f00
  match a.1, b.1 with
  | some x, some y => ((((b.2.rewrite q.i l x y).incr x).incr y).decr q.hi).decr q.lo
  | _, _ => b.2

/-- DDSWAP: none where too few indices are free; else the nodes created. [DEDUCED, log 36] -/
def ddSwap (l : Nat) (T : DdTable) : Option Nat × DdTable :=
  let atL := (T.nodes.filter (fun p => decide (p.2.level = l))).map (fun p => p.1)
  if T.cap - 1 - T.nodes.length < 2 * atL.length then (none, T)
  else
    let x := T.varOf l
    let y := T.varOf (l + 1)
    let jobs := T.swapJobs l
    let keep := atL.filter (fun i => !T.depends l (T.node i))
    let next := (T.nodes.filter (fun p => decide (p.2.level = l + 1))).map (fun p => p.1)
    let T1 := { T with var := Assoc.put l y (Assoc.put (l + 1) x T.var), level := Assoc.put x (l + 1) (Assoc.put y l T.level) }
    let T2 := (keep ++ next ++ jobs.map (fun q => q.i)).foldl (fun T i => T.bury i) T1
    let T3 := { T2 with nodes := T2.nodes.map (fun (p : Nat × DdNode) =>
                          (p.1, if keep.contains p.1 then { p.2 with level := l + 1 } else if next.contains p.1 then { p.2 with level := l } else p.2)) }
    let T4 := (keep ++ next).foldl (fun T i => T.enter i) T3
    let T5 := jobs.foldl (swapOne l) T4
    (some (T5.nodes.length - T.nodes.length), T5)

/-! ### Configurations (R351, R363) -/

/-- A DDCFG record. -/
def ddRecord (x : Nat) : DdCfg :=
  { nbase := bits x 33 0, ubase := bits x 97 64, cbase := bits x 161 128, lc := bits x 197 192, lk := bits x 205 200, nv := bits x 239 224 }
/-- Tiles of the node array, of the unique table, and of the cache. -/
def DdCfg.ranges (c : DdCfg) : List (Nat × Nat) := [(c.nbase, 2 ^ (c.lc - 8)), (c.ubase, 2 ^ (c.lc - 8)), (c.cbase, 2 ^ (c.lk - 7))]
/-- Two ranges of tiles share one. -/
def tilesMeet (a b : Nat × Nat) : Bool := decide (a.1 < b.1 + b.2) && decide (b.1 < a.1 + a.2)
/-- A record breaks R351. -/
def ddRecordBad (x : Nat) : Bool :=
  let c := ddRecord x
  bits x 255 240 ≠ 0 || bits x 223 206 ≠ 0 || bits x 199 198 ≠ 0 || bits x 191 162 ≠ 0 || bits x 127 98 ≠ 0 || bits x 63 34 ≠ 0
    || c.nv == 0 || decide (c.lk < 10) || decide (30 < c.lk) || decide (c.lc < 12) || decide (34 < c.lc)
    || (match c.ranges with
        | [a, b, d] => tilesMeet a b || tilesMeet a d || tilesMeet b d || decide (2 ^ 34 < a.1 + a.2) || decide (2 ^ 34 < b.1 + b.2)
                         || decide (2 ^ 34 < d.1 + d.2)
        | _ => true)
/-- A table just configured. -/
def ddFresh (c : DdCfg) : DdTable := { cfg := c, nodes := [], uniq := [], cache := [], level := [], var := [], quota := none, kept := none }
/-- A grown table (R363): the same nodes, the unique table rebuilt, the cache empty. -/
def ddGrow (c : DdCfg) (T : DdTable) : DdTable :=
  T.nodes.foldl (fun T p => T.enter p.1) { T with cfg := c, uniq := [], cache := [] }

/-- The edge is valid (R362). -/
def DdTable.valid (T : DdTable) (x : Nat) : Bool :=
  decide (x < 2 ^ 48) && decide (x / 2 < T.cap) && (isTerm x || (Assoc.find (x / 2) T.nodes).isSome)

/-- DDSTAT's statistics (R373). -/
def DdTable.stat (T : DdTable) (k : Nat) : Nat :=
  match k with
  | 0 => T.nodes.length
  | 1 => T.dead.length
  | 2 => T.cap - 1 - T.nodes.length
  | 3 => T.cap
  | _ => T.cache.length

/-- The 16 bytes of a node record (R349). -/
def DdNode.bytes (d : DdNode) : List Byte := bytesLE 16 (d.level * 2 ^ 112 + d.hi * 2 ^ 64 + d.lo * 2 ^ 16 + d.count)
/-- The 8 bytes of a unique-table slot (R353). -/
def DdSlot.bytes : DdSlot → List Byte
  | .empty => rep 8 0
  | .tomb => rep 8 0xFF
  | .node i => bytesLE 8 i
/-- The bytes of tile `t` of the node array: node `i` at byte `16 i`. -/
def DdTable.nodeTile (T : DdTable) (t : Nat) : List Byte :=
  (List.range 256).flatMap (fun i => match Assoc.find (256 * t + i) T.nodes with
                                     | some d => d.bytes
                                     | none => rep 16 0)
/-- The bytes of tile `t` of the unique table. -/
def DdTable.uniqTile (T : DdTable) (t : Nat) : List Byte :=
  (List.range 512).flatMap (fun i => (Assoc.get DdSlot.empty (512 * t + i) T.uniq).bytes)

end Sys2Proof.Machine
end

