-- ==== Sys2Proof/Machine/Dde.lean ====
section
/-! DEFINITION. The decision-diagram engine (R358 to R381): issuing its commands, performing them, and the entries of a batch. -/

namespace Sys2Proof.Machine

/-! ### Issue (R359, R361) -/

/-- Send a command to the engine: a long-latency producer of `ds`. A class A command's slot waits until it has completed or trapped. [DEDUCED, log 13] -/
def sendDd (classA : Bool) (ds : List Reg) (op fn : Nat) (a b c : Word) (rcd : Nat) (s : State) : State :=
  if s.here.prog = .accepted then retire id s
  else if chkOn s s.hereR || (detOn s s.hereR && !s.here.roster) then fail 0x06 0 0 s
  else
    let id := s.hereR.nextId
    let sl := s.here
    let k := if isCtl s.cur.unit then 0 else s.cur.slot
    let x : DdCmd := { id := id, unit := s.cur.unit, slot := s.cur.slot, key := { interval := sl.interval, issuer := issuerOf s.cur.unit k, seq := sl.dseq },
                       op := op, fn := fn, a := a, b := b, c := c, dest := (ds.headD 0).toNat, word := curWord s, pc := sl.pc,
                       rcd := BitVec.ofNat 512 rcd, beats := [], result := none, taken := false }
    let s1 := ((launch ds .dde s).modHereR (fun R => { R with ddq := R.ddq ++ [x] })).modHere (fun sl => { sl with dseq := sl.dseq + 1 })
    if classA then parkAt (.dde id) .accepted s1 else retire (fun sl => sl) s1

/-- A DDE word with these operands and no check of its own at issue. -/
def ddWord (classA : Bool) (g : Guard) (srcs : List Src) (ds : List Reg) (op fn : Nat) (a b c : Src) (s : State) : Host.Outcome State Fault Refusal :=
  issue g srcs ds (fun s => sendDd classA ds op fn (rv s a) (rv s b) (rv s c) 0 s) s

/-- The source s0, for a field that is zero. -/
def ddZero : Src := { r := 0, et := false }

/-- Read a DDCFG record as a load of the core, then send the command (R363). -/
def sendCfg (d : Reg) (fn : Nat) (a : Src) (s : State) : State :=
  let off := (rv s a).toNat
  if off % 32 ≠ 0 then failSpace (rv s a) s
  else if hereSeg s < off + 32 then fail 0x04 (rv s a) (toWord (hereSeg s)) s
  else withGRecord off 4 (fun x s => sendDd false [d] 0xE0 fn (rv s a) 0 0 x s) s

/-- DDCFG: a fresh table (R363). -/
def execDdcfg (g : Guard) (d : Reg) (a : Src) (s : State) : Host.Outcome State Fault Refusal := issue g [a] [d] (sendCfg d 0 a) s
/-- DDCFG.grow (R363). -/
def execDdcfgGrow (g : Guard) (d : Reg) (a : Src) (s : State) : Host.Outcome State Fault Refusal := issue g [a] [d] (sendCfg d 1 a) s
/-- DDVAR: the projection of a variable (R364). -/
def execDdvar (g : Guard) (d : Reg) (a : Src) (s : State) : Host.Outcome State Fault Refusal := ddWord true g [a] [d] 0xE1 0 a ddZero ddZero s
/-- DDVAR.lvl (R364). -/
def execDdvarLvl (g : Guard) (d : Reg) (a : Src) (s : State) : Host.Outcome State Fault Refusal := ddWord false g [a] [d] 0xE1 1 a ddZero ddZero s
/-- DDVAR.var (R364). -/
def execDdvarVar (g : Guard) (d : Reg) (a : Src) (s : State) : Host.Outcome State Fault Refusal := ddWord false g [a] [d] 0xE1 2 a ddZero ddZero s
/-- DDITE (R365). -/
def execDdite (g : Guard) (d : Reg) (a b c : Src) (s : State) : Host.Outcome State Fault Refusal := ddWord true g [a, b, c] [d] 0xE2 0 a b c s
/-- DDAPPLY (R365). -/
def execDdapply (g : Guard) (d : Reg) (a b : Src) (op : Tmpl) (s : State) : Host.Outcome State Fault Refusal :=
  ddWord true g [a, b] [d] 0xE3 op.toNat a b ddZero s
/-- DDRESTRICT (R366). -/
def execDdrestrict (g : Guard) (d : Reg) (a b : Src) (s : State) : Host.Outcome State Fault Refusal := ddWord true g [a, b] [d] 0xE4 0 a b ddZero s
/-- DDQUANT.ex (R366). -/
def execDdquantEx (g : Guard) (d : Reg) (a b : Src) (s : State) : Host.Outcome State Fault Refusal := ddWord true g [a, b] [d] 0xE5 0 a b ddZero s
/-- DDQUANT.all (R366). -/
def execDdquantAll (g : Guard) (d : Reg) (a b : Src) (s : State) : Host.Outcome State Fault Refusal := ddWord true g [a, b] [d] 0xE5 1 a b ddZero s
/-- DDCOMPOSE (R367). -/
def execDdcompose (g : Guard) (d : Reg) (a b c : Src) (s : State) : Host.Outcome State Fault Refusal := ddWord true g [a, b, c] [d] 0xE6 0 a b c s

/-- DDWCOUNT: the weight table's offset is checked at issue (R369). -/
def execDdwcount (g : Guard) (d : Reg) (a b c : Src) (s : State) : Host.Outcome State Fault Refusal :=
  issue g [a, b, c] [d] (fun s =>
    if (rv s b).toNat % 16 ≠ 0 then failSpace 0 s else sendDd false [d] 0xE7 0 (rv s a) (rv s b) (rv s c) 0 s) s

/-- DDSAT (R368). -/
def execDdsat (g : Guard) (d : Reg) (a : Src) (s : State) : Host.Outcome State Fault Refusal := ddWord true g [a] [d] 0xE8 0 a ddZero ddZero s

/-- The switch of a unit's cluster. -/
def switchOf (u : Nat) : Nat := mkUnit (uCl u) 5 0
/-- The window's fields or the route of a DDENUM break R370. -/
def enumBad (R : Region) (u c : Nat) : Bool :=
  decide (c / 2 ^ 21 ≠ 0) || bits c 20 16 == 0 || decide (16 < bits c 20 16) || (R.outArcs (switchOf u) 31).isEmpty
/-- Send a DDENUM, its window and route checked (R370). -/
def sendEnum (d : Reg) (fn : Nat) (a b c : Src) (s : State) : State :=
  if s.here.prog ≠ .accepted ∧ enumBad s.hereR s.cur.unit (rv s c).toNat = true then failSpace 0 s
  else sendDd true [d] 0xE9 fn (rv s a) (rv s b) (rv s c) 0 s
/-- DDENUM (R370). -/
def execDdenum (g : Guard) (d : Reg) (a b c : Src) (s : State) : Host.Outcome State Fault Refusal := issue g [a, b, c] [d] (sendEnum d 0 a b c) s
/-- DDENUM.e: an eoi after the bitmap (R370). -/
def execDdenumE (g : Guard) (d : Reg) (a b c : Src) (s : State) : Host.Outcome State Fault Refusal := issue g [a, b, c] [d] (sendEnum d 1 a b c) s

/-- DDREF (R371). -/
def execDdref (g : Guard) (d : Reg) (a : Src) (s : State) : Host.Outcome State Fault Refusal := ddWord false g [a] [d] 0xEA 0 a ddZero ddZero s
/-- DDDEREF (R371). -/
def execDdderef (g : Guard) (d : Reg) (a : Src) (s : State) : Host.Outcome State Fault Refusal := ddWord false g [a] [d] 0xEB 0 a ddZero ddZero s
/-- DDGC (R374). -/
def execDdgc (g : Guard) (d : Reg) (s : State) : Host.Outcome State Fault Refusal := ddWord false g [] [d] 0xEC 0 ddZero ddZero ddZero s
/-- DDSWAP (R375). -/
def execDdswap (g : Guard) (d : Reg) (a : Src) (s : State) : Host.Outcome State Fault Refusal := ddWord true g [a] [d] 0xED 0 a ddZero ddZero s
/-- DDNODE: writes s(d) and s(d + 1) (R372). -/
def execDdnode (g : Guard) (d : Reg) (a : Src) (s : State) : Host.Outcome State Fault Refusal :=
  ddWord false g [a] [d, d + 1] 0xEE 0 a ddZero ddZero s
/-- DDSTAT (R373). -/
def execDdstat (g : Guard) (d : Reg) (k : Fin5) (s : State) : Host.Outcome State Fault Refusal :=
  ddWord false g [] [d] 0xEF k.toNat ddZero ddZero ddZero s

/-! ### Performing a command (R362 to R375) -/

/-- What a command makes of the table. -/
inductive DdOut where
  /-- its results, its flags, the table after it -/
  | ok (vals : List Nat) (fl : Flg) (T : DdTable)
  /-- DD_TABLE_FULL, with the insertions left in the table -/
  | full (T : DdTable)
  /-- DD_ERROR: subcode, operand field, node index -/
  | err (sub field node : Nat)
  /-- DD_ERROR over an edge of which several nodes may be at fault: subcode, those nodes -/
  | errAny (sub : Nat) (nodes : List Nat)
  /-- a bitmap: the number of ones, and its beats -/
  | stream (ones : Nat) (l : List Beat) (T : DdTable)

/-- The result edge takes an external reference (R357). -/
def edgeOut (p : Option Nat × DdTable) : DdOut :=
  match p.1 with
  | some x => .ok [x] flNone (p.2.incr x)
  | none => .full p.2

/-- The operand fields of a command that hold edges (R362). -/
def edgeFields (op : Nat) : List Nat :=
  match op with
  | 0xE2 => [0, 1, 2]
  | 0xE3 | 0xE4 | 0xE5 | 0xE9 => [0, 1]
  | 0xE6 => [0, 2]
  | 0xE7 | 0xE8 | 0xEA | 0xEB | 0xEE => [0]
  | _ => []

/-- The beats of a bitmap of `2^k` bits (R370). -/
def bitmapBeats (k : Nat) (f : Nat → Bool) : List Beat :=
  (List.range ((2 ^ k + 511) / 512)).map (fun b =>
    plainBeat (BitVec.ofNat 512 ((List.range 512).foldl (fun x i => if 512 * b + i < 2 ^ k ∧ f (512 * b + i) = true then x + 2 ^ i else x) 0)))

/-- DDENUM once its cube is restricted (R370). -/
def enumOut (fn w k : Nat) (p : Option Nat × DdTable) : DdOut :=
  match p.1 with
  | none => .full p.2
  | some r =>
    let T := p.2
    let bad := T.outside (fun l => decide (w ≤ l) && decide (l < w + k)) T.depth r
    if !bad.isEmpty then .errAny 7 bad
    else
      let f (i : Nat) : Bool := T.eval (fun l => bit i (l - w)) T.depth r
      .stream (((List.range (2 ^ k)).filter f).length) (bitmapBeats k f ++ (if fn = 1 then [eoiBeat] else [])) T

/-- A count's new value: the terminal's is 0xFFFF (R371). -/
def countOf (T : DdTable) (x : Nat) : Nat := if isTerm x then 0xFFFF else (T.node (x / 2)).count

/-- The commands that need nothing but the table (R364 to R375). [DEDUCED, log 34] -/
def ddCommand (op fn a b c : Nat) (T : DdTable) : DdOut :=
  let n := T.depth
  match op with
  | 0xE1 =>
    if T.cfg.nv ≤ a then .err 4 0 0
    else
      match fn with
      | 0 => edgeOut (T.mkEdge (T.levelOf a) 0 1)
      | 1 => .ok [T.levelOf a] flNone T
      | _ => .ok [T.varOf a] flNone T
  | 0xE2 => edgeOut (ddIte n a b c T)
  | 0xE3 => edgeOut (ddAp fn n a b T)
  | 0xE4 =>
    match T.cubeBreak false n b with
    | some i => .err 3 1 i
    | none => edgeOut (ddRs (2 * n) a b T)
  | 0xE5 =>
    match T.cubeBreak true n b with
    | some i => .err 3 1 i
    | none =>
      if fn = 0 then edgeOut (ddEx n (2 * n) a b T)
      else
        let p := ddEx n (2 * n) (compl a) b T
        edgeOut (p.1.map compl, p.2)
  | 0xE6 => if T.cfg.nv ≤ b then .err 4 1 0 else edgeOut (ddCompose a b c T)
  | 0xE8 => edgeOut (ddSat n a T)
  | 0xE9 =>
    if T.cfg.nv < bits c 15 0 + bits c 20 16 then .err 4 2 0
    else
      match T.cubeBreak false n b with
      | some i => .err 3 1 i
      | none => enumOut fn (bits c 15 0) (bits c 20 16) (ddRs (2 * n) a b T)
  | 0xEA =>
    let T1 := T.incr a
    .ok [countOf T1 a] flNone T1
  | 0xEB =>
    if countOf T a = 0 then .err 5 0 (a / 2)
    else
      let T1 := T.decr a
      .ok [countOf T1 a] flNone T1
  | 0xEC =>
    let p := ddGc T
    .ok [p.1] flNone p.2
  | 0xED =>
    if T.cfg.nv ≤ a + 1 then .err 4 0 0
    else
      let p := ddSwap a T
      match p.1 with
      | some m => .ok [m] flNone p.2
      | none => .full T
  | 0xEE =>
    let d := T.node (a / 2)
    .ok [d.level * 2 ^ 48 + d.hi, d.count * 2 ^ 48 + d.lo] flNone T
  | _ => .ok [T.stat fn] flNone T

/-- DDCFG (R363): none is a bad record. -/
def ddConfig (fn x : Nat) (T : Option DdTable) : DdOut :=
  if ddRecordBad x then .err 6 0 0
  else
    let c := ddRecord x
    if fn = 0 then .ok [0] flNone (ddFresh c)
    else
      match T with
      | none => .err 1 0 0
      | some T =>
        if c.lc < T.cfg.lc ∨ c.nv < T.cfg.nv ∨ c.lk < T.cfg.lk then .err 6 0 0 else .ok [0] flNone (ddGrow c T)

/-- The operand of a field. -/
def fieldOf (i a b c : Nat) : Nat := if i = 0 then a else if i = 1 then b else c

/-- A command whose operands are checked first: no table is subcode 1, an invalid edge subcode 2 (R362, R363). -/
def ddRun (op fn a b c x : Nat) (T : Option DdTable) : DdOut :=
  if op = 0xE0 then ddConfig fn x T
  else
    match T with
    | none => .err 1 0 0
    | some T =>
      match (edgeFields op).find? (fun i => !T.valid (fieldOf i a b c)) with
      | some i => .err 2 i (fieldOf i a b c / 2 % 2 ^ 47)
      | none => ddCommand op fn a b c T

/-! ### Weights and tables in memory (R352, R369) -/

/-- The weights of levels 0 to `n - 1`, read at memory, by level. -/
def readWeights (c : Context) (r off : Nat) (T : DdTable) : List Nat → State → MemRes (Assoc (Nat × Nat))
  | [], s => .ok [] s
  | l :: t, s =>
    (gRead c r (off + 16 * T.varOf l) 16 s).bind (fun bs s1 =>
      let x := ofBytesLE bs
      (readWeights c r off T t s1).bind (fun w s2 => .ok ((l, (x % 2 ^ 64, x / 2 ^ 64)) :: w) s2))

/-- DDWCOUNT, in memory: its checks, its table, the count (R369). -/
def ddWeighted (c : Context) (r a off n : Nat) (s : State) : MemRes DdOut :=
  match c.dd with
  | none => .ok (.err 1 0 0) s
  | some T =>
    if !T.valid a then .ok (.err 2 0 (a / 2 % 2 ^ 47)) s
    else if n = 0 ∨ T.cfg.nv < n then .ok (.err 4 2 0) s
    else if !(T.outside (fun l => decide (l < n)) T.depth a).isEmpty then .ok (.errAny 8 (T.outside (fun l => decide (l < n)) T.depth a)) s
    else if segSize c < off + 16 * T.cfg.nv then .fail (accessRec 0x04 off 0 (segSize c)) s
    else
      (readWeights c r off T (List.range n) s).bind (fun w s1 =>
        let v := wCount T (fun l => Assoc.get (0, 0) l w) n a
        .ok (.ok [v.1] v.2 T) s1)

/-- Write a whole first-stage output tile as tenant memory (R351). [DEDUCED, log 34] -/
def writeMid (c : Context) (r mid : Nat) (bs : List Byte) (s : State) : XRes Unit :=
  (stage2 c r mid s).bind (fun p s1 =>
    if !p.2.2 then .fail (accessRec causePermission 0 2 0) s1 else .lift (tileWrite c.keyId p.1 (withAddrs 0 bs) r s1))
/-- Write tiles of a table from `base` on. [DESIGN CHOICE, log 35] -/
def writeTiles (c : Context) (r base : Nat) (f : Nat → List Byte) : List Nat → State → XRes Unit
  | [], s => .ok () s
  | t :: l, s => (writeMid c r (base + t) (f t) s).bind (fun _ s1 => writeTiles c r base f l s1)
/-- The bytes of the operation cache's range, which software may not rely on: free values (R352). [DESIGN CHOICE, log 35] -/
def freeTile (n t : Nat) : List Byte := (List.range 4096).map (fun i => BitVec.ofNat 8 (Config.freeNat (n + 4096 * t + i)))
/-- Write a context's table back (R352), the operation cache's range with zeros where `zero` holds (R363). [DESIGN CHOICE, log 35] -/
def ddWriteback (c : Context) (r : Nat) (zero : Bool) (T : DdTable) (s : State) : XRes Unit :=
  let k := 2 ^ (T.cfg.lc - 8)
  let m := 2 ^ (T.cfg.lk - 7)
  (writeTiles c r T.cfg.nbase T.nodeTile (List.range k) s).bind (fun _ s1 =>
    (writeTiles c r T.cfg.ubase T.uniqTile (List.range k) s1).bind (fun _ s2 =>
      if zero then writeTiles c r T.cfg.cbase (fun _ => rep 4096 0) (List.range m) s2
      else writeTiles c r T.cfg.cbase (freeTile s2.fresh) (List.range m) { s2 with fresh := s2.fresh + 4096 * m }))

/-- After a command the table is written back where the command says so, and otherwise at moments that nothing states (R352); DDCFG function 0
writes all of it to zero (R363). [DESIGN CHOICE, log 35] -/
def ddStore (c : Context) (r op fn : Nat) (T : DdTable) (s : State) : XRes Unit :=
  let (n, s1) := s.draw
  if op = 0xE0 || op = 0xEC || n % 2 == 1 then ddWriteback c r (op == 0xE0 && fn == 0) T s1 else .ok () s1

/-- Read whole first-stage output tiles, in order. -/
def readMids (c : Context) (r : Nat) : List Nat → State → XRes Unit
  | [], s => .ok () s
  | t :: l, s => (readMid c r t 0 4096 s).bind (fun _ s1 => readMids c r l s1)
/-- The tiles of a table: of its node array, its unique table and its operation cache. -/
def ddTiles (T : DdTable) : List Nat := T.cfg.ranges.flatMap (fun q => (List.range q.2).map (fun i => q.1 + i))
/-- What the engine's own caches do not hold of the table it reads through the seal cache, as tenant memory; which tiles those are is free
(R351). [DESIGN CHOICE, log 35] -/
def ddFetch (c : Context) (r : Nat) (s : State) : XRes Unit :=
  match c.dd with
  | none => .ok () s
  | some T =>
    let (n, s1) := s.draw
    readMids c r (((ddTiles T).zipIdx.filter (fun q => bit n q.2)).map (fun q => q.1)) s1

/-! ### The engine (R359 to R361) -/

/-- A barrier command (R359). -/
def ddBarrier (op : Nat) : Bool := op == 0xE0 || op == 0xEC || op == 0xED

/-- Two commands of one slot. -/
def DdCmd.withSlot (x y : DdCmd) : Bool := decide (y.unit = x.unit) && decide (y.slot = x.slot)
/-- Command `x` arrives at the engine and is accepted behind those accepted before (R360). [DEDUCED, log 61] -/
def Region.accept (x : DdCmd) (R : Region) : Region :=
  let rest := R.ddq.filter (fun y => y.id ≠ x.id)
  { R with ddq := rest.filter (fun y => y.taken) ++ { x with taken := true } :: rest.filter (fun y => !y.taken) }
/-- An earlier command of its slot is still on its way: commands of one slot are accepted in issue order (R360). -/
def ddBehind (R : Region) (i : Nat) (x : DdCmd) : Bool := (R.ddq.take i).any (fun y => !y.taken && x.withSlot y)
/-- A batch of the region's graph has an entry that the engine has begun and left on its way. -/
def batchMidway (R : Region) : Bool := R.graph.any (fun g => g.nodes.any (fun x => x.midway))
/-- Command number `i` of the queue may be performed: in the order of its slot and across barriers (R359, R360); in deterministic mode in the
order of the keys alone, one at a time, whatever order the commands arrived in (R361). [DEDUCED, log 61; DESIGN CHOICE, log 64] -/
def ddReady (s : State) (R : Region) (i : Nat) (x : DdCmd) : Bool :=
  let before := R.ddq.take i
  (if detOn s R then keyReady R x.key && !R.ddq.any (fun y => Key.lt y.key x.key || y.result.isSome) && !batchMidway R
   else x.taken && !before.any (fun y => ddBarrier y.op || x.withSlot y) && (!ddBarrier x.op || (before.isEmpty && !batchMidway R)))
    && !(x.op == 0xE9 && R.ddq.any (fun y => y.result.isSome && decide (uCl y.unit = uCl x.unit)))

/-- The stop record of a command (R379). [DEDUCED, log 34] -/
def ddRec (cause : Nat) (x : DdCmd) : StopRec :=
  { recOf cause 8 x.unit with sub := x.slot, position := x.pc, d0 := x.word }

/-- The command leaves the engine's queue. -/
def dropDd (r k : Nat) (s : State) : State := s.modRegion r (fun R => { R with ddq := R.ddq.filter (fun y => y.id ≠ k) })
/-- A command completes: its results land (R360). [DEDUCED, log 34] -/
def endDd (r : Nat) (x : DdCmd) (vals : List Nat) (fl : Flg) (s : State) : State :=
  let s1 := dropDd r x.id s
  match (s1.core r x.unit).producers.find? (fun p => decide (p.id = x.id)) with
  | some p => complete r x.unit p (vals.map toWord) fl s1
  | none => s1

/-- Give a slot's registers back the full/empty state that they had. -/
def Slot.refill (ds : List Reg) (fs : List Fill) (sl : Slot) : Slot := (ds.zip fs).foldl (fun sl p => sl.setFill p.1 p.2) sl
/-- DD_TABLE_FULL of a slot's command: the slot traps, its destinations as they were before (R355). -/
def trapFull (r : Nat) (x : DdCmd) (s : State) : State :=
  let s1 := dropDd r x.id s
  let ps := (s1.core r x.unit).producers
  let s2 := match ps.find? (fun p => decide (p.id = x.id)) with
            | some p =>
              (s1.modCore r x.unit (fun c => { c with producers := ps.filter (fun q => q.id ≠ x.id) })).modSlot r x.unit x.slot
                (fun sl => sl.refill p.dests p.was)
            | none => s1
  takeTrap r x.unit x.slot { cause := 0x08, operand := x.dest, detail := BitVec.ofNat 32 x.op, pc := x.pc } x.pc x.word s2

/-- Put a context's table. -/
def putTable (asid : Nat) (T : DdTable) (s : State) : State := s.modCtx asid (fun c => { c with dd := some { T with quota := none, kept := none } })
/-- The engine leaves a command of context `c` that it has begun: its insertions and its cache entries stand. In deterministic mode the cache
with which the command began is kept for its next beginning, so that its indices repeat (R361, R381). [DESIGN CHOICE, log 64] -/
def leaveTable (r : Nat) (c : Context) (T : DdTable) (s : State) : State :=
  let cache := if detOn s (s.region r) then c.dd.map (fun U => U.kept.getD U.cache) else none
  s.modCtx c.attr.asid (fun y => { y with dd := some { T with quota := none, kept := cache } })

/-- The record of a failed access of the engine to its tables (R401). -/
def forTable (write : Bool) (x : StopRec) : StopRec := forTensor 0xFFFF 0 write x
/-- The outcome of a memory access of the engine: `f` completes the record of a failed one. [DEDUCED, log 34] -/
def ddAccess {α : Type} (r : Nat) (x : StopRec) (f : StopRec → StopRec) (k : α → State → State) (s : State) (res : XRes α) : State :=
  let own (y : StopRec) : StopRec := { y with kind := x.kind, unit := x.unit, sub := x.sub, sk := x.sk, position := x.position,
                                              d0 := if y.cause = 0x04 then x.d0 else y.d0 }
  match res with
  | .ok v s1 => k v s1
  | .wait _ => s
  | .miss st s1 => raise r (own (f (accessRec causeUnresolved 0 st 1))) s1
  | .fail y s1 => raise r (own (f y)) s1

/-- Finish what a command made: a table, a trap, an error or beats; `done` takes its results. A command that was left before its end has its
insertions in the table and nothing else, and `onLeft` says what of it is noted (R381). [DEDUCED, log 34] -/
def ddFinish (c : Context) (r op fn : Nat) (x : StopRec) (onLeft : State → State) (onFull : DdTable → State → State)
    (onBeats : Nat → List Beat → DdTable → State → State) (done : List Nat → Flg → State → State) (o : DdOut) (s : State) : State :=
  match o with
  | .ok vals fl T => ddAccess r x (forTable true) (fun _ s1 => done vals fl (putTable c.attr.asid T s1)) s (ddStore c r op fn T s)
  | .full T => if T.left then onLeft (leaveTable r c T s) else onFull T s
  | .err sub field node => raise r { x with cause := 0x09, address := toWord node, d1 := toWord (sub + field * 2 ^ 8) } s
  | .errAny sub nodes =>
    let (n, s1) := s.draw
    raise r { x with cause := 0x09, address := toWord (nodes.getD (n % nodes.length) 0), d1 := toWord sub } s1
  | .stream ones l T => onBeats ones l T s

/-- Where the engine leaves a command that it takes up: at its end, or after a free number of its insertions, to take it up again later from its
beginning. On its pipelines commands of several slots advance side by side, a pre-emption abandons one under way, and a stop ends it (R360,
R380, R381). A barrier command runs to its end. [DESIGN CHOICE, log 64] -/
def ddQuota (op : Nat) (s : State) : Option Nat × State :=
  let (n, s1) := s.draw
  (if ddBarrier op || n % 4 ≠ 1 then none else some (n / 4), s1)
/-- A context's table with the quota of the command in hand, and the cache with which that begins. -/
def Context.inHand (q : Option Nat) (c : Context) : Option DdTable := c.dd.map (fun T => { T with quota := q, cache := T.kept.getD T.cache })

/-- What a command makes of its operands and the table, then `k`: its tiles are read, its weights too (R351, R369). -/
def ddOutcome (c : Context) (r : Nat) (x : StopRec) (op fn a b cc rcd : Nat) (k : DdOut → State → State) (s : State) : State :=
  ddAccess r x (forTable false) (fun _ s1 =>
    if op = 0xE7 then ddAccess r x id k s (.lift (ddWeighted c r a b cc s1))
    else
      let (q, s2) := ddQuota op s1
      k (ddRun op fn a b cc rcd (c.inHand q)) s2) s (ddFetch c r s)

/-- Perform a command that has its turn. -/
def performDd (r : Nat) (x : DdCmd) (c : Context) (s : State) : State :=
  let rc := ddRec 0x09 x
  ddOutcome c r rc x.op x.fn x.a.toNat x.b.toNat x.c.toNat x.rcd.toNat
    (ddFinish c r x.op x.fn rc id (fun T s => trapFull r x (putTable c.attr.asid T (charge r 1 s)))
      (fun ones l T s => (putTable c.attr.asid T (charge r 1 s)).modRegion r (fun R =>
        { R with ddq := R.ddq.map (fun y => if y.id = x.id then { y with beats := l, result := some ones } else y) }))
      (fun vals fl s => endDd r x vals fl (charge r 1 s))) s

/-- Push the next beat of a performed DDENUM; it completes after its last (R370). -/
def pushDd (r : Nat) (x : DdCmd) (ones : Nat) (s : State) : State :=
  let R := s.region r
  let u := switchOf x.unit
  match x.beats with
  | [] => endDd r x [ones] flNone s
  | b :: t =>
    if !(if b.marker then R.roomOutMark u 31 else R.roomOut u 31 1) then s
    else
      let s1 := s.setRegion r { R.pushOut u 31 [b] with ddq := R.ddq.map (fun y => if y.id = x.id then { y with beats := t } else y) }
      if t.isEmpty then endDd r x [ones] flNone s1 else s1

/-- Command number `i` of the queue is to complete before a pre-emption saves: it is a DDGC or DDCFG, or one is to be performed after it (R381). [DESIGN CHOICE, log 51] -/
def ddMust (det : Bool) (R : Region) (i : Nat) (x : DdCmd) : Bool :=
  let late (y : DdCmd) : Bool := y.op == 0xE0 || y.op == 0xEC
  late x || (if det then R.ddq.any (fun y => late y && Key.lt x.key y.key)
             else (R.ddq.drop i).any (fun y => late y && (x.taken || x.withSlot y)))
/-- A command that is to complete before a pre-emption saves waits for nothing but its context's budget (R381). -/
def mustWait (r : Nat) (s : State) : Bool :=
  let R := s.region r
  !hasBudget r s && (R.ddq.zipIdx).any (fun q => ddMust (detOn s R) R q.2 q.1 && q.1.result.isNone && ddReady s R q.2 q.1)

/-- The engine performs command `k`, or pushes the next beat of a DDENUM. -/
def runDd (r k : Nat) (s : State) : State :=
  let R := s.region r
  match R.ddq.findIdx? (fun x => decide (x.id = k)), s.ctxOf R with
  | some i, some c =>
    match R.ddq[i]? with
    | none => s
    | some x =>
      match x.result with
      | some ones => pushDd r x ones s
      | none =>
        if !hasBudget r s || !ddReady s R i x then s
        else readChkBy r 11 0 0 (2 ^ 48) id (ddRec 0x14 x) (performDd r x c) s
  | _, _ => s

/-- DDE_COMMAND_PERFORM: command `k` arrives at the engine, where it is on its way, and the engine performs it, or pushes the next beat of a
DDENUM (R360, R361, R370). [DEDUCED, log 61] -/
def execDdeCommandPerform (r k : Nat) (s : State) : Host.Outcome State Fault Refusal :=
  let R := s.region r
  match R.ddq.findIdx? (fun x => decide (x.id = k)) with
  | none => nx s
  | some i =>
    match R.ddq[i]? with
    | none => nx s
    | some x =>
      if R.halt || (R.preempt.isSome && !ddMust (detOn s R) R i x) then nx s
      else if detOn s R || x.taken then nx (runDd r k s)
      else if ddBehind R i x then nx s
      else nx (runDd r k (s.setRegion r (R.accept x)))

/-! ### Batches (R377, R378) -/

/-- The legal function values of a command in a batch (R358, R378). -/
def batchFn (op fn : Nat) : Bool :=
  match op with
  | 0xE1 => decide (fn < 3)
  | 0xE3 => decide (fn < 16)
  | 0xE5 => decide (fn < 2)
  | 0xEF => decide (fn < 5)
  | 0xE2 | 0xE4 | 0xE6 | 0xE7 | 0xE8 | 0xEA | 0xEB | 0xEC | 0xED => decide (fn = 0)
  | _ => false
/-- An operand value of entry `k` is malformed. -/
def batchRefBad (k v : Nat) : Bool := bit v 63 && (bits v 62 16 ≠ 0 || decide (k ≤ bits v 15 0))
/-- Entry `k` is illegal or malformed. -/
def batchBad (k e : Nat) : Bool :=
  bits e 63 17 ≠ 0 || !batchFn (bits e 7 0) (bits e 16 8) || batchRefBad k (bits e 127 64) || batchRefBad k (bits e 191 128)
    || batchRefBad k (bits e 255 192)
/-- An operand's value: a number, or the result of an earlier entry. -/
def batchVal (rs : List Nat) (v : Nat) : Nat := if bit v 63 then rs.getD (bits v 15 0) 0 else v

/-- Entry `k` of a batch has completed with a result, written at memory; after the last the node has finished. While the result's tile is
moved nothing of the entry has happened: the state is `s0`. -/
def batchDone (r n : Nat) (x : StopRec) (c : Context) (nd : GNode) (v : Nat) (s0 s : State) : State :=
  ddAccess r x id (fun _ s1 =>
    (charge r 1 s1).modGraph r (fun g =>
      let g1 := { g with nodes := listSet n { nd with entered := nd.entered + 1, midway := false, results := nd.results ++ [v] } g.nodes }
      if nd.batch.length ≤ nd.entered + 1 then Graph.finish n g1 else g1)) s0
    (.lift (gWrite c r (nd.arg0 + 32 * nd.aux + 8 * nd.entered) (bytesLE 8 v) s))

/-- The stop record of a batch's entry (R379). -/
def batchRec (nd : GNode) (e : BitVec 256) : StopRec :=
  { recOf 0x09 8 0 with position := toWord nd.entered, d0 := toWord (e.toNat % 2 ^ 64), sk := 3 }
/-- The engine has left the entry in hand of batch node `n` on its way. -/
def entryMidway (r n : Nat) (nd : GNode) (s : State) : State :=
  s.modGraph r (fun g => { g with nodes := listSet n { nd with midway := true } g.nodes })
/-- Perform entry `e` of a batch of graph node `n`; a DDWCOUNT whose weight table is not at a multiple of 16 raises SPACE here, where its operand
is known (R369, R377). [DEDUCED, log 34] -/
def performEntry (r n : Nat) (c : Context) (nd : GNode) (e : BitVec 256) (s : State) : State :=
  let op := bits e.toNat 7 0
  let fn := bits e.toNat 16 8
  let x := batchRec nd e
  let v (hi lo : Nat) : Nat := batchVal nd.results (bits e.toNat hi lo)
  if op = 0xE7 ∧ v 191 128 % 16 ≠ 0 then raise r { x with cause := 0x03 } s
  else ddOutcome c r x op fn (v 127 64) (v 191 128) (v 255 192) 0
    (ddFinish c r op fn x (entryMidway r n nd) (fun T s => raise r { x with cause := 0x08, d1 := toWord nd.entered } (putTable c.attr.asid T s))
      (fun _ _ _ s => s) (fun vals _ s1 => batchDone r n x c nd (vals.headD 0) s s1)) s

/-- In deterministic mode an entry waits while a node of a lower index still writes the tile that its result goes to (R300). [DEDUCED, log 27] -/
def entryHeld (c : Context) (r n : Nat) (nd : GNode) (s : State) : Bool :=
  let mid := batchMid c nd nd.entered
  copyNodeHolds (s.region r) n (fun u => midOf c r u s == some mid) || batchHolds c (s.region r) n (some mid) || loadHolds c r n (some mid) s

/-- An entry of a batch node other than `n` has been begun and left on its way. [DESIGN CHOICE, log 64] -/
def otherMidway (R : Region) (n : Nat) : Bool := R.graph.any (fun g => (g.nodes.zipIdx).any (fun q => decide (q.2 ≠ n) && q.1.midway))
/-- The next entry of batch node `n` waits for other commands: a barrier for every command accepted before it (R359); in deterministic mode any
entry for a command or an entry that the engine has begun, and, before it is begun itself, for the batches of lower index that run, so that the
engine performs one at a time (R361). [DESIGN CHOICE, log 64] -/
def entryWaits (s : State) (R : Region) (c : Context) (n op : Nat) (nd : GNode) : Bool :=
  (ddBarrier op && (R.ddq.any (fun y => y.taken || detOn s R) || otherMidway R n))
    || (detOn s R && (otherMidway R n || R.ddq.any (fun y => y.result.isSome) || (!nd.midway && (c.dd.any (fun T => T.kept.isSome)
      || R.graph.any (fun g => (g.nodes.zipIdx).any (fun q => decide (q.2 < n) && q.1.kind == 2 && q.1.st == .running))))))

/-- DDE_BATCH_ENTRY: the batch of graph node `n` performs its next entry and writes the result (R377, R378). -/
def execDdeBatchEntry (r n : Nat) (s : State) : Host.Outcome State Fault Refusal :=
  let R := s.region r
  match R.graph.bind (fun g => g.nodes[n]?), s.ctxOf R with
  | some nd, some c =>
    match nd.batch[nd.entered]? with
    | none => nx s
    | some e =>
      let op := bits e.toNat 7 0
      if R.halt || R.preempt.isSome || nd.st != .running || !hasBudget r s || entryWaits s R c n op nd
          || (detOn s R && entryHeld c r n nd s) then nx s
      else nx (readChkBy r 11 0 0 (2 ^ 48) id (batchRec nd e) (performEntry r n c nd e) s)
  | _, _ => nx s

end Sys2Proof.Machine
end

