-- ==== Sys2Proof/Machine/Frames.lean ====
section
/-! DEFINITION. Configuration frames (R180 to R189): their fields, what an image's frames say of cores, routes, engines and coats, and the
reasons for which a frame is rejected (R192), each class's rules in its chapter. -/

namespace Sys2Proof.Machine

/-! ### Frames (R180 to R182) -/

/-- A frame in its image: its place, its 256 bits, and how many frames of its class for its unit stand before it (R181). -/
structure Frm where
  pos : Nat
  x : Nat
  k : Nat
deriving DecidableEq, Repr

/-- Class. -/
def Frm.cls (f : Frm) : Nat := bits f.x 255 252
/-- Unit. -/
def Frm.unit (f : Frm) : Nat := bits f.x 251 236
/-- Index. -/
def Frm.index (f : Frm) : Nat := bits f.x 235 228
/-- Bits `hi:lo` of the payload. -/
def Frm.b (f : Frm) (hi lo : Nat) : Nat := bits f.x hi lo
/-- The exclusive or of the 64 nibbles is zero. -/
def Frm.nibblesOk (f : Frm) : Bool := (List.range 64).foldl (fun a i => Nat.xor a (bits f.x (4 * i + 3) (4 * i))) 0 == 0
/-- Two frames of one class for one unit. -/
def Frm.alike (f g : Frm) : Bool := decide (f.cls = g.cls) && decide (f.unit = g.unit)

/-- An image: its frames in order. -/
abbrev Image := List Frm

/-- The frames of an image, each with its place and its sequence number. -/
def imageOf (l : List (BitVec 256)) : Image :=
  (l.zipIdx).foldl (fun acc q =>
    let f : Frm := { pos := q.2, x := q.1.toNat, k := 0 }
    acc ++ [{ f with k := (acc.filter f.alike).length }]) []

/-- The frames of class `c` for unit `u`. -/
def Image.of (I : Image) (c u : Nat) : Image := I.filter (fun f => decide (f.cls = c) && decide (f.unit = u))
/-- The frames of class `c`. -/
def Image.cls (I : Image) (c : Nat) : Image := I.filter (fun f => decide (f.cls = c))
/-- The units of a class, in the order of their first frames. -/
def Image.units (I : Image) (c : Nat) : List Nat :=
  (I.cls c).foldl (fun l f => if l.contains f.unit then l else l ++ [f.unit]) []

/-- The unit kinds that accept a class (R182). -/
def accepts (c k : Nat) : Bool :=
  match c with
  | 0 | 1 | 2 | 3 | 8 => k == 0
  | 4 => k == 1
  | 5 => k == 5
  | 6 | 9 => k == 3
  | 7 => k == 2
  | 10 => k == 0 || k == 4
  | _ => false
/-- The most frames of a class for one unit (R182, R209, R226, R263, R324). -/
def classMax (c : Nat) : Nat :=
  match c with
  | 0 => 683
  | 1 | 3 => 48
  | 2 => 3
  | 4 => 2
  | 5 => 33
  | 6 => 16
  | 7 => 4
  | 8 => 8
  | 9 => 64
  | 10 => 3
  | _ => 0

/-! ### Instruction stores, templates, tables and constants (R129, R184 to R187) -/

/-- A word that may stand in a compute core's instruction store (R42, R43). -/
def storeOk (w : IWord) : Bool :=
  match decode w with
  | none => false
  | some i => !i.isEvent && !decide (0x80 ≤ wordOp w ∧ wordOp w < 0xC0) && !([0x4E, 0x4F, 0x52, 0x53].contains (wordOp w))
/-- An element operation (R42). -/
def elemOk (w : IWord) : Bool :=
  match decode w with
  | none => false
  | some i => !i.isEvent && decide (0x80 ≤ wordOp w) && decide (wordOp w < 0xC0)
/-- Word slot `j` of a class 0 or class 1 frame. -/
def Frm.word (f : Frm) (j : Nat) : IWord := BitVec.ofNat 64 (f.b (64 * j + 63) (64 * j))
/-- The first word slot for which `bad` holds. -/
def badSlot (bad : Nat → Bool) : Option Nat := [0, 1, 2].find? bad
/-- The illegal word of a class 0 frame. [DEDUCED, log 12] -/
def illegalStore (f : Frm) : Option Nat := badSlot (fun j => decide (3 * f.k + j < 2048) && !storeOk (f.word j))

/-- The template a class 1 frame belongs to. -/
def Frm.tmpl (f : Frm) : Nat := f.b 223 220
/-- Its part. -/
def Frm.part (f : Frm) : Nat := f.b 219 218
/-- base. -/
def Frm.base (f : Frm) : Nat := f.b 217 215
/-- len. -/
def Frm.len (f : Frm) : Nat := f.b 214 211
/-- res. -/
def Frm.res (f : Frm) : Bool := bit f.x 210
/-- The frames of template `t` of core `u`. -/
def Image.tmplFrames (I : Image) (u t : Nat) : Image := (I.of 1 u).filter (fun f => decide (f.tmpl = t))
/-- The word of stage `j`, from the frame of its part; all zeros without one. -/
def Image.stageWord (I : Image) (u t j : Nat) : IWord :=
  match (I.tmplFrames u t).find? (fun f => decide (f.part = (j - 1) / 3)) with
  | some f => f.word ((j - 1) % 3)
  | none => 0
/-- A stage just loaded. -/
def freshStage (w : IWord) : Stage := { word := w, pos := 0, carry := 0, served := [], firing := none }
/-- Template `t` of core `u`, as its first frame's header shapes it. -/
def Image.template (I : Image) (u t : Nat) : Option Template :=
  match I.tmplFrames u t with
  | [] => none
  | f :: _ => some { base := f.base, len := f.len, res := f.res,
                     stages := (List.range' 1 (min 8 f.len)).map (fun j => freshStage (I.stageWord u t j)),
                     arcs := [], flags := 0, mags := [0, 0, 0, 0] }
/-- The template indices of core `u`. -/
def Image.tmpls (I : Image) (u : Nat) : List Nat := (List.range 16).filter (fun t => !(I.tmplFrames u t).isEmpty)

/-- The accumulator modes that a core's class 2 frames give (R186). -/
def Image.modes (I : Image) (u n : Nat) : Nat :=
  match (I.of 2 u)[2]? with
  | some f => f.b (3 * n + 2) (3 * n)
  | none => 0
/-- The coat frame of core `u`, its first. -/
def Image.coatOf (I : Image) (u : Nat) : Option Frm := (I.of 8 u).find? (fun f => f.b 223 222 == 0)

/-- A stage's word is illegal where it stands (R39, R43). [DEDUCED, log 12] -/
def stageIllegal (I : Image) (u t len j : Nat) (w : IWord) : Bool :=
  !elemOk w || (opnds w).any (fun o => decide (4 ≤ o.sel) && decide (o.sel < 12) && decide (j ≤ o.sel - 3))
    || (readsTap w && (match I.coatOf u with
                       | some c => decide (c.b 211 208 ≠ t)
                       | none => true))
    || (decide (j = len) && vDest w == 0)
/-- The illegal word of a class 1 frame. -/
def illegalStage (I : Image) (f : Frm) : Option Nat :=
  badSlot (fun s => decide (f.part < 3) && decide (3 * f.part + s + 1 ≤ f.len) && decide (f.len ≤ 8)
    && stageIllegal I f.unit f.tmpl f.len (3 * f.part + s + 1) (f.word s))

/-- The element count that source `i` of a word is read with (R127). -/
def srcElems (w : IWord) (i : Nat) : Nat := beatElems (if i = 0 then vFmtA w else (wV w.toNat).ty)
/-- Stage `j` of a template breaks R127, R131, R132 or R153. [DESIGN CHOICE, log 71] -/
def stageBad (I : Image) (u : Nat) (T : Template) (j : Nat) : Bool :=
  let w := T.word j
  let l := opnds w
  let before := List.range' 1 (j - 1)
  (l.zipIdx).any (fun q =>
      (decide (4 ≤ q.1.sel) && decide (q.1.sel < 12) &&
        (let p := T.word (q.1.sel - 3)
         decide (2 < vDest p) || decide (beatElems (wV p.toNat).ty ≠ srcElems w q.2)))
      || (decide (1 < q.1.rate) && decide (q.1.k ≠ 0))
      || (decide (q.1.sel < 4) && (l.any (fun o => decide (o.sel = q.1.sel) && decide (o.k ≠ q.1.k))
            || before.any (fun i => (inPorts (T.word i)).contains q.1.sel))))
    || (outPorts w).any (fun p => before.any (fun i => (outPorts (T.word i)).contains p))
    || (vDest w == 0 && (T.readers j).isEmpty)
    || (wordOp w == 0xA1 && (decide (j ≠ T.len) || decide (vDest w ≠ 1) || (T.res && !(List.range 2).all (fun p =>
          (I.cls 5).any (fun f => [0, 1].any (fun h =>
            let v := f.b (103 + 104 * h) (104 * h)
            f.b 223 220 == 0 && bit v 103 && decide (uCl f.unit = uCl u) && bits v 102 99 == 0 && decide (bits v 98 96 = uIdx u)
              && bits v 95 91 == p))))))
/-- The physical stages of two templates overlap. -/
def stagesOver (T U : Template) : Bool := decide (T.base < U.base + U.len) && decide (U.base < T.base + T.len)
/-- The output ports a template writes. -/
def Template.outs (T : Template) : List Nat := T.stages.flatMap (fun st => outPorts st.word)
/-- The accumulators a template writes. -/
def Template.accs (T : Template) : List Nat := T.stages.filterMap (fun st => accWritten st.word)
/-- Template `T`, whose first frame is `f`, meets a resident template (R130, R131, R164): a resident one an earlier resident one, an
issued one any. -/
def residentMeets (I : Image) (f : Frm) (T : Template) : Bool :=
  (I.tmpls f.unit).any (fun t =>
    match I.tmplFrames f.unit t, I.template f.unit t with
    | g :: _, some U =>
      decide (t ≠ f.tmpl) && U.res && (!T.res || decide (g.pos < f.pos)) &&
        (stagesOver T U || T.outs.any (fun p => U.outs.contains p) || (T.res && T.accs.any (fun a => U.accs.contains a)))
    | _, _ => false)
/-- A class 1 frame breaks R127 or R129 to R131. -/
def tmplFrameBad (I : Image) (f : Frm) : Bool :=
  let fs := I.tmplFrames f.unit f.tmpl
  match fs, I.template f.unit f.tmpl with
  | g :: _, some T =>
    f.part == 3 || decide (f.base ≠ g.base) || decide (f.len ≠ g.len) || (f.res != g.res)
      || f.len == 0 || decide (8 < f.len) || decide (8 < f.base + f.len)
      || fs.any (fun h => decide (h.pos < f.pos) && decide (h.part = f.part))
      || [0, 1, 2].any (fun s => decide (f.len < 3 * f.part + s + 1) && decide (f.word s ≠ 0))
      || [0, 1, 2].any (fun s => decide (3 * f.part + s + 1 ≤ f.len) && stageBad I f.unit T (3 * f.part + s + 1))
      || (decide (f.pos = g.pos) && (residentMeets I f T
            || (List.range ((f.len + 2) / 3)).any (fun p => !fs.any (fun h => decide (h.part = p)))))
  | _, _ => true

/-- A class 2 frame gives an invalid sticky entry or mode (R162, R173). -/
def tableBad (f : Frm) : Bool :=
  if f.k = 2 then (List.range 8).any (fun j => f.b (3 * j + 2) (3 * j) % 4 == 3)
  else (List.range 8).any (fun j => f.b (24 * j + 23) (24 * j) == 0) || (f.k == 0 && decide (f.b 23 0 ≠ 1))
/-- A class 3 frame names an invalid constant, or one named before (R187). -/
def constBad (I : Image) (f : Frm) : Bool :=
  !([0, 6, 12].contains (f.b 219 216))
    || (I.of 3 f.unit).any (fun g => decide (g.pos < f.pos) && decide (g.b 223 216 = f.b 223 216))

/-! ### Allocations (R209) -/

/-- Entry `j` of a class 4 frame. -/
def Frm.allocBits (f : Frm) (j : Nat) : Nat := f.b (24 * j + 23) (24 * j)
/-- The allocation that an entry makes. -/
def allocOf (v : Nat) : Alloc := { f := bits v 22 20, base := bits v 19 12, size := bits v 11 3 }
/-- The valid allocations of MU `u`, each with its frame's place and its number. -/
def Image.allocs (I : Image) (u : Nat) : List (Nat × Nat × Alloc) :=
  (I.of 4 u).flatMap (fun f => ((List.range 8).filter (fun j => bit (f.allocBits j) 23)).map (fun j =>
    (f.pos, 8 * f.k + j, allocOf (f.allocBits j))))
/-- A class 4 frame breaks R209. -/
def allocBad (I : Image) (f : Frm) : Bool :=
  (List.range 8).any (fun j =>
    let v := f.allocBits j
    let a := allocOf v
    if !bit v 23 then decide (v ≠ 0)
    else
      a.f == 7 || a.size == 0 || decide (256 < a.base + a.size)
        || (I.allocs f.unit).any (fun q => (decide (q.1 < f.pos) || (decide (q.1 = f.pos) && decide (q.2.1 < 8 * f.k + j)))
              && decide (q.2.2.base < a.base + a.size) && decide (a.base < q.2.2.base + q.2.2.size)))
/-- A range of bytes of MU `m` of cluster `cl` overlaps an allocation. -/
def meetsAlloc (I : Image) (cl m a n : Nat) : Bool :=
  (I.allocs (mkUnit cl 1 m)).any (fun q => meets a n (q.2.2.base * 4096) (q.2.2.size * 4096))

/-! ### Routes and switch nodes (R193 to R203) -/

/-- A valid route entry with its frame and its number. -/
structure RouteCfg where
  frm : Frm
  e : Nat
  x : Route
deriving DecidableEq, Repr

/-- The half `h` of a route frame. -/
def Frm.routeBits (f : Frm) (h : Nat) : Nat := f.b (103 + 104 * h) (104 * h)
/-- The number of the entry in half `h`: bits 207:104 hold the even one (R193). -/
def Frm.entryNum (f : Frm) (h : Nat) : Nat := f.b 219 214 + (1 - h)
/-- The route that an entry's bits make (R193). -/
def routeOf (v : Nat) : Route :=
  { skind := bits v 102 99, sidx := bits v 98 96, sport := bits v 95 91, dunit := bits v 90 75, dport := bits v 74 70,
    sfmt := fmtOf (bits v 69 66), smod := bits v 65 64, dfmt := fmtOf (bits v 63 60), dmod := bits v 59 58, rnd := rndOf (bits v 57 55),
    sat := bit v 54, tsc := bit v 53, spill := bit v 52, depth := bits v 51 36, mu := bits v 35 34, mubase := bits v 33 20,
    ring := bits v 19 16, init := bits v 15 12 }
/-- The valid route entries of an image in order. -/
def Image.routes (I : Image) : List RouteCfg :=
  ((I.cls 5).filter (fun f => f.b 223 220 == 0)).flatMap (fun f =>
    ([1, 0].filter (fun h => bit (f.routeBits h) 103)).map (fun h => { frm := f, e := f.entryNum h, x := routeOf (f.routeBits h) }))
/-- The producer's unit. -/
def RouteCfg.src (q : RouteCfg) : Nat := mkUnit (uCl q.frm.unit) q.x.skind q.x.sidx
/-- The key of the arc. -/
def RouteCfg.key (q : RouteCfg) : Nat := arcKey q.frm.unit q.e
/-- The route entries before an entry. -/
def Image.routesBefore (I : Image) (q : RouteCfg) : List RouteCfg := I.routes.takeWhile (fun p => decide (p ≠ q))

/-- The node frame of a switch, its first. -/
def Image.nodeFrame (I : Image) (u : Nat) : Option Frm := (I.of 5 u).find? (fun f => f.b 223 220 == 1)
/-- The bits of node `j` of a switch. -/
def Image.nodeBits (I : Image) (u j : Nat) : Nat :=
  match I.nodeFrame u with
  | some f => f.b (32 * j + 31) (32 * j)
  | none => 0
/-- The input ports of a node that are used: of a steer data and select, of a merge its data inputs and select (R202). -/
def cfgIns (v j : Nat) : List Nat :=
  (if bit v 30 then (List.range (bits v 29 28 + 1)).map (fun i => 8 * j + i) else [8 * j]) ++ [8 * j + 4]
/-- Its output ports that are used. -/
def cfgOuts (v j : Nat) : List Nat := if bit v 30 then [8 * j] else (List.range (bits v 29 28 + 1)).map (fun i => 8 * j + i)
/-- Output port `p` of a unit of kind `k` in the cluster of switch `u` exists (R194, R202). A section's ports exist whether or not it has a frame
(R262). [DESIGN CHOICE, log 73] -/
def outExists (I : Image) (u k p : Nat) : Bool :=
  match k with
  | 0 => decide (p < 2)
  | 2 => decide (p < 4)
  | 3 => decide (p < 8)
  | 5 => p == 31 || (List.range 4).any (fun j => bit (I.nodeBits u j) 31 && (cfgOuts (I.nodeBits u j) j).contains p)
  | _ => false
/-- Input port `p` of unit `u` exists. A section's ports exist whether or not it has a frame (R262). [DESIGN CHOICE, log 73] -/
def inExists (I : Image) (u p : Nat) : Bool :=
  match uKind u with
  | 0 => decide (p < 4)
  | 2 => decide (p < 5)
  | 3 => decide (p < 8)
  | 5 => (List.range 4).any (fun j => bit (I.nodeBits u j) 31 && (cfgIns (I.nodeBits u j) j).contains p)
  | _ => false

/-- A route's own fields break R193 to R197, R200, R201 or R370. [DEDUCED, log 20] -/
def routeBad (R : Region) (I : Image) (q : RouteCfg) (v : Nat) : Bool :=
  let x := q.x
  decide (kindCount x.skind ≤ x.sidx) || !outExists I q.frm.unit x.skind x.sport
    || !unitOk R x.dunit || !inExists I x.dunit x.dport
    || (x.skind == 5 && x.sport == 31 && (decide (x.sfmt ≠ .uint8) || decide (x.smod ≠ 0)))
    || bits v 69 66 == 0xE || bits v 63 60 == 0xE || x.smod == 3 || x.dmod == 3
    || [(0, 1), (0, 2), (1, 2), (2, 1)].contains (x.smod, x.dmod) || decide (5 < bits v 57 55)
    || (x.tsc && !(x.skind == 2 && x.smod == 0 && x.dmod == 0))
    || x.depth == 0 || decide (16384 < x.depth) || decide (x.depth < x.init) || decide (8 < x.ring) || (!x.spill && decide (x.ring ≠ 0))
    || (decide (16 < x.depth) && decide (16384 < x.mubase + x.depth - 16))
/-- A route conflicts with earlier ones: its entry, its consumer port, or a fifth arc of its producer port (R195). -/
def routeClash (I : Image) (q : RouteCfg) : Bool :=
  let l := I.routesBefore q
  l.any (fun p => decide (p.key = q.key) || (decide (p.x.dunit = q.x.dunit) && decide (p.x.dport = q.x.dport)))
    || decide (4 ≤ (l.filter (fun p => decide (p.src = q.src) && decide (p.x.sport = q.x.sport))).length)
/-- The bytes of its MU that a route borrows: first byte and size. -/
def Route.borrow (x : Route) : Nat × Nat := (x.mubase * 64, (x.depth - 16) * 64)
/-- A range of bytes of MU `m` of cluster `cl` overlaps one that a route of a list borrows. [DEDUCED, log 20] -/
def meetsBorrow (l : List RouteCfg) (cl m a n : Nat) : Bool :=
  l.any (fun p => decide (16 < p.x.depth) && decide (uCl p.frm.unit = cl) && decide (p.x.mu = m) && meets a n p.x.borrow.1 p.x.borrow.2)
/-- A route's borrowed range overlaps an allocation or an earlier route's (R192 reason 11). -/
def borrowBad (I : Image) (q : RouteCfg) : Bool :=
  decide (16 < q.x.depth) && (meetsAlloc I (uCl q.frm.unit) q.x.mu q.x.borrow.1 q.x.borrow.2
    || meetsBorrow (I.routesBefore q) (uCl q.frm.unit) q.x.mu q.x.borrow.1 q.x.borrow.2)
/-- The spillable routes in the order in which their rings are placed (R201). -/
def Image.rings (I : Image) : Assoc Nat :=
  (I.routes.filter (fun q => q.x.spill)).foldl (fun l q => Assoc.put q.key (4096 * 2 ^ q.x.ring) l) []
/-- The rings' first bytes, each at the next multiple of its own size: key and first byte. [DEDUCED, log 20] -/
def placeRings (spbase : Nat) (l : Assoc Nat) : Assoc Nat :=
  (l.foldl (fun (acc : Nat × Assoc Nat) q => let a := ceilDiv acc.1 q.2 * q.2
                                             (a + q.2, acc.2 ++ [(q.1, a)])) (spbase, [])).2
/-- A route's ring runs past the context's spill area. [DEDUCED, log 20] -/
def ringBad (I : Image) (spbase spsize : Nat) (q : RouteCfg) : Bool :=
  q.x.spill && (match Assoc.find q.key (placeRings spbase I.rings) with
                | some a => decide (spbase + 4096 * spsize < a + 4096 * 2 ^ q.x.ring)
                | none => false)
/-- The type with which a stage of a template reads input port `p`, but for VCVT's and stream-mode VNRW's source (R192 reason 8). -/
def portTypes (T : Template) (p : Nat) : List Fmt :=
  T.stages.flatMap (fun st => ((opnds st.word).zipIdx.filter (fun q =>
    decide (q.1.sel = p) && !(q.2 == 0 && (wordOp st.word == 0x95 || isNrwStream st.word)))).map (fun _ => (wV st.word.toNat).ty))
/-- A route's format differs from the type of the stage that reads its port. [DEDUCED, log 20] -/
def readerBad (I : Image) (q : RouteCfg) : Bool :=
  uKind q.x.dunit == 0 && (I.tmpls q.x.dunit).any (fun t =>
    match I.template q.x.dunit t with
    | some T => (portTypes T q.x.dport).any (fun f => decide (f ≠ q.x.dfmt))
    | none => false)
/-- A node field breaks R202. -/
def nodeBad (I : Image) (u j : Nat) : Bool :=
  let v := I.nodeBits u j
  let f := fmtOf (bits v 27 24)
  bit v 31 &&
    (bits v 29 28 == 0 || bits v 27 24 == 0xE
      || (cfgIns v j).any (fun p => match I.routes.filter (fun q => decide (q.x.dunit = u) && decide (q.x.dport = p)) with
                                     | [q] => decide (q.x.dfmt ≠ f)
                                     | _ => true)
      || (cfgOuts v j).any (fun p => match I.routes.filter (fun q => decide (q.src = u) && decide (q.x.sport = p)) with
                                      | [q] => decide (q.x.sfmt ≠ f)
                                      | _ => true))
/-- Reserved bits of a class 5 frame. -/
def switchReserved (f : Frm) : Bool :=
  match f.b 223 220 with
  | 0 => f.b 213 208 ≠ 0 || [0, 1].any (fun h => bits (f.routeBits h) 11 0 ≠ 0)
  | 1 => f.b 219 128 ≠ 0 || (List.range 4).any (fun j => f.b (32 * j + 23) (32 * j) ≠ 0)
  | _ => false
/-- A class 5 frame breaks its rules under reason 10. -/
def switchBad (R : Region) (I : Image) (f : Frm) : Bool :=
  match f.b 223 220 with
  | 0 =>
    f.b 219 214 % 2 ≠ 0 || [0, 1].any (fun h => !bit (f.routeBits h) 103 && decide (f.routeBits h ≠ 0))
      || (I.routes.filter (fun q => decide (q.frm = f))).any (fun q =>
            routeBad R I q (f.routeBits (if q.e % 2 = 0 then 1 else 0)) || routeClash I q)
  | 1 => decide (I.nodeFrame f.unit ≠ some f) || (List.range 4).any (nodeBad I f.unit)
  | _ => true

/-! ### AG patterns and windows (R226, R324) -/

/-- The pattern of a class 6 frame. -/
def patternOf (f : Frm) : Pattern :=
  { tensor := bit f.x 219, write := bit f.x 218, col := bit f.x 217, fmt := fmtOf (f.b 216 213),
    loops := (List.range 4).map (fun j => (f.b (40 * j + 71) (40 * j + 56) + 1, f.b (40 * j + 55) (40 * j + 32))) }
/-- The format of the arcs at a stream port of AG `u` differs from `g`, or there is none: sfmt for a read, dfmt for a write. -/
def portFmtBad (I : Image) (u p : Nat) (write : Bool) (g : Fmt) : Bool :=
  let l := if write then (I.routes.filter (fun q => decide (q.x.dunit = u) && decide (q.x.dport = p))).map (fun q => q.x.dfmt)
           else (I.routes.filter (fun q => decide (q.src = u) && decide (q.x.sport = p))).map (fun q => q.x.sfmt)
  l.isEmpty || l.any (fun f => decide (f ≠ g))
/-- A class 6 frame breaks R226. [DEDUCED, log 20] -/
def patternBad (I : Image) (f : Frm) : Bool :=
  let p := patternOf f
  (I.of 6 f.unit).any (fun g => decide (g.pos < f.pos) && decide (g.b 223 220 = f.b 223 220))
    || (p.tensor && (p.col || bit f.x 212)) || (p.col && decide (fmtBits p.fmt % 8 ≠ 0))
    || (p.tensor && p.loops.any (fun l => decide (4 < bits l.2 23 21)))
    || (p.col && bit f.x 212 && portFmtBad I f.unit (f.b 211 209) p.write p.fmt)
/-- The window of a class 9 frame. -/
def windowOf (f : Frm) : Window :=
  { tid := f.b 214 199, lo := f.b 198 172, hi := f.b 171 145, base := f.b 144 111, stride := f.b 110 95, r := bit f.x 216,
    w := bit f.x 215, off := false }
/-- A class 9 frame breaks R324. -/
def windowBad (I : Image) (f : Frm) : Bool :=
  let w := windowOf f
  let before := (I.of 9 f.unit).filter (fun g => decide (g.pos < f.pos))
  f.b 94 0 ≠ 0 || before.any (fun g => decide (g.b 223 218 = f.b 223 218)) ||
    (if !bit f.x 217 then decide (f.b 223 218 ≠ 0) || decide (f.b 216 0 ≠ 0)
     else
       let last := (w.base : Int) + sextN 16 w.stride * ((w.hi : Int) - w.lo)
       decide (w.hi < w.lo) || decide (last < 0) || decide (2 ^ 34 ≤ last)
         || before.any (fun g => bit g.x 217 && decide (g.b 223 221 = f.b 223 221) && decide ((windowOf g).tid = w.tid)
              && decide ((windowOf g).lo ≤ w.hi) && decide (w.lo ≤ (windowOf g).hi)))

/-! ### MX sections (R260 to R264) -/

/-- A section of a class 7 frame, just loaded. -/
def sectionOf (f : Frm) : Section :=
  { afmt := fmtOf (f.b 218 215), bfmt := fmtOf (f.b 214 211), smod := f.b 210 209, g := f.b 208 200 + 1, node0 := f.b 199 191,
    pfirst := f.b 190 185, kp := f.b 184 179 + 1, ecnt := f.b 178 175 + 1, count := 0, j := 0, tiles := 0, flags := 0, latch := 127,
    lot := false, hdr := false, coll := [], check := false }
/-- The routes out of port `p` of unit `u`. -/
def Image.from (I : Image) (u p : Nat) : List RouteCfg := I.routes.filter (fun q => decide (q.src = u) && decide (q.x.sport = p))
/-- The routes into port `p` of unit `u`. -/
def Image.into (I : Image) (u p : Nat) : List RouteCfg := I.routes.filter (fun q => decide (q.x.dunit = u) && decide (q.x.dport = p))
/-- A class 7 frame breaks R264. -/
def sectionBad (I : Image) (f : Frm) : Bool :=
  let x := sectionOf f
  let s := f.b 221 220
  let before := (I.of 7 f.unit).filter (fun g => decide (g.pos < f.pos))
  f.b 223 222 ≠ 0 || before.any (fun g => g.b 221 220 == s) ||
    (if !bit f.x 219 then decide (f.b 218 0 ≠ 0) || decide (s ≠ 0)
     else
       !mxFmt x.afmt || !mxFmt x.bfmt || (fmtInt x.afmt != fmtInt x.bfmt) || x.smod == 3 || (decide (x.smod ≠ 0) && fmtInt x.bfmt)
         || decide (512 < x.node0 + x.g) || decide (64 < x.pfirst + x.kp) || (x.q == 2 && decide (x.kp % 2 ≠ 0))
         || before.any (fun g => bit g.x 219 && decide ((sectionOf g).node0 < x.node0 + x.g)
              && decide (x.node0 < (sectionOf g).node0 + (sectionOf g).g))
         || (I.into f.unit s).isEmpty || (I.from f.unit s).isEmpty
         || (I.into f.unit s).any (fun q => decide (q.x.dfmt ≠ x.afmt) || decide (q.x.dmod ≠ x.smod))
         || (I.from f.unit s).any (fun q => decide (q.x.sfmt ≠ (if fmtInt x.bfmt then .int32 else .fp32)) || decide (q.x.smod ≠ 0)))
/-- A route into input 4 of an MX breaks R262. -/
def input4Bad (I : Image) (f : Frm) : Bool :=
  I.routes.any (fun q => decide (q.frm = f) && uKind q.x.dunit == 2 && q.x.dport == 4 && (decide (q.x.dfmt ≠ .uint8) || decide (q.x.dmod ≠ 0)))

/-! ### Coats (R237 to R240) -/

/-- The type of a class 8 frame. -/
def Frm.ctype (f : Frm) : Nat := f.b 223 222
/-- The chain of a coat or chain frame. -/
def Frm.chain (f : Frm) : Nat := f.b 221 220
/-- The coat number, or the depth, of a coat or chain frame. -/
def Frm.coat (f : Frm) : Nat := f.b 219 213
/-- The core a coat frame describes; its taps from the tap frames of its unit. -/
def coatCoreOf (I : Image) (f : Frm) : CoatCore :=
  { unit := f.unit, head := bit f.x 212, last := bit f.x 204, tmpl := f.b 211 208, iport := f.b 207 206, oport := f.b 205 205,
    hmu := f.b 203 202, hbase := f.b 201 188, hsize := f.b 187 174,
    taps := ((I.of 8 f.unit).filter (fun g => g.ctype == 2)).foldl (fun l g => (List.range 12).foldl (fun l j =>
      let v := g.b (16 * j + 15) (16 * j)
      if bit v 15 then Assoc.put (12 * g.b 221 219 + j) { fsel := bits v 14 12, dz := bits v 11 8, dy := bits v 7 4, dx := bits v 3 0 } l else l) l) [] }
/-- The coat frames of chain `c`. -/
def Image.coatFrames (I : Image) (c : Nat) : Image := (I.cls 8).filter (fun f => f.ctype == 0 && decide (f.chain = c))
/-- The chain frames of chain `c`. -/
def Image.chainFrames (I : Image) (c : Nat) : Image := (I.cls 8).filter (fun f => f.ctype == 1 && decide (f.chain = c))
/-- The cores of coat `k` of chain `c`. -/
def Image.coatCores (I : Image) (c k : Nat) : List CoatCore := ((I.coatFrames c).filter (fun f => decide (f.coat = k))).map (coatCoreOf I)
/-- The head and the last core of coat `k`. -/
def Image.coatHead (I : Image) (c k : Nat) : Option CoatCore := (I.coatCores c k).find? (fun q => q.head)
/-- The last core of coat `k`. -/
def Image.coatLast (I : Image) (c k : Nat) : Option CoatCore := (I.coatCores c k).find? (fun q => q.last)
/-- A direct route without a conversion and without initial beats runs from a producer port to a consumer port (R240). -/
def plainRoute (I : Image) (u p v q : Nat) : Bool :=
  (I.from u p).any (fun r => decide (r.x.dunit = v) && decide (r.x.dport = q)) &&
    ((I.from u p).filter (fun r => decide (r.x.dunit = v) && decide (r.x.dport = q))).all (fun r => !r.x.converts && r.x.init == 0)
/-- The routes of a chain of depth `d` are there. -/
def chainRouted (I : Image) (f : Frm) : Bool :=
  let d := f.coat
  let entry (k : Nat) : Option (Nat × Nat) := (I.coatHead f.chain k).map (fun c => (c.unit, c.iport))
  let exit (k : Nat) : Option (Nat × Nat) := (I.coatLast f.chain k).map (fun c => (c.unit, c.oport))
  let hop (a b : Option (Nat × Nat)) : Bool :=
    match a, b with
    | some a, some b => plainRoute I a.1 a.2 b.1 b.2
    | _, _ => false
  hop (some (f.b 212 197, f.b 196 194)) (entry 1) && (List.range' 1 (d - 1)).all (fun k => hop (exit k) (entry (k + 1)))
    && hop (exit d) (some (f.b 193 178, f.b 177 175))
/-- A unit is an AG of the region. -/
def isAg (R : Region) (u : Nat) : Bool := unitOk R u && uKind u == 3
/-- A chain frame breaks R240. -/
def chainFrameBad (R : Region) (I : Image) (f : Frm) : Bool :=
  let d := f.coat
  let ks := List.range' 1 d
  d == 0 || decide (64 < d) || (I.chainFrames f.chain).any (fun g => decide (g.pos < f.pos))
    || !isAg R (f.b 212 197) || !isAg R (f.b 193 178)
    || ks.any (fun k => (I.coatHead f.chain k).isNone || (I.coatLast f.chain k).isNone)
    || decide ((I.coatHead f.chain 1).map (fun c => c.unit) ≠ some f.unit)
    || decide (64 < ((I.cls 8).filter (fun g => g.ctype == 1 && decide (g.pos ≤ f.pos))).foldl (fun n g => n + g.coat) 0)
    || !chainRouted I f
/-- A coat frame breaks R237 or R240 under reason 14. [DEDUCED, log 20] -/
def coatFrameBad (I : Image) (f : Frm) : Bool :=
  let c := coatCoreOf I f
  let same := (I.coatFrames f.chain).filter (fun g => decide (g.coat = f.coat) && decide (g.pos < f.pos))
  let T := Assoc.find 0 (((I.template f.unit c.tmpl).toList.map (fun T => (0, T)) : Assoc Template))
  f.coat == 0 || decide (64 < f.coat) || (I.of 8 f.unit).any (fun g => g.ctype == 0 && decide (g.pos < f.pos))
    || (c.head && same.any (fun g => bit g.x 212)) || (c.last && same.any (fun g => bit g.x 204)) || decide (4 ≤ same.length)
    || (!c.head && decide (f.b 207 206 ≠ 0 ∨ f.b 203 174 ≠ 0)) || (!c.last && decide (c.oport ≠ 0))
    || (c.head && decide (16384 < c.hbase + c.hsize + 1))
    || (match I.chainFrames f.chain with
        | [] => true
        | g :: _ => decide (g.coat < f.coat))
    || (match T with
        | none => true
        | some T =>
          !T.res || (List.range' 1 T.stages.length).any (fun j =>
            if c.head then
              (T.stages.any (fun st => (inPorts st.word).contains c.iport)) || [0xA1, 0xA2].contains (wordOp (T.word j)) || decide (rateA (T.word j) ≠ 1)
                || decide (rateOut (I.modes f.unit) (T.word j) ≠ 1)
                || (opnds (T.word j)).any (fun o => decide (64 ≤ o.sel) && (Assoc.find (o.sel - 64) c.taps).isNone)
            else readsTap (T.word j)))
/-- The bytes of a head's hawk: first byte in its MU and size. -/
def hawkRange (c : CoatCore) : Nat × Nat := (c.hbase * 64, (c.hsize + 1) * 64)
/-- A head's hawk overlaps an allocation, a borrowed range or the hawk of another head core before it (R240, reason 11). [DEDUCED, log 58] -/
def hawkBad (I : Image) (f : Frm) : Bool :=
  let c := coatCoreOf I f
  let a := hawkRange c
  c.head && (meetsAlloc I (uCl f.unit) c.hmu a.1 a.2 || meetsBorrow I.routes (uCl f.unit) c.hmu a.1 a.2
    || (I.cls 8).any (fun g => g.ctype == 0 && decide (g.pos < f.pos) && decide (g.unit ≠ f.unit) && decide (uCl g.unit = uCl f.unit) &&
          (let d := coatCoreOf I g
           d.head && decide (d.hmu = c.hmu) && meets a.1 a.2 (hawkRange d).1 (hawkRange d).2)))
/-- A tap frame breaks R239 or R240. -/
def tapFrameBad (I : Image) (f : Frm) : Bool :=
  (match I.coatOf f.unit with
   | some c => !bit c.x 212
   | none => true)
    || decide (5 < f.b 221 219)
    || (I.of 8 f.unit).any (fun g => g.ctype == 2 && decide (g.pos < f.pos) && decide (g.b 221 219 = f.b 221 219))
    || (List.range 12).any (fun j =>
          let v := f.b (16 * j + 15) (16 * j)
          (!bit v 15 && decide (v ≠ 0)) || decide (4 < bits v 14 12) || (decide (64 ≤ 12 * f.b 221 219 + j) && decide (v ≠ 0)))
/-- Reserved bits of a class 8 frame. -/
def coatReserved (f : Frm) : Bool :=
  match f.ctype with
  | 0 => f.b 173 0 ≠ 0
  | 1 => f.b 174 0 ≠ 0
  | 2 => f.b 218 192 ≠ 0
  | _ => false
/-- A class 8 frame breaks its chapter's rules. -/
def coatClassBad (R : Region) (I : Image) (f : Frm) : Bool :=
  match f.ctype with
  | 0 => coatFrameBad I f
  | 1 => chainFrameBad R I f
  | 2 => tapFrameBad I f
  | _ => true

/-! ### Task bindings (R188) -/

/-- The channels that slot `j` of a core is bound to, by position 0. -/
def Frm.chans (f : Frm) (j : Nat) : Nat := if isCtl f.unit then f.b 191 176 else f.b (28 * j + 15) (28 * j)
/-- The go bit of slot `j`. -/
def Frm.go (f : Frm) (j : Nat) : Bool := if isCtl f.unit then bit f.x 223 else bit f.x (28 * j + 27)
/-- The entry word of slot `j`. -/
def Frm.entry (f : Frm) (j : Nat) : Nat := if isCtl f.unit then f.b 218 192 else f.b (28 * j + 26) (28 * j + 16)
/-- Reserved bits of a class 10 frame, and a field with dv = 0 that is not zero. -/
def bindReserved (f : Frm) : Bool :=
  if f.k = 0 then isCtl f.unit && decide (f.b 222 219 ≠ 0 ∨ f.b 175 0 ≠ 0)
  else f.b 223 160 ≠ 0 || (List.range 8).any (fun m => !bit f.x (20 * m + 19) && decide (f.b (20 * m + 18) (20 * m) ≠ 0))
/-- A class 10 frame breaks R188. -/
def bindBad10 (R : Region) (f : Frm) : Bool :=
  if f.k = 0 then
    let js := List.range (slotCount f.unit)
    js.any (fun j => (!f.go j && decide (f.chans j ≠ 0)) || js.any (fun i => decide (i < j) && decide (Nat.land (f.chans i) (f.chans j) ≠ 0)))
  else
    (List.range 8).any (fun m =>
      let su := f.b (20 * m + 18) (20 * m + 3)
      bit f.x (20 * m + 19) && (!isCoreUnit R su || (isCtl su && decide (f.b (20 * m + 2) (20 * m) ≠ 0))))

/-! ### The reason for which a frame is rejected (R192) -/

/-- A reserved payload field of a frame is nonzero (reason 6); one of class 9 has reason 14 (R324). [DEDUCED, log 20] -/
def frameReserved (f : Frm) : Bool :=
  match f.cls with
  | 0 => f.b 223 192 ≠ 0 || (f.k == 682 && f.b 191 128 ≠ 0)
  | 1 => f.b 209 192 ≠ 0
  | 2 => if f.k = 2 then f.b 223 24 ≠ 0 else f.b 223 192 ≠ 0
  | 3 => f.b 215 192 ≠ 0 || (f.b 219 216 == 12 && f.b 191 128 ≠ 0)
  | 4 => f.b 223 192 ≠ 0 || (List.range 8).any (fun j => f.allocBits j % 8 ≠ 0)
  | 5 => switchReserved f
  | 6 => f.b 207 192 ≠ 0
  | 7 => f.b 174 0 ≠ 0
  | 8 => coatReserved f
  | 9 => false
  | 10 => bindReserved f
  | _ => f.b 223 32 ≠ 0

/-- The slot of a frame's illegal word (reason 7). [DEDUCED, log 20] -/
def frameIllegal (I : Image) (f : Frm) : Option Nat :=
  match f.cls with
  | 0 => illegalStore f
  | 1 => illegalStage I f
  | _ => none

/-- The routes of a frame for which `p` holds. -/
def anyRoute (I : Image) (f : Frm) (p : RouteCfg → Bool) : Bool := I.routes.any (fun q => decide (q.frm = f) && p q)

/-- The lowest reason for which frame `f` of an image is rejected; reasons 13 and 15 are the image's (R192). [DEDUCED, log 20] -/
def frameReason (R : Region) (I : Image) (spbase spsize : Nat) (f : Frm) : Option Nat :=
  let c := f.cls
  let k := uKind f.unit
  if !f.nibblesOk then some 1
  else if (11 ≤ c ∧ c < 15) ∨ 6 ≤ k then some 2
  else if !unitOk R f.unit then some 3
  else if !accepts c k then some 4
  else if f.index ≠ f.k % 256 ∨ classMax c ≤ f.k ∨ (c = 10 ∧ f.k = 1 ∧ (I.of 10 f.unit).length = 2) then some 5
  else if frameReserved f then some 6
  else if (frameIllegal I f).isSome then some 7
  else if (c == 1 && tmplFrameBad I f) || (c == 5 && anyRoute I f (readerBad I)) then some 8
  else if (c == 2 && tableBad f) || (c == 3 && constBad I f) then some 9
  else if c == 5 && switchBad R I f then some 10
  else if (c == 5 && anyRoute I f (fun q => borrowBad I q || ringBad I spbase spsize q)) || (c == 8 && f.ctype == 0 && hawkBad I f) then some 11
  else if c == 10 && bindBad10 R f then some 12
  else if (c == 4 && allocBad I f) || (c == 5 && input4Bad I f) || (c == 6 && patternBad I f) || (c == 7 && sectionBad I f)
      || (c == 8 && coatClassBad R I f) || (c == 9 && windowBad I f) then some 14
  else none

/-- The first failing frame of an image, with its reason. [DEDUCED, log 20] -/
def firstBad (R : Region) (I : Image) (spbase spsize : Nat) : Option (Frm × Nat) :=
  I.findSome? (fun f => (frameReason R I spbase spsize f).map (fun n => (f, n)))

end Sys2Proof.Machine
end

