-- ==== Sys2Proof/Machine/Install.lean ====
section
/-! DEFINITION. What an image makes of a region when it takes effect (R183, R190, R191): every unit starts from the defaults, its frames
applied. -/

namespace Sys2Proof.Machine

/-! ### Cores -/

/-- Slot `j` at a load: started at its entry word, or idle; its registers are kept (R70, R72, R188). [DEDUCED, log 21] -/
def loadSlot (f : Option Frm) (j : Nat) (sl : Slot) : Slot :=
  let base := { sl with chbind := 0, st := SlotState.idle, prog := .fresh, trap := none, roster := false, interval := 0, aseq := 0, dseq := 0 }
  match f with
  | none => base
  | some f =>
    if f.go j then { base with chbind := BitVec.ofNat 16 (f.chans j), pc := toWord (f.entry j), st := .runnable, count := 0, roster := true }
    else base
/-- The declared sender of channel `c` (R117, R188). -/
def declared (fs : Image) (c : Nat) : Option (Nat × Nat) :=
  match fs[1 + c / 8]? with
  | some f =>
    let m := c % 8
    if bit f.x (20 * m + 19) then some (f.b (20 * m + 18) (20 * m + 3), f.b (20 * m + 2) (20 * m)) else none
  | none => none
/-- The instruction store that an image gives a core: the words its frames carry (R184, R191). -/
def storeOf (I : Image) (u : Nat) : Assoc IWord :=
  ((I.of 0 u).flatMap (fun f => (List.range 3).map (fun j => (3 * f.k + j, f.word j)))).filter (fun q => decide (q.1 < 2048))
/-- The sticky entries that an image gives a core (R186). -/
def stickyOf (I : Image) (u : Nat) : Assoc Nat :=
  ((I.of 2 u).filter (fun f => decide (f.k < 2))).flatMap (fun f => (List.range 8).map (fun j => (8 * f.k + j, f.b (24 * j + 23) (24 * j))))
/-- The constants that an image gives a core (R187). -/
def constsOf (I : Image) (u : Nat) : Assoc (BitVec 32) :=
  (I.of 3 u).foldl (fun l f => (List.range (if f.b 219 216 = 12 then 4 else 6)).foldl (fun l j =>
    Assoc.put (16 * f.b 223 220 + f.b 219 216 + j) (BitVec.ofNat 32 (f.b (32 * j + 31) (32 * j))) l) l) []
/-- A core at a load (R191): its store, tables and templates as the image says, its tickets, counts and scale as at load; its registers,
phase buffer and channel words kept. [DEDUCED, log 21] -/
def loadCore (I : Image) (u : Nat) (c : Core) : Core :=
  let fs := I.of 10 u
  { c with
    slots := (List.range (slotCount u)).map (fun j => (j, loadSlot fs.head? j (c.slot j))),
    last := 7, cyc := 0, seed := none, producers := [], copyTicket := 0, copyDone := [],
    chans := (List.range 16).map (fun j => (j, { c.chan j with sender := declared fs j })),
    started := isCtl u && (match fs.head? with
                           | some f => f.go 0
                           | none => false),
    istore := storeOf I u,
    accs := (List.range 8).map (fun n => (n, { AccEntry.init with mode := BitVec.ofNat 3 (I.modes u n) })),
    loadModes := (List.range 8).map (fun n => BitVec.ofNat 3 (I.modes u n)),
    sticky := stickyOf I u,
    templates := (I.tmpls u).filterMap (fun t => (I.template u t).map (fun T => (t, T))),
    consts := constsOf I u, chains := [], nextTicket := 0, ended := [], scale := 0x3F800000 }

/-! ### The rest of the fabric -/

/-- An arc at load, with its initial beats (R200). [DEDUCED, log 19] -/
def loadArc (x : Route) : Arc :=
  { Arc.fresh x with fifo := rep x.init { data := 0, ctl := 0, side := if x.dmod = 1 then oneSide else 0 } }
/-- The ports of an AG at load, with their windows and their auto commands (R226, R229, R324): those of one port in frame order, with tickets
from 0, however many. [DESIGN CHOICE, log 72; DESIGN CHOICE, log 73] -/
def loadPort (I : Image) (u p : Nat) : Port :=
  let auto := (I.of 6 u).filter (fun f => bit f.x 212 && decide (f.b 211 209 = p))
  { Port.init with
    windows := ((I.of 9 u).filter (fun f => bit f.x 217 && decide (f.b 223 221 = p))).foldl (fun l f => Assoc.put (f.b 220 218) (windowOf f) l) [],
    queue := auto.zipIdx.map (fun q => .cmd (q.1.b 223 220) (toWord (q.1.b 31 0)) 1 (bit q.1.x 208) q.2),
    ticket := auto.length }
/-- An AG at load. -/
def loadAg (I : Image) (u : Nat) : Ag :=
  { patterns := (I.of 6 u).foldl (fun l f => Assoc.put (f.b 223 220) (patternOf f) l) [],
    ports := (List.range 8).map (fun p => (p, loadPort I u p)) }
/-- An MX at load (R263, R267, R272, R277). -/
def loadMx (I : Image) (u : Nat) : Mx :=
  { Mx.init with sections := ((I.of 7 u).filter (fun f => bit f.x 219)).foldl (fun l f => Assoc.put (f.b 221 220) (sectionOf f) l) [] }
/-- Coat `k` of chain `c` at load. -/
def loadCoat (I : Image) (c k : Nat) : Coat :=
  { cores := I.coatCores c k, cells := [], next := 0, begun := 0, emitted := 0, drain := false, fin := false, ended := [], edgeNow := [] }
/-- The chain of a chain frame at load. -/
def loadChain (I : Image) (f : Frm) : CoatChain :=
  { depth := f.coat, sunit := f.b 212 197, sport := f.b 196 194, kunit := f.b 193 178, kport := f.b 177 175,
    coats := (List.range' 1 f.coat).map (fun k => (k, loadCoat I f.chain k)), running := false, ran := false, desc := 0, pass := 0,
    steps := 0, passes := 0, edge := [] }
/-- The switch nodes of an image. -/
def nodesOf (I : Image) : Assoc SwitchNode :=
  (I.units 5).foldl (fun l u => (List.range 4).foldl (fun l j =>
    let v := I.nodeBits u j
    if bit v 31 then Assoc.put (arcKey u j) { merge := bit v 30, n := bits v 29 28, fmt := fmtOf (bits v 27 24) } l else l) l) []
/-- The allocations of an image. -/
def allocsOf (I : Image) : Assoc Alloc :=
  (I.units 4).foldl (fun l u => (I.allocs u).foldl (fun l q => Assoc.put (u * 16 + q.2.1) q.2.2 l) l) []
/-- The units that a load gives a core: those the region has and those the image names. -/
def loadedCores (R : Region) (I : Image) : List Nat :=
  (coreUnits R).filter (fun u => (Assoc.find u R.cores).isSome || I.any (fun f => decide (f.unit = u)))
/-- The AGs whose ports a route names. -/
def Image.streamUnits (I : Image) : List Nat :=
  I.routes.flatMap (fun q =>
    (if q.x.skind = 3 then [mkUnit (uCl q.frm.unit) 3 q.x.sidx] else []) ++ (if uKind q.x.dunit = 3 then [q.x.dunit] else []))
/-- The image takes effect (R190, R191, R217, R338). [DEDUCED, log 21] -/
def install (I : Image) (R : Region) : Region :=
  { R with
    cores := (loadedCores R I).map (fun u => (u, loadCore I u (R.core u))),
    arcs := I.routes.foldl (fun l q => Assoc.put q.key (loadArc q.x) l) [],
    nodes := nodesOf I, allocs := allocsOf I,
    ags := ((I.units 6) ++ (I.units 9) ++ I.streamUnits).foldl (fun l u => Assoc.put u (loadAg I u) l) [],
    mxs := (I.units 7).foldl (fun l u => Assoc.put u (loadMx I u) l) [],
    coats := ((I.cls 8).filter (fun f => f.ctype == 1)).foldl (fun l f => Assoc.put f.chain (loadChain I f) l) [],
    bars := [], phases := [],
    tbars := R.tbars.map (fun q => (q.1, { q.2 with e := 0, armed := false, inst := 0 })),
    flying := [], atomics := [], xforms := [], publishes := [], tinvs := [], ddq := [], colls := [],
    copies := R.copies.filter (fun x => x.node.isSome) }

/-! ### Arms (R298, R499) -/

/-- The fields of an arm entry: unit, section, count. -/
def armOf (v : Word) : Nat × Nat × Nat := (bits v.toNat 15 0, bits v.toNat 33 32, bits v.toNat 63 40)
/-- An arm entry names no section of the region (R499). -/
def armMissing (R : Region) (v : Word) : Bool :=
  let a := armOf v
  !unitOk R a.1 || decide (uKind a.1 ≠ 2) || (Assoc.find a.2.1 (R.mx a.1).sections).isNone
/-- Arm a section as GARM does, before any task starts (R298, R304). -/
def applyArm (R : Region) (v : Word) : Region :=
  let a := armOf v
  R.modMx a.1 (fun m =>
    match Assoc.find a.2.1 m.sections with
    | some x => { m with sections := Assoc.put a.2.1 { x with count := x.count + a.2.2, check := true } m.sections }
    | none => m)

end Sys2Proof.Machine
end

