-- ==== Sys2Proof/Machine/LoadFab.lean ====
section
/-! DEFINITION. Fabric loads (R189, R190, R192, R204, R300): starting one, reading its frames, the image taking effect, and the reconfiguration
token that ends it. -/

namespace Sys2Proof.Machine

/-! ### The sequencer's accesses and records -/

/-- A stop record of the graph sequencer. -/
def seqRec (cause : Nat) : StopRec := recOf cause 7 0
/-- Go on with an access of the sequencer of region `r`: tried again while the tile is moved, fatal where it fails. -/
def seqAccess {α : Type} (r : Nat) (k : α → State → State) (s : State) (res : MemRes α) : State :=
  match res with
  | .ok v s1 => k v s1
  | .wait _ => s
  | .fail x s1 => raise r { x with kind := 7, unit := 0 } s1
/-- The configuration sequence number of the load that is loading or resident, or of the last one (R300). -/
def Graph.cseq (g : Graph) : Nat := g.loads - 1
/-- The launch record's bits. [DEDUCED, log 23] -/
def Graph.bits (g : Graph) : Nat := g.rcd.data.toNat

/-- wdog of a launch record (R295). -/
def recWdog (d : Nat) : Nat := bits d 127 96
/-- The watchdog time a graph has used: it counts while its record runs (R424). -/
def Graph.used (now : Nat) (g : Graph) : Nat := if g.rcd.st = .running then g.wdog + (now - g.wdogAt) else g.wdog
/-- Node `n` is the graph's last fabric load, and the watchdog runs out in this very cycle (R424). -/
def Graph.justInTime (now n : Nat) (g : Graph) : Bool :=
  recWdog g.bits != 0 && g.run != 1 && decide (g.used now = 1000 * recWdog g.bits)
    && g.nodes.zipIdx.all (fun q => q.1.kind != 0 || q.2 == n || q.1.st == .finished)

/-- The sequencer may start nodes: a graph runs, its colophon written, and the region is in service and neither halted nor being pre-empted
(R294, R407, R410, R428). -/
def seqRuns (R : Region) : Bool :=
  R.graph.any (fun g => g.rcd.st == .running) && R.colJob.isNone && R.inService && !R.halt && R.preempt.isNone

/-- A node is a DDE batch that runs. -/
def batchRuns (x : GNode) : Bool := x.kind == 2 && x.st == .running
/-- A fabric load is loading or resident. -/
def Graph.busy (g : Graph) : Bool := g.load.isSome || g.resident.isSome
/-- Node `n` may start now (R299, R300, R378): it is ready, no earlier ready node that could start stands before it, and in deterministic mode
every lower-indexed node has started. [DEDUCED, log 27] -/
def Graph.mayStart (det : Bool) (n : Nat) (g : Graph) : Bool :=
  let kindOf (j : Nat) : Nat := ((g.nodes[j]?).map (fun x => x.kind)).getD 0
  let blocked (j : Nat) : Bool :=
    (kindOf j == 0 && (g.busy || (det && g.nodes.any batchRuns))) || (kindOf j == 2 && det && g.busy)
  g.ready.contains n && !blocked n &&
    (if det then (g.nodes.take n).all (fun x => x.st != .waiting) else (g.ready.takeWhile (fun j => j != n)).all blocked)
/-- Node `n` starts. -/
def Graph.start (n : Nat) (g : Graph) : Graph :=
  { g with ready := g.ready.filter (fun j => j != n),
           nodes := match g.nodes[n]? with
                    | some x => listSet n { x with st := .running } g.nodes
                    | none => g.nodes }

/-! ### Loading (R190) -/

/-- FABRIC_LOAD_START: a ready fabric load starts to read its image, once the previous token has passed (R190, R299, R300). -/
def execFabricLoadStart (r : Nat) (s : State) : Host.Outcome State Fault Refusal :=
  let R := s.region r
  match R.graph with
  | none => nx s
  | some g =>
    match g.ready.find? (fun n => (((g.nodes[n]?).map (fun x => x.kind)).getD 1 == 0) && g.mayStart (detOn s R) n) with
    | none => nx s
    | some n =>
      if !seqRuns R then nx s
      else
        let base := ((g.nodes[n]?).map (fun x => x.arg0)).getD 0
        nx ((s.modGraph r (fun g => { g.start n with loads := g.loads + 1, load := some { node := n, base := base, frames := [] } })).modCtx
          g.rcd.asid (fun c => { c with lastLoad := g.loads }))

/-- Frame `k` of the image being loaded: none where it would lie beyond the control segment (R189). -/
def frameAt (c : Context) (r : Nat) (l : Load) (k : Nat) (s : State) : MemRes (Option Nat) :=
  let a := l.base + 32 * k
  if segSize c < a + 32 then .ok none s else (gRead c r a 32 s).bind (fun bs s1 => .ok (some (ofBytesLE bs)) s1)

/-- CONFIG_FRAME: the next frame of the image arrives (R190). -/
def execConfigFrame (r : Nat) (s : State) : Host.Outcome State Fault Refusal :=
  let R := s.region r
  match R.graph.bind (fun g => g.load), s.ctxOf R with
  | some l, some c =>
    if R.halt then nx s
    else
      nx (seqAccess r (fun f s1 =>
        match f with
        | some x =>
          if bits x 255 252 = 15 then s1
          else s1.modGraph r (fun g => { g with load := some { l with frames := l.frames ++ [BitVec.ofNat 256 x] } })
        | none => s1) s (frameAt c r l l.frames.length s))
  | _, _ => nx s

/-- The stop record of a rejected frame (R192). -/
def rejectFrame (I : Image) (f : Frm) (reason : Nat) : StopRec :=
  let d1 := reason + f.index * 2 ^ 8
  if reason = 13 then { recOf 0x17 0 0 with position := toWord f.pos, d0 := toWord (f.b 255 224), d1 := toWord d1 }
  else
    match frameIllegal I f with
    | some j =>
      if reason = 7 then { recOf 0x17 (uKind f.unit) f.unit with position := toWord f.pos, d0 := f.word j, d1 := toWord (d1 + j * 2 ^ 16) }
      else { recOf 0x17 (uKind f.unit) f.unit with position := toWord f.pos, d0 := toWord (f.b 255 224), d1 := toWord d1 }
    | none => { recOf 0x17 (uKind f.unit) f.unit with position := toWord f.pos, d0 := toWord (f.b 255 224), d1 := toWord d1 }
/-- The stop record of an image whose frames reach the end of the control segment without an end frame (R189, R192). -/
def rejectOpen (n : Nat) : StopRec := { recOf 0x17 0 0 with position := toWord n, d1 := 13 }
/-- A launch record or a graph node is rejected: the node, or 0xFFFF, and the subcode (R296). -/
def rejectGraph (pos sub : Nat) : StopRec := { seqRec 0x17 with position := toWord pos, d1 := toWord (15 + sub * 2 ^ 24) }

/-- Why the end frame `f` is rejected; the image's other frames come first (R189). -/
def endReason (f : Frm) : Option Nat :=
  if !f.nibblesOk then some 1
  else if frameReserved f then some 6
  else if f.unit ≠ 0 ∨ f.index ≠ 0 ∨ f.b 31 0 ≠ f.pos then some 13
  else none

/-- The slot taken as the latest to issue after a load: 7, or in run 2 of checking mode another one, freely chosen (R75, R312). -/
def firstLast (run n : Nat) : Nat := if run = 2 then n % 7 else 7
/-- The section of an MX that its rotation favours first after a load: 0, or in run 2 of checking mode another one, freely chosen (R273,
R312). The choices of the switches and of the memory side are free moves in both runs. -/
def firstRot (run n : Nat) : Nat := if run = 2 then 1 + n % 3 else 0
/-- The structures whose every word a load writes anew: instruction stores, accumulators, FIFOs, route and node entries, holding buffers, AG
queues, weight buffers, panel directories and banks (R175, R191). -/
def rewritten (code : Nat) : Bool := [1, 2, 4, 5, 7, 8, 9, 10].contains code
/-- The whole image takes effect: the region's units, the arms, the snapshots of the cores (R190, R214, R298). [DEDUCED, log 21] -/
def takeEffect (r : Nat) (I : Image) (l : Load) (arms : List Word) (s : State) : State :=
  let (n, s0) := s.draw
  let R := install I (s0.region r)
  let R1 := arms.foldl applyArm R
  let run := (R.graph.map (fun g => g.run)).getD 0
  let R2 := { R1 with cores := R1.cores.map (fun (q : Nat × Core) =>
    (q.1, { q.2 with refresh := s0.moment, seen := [], own := [], shared := [], every := [], passed := [], last := firstLast run n })),
                      mxs := R1.mxs.map (fun (q : Nat × Mx) => (q.1, { q.2 with rot := firstRot run (n / 7) })) }
  { (s0.setRegion r R2).modGraph r (fun g => { g with load := none, resident := some l.node }) with
      errors := s0.errors.filter (fun e => !(decide (e.r = r) && rewritten e.code)) }

/-- END_FRAME: the end frame is read and the image judged; if nothing fails it takes effect at once (R189, R190, R192, R499). -/
def execEndFrame (r : Nat) (s : State) : Host.Outcome State Fault Refusal :=
  let R := s.region r
  match R.graph, s.ctxOf R with
  | some g, some c =>
    match g.load with
    | none => nx s
    | some l =>
      if R.halt then nx s
      else
        let n := l.frames.length
        let I := imageOf l.frames
        let bad := firstBad R I (bits g.bits 319 256) (bits g.bits 351 320)
        nx (seqAccess r (fun x s1 =>
          match x with
          | none =>
            match bad with
            | some q => raise r (rejectFrame I q.1 q.2) s1
            | none => raise r (rejectOpen n) s1
          | some x =>
            if bits x 255 252 ≠ 15 then s1
            else
              let f : Frm := { pos := n, x := x, k := 0 }
              match bad, endReason f with
              | some q, _ => raise r (rejectFrame I q.1 q.2) s1
              | none, some k => raise r (rejectFrame I f k) s1
              | none, none =>
                let arms := ((g.nodes[l.node]?).map (fun x => x.arms)).getD []
                if arms.any (armMissing (install I R)) then raise r (rejectGraph l.node 9) s1
                else takeEffect r I l arms s1) s (frameAt c r l n s))
  | _, _ => nx s

/-! ### The reconfiguration token (R204) -/

/-- The pending seed that takes effect: the lowest unit's, then the lowest slot's (R123). [DEDUCED, log 25] -/
def pendingSeed (R : Region) : Option Word := ((coreUnits R).filterMap (fun u => (R.core u).seed)).head?.map (fun p => p.2)
/-- The flags of a load: of every route entry and of every section (R305). [DEDUCED, log 25] -/
def loadFlags (R : Region) : BitVec 5 :=
  let f := R.arcs.foldl (fun f q => f ||| q.2.flags) (0 : BitVec 5)
  R.mxs.foldl (fun f q => q.2.sections.foldl (fun f p => f ||| p.2.flags) f) f
/-- The spill rings of the load: the key of each arc that has one, and its size (R201). -/
def ringsOf (R : Region) : Assoc Nat :=
  (R.arcs.filter (fun q => q.2.route.spill)).foldl (fun l q => Assoc.put q.1 (4096 * 2 ^ q.2.route.ring) l) []
/-- The spill rings of the load, with their first bytes and sizes (R201). -/
def ringRanges (R : Region) (g : Graph) : List (Nat × Nat) :=
  let l := ringsOf R
  (placeRings (bits g.bits 319 256) l).map (fun q => (q.2, Assoc.get 0 q.1 l))
/-- Undefined contents for the tiles of a spill ring: free values (R201). A tile that cannot be read - poisoned, or in a rewrite - stays as it
is: only a rewrite or the scrub makes it whole (R398). [DEDUCED, log 25; DEDUCED, log 26] -/
def freeRing (c : Context) (r : Nat) : List Nat → State → State
  | [], s => s
  | a :: t, s =>
    let bs := (List.range 4096).map (fun i => BitVec.ofNat 8 (Config.freeNat (s.fresh + i)))
    let s0 := { s with fresh := s.fresh + 4096 }
    freeRing c r t (match (gRead c r a 4096 s0).bind (fun _ s1 => gWrite c r a bs s1) with
                    | .ok _ s1 => s1
                    | .wait _ | .fail _ _ => s0)
/-- The tiles of the rings. [DEDUCED, log 26] -/
def ringTiles (l : List (Nat × Nat)) : List Nat := l.flatMap (fun q => (List.range (q.2 / 4096)).map (fun i => q.1 + 4096 * i))
/-- The tiles of those rings that hold beats (R206). [DEDUCED, log 26] -/
def heldRings (R : Region) (g : Graph) : List Nat :=
  let l := ringsOf R
  ringTiles (((placeRings (bits g.bits 319 256) l).filter (fun q => (Assoc.find q.1 R.arcs).any (fun a => !a.ring.isEmpty))).map
    (fun q => (q.2, Assoc.get 0 q.1 l)))

/-- The table of the context's decision diagrams is written back (R352), then `k`. [DESIGN CHOICE, log 35] -/
def thenDdBack (c : Context) (r : Nat) (k : State → State) (s : State) : State :=
  match c.dd with
  | none => k s
  | some T => ddAccess r (recOf 0x09 8 0) (forTable true) (fun _ s1 => k s1) s (ddWriteback c r false T s)

/-- What the token leaves of a region: no barrier credit, no pending seed; the rest of the load's state stands until the next image
(R190, R204, R338). -/
def settle (R : Region) : Region :=
  { R with tbars := [], cores := R.cores.map (fun (q : Nat × Core) => (q.1, { q.2 with seed := none })) }

/-- The token passes over region `r`, whose load has drained, and its node finishes (R204, R299, R352, R398). [DEDUCED, log 25] -/
def passToken (r n : Nat) (s : State) : State :=
  let R := s.region r
  match R.graph, s.ctxOf R with
  | some g, some c =>
    match publishCores r (coreUnits R) s with
    | .wait _ => s
    | .fail x s1 => raise r x s1
    | .ok _ s1 =>
      let c1 := Assoc.get c c.attr.asid s1.contexts
      thenDdBack c1 r (fun s2 =>
        let s3 := freeRing c1 r (ringTiles (ringRanges R g)) s2
        let s4 := match pendingSeed R with
                  | some v => s3.modCtx c.attr.asid (fun c => { c with seed := v })
                  | none => s3
        ((dropRewrites r s4).modRegion r settle).modGraph r (fun g =>
          Graph.finish n { g with resident := none, ahead := [], flags := g.flags ||| loadFlags R, spared := g.spared || g.justInTime s.time n })) s1
  | _, _ => s

end Sys2Proof.Machine
end

