-- ==== Sys2Proof/Machine/SpillRing.lean ====
section
/-! DEFINITION. What a switch does with a beat, and the spill rings (R196, R197, R201). A ring is a separate access path to sealed bytes of the
context's spill area: its beats stay with the arc, and what every other access reads of those bytes is free. -/

namespace Sys2Proof.Machine

/-- The first byte of the ring of arc `k` (R201). [DEDUCED, log 20] -/
def ringBase (R : Region) (k : Nat) : Nat :=
  Assoc.get 0 k (placeRings (bits ((R.graph.map (fun g => g.bits)).getD 0) 319 256) (ringsOf R))
/-- The place of beat number `i` of a ring. -/
def ringPlace (base : Nat) (x : Route) (i : Nat) : Nat := base + 64 * (i % x.ringSize)
/-- What an access that is not the ring's own reads of a beat's bytes: free values (R201). [DEDUCED, log 26] -/
def ringBytes (n : Nat) : List Byte := (List.range 64).map (fun i => BitVec.ofNat 8 (Config.freeNat (n + i)))
/-- Write beats into a ring, from beat number `i` on, a lift marker having no place: the tile is written as by any store, with bytes that no
other path may rely on (R201, R206). [DEDUCED, log 26] -/
def ringWrite (c : Context) (r base : Nat) (x : Route) : Nat → List Beat → State → MemRes Unit
  | _, [], s => .ok () s
  | i, b :: t, s =>
    if b.lift then ringWrite c r base x i t s
    else (gWrite c r (ringPlace base x i) (ringBytes s.fresh) { s with fresh := s.fresh + 64 }).bind (fun _ s1 => ringWrite c r base x (i + 1) t s1)
/-- A beat that leaves a ring: its tile is opened and checked as by any read; the beat is the one that went in, whatever stores have done to
the bytes (R201). [DEDUCED, log 26] -/
def ringRead (c : Context) (r base : Nat) (x : Route) (i : Nat) (b : Beat) (s : State) : MemRes Beat :=
  if b.lift then .ok b s else (gRead c r (ringPlace base x i) 64 s).bind (fun _ s1 => .ok b s1)
/-- Go on with an access to the ring of arc `k`: tried again while the tile is moved, fatal where it fails (R329, R396, R398). [DEDUCED, log 26] -/
def ringAccess {α : Type} (r k position : Nat) (go : α → State → State) (s : State) (res : MemRes α) : State :=
  match res with
  | .ok v s1 => go v s1
  | .wait _ => s
  | .fail x s1 => raise r { x with kind := 5, unit := arcUnit k, sub := arcEntry k, sk := 3, position := toWord position } s1

/-- The beats that have just gone to a ring are written to memory, and the arc is put back (R201). [DEDUCED, log 26] -/
def spillArc (r k : Nat) (a a1 : Arc) (s : State) : State :=
  let R := s.region r
  let new := a1.ring.drop a.ring.length
  match new, s.ctxOf R with
  | [], _ | _, none => s.setRegion r (R.setArc k a1)
  | _, some c =>
    ringAccess r k a.count (fun _ s1 => s1.modRegion r (fun R => R.setArc k a1)) s
      (ringWrite c r (ringBase R k) a.route (a.rpos + (ringBeats a.ring).length) new s)

/-- ARC_BEAT: the switch takes the oldest beat of a producer, converts and repacks it, and gives it to the FIFO or the spill ring of
entry `e` of the switch `u` (R196, R197, R201). [DEDUCED, log 19] -/
def execArcBeat (r u e : Nat) (s : State) : Host.Outcome State Fault Refusal :=
  let R := s.region r
  let k := arcKey u e
  if R.halt then nx s
  else
    match Assoc.find k R.arcs with
    | none => nx s
    | some a =>
      match a.inbox with
      | [] => nx s
      | b :: t =>
        nx (readChk r 5 u e e e (arcRec k) (fun s =>
          match Arc.step (regionSeed r s) k b { a with inbox := t } with
          | .ok a1 => spillArc r k a a1 s
          | .header h => raise r (switchRec 0x03 k (toWord a.count) (toWord (h.data.toNat % 2 ^ 64))) s
          | .full => raise r (switchRec 0x16 k (toWord a.count) (toWord e)) s) s)

/-- A ring's oldest beat has come back to the FIFO. -/
def Arc.unspill (b : Beat) (t : List Beat) (a : Arc) : Arc :=
  { a with ring := t, rpos := if b.lift then a.rpos else (a.rpos + 1) % a.route.ringSize, fifo := a.fifo ++ [b] }
/-- SPILL_RETURN: the oldest beat of a spill ring returns to its FIFO (R201). [DEDUCED, log 26] -/
def execSpillReturn (r u e : Nat) (s : State) : Host.Outcome State Fault Refusal :=
  let R := s.region r
  let k := arcKey u e
  if R.halt then nx s
  else
    match Assoc.find k R.arcs, s.ctxOf R with
    | some a, some c =>
      match a.ring with
      | [] => nx s
      | b :: t =>
        if a.fifo.length < a.route.depth then
          nx (ringAccess r k a.count (fun d s1 => s1.modRegion r (fun R => R.setArc k (a.unspill d t))) s
            (ringRead c r (ringBase R k) a.route a.rpos b s))
        else nx s
    | _, _ => nx s

end Sys2Proof.Machine
end

