-- ==== Sys2Proof/Machine/Blotter.lean ====
section
/-! DEFINITION. The Blotter (R308 to R310): when a region is quiescent, which of its units are empty, and what follows. A region is taken as
quiescent where no unit of it can move any more and nothing is in flight that waits for something outside it; the 1,024 cycles are
then only time. -/

namespace Sys2Proof.Machine

/-! ### Nothing can move (R309) -/

/-- A step that changes nothing. [DEDUCED, log 24] -/
def still (o : Host.Outcome State Fault Refusal) (s : State) : Bool :=
  match o with
  | .next t => decide (t = s)
  | _ => false
/-- No slot of core `u` may issue, and no trap can be delivered to it (R72, R75, R83). -/
def slotsStill (r u : Nat) (s : State) : Bool :=
  let t := wake r u s
  (s.region r).frozen (.unit u) || (List.range (slotCount u)).all (fun k =>
    match (t.slot r u k).st with
    | .runnable | .running => false
    | .idle | .waiting _ => true) && decide (deliver r u s = s)
/-- No stage of a template of core `u` may fire, commit or handle a marker. -/
def stagesStill (r u : Nat) (s : State) : Bool :=
  (s.core r u).templates.all (fun q => (List.range' 1 q.2.stages.length).all (fun j =>
    !canFire (q.2.word j) { s with cur := { region := r, unit := u, slot := 0, tmpl := q.1, stage := j } }
      && still (execNodeFiringCommit r u q.1 j s) s && still (execEoiHandling r (.stage u q.1 j) s) s
      && (List.range 4).all (fun p => still (execHeaderLatch r (.stage u q.1 j) p s) s)))
/-- No chain of core `u` may start or end. -/
def chainsStill (r u : Nat) (s : State) : Bool :=
  (List.range (s.core r u).chains.length).all (fun k => still (execChainStart r u k s) s && still (execChainEnd r u k s) s)
/-- No arc takes a beat, and no ring gives one back. -/
def arcsStill (r : Nat) (s : State) : Bool :=
  (s.region r).arcs.all (fun q => still (execArcBeat r (arcUnit q.1) (arcEntry q.1) s) s && still (execSpillReturn r (arcUnit q.1) (arcEntry q.1) s) s)
/-- No steer or merge node may fire or handle a marker or a header. -/
def nodesStill (r : Nat) (s : State) : Bool :=
  (s.region r).nodes.all (fun q =>
    let u := arcUnit q.1
    let j := arcEntry q.1
    still (execSteerNodeFiring r u j s) s && still (execMergeNodeFiring r u j s) s && still (execEoiHandling r (.switch u j) s) s
      && (List.range 5).all (fun p => still (execHeaderLatch r (.switch u j) (8 * j + p) s) s))
/-- No stream port may move, and none waits for the host. -/
def portsStill (r : Nat) (s : State) : Bool :=
  (s.region r).ags.all (fun a => a.2.ports.all (fun p => p.2.fault.isNone && !p.2.full
    && still (execStreamReadBeat r a.1 p.1 s) s && still (execStreamWriteBeat r a.1 p.1 s) s
    && still (execStreamCommandComplete r a.1 p.1 s) s && still (execPortCloseReached r a.1 p.1 s) s
    && p.2.queue.all (fun e => match e with
                               | .barrier id => still (execStreamBarrierPass r (uCl a.1) id s) s
                               | _ => true)))
/-- No coat may fire, drain or begin a pass. -/
def coatsStill (r : Nat) (s : State) : Bool :=
  (s.region r).coats.all (fun ch => still (execCoatPassStart r ch.1 s) s && ch.2.coats.all (fun k =>
    still (execCoatFiring r ch.1 k.1 s) s && still (execCoatDrain r ch.1 k.1 s) s
      && (List.range 4).all (fun p => still (execHeaderLatch r (.coat ch.1 k.1) p s) s)))
/-- No section may fire, and no load moves. -/
def mxStill (r : Nat) (s : State) : Bool :=
  (s.region r).mxs.all (fun m => still (execPanelLoadStart r m.1 s) s && still (execPanelUnitArrival r m.1 s) s
    && still (execPanelLoadEnd r m.1 s) s && still (execInput4EoiDrop r m.1 s) s
    && m.2.sections.all (fun x => still (execMxFiring r m.1 x.1 s) s && still (execGarmCheck r m.1 x.1 s) s
          && still (execEoiHandling r (.mx m.1 x.1) s) s && still (execHeaderLatch r (.mx m.1 x.1) x.1 s) s))
/-- No atomic and no DDE command may be performed. -/
def heldStill (r : Nat) (s : State) : Bool :=
  (s.region r).atomics.all (fun a => still (execAtomicPerform r a.id s) s)
    && (s.region r).ddq.all (fun x => still (execDdeCommandPerform r x.id s) s)
/-- Nothing is in flight whose completion depends on nothing inside the region (R309); a copy of the graph is no engine of the load
(R338); while a tile is in transit, some access of the region may wait for it (R329). [DEDUCED, log 24] -/
def nothingAbroad (r : Nat) (s : State) : Bool :=
  let R := s.region r
  R.flying.isEmpty && R.publishes.isEmpty && R.xforms.isEmpty && R.tinvs.isEmpty && R.colls.isEmpty && R.colJob.isNone
    && !R.copies.any (fun x => x.node.isNone)
    && R.cores.all (fun c => c.2.producers.all (fun p => match p.work with
                                                         | .atomic | .dde => true
                                                         | _ => false))
    && ((R.ddq.isEmpty && R.atomics.isEmpty) || hasBudget r s)
    && !s.places.any (fun q => q.2.moving)
/-- No unit of the region moves. -/
def unitsStill (r : Nat) (s : State) : Bool :=
  (coreUnits (s.region r)).all (fun u => slotsStill r u s && stagesStill r u s && chainsStill r u s)
    && arcsStill r s && nodesStill r s && portsStill r s && coatsStill r s && mxStill r s && heldStill r s
/-- The region is quiescent (R309). [DEDUCED, log 24] -/
def quiescent (r : Nat) (s : State) : Bool := nothingAbroad r s && unitsStill r s

/-! ### Empty units (R308, R310) -/

/-- An arc holds no beat. -/
def Arc.empty (a : Arc) : Bool := a.inbox.isEmpty && a.fifo.isEmpty && a.ring.isEmpty && a.part.isEmpty
/-- A core is empty: slots idle, no chain, no beat inside its templates, no coat chain headed by it running, nothing of its own in
flight. -/
def coreEmpty (R : Region) (u : Nat) : Bool :=
  let c := R.core u
  (List.range (slotCount u)).all (fun k => (c.slot k).st == .idle) && c.chains.isEmpty && c.producers.isEmpty
    && c.templates.all (fun t => t.2.arcs.all (fun q => q.2.isEmpty) && t.2.stages.all (fun st => st.firing.isNone))
    && !R.coats.any (fun ch => ch.2.running && ((Assoc.get default 1 ch.2.coats).headCore.map (fun h => h.unit)) == some u)
    && !R.copies.any (fun x => x.node.isNone && decide (x.unit = u)) && !R.colls.any (fun x => decide (x.unit = u))
    && !R.ddq.any (fun x => decide (x.unit = u)) && !R.xforms.any (fun x => decide (x.unit = u))
/-- An MU is empty: its holding buffer is. -/
def muEmpty (R : Region) (u : Nat) : Bool := !R.atomics.any (fun a => decide (a.mem = uCl u * 4 + uIdx u))
/-- An MX is empty: no load, no armed count. -/
def mxEmpty (R : Region) (u : Nat) : Bool := (R.mx u).loads.isEmpty && (R.mx u).sections.all (fun x => x.2.count == 0)
/-- An AG is empty: its port queues are. -/
def agEmpty (R : Region) (u : Nat) : Bool := (List.range 8).all (fun p => (R.port u p).queue.isEmpty)
/-- A switch is empty: its arcs hold no beat. -/
def switchEmpty (R : Region) (u : Nat) : Bool := R.arcs.all (fun q => decide (arcUnit q.1 ≠ u) || q.2.empty)
/-- Whether a unit is empty. [DEDUCED, log 42] -/
def unitEmpty (R : Region) (u : Nat) : Bool :=
  match uKind u with
  | 0 | 4 => coreEmpty R u
  | 1 => muEmpty R u
  | 2 => mxEmpty R u
  | 3 => agEmpty R u
  | _ => switchEmpty R u
/-- The units of a cluster in the order of the report's mask bits (R310). -/
def maskUnits (cl : Nat) : List Nat :=
  [mkUnit cl 0 0, mkUnit cl 0 1, mkUnit cl 0 2, mkUnit cl 0 3, mkUnit cl 1 0, mkUnit cl 1 1, mkUnit cl 1 2, mkUnit cl 1 3,
   mkUnit cl 2 0, mkUnit cl 3 0, mkUnit cl 3 1, mkUnit cl 4 0, mkUnit cl 5 0]
/-- The mask of a cluster's units that are not empty. -/
def blockedMask (R : Region) (cl : Nat) : Nat :=
  ((maskUnits cl).zipIdx).foldl (fun m q => m + b2n (!unitEmpty R q.1) * 2 ^ q.2) 0
/-- The units of the region that are not empty. [DEDUCED, log 24] -/
def blockedUnits (R : Region) : List Nat := (clusters R).flatMap (fun cl => (maskUnits cl).filter (fun u => !unitEmpty R u))
/-- The deadlock report (R310): its header, and one mask for each virtual cluster, vx fastest. -/
def deadlockReport (R : Region) (cseq : Nat) : List Byte :=
  bytesLE 16 (R.w - 1 + (R.h - 1) * 2 ^ 8 + cseq % 2 ^ 32 * 2 ^ 32 + (blockedUnits R).length * 2 ^ 64)
    ++ (List.range R.h).flatMap (fun y => (List.range R.w).flatMap (fun x => bytesLE 2 (blockedMask R (x * 16 + y))))

/-- A node that is ready starts beside the resident load: a copy or a batch does so at once (R299, R338). -/
def Graph.startsMore (det : Bool) (g : Graph) : Bool := g.ready.any (fun n => g.mayStart det n)
/-- In deterministic mode the load of index `l` has a write that was overtaken. [DEDUCED, log 24; DEDUCED, log 27] -/
def loadOvertaken (r l : Nat) (s : State) : Bool :=
  detOn s (s.region r) && (s.ctxOf (s.region r)).any (fun c => overtaken c r l s)
/-- BLOTTER_QUIESCENCE: the region of a resident fabric load is quiescent, and the load is complete and passes its token, or is
deadlocked (R310), unless a copy or a DDE batch of the graph, which is no engine of the load, may still move it (R338), or has overtaken it
(R300); while a pre-emption is in progress no DEADLOCK is reported (R429). [DEDUCED, log 24; DEDUCED, log 25] -/
def execBlotterQuiescence (r : Nat) (s : State) : Host.Outcome State Fault Refusal :=
  let R := s.region r
  match R.graph with
  | none => nx s
  | some g =>
    match g.resident with
    | none => nx s
    | some n =>
      if R.halt || R.preempt.isSome || !quiescent r s then nx s
      else
        let l := blockedUnits R
        if l.isEmpty then nx (passToken r n s)
        else if R.copies.any (fun x => x.node.isSome) || g.nodes.any batchRuns || g.startsMore (detOn s R) || loadOvertaken r n s then nx s
        else nx (raise r { recOf 0x18 11 0 with position := toWord g.cseq, d0 := toWord l.length } s)

end Sys2Proof.Machine
end

