-- ==== Sys2Proof/Machine/Copies.lean ====
section
/-! DEFINITION. Copy engines and translation from the core's side (R330 to R347): COPY, XEXPECT, XWAIT, TINV, XLOOK, and the course of a copy. -/

namespace Sys2Proof.Machine

/-! ### COPY (R335, R336) -/

/-- COPY: reads a descriptor and hands the copy to an engine (R336). [DEDUCED, log 57] -/
def execCopy (g : Guard) (d : Reg) (a : Src) (s : State) : Host.Outcome State Fault Refusal :=
  issue g [a] [d] (fun s =>
    let off := (rv s a).toNat
    if off % 64 ≠ 0 then failSpace (rv s a) s
    else if hereSeg s < off + 64 then fail 0x04 (rv s a) (toWord (hereSeg s)) s
    else
      withGRecord off 8 (fun desc s =>
        let u := s.cur.unit
        let c := s.hereC
        if 8 ≤ (s.hereR.copies.filter (fun x => x.unit == u && x.node == none)).length then park .copies s
        else
          let (id, s1) := s.takeId s.cur.region
          let x : Copy := { id := id, unit := u, ticket := c.copyTicket, desc := BitVec.ofNat 512 desc, off := off, word := curWord s,
                            node := none, issuer := issuerOf u (if isCtl u then 0 else s.cur.slot), started := false, units := [], next := 0,
                            flags := 0, fault := none }
          done d (toWord (c.copyTicket % 2 ^ 16))
            ((s1.modHereR (fun R => { R with copies := R.copies ++ [x] })).modHereC (fun c => { c with copyTicket := c.copyTicket + 1 }))) s) s

/-- COPY.wait: waits until the copy has completed, where its ticket is not too old to tell; its status word, its flags, and a refresh (R336, R337). -/
def execCopyWait (g : Guard) (d : Reg) (a : Src) (s : State) : Host.Outcome State Fault Refusal :=
  issue g [a] [d] (fun s =>
    let c := s.hereC
    let t := (rv s a).toNat
    let back := age (c.copyTicket + 2 ^ 16 - 1) t
    let k := c.copyTicket - 1 - back
    if 2 ^ 16 ≤ t ∨ c.copyTicket ≤ back then failSpace 0 s
    else if back < 2 ^ 15 ∧ s.hereR.copies.any (fun x => x.unit == s.cur.unit && x.node == none && x.ticket == k) = true then park (.copy k) s
    else
      let v := if 2 ^ 15 ≤ back then 0 else Assoc.get 0 k c.copyDone
      retire (fun sl => (sl.wr d v).flag (BitVec.ofNat 5 v.toNat)) (refresh s.cur.region s.cur.unit s)) s

/-! ### Transfer barriers (R338 to R340) -/

/-- A barrier's name in a stop record (R340). -/
def barName (cl id : Nat) : Word := toWord (id + cl / 16 * 2 ^ 8 + cl % 16 * 2 ^ 13)
/-- A completed instance. -/
def TBar.complete (b : TBar) : TBar := { b with inst := b.inst + 1, c := 0, armed := false }
/-- `n` bytes arrive: none on an overrun. -/
def TBar.arrive (n : Nat) (b : TBar) : Option TBar :=
  if !b.armed then some { b with c := b.c + n }
  else if b.e < b.c + n then none
  else
    let b1 := { b with c := b.c + n }
    some (if b1.c = b1.e then b1.complete else b1)

/-- XEXPECT: arms a transfer barrier (R340). -/
def execXexpect (g : Guard) (d : Reg) (a : Src) (id : Tmpl) (s : State) : Host.Outcome State Fault Refusal :=
  issue g [a] [d] (fun s =>
    let e := (rv s a).toNat
    let b := s.hereR.tbar s.hereCl id.toNat
    if e = 0 ∨ 2 ^ 40 < e ∨ b.armed = true then failSpace 0 s
    else if e < b.c then
      raise s.cur.region { slotRec 0x12 (barName s.hereCl id.toNat) 0 (toWord b.c) s with d0 := barName s.hereCl id.toNat, address := 0 } s
    else
      let b1 := { b with armed := true, e := e }
      done d (toWord b.c) (s.modHereR (Region.setTbar s.hereCl id.toNat (if b.c = e then b1.complete else b1)))) s

/-- XWAIT: waits while the barrier is armed, then returns its instance and refreshes (R340). -/
def execXwait (g : Guard) (d : Reg) (id : Tmpl) (s : State) : Host.Outcome State Fault Refusal :=
  issue g [] [d] (fun s =>
    let b := s.hereR.tbar s.hereCl id.toNat
    if b.armed then park (.transfer s.hereCl id.toNat) s
    else done d (toWord b.inst.toNat) (refresh s.cur.region s.cur.unit s)) s

/-! ### TINV (R341) -/

/-- A translation's outcome for a core, which takes no translation fault: a missing entry is fatal; tried again while a tile is moved. -/
def slotXlate {α : Type} (tid : Nat) (k : α → State → State) (s : State) (res : XRes α) : State :=
  let own (x : StopRec) : StopRec :=
    let y := slotRec 0 0 0 0 s
    { x with kind := y.kind, unit := y.unit, sub := y.sub, position := y.position }
  match res with
  | .ok v s1 => k v s1
  | .wait _ => s
  | .miss st s1 => raise s.cur.region (own (forTensor tid 0 false (accessRec causeUnresolved 0 st 1))) s1
  | .fail x s1 => raise s.cur.region (own (forTensor tid 0 false x)) s1

/-- Queue an invalidation; the word does not wait (R341). -/
def queueTinv (d : Reg) (all whole : Bool) (tid lo hi : Nat) (s : State) : State :=
  let (id, s1) := s.takeId s.cur.region
  done d 0 (s1.modHereR (fun R =>
    { R with tinvs := R.tinvs ++ [{ id := id, unit := s.cur.unit, num := id, all := all, whole := whole, tid := tid, lo := lo, hi := hi }] }))

/-- The tid names a tensor, malformed or not; else SPACE (R341). -/
def withName (tid : Word) (k : State → State) (s : State) : State :=
  if 2 ^ 16 ≤ tid.toNat then failSpace 0 s
  else
    match s.ctxOf s.hereR with
    | none => failSpace 0 s
    | some c =>
      slotXlate tid.toNat (fun n s1 =>
        match n with
        | .absent => failSpace 0 s1
        | .malformed | .tensor _ => k s1) s (tensorName c s.cur.region tid.toNat s)

/-- TINV, function 0: a run of a tensor's tiles (R341). -/
def execTinv (g : Guard) (d : Reg) (a b : Src) (s : State) : Host.Outcome State Fault Refusal :=
  issue g [a, b] [d] (fun s =>
    let lo := bits (rv s b).toNat 26 0
    let hi := bits (rv s b).toNat 53 27
    if bits (rv s b).toNat 63 54 ≠ 0 ∨ hi < lo then failSpace 0 s
    else withName (rv s a) (fun s => queueTinv d false false (rv s a).toNat lo hi s) s) s

/-- TINV.t: a whole tensor (R341). -/
def execTinvT (g : Guard) (d : Reg) (a : Src) (s : State) : Host.Outcome State Fault Refusal :=
  issue g [a] [d] (fun s => withName (rv s a) (fun s => queueTinv d false true (rv s a).toNat 0 (2 ^ 27 - 1) s) s) s

/-- TINV.all: everything of the context (R341). -/
def execTinvAll (g : Guard) (d : Reg) (s : State) : Host.Outcome State Fault Refusal :=
  issue g [] [d] (fun s => queueTinv d true true 0 0 (2 ^ 27 - 1) s) s

/-- TINV.wait: waits until every earlier TINV of the core has completed (R341). -/
def execTinvWait (g : Guard) (d : Reg) (s : State) : Host.Outcome State Fault Refusal :=
  issue g [] [d] (fun s =>
    if s.here.prog ≠ .accepted ∧ s.hereR.tinvs.any (fun t => t.unit == s.cur.unit) = true then
      parkAt (.tinv s.hereR.nextId) .accepted s
    else done d 0 s) s

/-- A window entry is named by an invalidation. -/
def Tinv.names (t : Tinv) (w : Window) : Bool := t.all || (decide (w.tid = t.tid) && decide (w.lo ≤ t.hi) && decide (t.lo ≤ w.hi))
/-- Disable the windows of the region that an invalidation names (R341). -/
def closeWindows (t : Tinv) (R : Region) : Region :=
  { R with ags := R.ags.map (fun (a : Nat × Ag) => (a.1, { a.2 with ports := a.2.ports.map (fun (p : Nat × Port) =>
      (p.1, { p.2 with windows := p.2.windows.map (fun (w : Nat × Window) => (w.1, if t.names w.2 then { w.2 with off := true } else w.2)) })) })) }

/-- TINV_COMPLETE: a queued invalidation finishes in every cache of the package, and its windows are disabled; a malformed tensor entry is
dropped whatever the function (R341). -/
def execTinvComplete (r k : Nat) (s : State) : Host.Outcome State Fault Refusal :=
  let R := s.region r
  match R.tinvs.find? (fun t => decide (t.id = k)), R.resident with
  | some t, some asid =>
    if R.halt then nx s
    else
      let R1 := closeWindows t { R with tinvs := R.tinvs.filter (fun q => q.id ≠ k) }
      let s1 := dropStage1 (fun e => decide (e.asid = asid) && (t.all || (decide (e.tid = t.tid) && decide (t.lo ≤ e.tile) && decide (e.tile ≤ t.hi))))
        (fun e => decide (e.asid = asid) && (t.all || (decide (e.tid = t.tid) && decide (t.lo ≤ e.hi) && decide (e.lo ≤ t.hi)))) (s.setRegion r R1)
      nx { s1 with tnames := s1.tnames.filter (fun e => !(decide (e.asid = asid) && (t.all || (decide (e.tid = t.tid)
        && (t.whole || decide (tensorOf e.bits.toNat = .malformed)))))) }
  | _, _ => nx s

/-! ### XLOOK (R343) -/

/-- What a lookup finds: its state, tensor tile number, offset, output tile and rights. -/
structure Look where
  st : Nat
  tile : Nat
  off : Nat
  out : Nat
  r : Bool
  w : Bool

/-- Nothing present, for the reason `st`. -/
def lookNone (st : Nat) : Look := { st := st, tile := 0, off := 0, out := 0, r := false, w := false }

/-- The coordinates of a lookup. -/
def lookCoords (a b : Word) : List Nat :=
  [bits a.toNat 23 0, bits a.toNat 47 24, bits b.toNat 15 0, bits b.toNat 31 16, bits b.toNat 47 32]

/-- A lookup of the first stage, which raises no translation fault (R343). -/
def lookup (a b : Word) (k : Look → State → State) (s : State) : State :=
  let tid := bits a.toNat 63 48
  if bits b.toNat 63 48 ≠ 0 then failSpace 0 s
  else
    match s.ctxOf s.hereR with
    | none => k (lookNone 3) s
    | some c =>
      let soft {α : Type} (go : α → State → State) (res : XRes α) : State :=
        match res with
        | .ok v s1 => go v s1
        | .wait _ => s
        | .miss _ s1 => k (lookNone 1) s1
        | .fail x s1 => if x.cause = causeUnresolved then k (lookNone 3) s1 else slotXlate tid (fun (_ : Unit) s2 => s2) s (.fail x s1)
      soft (fun n s1 =>
        match n with
        | .tensor tn =>
          let j := lookCoords a b
          if tn.outside j then k (lookNone 2) s1
          else
            let t := tn.tile j
            soft (fun (p : Nat × Bool × Bool) s2 => k { st := 0, tile := t, off := tn.offset j, out := p.1, r := p.2.1, w := p.2.2 } s2)
              (stage1 c s.cur.region tid tn t s1)
        | .absent | .malformed => k (lookNone 3) s1) (tensorName c s.cur.region tid s)

/-- XLOOK: the tensor tile number and the offset within it (R343). -/
def execXlook (g : Guard) (d : Reg) (a b : Src) (s : State) : Host.Outcome State Fault Refusal :=
  issue g [a, b] [d] (fun s =>
    lookup (rv s a) (rv s b) (fun q s => done d (toWord (q.st * 2 ^ 61 + q.off * 2 ^ 27 + q.tile)) s) s) s

/-- XLOOK.o: the output tile and the rights after the first stage (R343). -/
def execXlookO (g : Guard) (d : Reg) (a b : Src) (s : State) : Host.Outcome State Fault Refusal :=
  issue g [a, b] [d] (fun s =>
    lookup (rv s a) (rv s b) (fun q s => done d (toWord (q.st * 2 ^ 61 + b2n q.w * 2 ^ 35 + b2n q.r * 2 ^ 34 + q.out)) s) s) s

/-! ### Descriptors (R330, R331) -/

/-- A box element's indices. -/
abbrev BoxIx := Nat × Nat × Nat

/-- The box's extents at the source. -/
def copyBox (d : Nat) : BoxIx := (bits d 79 64, bits d 95 80, bits d 111 96)
/-- Dimensions 0 and 1 are exchanged at the destination. -/
def copyTr (d : Nat) : Bool := bit d 2
/-- Source elements beyond the extents read as zero. -/
def copyZf (d : Nat) : Bool := bit d 3
/-- Exchange the first two indices where the copy transposes. -/
def swapIx (tr : Bool) (e : BoxIx) : BoxIx := if tr then (e.2.1, e.1, e.2.2) else e
/-- The source format. -/
def copySfmt (d : Nat) : Fmt := fmtOf (bits d 11 8)
/-- The destination format. -/
def copyDfmt (d : Nat) : Fmt := fmtOf (bits d 15 12)
/-- The source side and the destination side. -/
def copySrc (d : Nat) : Nat := bits d 255 128
/-- The destination side. -/
def copyDst (d : Nat) : Nat := bits d 383 256

/-- A scratchpad side. -/
def sideScratch (x : Nat) : Bool := bit x 0
/-- The cluster of a scratchpad side. -/
def sideCl (x : Nat) : Nat := bits x 20 16 * 16 + bits x 24 21
/-- The bit address of a box element on a scratchpad side. -/
def sideBit (x w : Nat) (e : BoxIx) : Nat := (bits x 53 32 + bits x 83 64 * e.2.1 + bits x 115 96 * e.2.2) * 8 + e.1 * w
/-- The tid of a tensor side. -/
def sideTid (x : Nat) : Nat := bits x 31 16
/-- The tensor dimensions of the box dimensions. -/
def sideDims (x : Nat) : List Nat := [bits x 3 1, bits x 6 4, bits x 9 7]
/-- The coordinates of a box element on a tensor side. -/
def sideCoords (x : Nat) (e : BoxIx) : List Nat :=
  let ds := sideDims x
  let base := [bits x 55 32, bits x 79 56, bits x 95 80, bits x 111 96, bits x 127 112]
  (List.range 5).map (fun t => base.getD t 0 + (if ds.getD 0 9 = t then e.1 else 0) + (if ds.getD 1 9 = t then e.2.1 else 0)
    + (if ds.getD 2 9 = t then e.2.2 else 0))

/-- Every element of a box, index 0 fastest. -/
def boxAll (n : BoxIx) : List BoxIx :=
  (List.range n.2.2).flatMap (fun i2 => (List.range n.2.1).flatMap (fun i1 => (List.range n.1).map (fun i0 => (i0, i1, i2))))
/-- The first bytes of the dimension-0 runs of a box on a scratchpad side, and the bytes of each. -/
def sideRuns (x w : Nat) (n : BoxIx) : List (Nat × Nat) :=
  (List.range n.2.2).flatMap (fun i2 => (List.range n.2.1).map (fun i1 => (sideBit x w (0, i1, i2) / 8, n.1 * w / 8)))

/-- A scratchpad side breaks R332. -/
def scratchSideBad (R : Region) (x w : Nat) (n : BoxIx) : Bool :=
  bits x 127 116 ≠ 0 || bits x 95 84 ≠ 0 || bits x 63 54 ≠ 0 || bits x 31 25 ≠ 0 || bits x 15 1 ≠ 0 || !clusterOk R (sideCl x)
    || decide (n.1 * w % 8 ≠ 0) || (sideRuns x w n).any (fun q => decide (2 ^ 22 < q.1 + q.2) || borrowed R (sideCl x) q.1 q.2)

/-- A box dimension's tensor dimension exceeds the tensor's: `nd` where the box extends along it; a dimension of extent 1 only has to be
one of the five (the worked copy of R337 names one above nd). [DEDUCED, log 29] -/
def dimBad (tn : Tensor) (d n : Nat) : Bool := decide (4 < d) || (decide (tn.nd < d) && decide (1 < n))

/-- A tensor side breaks R332. [DEDUCED, log 29] -/
def tensorSideBad (tn : Tensor) (f : Fmt) (x : Nat) (n : BoxIx) (within : Bool) : Bool :=
  let ds := sideDims x
  bits x 15 10 ≠ 0 || decide (tn.fmt ≠ f) || ds.getD 0 0 == ds.getD 1 0 || ds.getD 0 0 == ds.getD 2 0 || ds.getD 1 0 == ds.getD 2 0
    || dimBad tn (ds.getD 0 0) n.1 || dimBad tn (ds.getD 1 0) n.2.1 || dimBad tn (ds.getD 2 0) n.2.2
    || (within && tn.outside (sideCoords x (n.1 - 1, n.2.1 - 1, n.2.2 - 1)))

/-- The fields of a descriptor break R332, whatever its sides. [DEDUCED, log 29] -/
def copyBad (R : Region) (d : Nat) : Bool :=
  let n := copyBox d
  bits d 511 384 ≠ 0 || bits d 127 112 ≠ 0 || bits d 31 30 ≠ 0 || bits d 1 0 ≠ 0 || decide (5 < bits d 7 5)
    || n.1 == 0 || n.2.1 == 0 || n.2.2 == 0 || copySfmt d == .fp64 || copyDfmt d == .fp64
    || (bit d 16 && !clusterOk R (bits d 25 21 * 16 + bits d 29 26))

/-- Two sides touch a byte in common, or name one tensor (R332). -/
def sidesMeet (d : Nat) : Bool :=
  let a := copySrc d
  let b := copyDst d
  if sideScratch a && sideScratch b then
    decide (sideCl a = sideCl b) && (sideRuns a (fmtBits (copySfmt d)) (copyBox d)).any (fun p =>
      (sideRuns b (fmtBits (copyDfmt d)) (swapIx (copyTr d) (copyBox d))).any (fun q => meets p.1 p.2 q.1 q.2))
  else !sideScratch a && !sideScratch b && decide (sideTid a = sideTid b)

/-! ### The course of a copy (R332 to R334) -/

/-- The tensor of a side; none for a scratchpad side. -/
def sideTensor (c : Context) (r x : Nat) (s : State) : XRes (Option Tensor) :=
  if sideScratch x then .ok none s else (tensorFor c r (sideTid x) s).bind (fun t s1 => .ok (some t) s1)

/-- The engine's fields of a copy's stop record (R346). [DEDUCED, log 29] -/
def copyRec (x : Copy) : StopRec :=
  { recOf 0x03 6 (if x.node.isSome then 0 else x.unit) with sub := x.ticket % 2 ^ 16, sk := 2, position := toWord x.next, address := toWord x.off,
                                                            d0 := x.word }

/-- The units that a destination element touches (R334): its tensor tile, or the 4 KiB block or two blocks of a scratchpad that its bits lie
in. [DESIGN CHOICE, log 28] -/
def unitsOf (d : Nat) (tn : Option Tensor) (e : BoxIx) : List Nat :=
  let x := copyDst d
  match tn with
  | some t => [unitTile (sideTid x) (t.tile (sideCoords x e))]
  | none =>
    let w := fmtBits (copyDfmt d)
    let b := sideBit x w e
    uniq [sideCl x * 1024 + b / 2 ^ 15, sideCl x * 1024 + (b + w - 1) / 2 ^ 15]

/-- A list's values, each at its first place. [DESIGN CHOICE, log 28] -/
def firsts (l : List Nat) : List Nat := (l.foldl (fun acc x => if acc.contains x then acc else x :: acc) []).reverse

/-- Put copy `k` back. -/
def modCopy (r k : Nat) (f : Copy → Copy) (s : State) : State :=
  s.modRegion r (fun R => { R with copies := R.copies.map (fun x => if x.id = k then f x else x) })

/-- Both sides of a copy, with their tensors, then `k`. -/
def withSides (r : Nat) (x : Copy) (c : Context) (k : Option Tensor → Option Tensor → State → State) (s : State) : State :=
  let d := x.desc.toNat
  let hold (t : Nat) (s : State) : State := modCopy r x.id (fun y => { y with fault := some t }) s
  serve c r (copyRec x) (sideTid (copySrc d)) 0 false (some x.id) none hold (fun st s1 =>
    serve c r (copyRec x) (sideTid (copyDst d)) 0 true (some x.id) none hold (fun dt s2 => k st dt s2)
      (sideTensor c r (copyDst d) s1) s1) (sideTensor c r (copySrc d) s) s

/-- COPY_START: an engine starts copy `k` and checks its descriptor (R332). [DEDUCED, log 29] -/
def execCopyStart (r k : Nat) (s : State) : Host.Outcome State Fault Refusal :=
  let R := s.region r
  match R.copies.find? (fun x => decide (x.id = k)), s.ctxOf R with
  | some x, some c =>
    if R.halt || x.started || x.fault.isSome || R.preempt.isSome then nx s
    else
      let d := x.desc.toNat
      if copyBad R d then nx (raise r (copyRec x) s)
      else
        nx (withSides r x c (fun st dt s1 =>
          let n := copyBox d
          let m := swapIx (copyTr d) n
          let sb := match st with
                    | some t => tensorSideBad t (copySfmt d) (copySrc d) n (!copyZf d)
                    | none => scratchSideBad R (copySrc d) (fmtBits (copySfmt d)) n
          let db := match dt with
                    | some t => tensorSideBad t (copyDfmt d) (copyDst d) m true
                    | none => scratchSideBad R (copyDst d) (fmtBits (copyDfmt d)) m
          if sb || db || sidesMeet d then raise r (copyRec x) s1
          else modCopy r k (fun y => { y with started := true, units := firsts ((boxAll m).flatMap (unitsOf d dt)) }) s1) s)
  | _, _ => nx s

/-- The elements of a unit's source, in the order given, as they stand now: all-zero bits beyond the extents (R333, R344). -/
def readSource (c : Context) (r d : Nat) (st : Option Tensor) : List BoxIx → State → XRes (List Nat)
  | [], s => .ok [] s
  | e :: t, s =>
    let x := copySrc d
    let w := fmtBits (copySfmt d)
    let one : XRes (List Nat) :=
      match st with
      | none =>
        let b := sideBit x w e
        .ok [elemAt w (b / 8) (s.sRead r (sideCl x) (b / 8) ((b % 8 + w + 7) / 8)) b] s
      | some tn =>
        let j := sideCoords x e
        if tn.outside j then .ok [0] s else tensorRead c r [] (sideTid x) tn (tn.tile j) [tn.elem j * w] s
    one.bind (fun v s1 => (readSource c r d st t s1).bind (fun vs s2 => .ok (v ++ vs) s2))

/-- A tile of the source that the element lies in, for a stop record and a fault entry. -/
def sourceTile (d : Nat) (st : Option Tensor) (e : BoxIx) : Nat :=
  match st with
  | some tn => tn.tile (sideCoords (copySrc d) e)
  | none => 0

/-- The source elements of a unit, tile by tile, then `k` with all of their codes. -/
def gatherSource (c : Context) (r : Nat) (x : Copy) (st : Option Tensor) (k : List Nat → State → State) : List BoxIx → State → State
  | [], s => k [] s
  | e :: t, s =>
    let d := x.desc.toNat
    let hold (tag : Nat) (s : State) : State := modCopy r x.id (fun y => { y with fault := some tag }) s
    serve c r (copyRec x) (sideTid (copySrc d)) (sourceTile d st e) false (some x.id) none hold
      (fun v s1 => gatherSource c r x st (fun vs s2 => k (v ++ vs) s2) t s1) (readSource c r d st [e] s) s

/-- The keys of a destination element's stochastic rounding: tile number and element index (R60, R333). -/
def copyKeys (d : Nat) (dt : Option Tensor) (e : BoxIx) : Nat × Nat :=
  let x := copyDst d
  match dt with
  | some tn => (tn.tile (sideCoords x e), tn.elem (sideCoords x e))
  | none =>
    let w := fmtBits (copyDfmt d)
    let b := sideBit x w e
    (2 ^ 40 + sideCl x * 2 ^ 10 + b / 2 ^ 15, b % 2 ^ 15 / w)

/-- A destination element (R333). -/
def copyElem (seed : Word) (d : Nat) (dt : Option Tensor) (e : BoxIx) (v : Nat) : Nat × Flg :=
  let sf := copySfmt d
  let df := copyDfmt d
  let sc := bits d 63 32
  if sf = df ∧ sc = 0x3F800000 then (v, flNone)
  else
    let k := copyKeys d dt e
    let p := numMul (decodeNum sf v) (decodeNum .fp32 sc)
    let q := encodeNum df (fmtInt sf) (rndOf (bits d 7 5)) (bit d 4) (mixTop (mix seed (toWord k.1) (toWord k.2) 0)) p.1
    (q.1, p.2 ||| q.2)

/-- The unit's bytes arrive at the barrier that the copy names (R334, R338). -/
def creditBarrier (r : Nat) (x : Copy) (n : Nat) (s : State) : State :=
  let d := x.desc.toNat
  let cl := bits d 25 21 * 16 + bits d 29 26
  let id := bits d 20 17
  if !bit d 16 then s
  else
    let b := (s.region r).tbar cl id
    match b.arrive n with
    | some b1 => s.modRegion r (Region.setTbar cl id b1)
    | none => raise r { copyRec x with cause := 0x12, address := 0, d0 := barName cl id, d1 := toWord (b.c + n) } s

/-- A copy is over: its status for its core, or its graph node finished (R337, R298). -/
def endCopy (r : Nat) (x : Copy) (s : State) : State :=
  let s1 := s.modRegion r (fun R => { R with copies := R.copies.filter (fun y => y.id ≠ x.id) })
  match x.node with
  | some n => s1.modGraph r (fun g => { Graph.finish n g with flags := g.flags ||| x.flags })
  | none =>
    s1.modCore r x.unit (fun c => { c with copyDone := Assoc.put x.ticket (toWord (x.units.length * 2 ^ 32 + x.flags.toNat)) c.copyDone })

/-- The 8-byte words that bytes cover whole. -/
def wholeWords (l : List (Nat × Byte)) : List (Nat × Nat) :=
  ((wordsOf l).filter (fun k => (List.range 8).all (fun i => l.any (fun p => decide (p.1 = 8 * k + i))))).map (fun k => (8 * k, 8))

/-- A unit is complete: progress, budget, credit; and the copy's end after its last (R334, R345). [DESIGN CHOICE, log 28] -/
def finishUnit (r : Nat) (x : Copy) (fl : Flg) (bytes : Nat) (s : State) : State :=
  let y := { x with next := x.next + 1, flags := x.flags ||| fl }
  let s1 := creditBarrier r x bytes (charge r 1 (modCopy r x.id (fun _ => y) s))
  if (s1.region r).halt then s1 else if y.units.length ≤ y.next then endCopy r y s1 else s1

/-- The key of a copy: a core's issuer and ticket; a graph node's copy has issuer 0 and its index (R334). -/
def Copy.key (x : Copy) : Nat × Nat :=
  match x.node with
  | some n => (0, n)
  | none => (x.issuer, x.ticket % 2 ^ 16)
/-- Copy `y` has a lower key than copy `x` (R334). -/
def copyBefore (y x : Copy) : Bool := decide (y.key.1 < x.key.1) || (decide (y.key.1 = x.key.1) && decide (y.key.2 < x.key.2))
/-- In deterministic mode a unit waits for the copies of lower keys that still write it (R334), and, where it is a memory tile and the copy a graph
node's, for the batches of lower indices that still write the tile and for the writes that a load of a lower index is known to have on their way
there (R300); a core's copy is a write of the resident load, for the graph's batches. [DEDUCED, log 27] -/
def unitHeld (c : Context) (r : Nat) (x : Copy) (unit : Nat) (s : State) : Bool :=
  let R := s.region r
  R.copies.any (fun y => copyBefore y x && y.writes (sameTile c r s unit))
    || x.node.any (fun n => batchHolds c R n (midOf c r unit s) || loadHolds c r n (midOf c r unit s) s)
    || (x.node.isNone && (midOf c r unit s).any (fun m => R.graph.any (fun g => g.resident.any (fun l =>
          batchHolds c R l (some m) || batchAhead c R l m))))
/-- A graph's copy has written a memory tile beside a running load of a lower index: no later write of that load falls there (R300). [DEDUCED, log 27] -/
def noteAhead (c : Context) (r : Nat) (x : Copy) (unit : Nat) (s : State) : State :=
  match midOf c r unit s with
  | some m =>
    if detOn s (s.region r) && x.node.any (fun n => (s.region r).graph.any (fun g => loadBelow g n))
    then s.modGraph r (fun g => { g with ahead := if g.ahead.contains m then g.ahead else m :: g.ahead }) else s
  | none => s

/-- COPY_UNIT_COMPLETE: copy `k` reads, converts and writes its next unit, and credits its barrier (R333, R334). [DESIGN CHOICE, log 10; DESIGN CHOICE, log 28] -/
def execCopyUnitComplete (r k : Nat) (s : State) : Host.Outcome State Fault Refusal :=
  let R := s.region r
  match R.copies.find? (fun x => decide (x.id = k)), s.ctxOf R with
  | some x, some c =>
    match x.units[x.next]? with
    | none => nx s
    | some unit =>
      if R.halt || !x.started || x.fault.isSome || (R.preempt.isSome && !copyAwaited r (fun _ => true) s) || !hasBudget r s || (detOn s R && unitHeld c r x unit s) then nx s
      else
        let d := x.desc.toNat
        let w := fmtBits (copyDfmt d)
        let hold (tag : Nat) (s : State) : State := modCopy r x.id (fun y => { y with fault := some tag }) s
        nx (withSides r x c (fun st dt s1 =>
          let es := (boxAll (swapIx (copyTr d) (copyBox d))).filter (fun e => (unitsOf d dt e).contains unit)
          let srcs := es.map (swapIx (copyTr d))
          let pieces := if st.isSome then [] else srcs.map (fun e => (sideBit (copySrc d) (fmtBits (copySfmt d)) e / 8, 1))
          piecesChk r (sideCl (copySrc d)) (copyRec x) pieces (gatherSource c r x st (fun vs s2 =>
            let ys := (es.zip vs).map (fun p => (p.1, copyElem (regionSeed r s2) d dt p.1 p.2))
            let fl := ys.foldl (fun f p => f ||| p.2.2) flNone
            match dt with
            | none =>
              let cl := sideCl (copyDst d)
              let bs := (laidBytes w (fun o => s2.smem.read (sKey r cl o)) (ys.map (fun p => (sideBit (copyDst d) w p.1, p.2.1)))).filter
                (fun p => decide (cl * 1024 + p.1 / 4096 = unit))
              finishUnit r x fl bs.length (s2.sWriteEach r cl bs (wholeWords bs))
            | some tn =>
              let l := ys.map (fun p => (tn.elem (sideCoords (copyDst d) p.1) * w, p.2.1))
              let n := (laidBytes w (fun _ => 0) l).length
              let t := unit % 2 ^ 27
              serve c r (copyRec x) (sideTid (copyDst d)) t true (some x.id) none hold (fun _ s3 => finishUnit r x fl n (noteAhead c r x unit s3))
                (tensorWrite c r [] (sideTid (copyDst d)) tn t l s2) s2) srcs) s1) s)
  | _, _ => nx s

end Sys2Proof.Machine
end

