-- ==== Sys2Proof/Machine/GangOps.lean ====
section
/-! DEFINITION. Gangs as the scheduler, the sequencer and the root controller see them (R457 to R460, R469): messages to the other members,
whether a member's record may start, and a pre-emption's beginning. -/

namespace Sys2Proof.Machine

/-- The gang a context belongs to. -/
def gangOf (s : State) (c : Context) : Option Gang := c.gang.bind (fun g => Assoc.find g s.gangs)
/-- Change a gang, if it exists. -/
def State.modGang (gid : Nat) (f : Gang → Gang) (s : State) : State :=
  match Assoc.find gid s.gangs with
  | some G => { s with gangs := Assoc.put gid (f G) s.gangs }
  | none => s
/-- The ranks of the other members. -/
def Gang.others (G : Gang) : List Nat := (List.range G.size).filter (fun k => k ≠ G.rank)
/-- Send a message of this code to every other member. -/
def Gang.tell (code slice : Nat) (G : Gang) : Gang := { G with sent := G.sent ++ G.others.map (fun k => (k, code, slice)) }
/-- Send it for a context, where it belongs to a gang. -/
def tellPeers (c : Context) (code : Nat) (s : State) : State :=
  match c.gang with
  | some gid => s.modGang gid (Gang.tell code 0)
  | none => s

/-- The last moment, TIME, at which the coordinator may still answer "go": D + grace, the grace in microseconds (R459). -/
def Gang.limit (G : Gang) (sl : Slice) : Nat := sl.deadline + 1000 * G.grace
/-- Every member has reported for this slice. -/
def Gang.allReported (G : Gang) (num : Nat) : Bool := (List.range G.size).all (fun k => G.reports.contains (num, k))
/-- The domain rank of a member. -/
def Gang.domain (G : Gang) (k : Nat) : Nat := ((G.members[k]?).map (fun p => p.1)).getD 0
/-- No path is left to a member (R470). [DEDUCED, log 56] -/
def cutFrom (s : State) (G : Gang) (k : Nat) : Bool := s.unreach.any (fun q => decide (q.1 = G.domain k)) && decide (k ≠ G.rank)
/-- No path is left between the coordinator and some member: no slice can start (R470). [DEDUCED, log 54] -/
def Gang.split (s : State) (G : Gang) : Bool := if G.rank = 0 then (List.range G.size).any (cutFrom s G) else cutFrom s G 0

/-- The coordinator, rank 0, holds every report in time, reaches every member, and sends "go" (R459 step 3). -/
def Gang.decide (cut : Bool) (now : Nat) (G : Gang) : Gang :=
  match G.slice with
  | some sl =>
    if cut = false ∧ G.rank = 0 ∧ sl.go = false ∧ G.allReported sl.num = true ∧ now ≤ G.limit sl then
      { G with slice := some { sl with go := true } }.tell 2 sl.num
    else G
  | none => G
/-- This package's member has vacated its region: it reports to the coordinator (R459 step 2). -/
def reportVacated (gid : Nat) (s : State) : State :=
  s.modGang gid (fun G =>
    match G.slice with
    | none => G
    | some sl =>
      if sl.vacated then G
      else
        let G1 := { G with slice := some { sl with vacated := true } }
        if G.rank = 0 then Gang.decide (G.split s) s.time { G1 with reports := G1.reports ++ [(sl.num, 0)] }
        else { G1 with sent := G1.sent ++ [(0, 1, sl.num)] })
/-- The slice is over: it has started, or it is given up. -/
def Gang.endSlice (G : Gang) : Gang :=
  match G.slice with
  | some sl => { G with slice := none, reports := G.reports.filter (fun q => q.1 ≠ sl.num) }
  | none => G
/-- A context's record may start: it is in no gang, or its gang's slice has "go" (R459). [DEDUCED, log 54] -/
def mayStart (s : State) (c : Context) : Bool :=
  match c.gang with
  | none => true
  | some gid => match (Assoc.find gid s.gangs).bind (fun G => G.slice) with
                | some sl => sl.go
                | none => false
/-- A context's record starts: its gang's slice is over. -/
def startSlice (c : Context) (s : State) : State :=
  match c.gang with
  | some gid => s.modGang gid Gang.endSlice
  | none => s

/-- The image of a pre-emption that has only begun (R432: state 0). -/
def openImage (migrate : Bool) (R : Region) (c : Context) (now : Nat) : SaveImage :=
  { kind := if migrate then 2 else 1, st := 0, w := R.w, h := R.h, gen := c.gen, cseq := 0xFFFFFFFF, image := 0, time := now,
    body := Region.absent, sects := [], length := 64, pastS := [], pastL := [], waits := [], rings := [] }
/-- A pre-emption of the context that runs a graph on region `r` begins (R428); a gang is pre-empted as a whole, and each connection of its
collectives gets a lift flit, and those that came early count (R458, R469). -/
def startPreempt (r : Nat) (migrate : Bool) (c : Context) (s : State) : State :=
  let R := s.region r
  let early := ((gangOf s c).map (fun G => G.lifts)).getD []
  let s1 := (s.setRegion r { R with preempt := some { migrate := migrate, saved := [], flits := early } }).modCtx c.attr.asid (fun c =>
    { c with st := .preempting, image := some (openImage migrate R c s.time) })
  let s2 := match c.gang with
            | some gid => s1.modGang gid (fun G => { G with lifts := [] })
            | none => s1
  tellPeers c 6 (tellPeers c 5 s2)

/-- A record goes back to the head of its level, as it was before it was selected. -/
def Region.giveBack (x : Record) (R : Region) : Region :=
  let l := bits x.data.toNat 66 64
  let y := if x.st = RecState.preempted then x else { x with st := RecState.queued }
  { R with pending := none, scrubDue := false, colJob := none, levels := Assoc.put l (y :: R.level l) R.levels }

end Sys2Proof.Machine
end

