-- ==== Sys2Proof/Machine/Launch.lean ====
section
/-! DEFINITION. Launches and graphs (R292 to R315): the region queue, launch records and their checks, the graph's nodes, GLAUNCH, completion,
checking mode's two runs, and the watchdog (R424). -/

namespace Sys2Proof.Machine

/-! ### Launch records (R295) -/

/-- root. -/
def recRoot (d : Nat) : Nat := bits d 63 0
/-- level. -/
def recLevel (d : Nat) : Nat := bits d 66 64
/-- chk. -/
def recChk (d : Nat) : Bool := bit d 69
/-- colreq. -/
def recColreq (d : Nat) : Bool := bit d 70
/-- nonce. -/
def recNonce (d : Nat) : Nat := bits d 191 128
/-- seed. -/
def recSeed (d : Nat) : Nat := bits d 255 192
/-- spbase. -/
def recSpBase (d : Nat) : Nat := bits d 319 256
/-- spsize. -/
def recSpSize (d : Nat) : Nat := bits d 351 320
/-- iolist. -/
def recIoList (d : Nat) : Nat := bits d 383 352
/-- done. -/
def recDone (d : Nat) : Nat := bits d 447 384
/-- nnodes. -/
def recNodes (d : Nat) : Nat := bits d 463 448
/-- tag. -/
def recTag (d : Nat) : Nat := bits d 511 480
/-- The bits of a record. -/
def Record.b (x : Record) : Nat := x.data.toNat

/-- An offset is misaligned, or its bytes lie beyond the control segment (R296 subcode 2). -/
def offsetBad (seg a n al : Nat) : Bool := decide (a % al ≠ 0) || decide (seg < a + n)

/-! ### The region queue (R292, R293) -/

/-- A record's context lets it be selected (R293): of a pre-empted context only the pre-empted record. -/
def mayHold (c : Context) (x : Record) : Bool :=
  if x.st = .preempted then c.st == .preempted
  else
    match c.st with
    | .created | .resident | .stopped => true
    | .preempting | .preempted | .stopping | .damaged => false
/-- A record may be selected in its turn: its context lets it, and belongs to no gang, whose records start in slices (R293, R459). -/
def selectable (s : State) (x : Record) : Bool :=
  match Assoc.find x.asid s.contexts with
  | none => false
  | some c => mayHold c x && c.gang.isNone
/-- The record of a gang's member on region `r` whose slice waits for this member: it is taken past the order of R293 (R459). -/
def gangRecord (s : State) (r : Nat) (R : Region) : Option Record :=
  (s.gangs.findSome? (fun (q : Nat × Gang) =>
    match q.2.slice, Assoc.find q.2.asid s.contexts with
    | some sl, some c =>
      if sl.vacated || c.attr.region ≠ r then none
      else ([7, 6, 5, 4, 3, 2, 1, 0].flatMap R.level).find? (fun x => decide (x.asid = q.2.asid) && mayHold c x)
    | _, _ => none))
/-- The head of a level: its first selectable record. -/
def levelHead (s : State) (R : Region) (l : Nat) : Option Record := (R.level l).find? (selectable s)
/-- A level's starvation count. -/
def Region.starved (R : Region) (l : Nat) : Nat := Assoc.get 0 l R.starve
/-- The level from which the next record is taken (R293). -/
def nextLevel (s : State) (R : Region) : Option Nat :=
  let ls := [7, 6, 5, 4, 3, 2, 1, 0].filter (fun l => (levelHead s R l).isSome)
  match ls.find? (fun l => decide (16 ≤ R.starved l)) with
  | some l => some l
  | none => ls.head?
/-- The counts after a selection from level `l`, the queue being `R` with the record gone (R293). -/
def starveAfter (s : State) (R : Region) (l : Nat) : Assoc Nat :=
  (List.range 8).map (fun m =>
    let n := R.starved m
    let held := (levelHead s R m).isSome
    (m, if !held then 0 else if m = l then (if 16 ≤ n then 0 else n) else if m < l then n + 1 else n))
/-- The starvation count of a level that holds no selectable record any more is 0 (R293). -/
def recount (r : Nat) (s : State) : State :=
  s.modRegion r (fun R => { R with starve := R.starve.map (fun (q : Nat × Nat) => (q.1, if (levelHead s R q.1).isSome then q.2 else 0)) })
/-- Put a record into its level: at its end. -/
def Region.enqueue (x : Record) (R : Region) : Region :=
  { R with levels := Assoc.put (recLevel x.b) (R.level (recLevel x.b) ++ [x]) R.levels }
/-- A level has a free place (R292). -/
def Region.levelRoom (R : Region) (l : Nat) : Bool := decide ((R.level l).length < 32)

/-! ### Checking a graph (R296 to R299, R311) -/

/-- A graph node as it stands in memory (R297). -/
def gnodeOf (x : Nat) (arms : List Word) : GNode :=
  { kind := bits x 35 32, aux := bits x 31 0, pred := bits x 47 40,
    succ := ((List.range 4).map (fun j => bits x (64 + 16 * j + 15) (64 + 16 * j))).filter (fun j => j ≠ 0xFFFF),
    arg0 := bits x 255 192, arg1 := bits x 191 128, remaining := bits x 47 40, st := .waiting, entered := 0, results := [], batch := [], midway := false,
    arms := arms }
/-- The record's own failure: its subcode (R296). [DEDUCED, log 22] -/
def recordBad (c : Context) (d : Nat) : Option Nat :=
  let seg := segSize c
  if bits d 95 71 ≠ 0 ∨ bits d 479 464 ≠ 0 ∨ (bit d 68 = true ∧ bit d 67 = false ∧ c.attr.det = false) then some 1
  else if offsetBad seg (recRoot d) (32 * recNodes d) 32 || offsetBad seg (recDone d) 32 32
      || offsetBad seg (recSpBase d) (4096 * recSpSize d) 4096
      || (recIoList d ≠ 0 && offsetBad seg (recIoList d) 8 8) then some 2
  else if recNodes d = 0 then some 3
  else none
/-- The used successor entries of a node do not come first, or repeat, or name the node itself or none (R296 subcode 5). -/
def succBad (n i x : Nat) : Bool :=
  let raw := (List.range 4).map (fun j => bits x (64 + 16 * j + 15) (64 + 16 * j))
  let used := raw.filter (fun j => j ≠ 0xFFFF)
  decide (raw.take used.length ≠ used) || decide (used.dedup ≠ used) || used.any (fun j => decide (n ≤ j) || decide (j = i))
/-- A node's own failure before its arm list is read: its subcode (R296, R298). [DEDUCED, log 22] -/
def nodeFieldsBad (c : Context) (n i x : Nat) : Option Nat :=
  let seg := segSize c
  let k := bits x 35 32
  let aux := bits x 31 0
  let a := bits x 255 192
  let b := bits x 191 128
  let fields := bits x 63 48 ≠ 0 || bits x 39 36 ≠ 0 || decide (3 < k)
    || (k == 0 && (decide (64 < aux) || (b == 0) != (aux == 0)))
    || (k == 1 && decide (b ≠ 0 ∨ aux ≠ 0)) || (k == 3 && decide (b ≠ 0 ∨ aux ≠ 0))
    || (k == 2 && decide (b ≠ 0 ∨ aux = 0 ∨ 65535 < aux))
  let place := match k with
               | 0 => offsetBad seg a 32 32 || (decide (aux ≤ 64) && offsetBad seg b (8 * aux) 8)
               | 1 => offsetBad seg a 64 64
               | 2 => offsetBad seg a (40 * aux) 8
               | 3 => offsetBad seg a 64 64
               | _ => false
  if place then some 2 else if fields then some 4 else if succBad n i x then some 5 else none
/-- An arm entry has a reserved bit or no count (R298). -/
def armBadEntry (v : Nat) : Bool := bits v 39 34 ≠ 0 || bits v 31 16 ≠ 0 || bits v 63 40 == 0

/-- Read the arm list of a node. -/
def readArms (c : Context) (r a : Nat) : Nat → State → MemRes (List Word)
  | 0, s => .ok [] s
  | n + 1, s => (gRead c r a 8 s).bind (fun bs s1 =>
      (readArms c r (a + 8) n s1).bind (fun t s2 => .ok (toWord (ofBytesLE bs) :: t) s2))

/-- The outcome of reading a graph: its nodes, or a failing node and subcode. -/
abbrev GraphRes := Nat × Nat ⊕ List GNode

/-- Read node `i` and those after it; `i + k` is their number (R299). [DEDUCED, log 22] -/
def readNodes (c : Context) (r d : Nat) : Nat → Nat → State → MemRes GraphRes
  | _, 0, s => .ok (.inr []) s
  | i, k + 1, s =>
    (gRead c r (recRoot d + 32 * i) 32 s).bind (fun bs s1 =>
      let x := ofBytesLE bs
      match nodeFieldsBad c (recNodes d) i x with
      | some sub => .ok (.inl (i, sub)) s1
      | none =>
        (readArms c r (bits x 191 128) (if bits x 35 32 = 0 then bits x 31 0 else 0) s1).bind (fun arms s2 =>
          if arms.any (fun v => armBadEntry v.toNat) then .ok (.inl (i, 9)) s2
          else if recChk d && bits x 35 32 == 2 then .ok (.inl (i, 8)) s2
          else
            (readNodes c r d (i + 1) k s2).bind (fun t s3 =>
              match t with
              | .inl e => .ok (.inl e) s3
              | .inr l => .ok (.inr (gnodeOf x arms :: l)) s3)))

/-- The nodes left after those without a remaining predecessor are taken away, `fuel` times (R296 subcode 7). -/
def peel (l : List GNode) : Nat → List Nat → List Nat
  | 0, left => left
  | n + 1, left => peel l n (left.filter (fun i => left.any (fun j => ((l[j]?).map (fun x => x.succ.contains i)).getD false)))
/-- The failure of a graph as a whole: predecessor counts, then cycles. [DEDUCED, log 22] -/
def wholeBad (l : List GNode) : Option (Nat × Nat) :=
  match l.zipIdx.find? (fun q => decide (q.1.pred ≠ (l.filter (fun x => x.succ.contains q.2)).length)) with
  | some q => some (q.2, 6)
  | none =>
    match peel l l.length (List.range l.length) with
    | i :: _ => some (i, 7)
    | [] => none

/-- The head of a checking list breaks R311: a reserved bit, or no output tensor, or more than 256. -/
def listHeadBad (hdr : Nat) : Bool := decide (bits hdr 63 32 ≠ 0) || bits hdr 31 16 == 0 || decide (256 < bits hdr 31 16)
/-- The checking list (R311): its output tensors, or subcode 8 where its entries break the rule. -/
def listOf (hdr : Nat) (ids : List Nat) : Nat ⊕ List Nat :=
  if ids.any (fun e => decide (65535 < e)) || decide (ids.dedup ≠ ids) then .inl 8
  else .inr ((ids.drop (bits hdr 15 0)).take (bits hdr 31 16))
/-- Read `n` entries of 8 bytes. -/
def readEntries (c : Context) (r a : Nat) : Nat → State → MemRes (List Nat)
  | 0, s => .ok [] s
  | n + 1, s => (gRead c r a 8 s).bind (fun bs s1 => (readEntries c r (a + 8) n s1).bind (fun t s2 => .ok (ofBytesLE bs :: t) s2))
/-- Read the checking list of a record (R311), or the subcode by which it is rejected: 8, or 2 where its entries lie beyond the control
segment (R296). [DEDUCED, log 22] -/
def readList (c : Context) (r d : Nat) (s : State) : MemRes (Nat ⊕ List Nat) :=
  if !recChk d then .ok (.inr []) s
  else if recIoList d = 0 then .ok (.inl 8) s
  else
    (gRead c r (recIoList d) 8 s).bind (fun bs s1 =>
      let h := ofBytesLE bs
      let n := bits h 15 0 + bits h 31 16
      if listHeadBad h then .ok (.inl 8) s1
      else if offsetBad (segSize c) (recIoList d) (8 + 8 * n) 8 then .ok (.inl 2) s1
      else (readEntries c r (recIoList d + 8) n s1).bind (fun ids s2 => .ok (listOf h ids) s2))

/-- A graph just accepted, its record in the state `st`, or rejected with no node. -/
def Graph.begin (st : RecState) (x : Record) (nodes : List GNode) (outs : List Nat) (now : Nat) : Graph :=
  { rcd := { x with st := st }, nodes := nodes, ready := readyNodes nodes, loads := 0, resident := none, load := none, flags := 0,
    heldNodes := [], heldTasks := [], outs := outs, run := if recChk x.b then 1 else 0, digests1 := [], digests := [], wdog := 0,
    wdogAt := now, spared := false, closing := false, ahead := [] }

/-- Give region `r` a graph. -/
def setGraph (r : Nat) (g : Option Graph) (s : State) : State := s.modRegion r (fun R => { R with graph := g, pending := none })

/-- A selected record is accepted with these nodes and output tensors: it runs, or, where it requires a colophon that is not yet written, is in
colophon wait (R294, R410); its spill area is in use from now on (R201, R404). -/
def accepted (r : Nat) (x : Record) (nodes : List GNode) (outs : List Nat) (s : State) : State :=
  let d := x.b
  let st : RecState := if recColreq d && (s.region r).colJob.isSome then .colophonWait else .running
  (setGraph r (some (Graph.begin st x nodes outs s.time)) s).modRegion r (fun R =>
    { R with spills := if recSpSize d = 0 ∨ R.spills.contains (recSpBase d, recSpSize d) then R.spills
                       else R.spills ++ [(recSpBase d, recSpSize d)] })
/-- Go on with a read of the selected record's list, nodes or arms: a fatal cause stops the launch, of which a graph without nodes stands, so
that its completion record is written and the record does not run again (R305). -/
def beginAccess {α : Type} (r : Nat) (none' : State → State) (k : α → State → State) (s : State) (res : MemRes α) : State :=
  match res with
  | .ok v s1 => k v s1
  | .wait _ => s
  | .fail x s1 => raise r { x with kind := 7, unit := 0 } (none' s1)
/-- The sequencer reads and checks the selected record and its graph, and accepts or rejects it (R294, R296, R299). [DEDUCED, log 22] -/
def acceptRecord (r : Nat) (x : Record) (c : Context) (s : State) : State :=
  let d := x.b
  let s0 := ((startSlice c s).modCtx x.asid (fun c => { c with st := .resident, seed := toWord (recSeed d), collSeq := 0 })).modRegion r (fun R =>
    { R with col := { R.col with required := recColreq d, nonce := recColreq d } })
  let none' := setGraph r (some (Graph.begin .selected x [] [] s.time))
  let reject (p : Nat × Nat) (s : State) : State := raise r (rejectGraph p.1 p.2) (none' s)
  match recordBad c d with
  | some sub => reject (0xFFFF, sub) s0
  | none =>
    beginAccess r none' (fun l s1 =>
      match l with
      | .inl sub => reject (0xFFFF, sub) s1
      | .inr outs =>
        beginAccess r none' (fun q s2 =>
          match q with
          | .inl e => reject e s2
          | .inr nodes =>
            match wholeBad nodes with
            | some e => reject e s2
            | none => accepted r x nodes outs s2) s (readNodes c r d 0 (recNodes d) s1)) s (readList c r d s0)

/-- SCHEDULER_SELECT: an idle region takes its next record (R293); once the scrub that it needs is done, the sequencer reads and checks it with
its graph, and it waits for its colophon or runs (R294, R299, R410). The record of a gang's member is reported once its colophon is written, and waits for "go" (R459). -/
def execSchedulerSelect (r : Nat) (s : State) : Host.Outcome State Fault Refusal :=
  let R := s.region r
  if R.w = 0 || !R.inService || R.graph.isSome || R.halt || R.phase ≠ .none || R.preempt.isSome then nx s
  else
    match R.pending with
    | some x =>
      match Assoc.find x.asid s.contexts with
      | none => nx s
      | some c =>
        if R.scrubDue || x.st ≠ .selected || R.resident ≠ some x.asid then nx s
        else if mayStart s c then nx (acceptRecord r x c s)
        else if R.colJob.isSome then nx s
        else nx (reportVacated (c.gang.getD 0) s)
    | none =>
      match gangRecord s r R with
      | some x =>
        let R1 := { R with levels := Assoc.put (recLevel x.b) ((R.level (recLevel x.b)).erase x) R.levels }
        nx (s.setRegion r { R1 with
          starve := starveAfter s R1 (recLevel x.b),
          pending := some (if x.st = .preempted then x else { x with st := .selected }), scrubDue := true })
      | none =>
      match nextLevel s R with
      | none => nx s
      | some l =>
        match levelHead s R l with
        | none => nx s
        | some x =>
          let R1 := { R with levels := Assoc.put l ((R.level l).erase x) R.levels }
          let due := R.resident ≠ some x.asid || recColreq x.b || x.st == .preempted
          nx (s.setRegion r { R1 with
            starve := starveAfter s R1 l, pending := some (if x.st = .preempted then x else { x with st := .selected }), scrubDue := due })

/-! ### Nodes (R299 to R301, R377) -/

/-- The first node of kind `k` at index `n` that may start now. [DEDUCED, log 27] -/
def startable (s : State) (R : Region) (g : Graph) (n : Nat) : Option GNode :=
  match g.nodes[n]? with
  | some x => if seqRuns R && g.mayStart (detOn s R) n then some x else none
  | none => none

/-- Read the entries of a DDE batch (R377). -/
def readBatch (c : Context) (r a : Nat) : Nat → State → MemRes (List (BitVec 256))
  | 0, s => .ok [] s
  | n + 1, s => (gRead c r (a) 8 s).bind (fun b0 s1 => (gRead c r (a + 8) 8 s1).bind (fun b1 s2 =>
      (gRead c r (a + 16) 8 s2).bind (fun b2 s3 => (gRead c r (a + 24) 8 s3).bind (fun b3 s4 =>
        (readBatch c r (a + 32) n s4).bind (fun t s5 => .ok (BitVec.ofNat 256 (ofBytesLE (b0 ++ b1 ++ b2 ++ b3)) :: t) s5)))))

/-- A batch begins: its entries are read and checked (R377 to R379). -/
def startBatch (r n : Nat) (x : GNode) (c : Context) (s : State) : State :=
  let rc : StopRec := { recOf 0x09 8 0 with sk := 3 }
  if segSize c < x.arg0 + 40 * x.aux then
    raise r { rc with cause := 0x04, address := toWord x.arg0, d1 := toWord (segSize c) } s
  else
    ddAccess r rc id (fun l s1 =>
      match (l.zipIdx).find? (fun q => batchBad q.2 q.1.toNat) with
      | some q => raise r { rc with position := toWord q.2, d0 := toWord (q.1.toNat % 2 ^ 64), d1 := 9 } s1
      | none => s1.modGraph r (fun g =>
          let g1 := g.start n
          { g1 with nodes := listSet n { x with st := .running, batch := l } g1.nodes })) s (.lift (readBatch c r x.arg0 x.aux s))

/-- A copy of the graph begins: an engine takes its descriptor (R298, R330, R334). -/
def startCopy (r n : Nat) (x : GNode) (c : Context) (s : State) : State :=
  seqAccess r (fun bs s1 =>
    let (id, s2) := s1.takeId r
    let y : Copy := { id := id, unit := 0, ticket := n, desc := BitVec.ofNat 512 (ofBytesLE bs), off := x.arg0, word := 0, node := some n,
                      issuer := 0, started := false, units := [], next := 0, flags := 0, fault := none }
    (s2.modRegion r (fun R => { R with copies := R.copies ++ [y] })).modGraph r (fun g => g.start n)) s (gRead c r x.arg0 64 s)

/-- GRAPH_NODE_START: ready node `n`, a copy or a DDE batch, starts; a successor launch starts with its own event (R299). -/
def execGraphNodeStart (r n : Nat) (s : State) : Host.Outcome State Fault Refusal :=
  let R := s.region r
  match R.graph, s.ctxOf R with
  | some g, some c =>
    match startable s R g n with
    | none => nx s
    | some x =>
      match x.kind with
      | 1 => nx (startCopy r n x c s)
      | 2 => nx (startBatch r n x c s)
      | 3 => nx (s.modGraph r (fun g => g.start n))
      | _ => nx s
  | _, _ => nx s

/-- The record a graph node or GLAUNCH submits. -/
def submitted (c : Context) (bs : List Byte) : Record := { data := BitVec.ofNat 512 (ofBytesLE bs), asid := c.attr.asid, st := .queued }

/-- SUCCESSOR_LAUNCH: the record of successor node `n` is appended at its level once there is room, or, in deterministic and checking mode,
held; the node finishes (R301). A node that waits for room is saved not started (R315). -/
def execSuccessorLaunch (r n : Nat) (s : State) : Host.Outcome State Fault Refusal :=
  let R := s.region r
  match R.graph, s.ctxOf R with
  | some g, some c =>
    match g.nodes[n]? with
    | none => nx s
    | some x =>
      if !seqRuns R || x.kind ≠ 3 || x.st ≠ .running then nx s
      else
        nx (seqAccess r (fun bs s1 =>
          let y := submitted c bs
          if detOn s R || chkOn s R then s1.modGraph r (fun g => Graph.finish n { g with heldNodes := g.heldNodes ++ [(n, y)] })
          else if R.levelRoom (recLevel y.b) then (s1.modRegion r (Region.enqueue y)).modGraph r (Graph.finish n)
          else s1) s (gRead c r x.arg0 64 s))
  | _, _ => nx s

/-! ### GLAUNCH (R302) -/

/-- What GLAUNCH does with its record once the publish has completed; `q` is function 1. -/
def submitRecord (q : Bool) (d : Reg) (c : Context) (bs : List Byte) (s : State) : State :=
  let R := s.hereR
  let y := submitted c bs
  if detOn s R || chkOn s R then
    match R.graph with
    | none => s
    | some g =>
      if 32 ≤ g.heldNodes.length + g.heldTasks.length then failSpace 0 s
      else
        let me := issuerOf s.cur.unit (if isCtl s.cur.unit then 0 else s.cur.slot)
        done d 0 (s.modGraph s.cur.region (fun g => { g with heldTasks := g.heldTasks ++ [(me, y)] }))
  else if R.levelRoom (recLevel y.b) then done d 0 (s.modHereR (Region.enqueue y))
  else if q then done d 1 s
  else park (.level (recLevel y.b)) s

/-- GLAUNCH in both functions: checks, publishes, reads the record at memory, submits it (R302). -/
def launchRecord (q : Bool) (g : Guard) (d : Reg) (a : Src) (s : State) : Host.Outcome State Fault Refusal :=
  issue g [a] [d] (fun s =>
    let off := (rv s a).toNat
    if off % 64 ≠ 0 ∨ hereSeg s < off + 64 then failSpace (rv s a) s
    else if s.here.prog ≠ .published then beginPublish .region .publish s
    else
      match s.ctxOf s.hereR with
      | none => failSpace (rv s a) s
      | some c => slotAccess (fun bs s1 => submitRecord q d c bs s1) s (gRead c s.cur.region off 64 s)) s

/-- GLAUNCH: pushes a launch record, waiting for room in its level (R302). [DEDUCED, log 60] -/
def execGlaunch (g : Guard) (d : Reg) (a : Src) (s : State) : Host.Outcome State Fault Refusal := launchRecord false g d a s
/-- GLAUNCH.q: pushes a launch record, or answers 1 where its level is full (R302). [DEDUCED, log 60] -/
def execGlaunchQ (g : Guard) (d : Reg) (a : Src) (s : State) : Host.Outcome State Fault Refusal := launchRecord true g d a s

/-! ### Completion (R303, R305, R312 to R314, R424) -/

/-- The watchdog has expired, and the graph was not found complete in that cycle. -/
def Graph.expired (now : Nat) (g : Graph) : Bool :=
  recWdog g.rcd.b != 0 && !g.spared && decide (1000 * recWdog g.rcd.b ≤ g.used now)
/-- Every node has finished (R299). -/
def Graph.over (g : Graph) : Bool := g.nodes.all (fun x => x.st == .finished) && g.load.isNone

/-- The 32 bytes of a completion record (R305). -/
def completionBytes (g : Graph) (result cause streams now : Nat) : List Byte :=
  bytesLE 32 (result + cause * 2 ^ 8 + g.flags.toNat * 2 ^ 16 + recTag g.rcd.b * 2 ^ 32 + g.loads % 2 ^ 64 * 2 ^ 64
    + now % 2 ^ 64 * 2 ^ 128 + streams * 2 ^ 192)
/-- The record's place for a completion record is valid (R296, R305). -/
def doneValid (c : Context) (d : Nat) : Bool := !offsetBad (segSize c) (recDone d) 32 32

/-- The stream names of both runs in rising order (R314). -/
def streamKeys (g : Graph) : List Nat := sortBy (fun a b => decide (a ≤ b)) ((g.digests1.map (fun q => q.1) ++ g.digests.map (fun q => q.1)).dedup)
/-- The first stream whose digests differ (R314). [DEDUCED, log 37] -/
def digestDiffers (g : Graph) : Option Nat := (streamKeys g).find? (fun k => decide (Assoc.get 0 k g.digests1 ≠ Assoc.get 0 k g.digests))

/-- The next record held by the graph: those of nodes by index, then those of tasks by issuer and program order (R303). -/
def nextHeld (g : Graph) : Option (Record × Graph) :=
  match sortBy (fun a b => decide (a.1 ≤ b.1)) g.heldNodes with
  | x :: t => some (x.2, { g with heldNodes := t })
  | [] =>
    match sortBy (fun a b => decide (a.1 ≤ b.1)) g.heldTasks with
    | x :: t => some (x.2, { g with heldTasks := t })
    | [] => none

/-- The completion record is written, the host is told, and the graph is over (R305, R446). -/
def writeDone (r : Nat) (g : Graph) (c : Context) (s : State) : State :=
  let s1 := writeThrough r s
  let n := if recChk g.rcd.b then (streamKeys g).length else 0
  seqAccess r (fun _ s2 => (setGraph r none (msix c.attr.func 0 (writebackKey c.keyId s2))).modRegion r (fun R =>
      { R with doneRec := some { g.rcd with st := .done } })) s
    (gWrite c r (recDone g.rcd.b) (completionBytes g 0 0 n s.time) s1)

/-- GRAPH_COMPLETE: a graph whose nodes have all finished compares its runs in checking mode, appends its held records one by one as their
levels have room, and then writes its completion record (R303, R305, R314). -/
def execGraphComplete (r : Nat) (s : State) : Host.Outcome State Fault Refusal :=
  let R := s.region r
  match R.graph, s.ctxOf R with
  | some g, some c =>
    if !seqRuns R || !g.over || g.run == 1 || g.expired s.time then nx s
    else
      match (if g.closing then none else digestDiffers g) with
      | some k =>
        if g.run = 2 then
          nx (raise r { seqRec 0x07 with d0 := toWord k, d1 := Assoc.get 0 k g.digests1 ^^^ Assoc.get 0 k g.digests }
            (s.modGraph r (fun g => { g with heldNodes := [], heldTasks := [] })))
        else nx s
      | none =>
        match nextHeld g with
        | some (x, g1) =>
          if R.levelRoom (recLevel x.b) then nx ((setGraph r (some { g1 with closing := true }) s).modRegion r (Region.enqueue x)) else nx s
        | none => nx (writeDone r g c s)
  | _, _ => nx s

/-- WATCHDOG: the graph's budget has run out before its completion record was written (R424). -/
def execWatchdog (r : Nat) (s : State) : Host.Outcome State Fault Refusal :=
  let R := s.region r
  match R.graph with
  | none => nx s
  | some g =>
    if R.halt || !g.expired s.time then nx s
    else
      let low := (g.nodes.findIdx? (fun x => x.st != .finished)).getD 0
      nx (raise r { seqRec 0x19 with position := toWord g.cseq, d0 := toWord (recWdog g.rcd.b), d1 := toWord low } s)

end Sys2Proof.Machine
end

