-- ==== Sys2Proof/Machine/HostIf.lean ====
section
/-! DEFINITION. The host interface (R442 to R447, R449): queue, fault-ring and admin-ring registers, doorbells, fetched launch records, and the
host's answers to translation faults. -/

namespace Sys2Proof.Machine

/-- Queue `q` of a function. -/
def Func.queue (F : Func) (q : Nat) : Queue := Assoc.get Queue.init q F.queues
/-- Change a queue of a function. -/
def State.modQueue (f q : Nat) (g : Queue → Queue) (s : State) : State :=
  let F := s.func f
  s.setFunc f { F with queues := Assoc.put q (g (F.queue q)) F.queues }
/-- A queue of the interface: functions 0 to 512, queues 0 to 7 (R442). -/
def isQueue (f q : Nat) : Bool := decide (f ≤ 512) && decide (q < 8)
/-- The host aperture of a function; the physical function's is unlimited (R443). [DEDUCED, log 47] -/
def apertureOf (s : State) (f : Nat) : Nat × Nat :=
  if f = 0 then (0, 2 ^ 64)
  else match (s.func f).aperture with
       | some a => a
       | none => Config.aperture f
/-- A ring leaves an aperture, or is misaligned (R444). [DEDUCED, log 47] -/
def hostRingBad (a : Nat × Nat) (base n : Nat) : Bool :=
  decide (base % 64 ≠ 0) || decide (base < a.1) || decide (a.1 + a.2 < base + n) || decide (2 ^ 64 < base + n)
/-- Records from the read index on (R444). -/
def occupancy (sz ridx v : Nat) : Nat := (v + 2 * sz - ridx % (2 * sz)) % (2 * sz)

/-! ### Launch queues (R443 to R445) -/

/-- A queue enters its error state (R444). -/
def Queue.fails (code : Nat) (Q : Queue) : Queue := { Q with code := code, err := true }
/-- error(c): the queue stops and the function's vector 1 is raised (R444, R446). -/
def queueError (f q code : Nat) (s : State) : State := msix f 1 (s.modQueue f q (Queue.fails code))

/-- DOORBELL_WRITE: a new write index for queue `q` of function `f`, checked against the queue's state (R444). [DEDUCED, log 48] -/
def execDoorbellWrite (f q v : Nat) (s : State) : Host.Outcome State Fault Refusal :=
  if !isQueue f q then nx s
  else
    let Q := (s.func f).queue q
    let new := v % 2 ^ 17
    let sz := 2 ^ Q.lsz
    if !Q.en || Q.ctx.isNone then nx (s.modQueue f q (fun Q => { Q with dead := true }))
    else if Q.err then nx s
    else if hostRingBad (apertureOf s f) Q.base.toNat (64 * sz) then nx (queueError f q 1 s)
    else if Q.lsz < 4 || 16 < Q.lsz then nx (queueError f q 2 s)
    else if 2 * sz ≤ new then nx (queueError f q 3 s)
    else if sz < occupancy sz Q.ridx new then nx (s.modQueue f q (fun Q => { Q with back := true }))
    else nx (s.modQueue f q (fun Q => { Q with widx := new }))

/-- The context a queue is bound to, if it still stands. -/
def boundContext (s : State) (Q : Queue) : Option Context :=
  match Q.ctx with
  | none => none
  | some (a, g) => match Assoc.find a s.contexts with
                   | some c => if c.gen = g then some c else none
                   | none => none
/-- LAUNCH_RECORD_FETCH: the record at the read index has been read from host memory: it enters its region's queue, tagged with the bound
context, once its level has room, or the read failed (R444, R445). -/
def execLaunchRecordFetch (f q : Nat) (rec : Fetched) (s : State) : Host.Outcome State Fault Refusal :=
  let Q := (s.func f).queue q
  match boundContext s Q with
  | none => nx s
  | some c =>
    if !isQueue f q || !Q.en || Q.err || decide (Q.ridx = Q.widx) then nx s
    else if !rec.ok then nx (queueError f q 4 s)
    else
      let r := c.attr.region
      let x : Record := { data := rec.data, asid := c.attr.asid, st := .queued }
      if (s.region r).w = 0 || !(s.region r).levelRoom (recLevel x.b) then nx s
      else nx ((s.modRegion r (Region.enqueue x)).modQueue f q (fun Q => { Q with ridx := (Q.ridx + 1) % (2 * 2 ^ Q.lsz) }))

/-- The word that QSTAT reads (R443). -/
def Queue.stat (Q : Queue) : Nat := Q.code + b2n Q.back * 2 ^ 8 + b2n Q.cfgw * 2 ^ 9 + b2n Q.dead * 2 ^ 10 + b2n Q.err * 2 ^ 15
/-- The word that QCTX reads (R443). -/
def Queue.bound (Q : Queue) : Nat :=
  match Q.ctx with
  | some (a, g) => a + g * 2 ^ 16 + 2 ^ 24
  | none => 0
/-- The words that a queue's registers read, by their offset in its block (R443). -/
def Queue.register (Q : Queue) (off : Nat) : Nat :=
  match off with
  | 0x00 => Q.base.toNat
  | 0x08 => Q.lsz + b2n Q.en * 2 ^ 8
  | 0x10 => Q.ridx
  | 0x18 => Q.stat
  | 0x20 => Q.bound
  | _ => 0
/-- A queue after a write of QCFG (R443, R444). [DEDUCED, log 48] -/
def Queue.config (v : Word) (Q : Queue) : Queue :=
  let lsz := bits v.toNat 4 0
  let en := v.getLsbD 8
  let Q1 := if Q.en then { Q with cfgw := Q.cfgw || decide (lsz ≠ Q.lsz) } else { Q with lsz := lsz }
  if en then { Q1 with en := true } else { Q1 with en := false, ridx := 0, widx := 0, code := 0, err := false }
/-- QCFG_WRITE: sets the ring size while disabled, and the enable; en := 0 makes the queue usable again (R443, R444). [DEDUCED, log 48] -/
def execQcfgWrite (f q : Nat) (v : Word) (s : State) : Host.Outcome State Fault Refusal :=
  if isQueue f q then nx (s.modQueue f q (Queue.config v)) else nx s
/-- QSTAT_CLEAR: a 1 in bits 8, 9 and 10 clears back, cfgw and dead (R443). -/
def execQstatClear (f q : Nat) (v : Word) (s : State) : Host.Outcome State Fault Refusal :=
  if isQueue f q then
    nx (s.modQueue f q (fun Q => { Q with back := Q.back && !v.getLsbD 8, cfgw := Q.cfgw && !v.getLsbD 9, dead := Q.dead && !v.getLsbD 10 }))
  else nx s

/-! ### Fault rings (R327, R447) -/

/-- A function after a write of FCFG (R447). -/
def Func.faultConfig (v : Word) (F : Func) : Func :=
  let F1 := if F.fen then F else { F with flsz := bits v.toNat 3 0 }
  if v.getLsbD 8 then { F1 with fen := true } else { F1 with fen := false, fwidx := 0, fridx := 0 }
/-- FCFG_WRITE: sets the fault ring's size while disabled, and its enable; en := 0 zeroes its indices (R447). -/
def execFcfgWrite (f : Nat) (v : Word) (s : State) : Host.Outcome State Fault Refusal :=
  if f ≤ 512 then nx (s.setFunc f ((s.func f).faultConfig v)) else nx s
/-- A read index may become `v`: neither backwards nor past the write index (R447). -/
def Func.readsTo (F : Func) (v : Nat) : Bool :=
  let m := 2 ^ (F.flsz + 1)
  decide (v < m) && decide ((v + m - F.fridx) % m ≤ (F.fwidx + m - F.fridx) % m)
/-- FRIDX_WRITE: the host has consumed entries (R447). -/
def execFridxWrite (f v : Nat) (s : State) : Host.Outcome State Fault Refusal :=
  let F := s.func f
  if decide (f ≤ 512) && F.readsTo (v % 2 ^ 13) then nx (s.setFunc f { F with fridx := v % 2 ^ 13 }) else nx s

/-- The outstanding fault entry that a tag of a function names. -/
def faultOf (s : State) (f tag : Nat) : Option FaultEntry := s.faults.find? (fun e => decide (e.func = f) && decide (e.tag = tag))
/-- The entry is answered: it is outstanding no more, and its access may go on (R327). -/
def answer (e : FaultEntry) (s : State) : State :=
  ({ s with faults := s.faults.filter (fun x => !(decide (x.func = e.func) && decide (x.tag = e.tag))) }).modRegion e.region (fun R =>
    { R with copies := R.copies.map (fun (x : Copy) => if x.fault = some e.tag then { x with fault := none } else x),
             ags := R.ags.map (fun (q : Nat × Ag) => (q.1, { q.2 with ports := q.2.ports.map (fun (p : Nat × Port) =>
               (p.1, if p.2.fault = some e.tag then { p.2 with fault := none } else p.2)) })) })
/-- FRESP_RETRY: the access walks again; an answer that names no outstanding tag is ignored (R327, R447). [DEDUCED, log 49] -/
def execFrespRetry (f tag : Nat) (s : State) : Host.Outcome State Fault Refusal :=
  match faultOf s f tag with
  | some e => nx (answer e s)
  | none => nx s
/-- The stop record of the engine whose access is aborted (R233, R327, R346). [DEDUCED, log 49] -/
def abortedRec (R : Region) (e : FaultEntry) : StopRec :=
  let a := abortRec e.tid e.tile e.stage e.write
  let own (x : StopRec) : StopRec := { a with kind := x.kind, unit := x.unit, sub := x.sub, sk := x.sk, position := x.position }
  match e.copy, e.port with
  | some k, _ => match R.copies.find? (fun x => decide (x.id = k)) with
                 | some x => own (copyRec x)
                 | none => { a with kind := 6 }
  | none, some (u, p) => match commandAt R u p with
                         | some c => own (portRec causeUnresolved u p c (R.port u p).done 0)
                         | none => { a with kind := 3, unit := u, sub := p, sk := 3 }
  | none, none => a
/-- FRESP_ABORT: the context takes COPY_TRANSLATION_UNRESOLVED (R327). [DEDUCED, log 49] -/
def execFrespAbort (f tag : Nat) (s : State) : Host.Outcome State Fault Refusal :=
  match faultOf s f tag with
  | some e => nx (raise e.region (abortedRec (s.region e.region) e) (answer e s))
  | none => nx s

/-! ### The admin ring (R449) -/

/-- The admin ring after a write of ACFG (R449). [DEDUCED, log 48] -/
def Admin.config (v : Word) (A : Admin) : Admin :=
  let A1 := if A.en then A else { A with lsz := bits v.toNat 3 0 }
  if v.getLsbD 8 then { A1 with en := true } else { A1 with en := false, ridx := 0, widx := 0, code := 0, err := false }
/-- ACFG_WRITE (R449). [DEDUCED, log 48] -/
def execAcfgWrite (v : Word) (s : State) : Host.Outcome State Fault Refusal := nx { s with admin := s.admin.config v }
/-- ASTAT_CLEAR: a 1 in bit 8 clears back (R449). -/
def execAstatClear (v : Word) (s : State) : Host.Outcome State Fault Refusal :=
  nx { s with admin := { s.admin with back := s.admin.back && !v.getLsbD 8 } }
/-- The admin ring enters its error state; the physical function's vector 1 is raised (R444, R449). -/
def adminError (code : Nat) (s : State) : State := msix 0 1 { s with admin := { s.admin with code := code, err := true } }
/-- ADMIN_DOORBELL: a new write index, checked as a launch queue's is (R444, R449). -/
def execAdminDoorbell (v : Nat) (s : State) : Host.Outcome State Fault Refusal :=
  let A := s.admin
  let new := v % 2 ^ 13
  let sz := 2 ^ A.lsz
  if !A.en || A.err then nx s
  else if hostRingBad (apertureOf s 0) A.base.toNat (64 * sz) then nx (adminError 1 s)
  else if A.lsz < 4 || 12 < A.lsz then nx (adminError 2 s)
  else if 2 * sz ≤ new then nx (adminError 3 s)
  else if sz < occupancy sz A.ridx new then nx { s with admin := { A with back := true } }
  else nx { s with admin := { A with widx := new } }

/-! ### Registers with no behaviour of their own (R443, R447, R449) -/

/-- A queue after a write of QBASE: kept while disabled, else discarded with cfgw (R443, R444). -/
def Queue.setBase (v : Word) (Q : Queue) : Queue := if Q.en then { Q with cfgw := true } else { Q with base := v }
/-- HOST_REGISTER_WRITE: QBASE, FBASE or ABASE; every other place of the BAR ignores the write (R443, R447, R449). -/
def execHostRegisterWrite (f off : Nat) (v : Word) (s : State) : Host.Outcome State Fault Refusal :=
  if 512 < f then nx s
  else if decide (off < 512) && decide (off % 64 = 0) then nx (s.modQueue f (off / 64) (Queue.setBase v))
  else if off = 0x200 then nx (if (s.func f).fen then s else s.setFunc f { s.func f with fbase := v })
  else if off = 0x240 && f == 0 then nx (if s.admin.en then s else { s with admin := { s.admin with base := v } })
  else nx s

/-- The word that the host reads at an offset of page 0 of a function: its queues' registers, its fault ring's, and in the physical function
the admin ring's; every other place, and a register that is only written, reads zero (R443, R447, R449). -/
def hostRegister (f off : Nat) (s : State) : Word :=
  let F := s.func f
  let A := s.admin
  toWord (if off < 512 then (F.queue (off / 64)).register (off % 64)
          else
            match off with
            | 0x200 => F.fbase.toNat
            | 0x208 => F.flsz + b2n F.fen * 2 ^ 8
            | 0x210 => F.fwidx
            | 0x218 => F.fridx
            | 0x240 => if f = 0 then A.base.toNat else 0
            | 0x248 => if f = 0 then A.lsz + b2n A.en * 2 ^ 8 else 0
            | 0x250 => if f = 0 then A.ridx else 0
            | 0x258 => if f = 0 then A.code + b2n A.back * 2 ^ 8 + b2n A.err * 2 ^ 15 else 0
            | _ => 0)

end Sys2Proof.Machine
end

