-- ==== Sys2Proof/Machine/Scrub.lean ====
section
/-! DEFINITION. The Scraper and its colophons (R402 to R412), checking mode's second run (R312), reset and the life cycle. -/

namespace Sys2Proof.Machine

/-! ### Clearing (R403, R406) -/

/-- A region whose units are as after a reset; its queue, its service and its colophon stand (R403). -/
def Region.cleared (R : Region) : Region :=
  { Region.init R.x R.y R.pw R.ph R.w R.h R.vmap with
    inService := R.inService, resident := R.resident, spills := R.spills, levels := R.levels, starve := R.starve, graph := R.graph,
    pending := R.pending, doneRec := R.doneRec, scrubDue := R.scrubDue, colJob := R.colJob, col := R.col, halt := R.halt,
    haltTime := R.haltTime, raised := R.raised, phase := R.phase, nextId := R.nextId }

/-- The structures of a soft error that a scrub of a region clears: those of its units and of its DDE; the errors of seal caches and tier memory
go with what R406 drops of them (R403). -/
def errInRegion (r : Nat) (e : SoftErr) : Bool := decide (e.r = r) && decide (e.code < 12)
/-- The region's units cleared: every class but 7, 9 and 10, and the soft errors in them and in the region's DDE (R403). [DEDUCED, log 43] -/
def scrubUnits (r : Nat) (s : State) : State :=
  { s.modRegion r Region.cleared with
    smem := s.smem.wipe (r * 2 ^ 40) ((r + 1) * 2 ^ 40), lmem := s.lmem.wipe (r * 2 ^ 40) ((r + 1) * 2 ^ 40),
    errors := s.errors.filter (fun e => !errInRegion r e) }

/-- Every tile of a key ID leaves the seal caches, dirty ones after a writeback, with the soft errors in its words (R403, R406, class 10). -/
def dropKeyTiles (key : Nat) (s : State) : State := (tilesOf s key).foldl (fun s q => dropHeld q.2 s) (writebackKey key s)

/-- The tile of a G offset is set fresh: P = 0, Z = 1, its version kept (R406, class 6); none where the tile is being moved. A tile that is not
the context's stays. -/
def freshTile (c : Context) (r off : Nat) (s : State) : Option State :=
  match gTile c r off true s with
  | .ok dev s1 =>
    let p := placeOf s1 dev c.keyId
    if p.moving then none
    else if p.owner ≠ c.keyId then some s1
    else
      let s2 := freshMeta p.ptn (dropHeld p.ptn s1)
      some { s2 with tmem := s2.tmem.wipe (dev * 4096) ((dev + 1) * 4096) }
  | .wait _ => none
  | .fail _ s1 => some s1
/-- The G offsets of the tiles of spill areas. -/
def spillTiles (l : List (Nat × Nat)) : List Nat := uniq (l.flatMap (fun q => (List.range q.2).map (fun i => q.1 + 4096 * i)))
/-- The spill areas of a context are set fresh; none where a tile is being moved. -/
def freshSpill (c : Context) (r : Nat) : List Nat → State → Option State
  | [], s => some s
  | a :: t, s => (freshTile c r a s).bind (freshSpill c r t)

/-- A context's decision-diagram table is written back and leaves the engine, but for a pre-empted context's, whose
record and variable order its save image holds (R381, R403, R406, class 9); none where a tile of the table is being moved. -/
def dropTable (r : Nat) (c : Context) (s : State) : Option State :=
  match c.dd with
  | none => some s
  | some T =>
    let gone (s1 : State) : State :=
      if c.st = .preempted then s1 else s1.modCtx c.attr.asid (fun c => { c with dd := none })
    match ddWriteback c r false T s with
    | .ok _ s1 => some (gone s1)
    | .miss _ s1 => some (gone s1)
    | .wait _ => none
    | .fail _ s1 => some (gone s1)

/-- The Scraper's package-wide steps for the outgoing context (R406), in which the rings that a pre-empted context's image relies on stay in
memory (R206); none where they wait for a tile that is being moved. [DEDUCED, log 43] -/
def scrubContext (r : Nat) (c : Context) (s : State) : Option State :=
  let kept := (c.image.map (fun i => i.rings)).getD []
  (dropTable r c s).bind (fun s1 =>
    (freshSpill c r ((spillTiles (s.region r).spills).filter (fun a => !kept.contains a)) (dropKeyTiles c.keyId s1)).map (dropAsid c.attr.asid))
/-- The same for a context that has been removed since it held the region: where its key is freed too, nothing of its memory is left. [DEDUCED, log 43] -/
def scrubLeaving (r : Nat) (s : State) : Option State :=
  match Assoc.find r s.leaving with
  | none => some s
  | some (c, sealed) =>
    (if sealed then scrubContext r { c with image := none } s else some (dropAsid c.attr.asid s)).map (fun s1 =>
      { s1 with leaving := Assoc.erase r s1.leaving })

/-- A whole scrub of region `r`: its outgoing context's package-wide state, then its units (R403); none where it waits for a tile. -/
def scrubAll (r : Nat) (s : State) : Option State :=
  match (s.region r).resident.bind (fun a => Assoc.find a s.contexts) with
  | some c => (scrubContext r c s).map (scrubUnits r)
  | none => (scrubLeaving r s).map (scrubUnits r)

/-- A region is taken out of service, and its clusters with it until a reset; the management firmware is told (R407, R426). -/
def outOfService (r : Nat) (s : State) : State :=
  let R := s.region r
  let l := (List.range R.ph).flatMap (fun j => (List.range R.pw).map (fun i => 16 * (R.x + i) + (R.y + j)))
  { s.setRegion r { R with inService := false } with
    retired := s.retired ++ l.filter (fun q => !s.retired.contains q), notices := s.notices ++ [.outOfService r] }
/-- The Scraper could not clear structure class `cls` of region `r`: the region is taken out of service, and the class is reported (R407). -/
def scrubFails (r cls : Nat) (s : State) : State :=
  let s1 := outOfService r s
  { s1 with notices := s1.notices ++ [.scrubFailed r cls] }

/-! ### Scrubs for a launch (R402, R407, R408) -/

/-- Every structure class (R403). [DEDUCED, log 43] -/
def scrubMask : Nat := 0x3FFF
/-- A record that waits for its colophon; a pre-empted one stays so (R294). -/
def Record.waits (st : RecState) (x : Record) : Record := if x.st = .preempted then x else { x with st := st }
/-- The outgoing context no longer holds the region (R415). -/
def leaveRegion (old new : Nat) (s : State) : State :=
  if old = new then s else s.modCtx old (fun c => if c.st = CtxState.resident then { c with st := .created } else c)
/-- The scrub has cleared every class, which leaves `s1` of `s`: the incoming context takes the region, and its colophon is due (R408). [DEDUCED, log 43] -/
def scrubbed (r : Nat) (x : Record) (s s1 : State) : State :=
  let R := s.region r
  let out := R.resident.bind (fun a => (Assoc.find a s.contexts).map (fun c => (a, c.gen)))
  let s2 := match R.resident with
            | some a => leaveRegion a x.asid s1
            | none => s1
  let job : ColJob := { out := out, seq := s.scrubSeq + 1, iasid := x.asid, nonce := if recColreq x.b then toWord (recNonce x.b) else 0,
                        req := recColreq x.b, mask := scrubMask, time := s.time }
  let s3 := s2.modRegion r (fun R => { R with scrubDue := false, colJob := some job, resident := some x.asid, spills := [], pending := some x })
  ({ s3 with scrubSeq := s.scrubSeq + 1 }).modCtx x.asid (fun c =>
    { c with st := if c.st = CtxState.created then .resident else c.st, early := if x.st = RecState.preempted then c.early else [] })

/-- The record of a peer's stop (R421, R458). -/
def peerStopRec (rank : Nat) : StopRec := { recOf 0x1B 12 0 with d1 := toWord (1 + rank * 2 ^ 32) }
/-- The member's record waits for "go" on its scrubbed region. -/
def waitsForGo (R : Region) (asid : Nat) : Option Record :=
  if R.resident = some asid ∧ R.scrubDue = false ∧ R.graph = none then R.pending else none
/-- The record that waits for "go" is taken from its region, whose launch stops before it has begun (R439, R458, R460). [DEDUCED, log 54] -/
def takeWaiting (r : Nat) (c : Context) (x : Record) (s : State) : State :=
  let g := (c.image.bind (fun i => i.body.graph)).getD (Graph.begin .selected x [] [] s.time)
  (setGraph r (some { g with rcd := x }) s).modCtx c.attr.asid (fun c => { c with image := none })
/-- The member whose record waits for "go" stops with the peer of this rank (R458). [DEDUCED, log 54] -/
def stopWaiting (r : Nat) (c : Context) (x : Record) (rank : Nat) (s : State) : State :=
  let s1 := raise r (peerStopRec rank) (takeWaiting r c x s)
  if mayStart s c then startSlice c s1 else s1
/-- A peer's stop that came before the scrub takes the record now (R458). [DEDUCED, log 54] -/
def stopDue (r : Nat) (x : Record) (s : State) : State :=
  match Assoc.find x.asid s.contexts with
  | none => s
  | some c =>
    match c.gang, (gangOf s c).bind (fun G => G.stopBy) with
    | some gid, some k => stopWaiting r c x k (s.modGang gid (fun G => { G with stopBy := none }))
    | _, _ => s

/-- SCRUB: the Scraper clears the region for the selected record; where class `bad` cannot be cleared, the region is taken out of service and the
record stays in colophon wait (R402 to R407). [DEDUCED, log 43] -/
def execScrub (r : Nat) (bad : Option Nat) (s : State) : Host.Outcome State Fault Refusal :=
  let R := s.region r
  match R.pending with
  | none => nx s
  | some x =>
    if !R.scrubDue || !R.inService || R.graph.isSome || R.halt || R.preempt.isSome || (Assoc.find x.asid s.contexts).isNone then nx s
    else
      match bad with
      | some cls => nx (scrubFails r cls (s.setRegion r { R with pending := some (x.waits .colophonWait) }))
      | none => match scrubAll r s with
                | some s1 => nx (stopDue r x (scrubbed r x s s1))
                | none => nx s

/-- The signed message of a colophon (R408). [DESIGN CHOICE, log 44] -/
def colMessage (R : Region) (j : ColJob) (igen : Nat) (device : Word) : List Byte :=
  let o := j.out.getD (0, 0)
  bytesLE 64 (1 + j.mask * 2 ^ 16 + j.seq % 2 ^ 64 * 2 ^ 64
    + (R.x + R.y * 2 ^ 8 + (R.pw - 1) * 2 ^ 16 + (R.ph - 1) * 2 ^ 24) * 2 ^ 128
    + (o.1 + o.2 * 2 ^ 16 + b2n j.out.isNone * 2 ^ 63) * 2 ^ 192
    + (j.iasid + igen * 2 ^ 16) * 2 ^ 256 + j.time % 2 ^ 64 * 2 ^ 320 + j.nonce.toNat * 2 ^ 384 + device.toNat * 2 ^ 448)
/-- The 256 bytes of a colophon area: the message, its signature's r and s, zeros (R408 to R410). [DESIGN CHOICE, log 44] -/
def colBytes (key : Nat) (m : List Byte) : List Byte :=
  let q := ecdsaSign key (m.map (fun b => b.toNat))
  m ++ ((bytesBE 48 q.1 ++ bytesBE 48 q.2).map (BitVec.ofNat 8)) ++ rep 96 0
/-- The package's device identifier (R408). -/
def deviceOf (s : State) : Word := Config.deviceId (publicPoint s.attest)

/-- A graph whose record was in colophon wait runs (R294, R424). -/
def Graph.released (now : Nat) (g : Graph) : Graph :=
  if g.rcd.st = .colophonWait then { g with rcd := { g.rcd with st := .running }, wdogAt := now } else g
/-- COLOPHON_WRITTEN: the colophon is written to the incoming context's colophon area at system scope, and COLCHK reads it (R410). [DESIGN CHOICE, log 44] -/
def execColophonWritten (r : Nat) (s : State) : Host.Outcome State Fault Refusal :=
  let R := s.region r
  match R.colJob with
  | none => nx s
  | some j =>
    match Assoc.find j.iasid s.contexts with
    | none => nx s
    | some c =>
      if R.halt then nx s
      else
        match gWrite c r c.attr.colOff (colBytes s.attest (colMessage R j c.gen (deviceOf s))) s with
        | .wait _ => nx s
        | .fail x s1 => nx (raise r { x with kind := 12, unit := 0 } s1)
        | .ok _ s1 =>
          nx ((writebackKey c.keyId s1).modRegion r (fun R =>
            { R with colJob := none, graph := R.graph.map (Graph.released s.time),
                     col := { seq := j.seq, mask := j.mask, required := j.req, nonce := j.req, written := true } }))

/-! ### Checking mode's second run (R312) -/

/-- A node as the graph's start leaves it. -/
def GNode.again (x : GNode) : GNode := { x with remaining := x.pred, st := .waiting, entered := 0, results := [], batch := [], midway := false }
/-- The graph at the start of run 2: loads number from 0, the held records of run 1 are gone, and its digests are kept (R312, R313). -/
def Graph.second (g : Graph) : Graph :=
  let nodes := g.nodes.map GNode.again
  { g with nodes := nodes, ready := readyNodes nodes, loads := 0, resident := none, load := none, flags := 0, heldNodes := [],
           heldTasks := [], run := 2, digests1 := g.digests, digests := [], closing := false }

/-- CHECK_RUN2_START: run 1 is over; the Scraper clears the region without a colophon, the seed returns to the record's, and run 2 starts
(R312); where a class cannot be cleared, the region is taken out of service (R407). -/
def execCheckRun2Start (q : Clearing) (s : State) : Host.Outcome State Fault Refusal :=
  let r := q.region
  let R := s.region r
  match R.graph, R.resident with
  | some g, some a =>
    if !seqRuns R || g.run ≠ 1 || !g.over || g.expired s.time then nx s
    else
      match q.bad with
      | some cls => nx (scrubFails r cls s)
      | none =>
        match scrubAll r s with
        | some s1 => nx ((s1.modGraph r Graph.second).modCtx a (fun c => { c with seed := toWord (recSeed g.rcd.b) }))
        | none => nx s
  | _, _ => nx s

/-! ### Reset and the life cycle (R411) -/

/-- The package after a whole wipe: every SRAM cleared, every key destroyed, the device sealing key and the attestation key generated anew, every
tile fresh. What lies outside the wipe stands: the
host's memory, the fuses, the package's place in its domain, and which links have failed. [DESIGN CHOICE, log 3] -/
def wipePackage (st : LifeCycle) (s : State) : State :=
  { State.reset with keys := [(0, newKey 0 s.fresh)], attest := newAttest s.fresh, life := st, fuse := s.fuse, domainRank := s.domainRank, hostMem := s.hostMem, linksDown := s.linksDown, unreach := s.unreach,
                     expandersDown := s.expandersDown, fresh := s.fresh + 1, moment := s.moment, agenda := s.agenda }

/-- RESET: the package is wiped (R411). [DESIGN CHOICE, log 3] -/
def execReset (s : State) : Host.Outcome State Fault Refusal := nx (wipePackage s.life s)

/-- The state that follows a life-cycle state (R411). -/
def lifeNext : LifeCycle → Option LifeCycle
  | .manufacturing => some .provisioned
  | .provisioned => some .deployed
  | .deployed => some .returned
  | .returned => some .decommissioned
  | .decommissioned => none

/-- LIFECYCLE_CHANGE: a signed management command moves the life cycle to its next state, and the package is wiped (R411). When it is provisioned,
its domain rank is fixed (R456): a free value. [DESIGN CHOICE, log 3] -/
def execLifecycleChange (st : LifeCycle) (s : State) : Host.Outcome State Fault Refusal :=
  let place := if st = .provisioned then Config.freeNat (s.fresh + 1) % 4096 else s.domainRank
  if lifeNext s.life = some st then nx { wipePackage st s with time := s.time, domainRank := place, fresh := s.fresh + 2 } else nx s

end Sys2Proof.Machine
end

