-- ==== Sys2Proof/Machine/AdminOps.lean ====
section
/-! DEFINITION. What the root controller does at the request of the physical function's admin ring or of the management firmware (R413, R414,
R440, R441, R449, R450), budgets (R448), and what befalls the module (R175, R396, R451). -/

namespace Sys2Proof.Machine

/-! ### Requests (R449) -/

/-- There is a request: the firmware's own, or the ring's entry at its read index. -/
def adminReady (x : AdminSrc) (s : State) : Bool :=
  match x with
  | .firmware => true
  | .ring | .unread => s.admin.en && !s.admin.err && decide (s.admin.ridx ≠ s.admin.widx)
/-- The request is over: an entry's status is written, the read index passes it, and vector 0 is raised. -/
def adminDone (x : AdminSrc) (refused : Bool) (s : State) : State :=
  match x with
  | .firmware | .unread => s
  | .ring =>
    let A := s.admin
    let s1 := hostWrite 0 (A.base.toNat + 64 * (A.ridx % 2 ^ A.lsz) + 1) [BitVec.ofNat 8 (b2n refused)] s
    msix 0 0 { s1 with admin := { A with ridx := (A.ridx + 1) % (2 * 2 ^ A.lsz) } }
/-- Carry a request out, or refuse it; where the host's memory does not give the ring's entry, the ring is in error with code 4 (R444, R449). [DEDUCED, log 46] -/
def adminStep (x : AdminSrc) (refused : Bool) (f : State → State) (s : State) : Host.Outcome State Fault Refusal :=
  if !adminReady x s then nx s
  else if x = .unread then nx (adminError 4 s)
  else nx (adminDone x refused (if refused then s else f s))

/-! ### Regions (R440, R441) -/

/-- Two rectangles share a cluster. -/
def Region.meets (R : Region) (a : RegionArgs) : Bool :=
  decide (R.w ≠ 0) && decide (R.x < a.x + a.pw) && decide (a.x < R.x + R.pw) && decide (R.y < a.y + a.ph) && decide (a.y < R.y + R.ph)
/-- The healthy clusters of a rectangle in row-major order from its corner: a cluster out of service counts as none (R426, R441). [DEDUCED, log 57] -/
def healthy (fuse : List Nat) (a : RegionArgs) : List (Nat × Nat) :=
  ((List.range a.ph).flatMap (fun j => (List.range a.pw).map (fun i => (a.x + i, a.y + j)))).filter (fun q => !fuse.contains (16 * q.1 + q.2))
/-- A valid entry of the virtual unit table (R441). -/
def unitEntry (q : Nat × Nat) : Nat := q.1 * 2 ^ 11 + q.2 * 2 ^ 7 + 1
/-- A region's creation is refused: a rectangle outside the mesh, a virtual size that no unit number has (R6), overlap, or too few healthy
clusters (R440, R449). [DEDUCED, log 46] -/
def regionRefused (s : State) (a : RegionArgs) : Bool :=
  a.pw == 0 || a.ph == 0 || a.w == 0 || a.h == 0 || decide (24 < a.x + a.pw) || decide (16 < a.y + a.ph) || decide (24 < a.w) || decide (16 < a.h)
    || decide ((s.region a.id).w ≠ 0) || s.regions.any (fun (q : Nat × Region) => q.2.meets a)
    || decide ((healthy (s.fuse ++ s.retired) a).length < a.w * a.h)
/-- CREATE_REGION: admin opcode 1 (R440, R441, R449). [DEDUCED, log 46] -/
def execCreateRegion (x : AdminSrc) (rg : RegionArgs) (s : State) : Host.Outcome State Fault Refusal :=
  adminStep x (regionRefused s rg) (fun s => s.setRegion rg.id
    (Region.init rg.x rg.y rg.pw rg.ph rg.w rg.h (((healthy (s.fuse ++ s.retired) rg).take (rg.w * rg.h)).map unitEntry))) s

/-- A record is in the region's queue, or has been taken from it. -/
def Region.hasRecord (R : Region) : Bool := R.pending.isSome || R.graph.isSome || R.levels.any (fun q => !q.2.isEmpty)
/-- DESTROY_REGION: admin opcode 2; refused while a context is resident or queued (R440, R449). [DEDUCED, log 46] -/
def execDestroyRegion (x : AdminSrc) (r : Nat) (s : State) : Host.Outcome State Fault Refusal :=
  adminStep x ((s.region r).w == 0 || (s.region r).resident.isSome || (s.region r).hasRecord) (fun s =>
    let s1 := scrubUnits r s
    { s1 with regions := Assoc.erase r s1.regions }) s

/-! ### Contexts (R413, R414, R450) -/

/-- The attributes break a width or a bound of R413, or an area its minimum (R414). -/
def attrsBad (R : Region) (a : ContextArgs) : Bool :=
  let n := R.w * R.h
  let seg := a.csSize * 4096
  decide (2 ^ 16 ≤ a.asid) || a.keyId == 0 || decide (4096 ≤ a.keyId) || decide (512 < a.func)
    || a.csSize == 0 || decide (262144 < a.csSize) || decide (2 ^ 34 < a.csBase + a.csSize)
    || a.ttCount == 0 || decide (65536 < a.ttCount) || decide (2 ^ 34 < a.ttBase + (32 * a.ttCount + 4095) / 4096)
    || decide (2 ^ 34 ≤ a.root) || decide (2 ^ 24 ≤ a.saveSize) || decide (2 ^ 34 < a.saveBase + a.saveSize)
    || decide (a.saveSize * 4096 < 8 * 2 ^ 20 * n + 2 * 2 ^ 20)
    || decide (a.stopOff % 4096 ≠ 0) || decide (2 ^ 16 ≤ a.stopSize) || decide (a.stopSize * 4096 < 1024 * n + 8192)
    || decide (seg < a.stopOff + a.stopSize * 4096) || decide (a.colOff % 256 ≠ 0) || decide (seg < a.colOff + 256)
/-- The key slot may seal the context: it is free, or already seals contexts of the same function (R386). [DEDUCED, log 45] -/
def keyRefused (s : State) (a : ContextArgs) : Bool :=
  match (keySlot s a.keyId).st with
  | .free => false
  | .active => !s.contexts.any (fun (q : Nat × Context) => decide (q.2.keyId = a.keyId) && decide (q.2.attr.func = a.func))
  | .retiring => true
/-- A context's creation is refused. [DEDUCED, log 45] -/
def contextRefused (s : State) (a : ContextArgs) : Bool :=
  (Assoc.find a.asid s.contexts).isSome || (s.region a.region).w == 0 || attrsBad (s.region a.region) a || keyRefused s a
/-- The generation of an ASID's next use (R323). [DEDUCED, log 45] -/
def nextGen (s : State) (asid : Nat) : Nat :=
  match Assoc.find asid s.gens with
  | some g => (g + 1) % 256
  | none => 0
/-- Before an ASID's generations start anew, every cache of translations is flushed (R323). [DEDUCED, log 45] -/
def flushIf (b : Bool) (s : State) : State := if b then { s with tlb := [], tlb2 := [], walks := [], tnames := [] } else s
/-- The key slot that seals a new context's memory: the tenant's, or one whose keys are generated now (R386). [DEDUCED, log 45] -/
def allotKey (k : Nat) (s : State) : State :=
  if (keySlot s k).st = .free then { s with keys := Assoc.put k (newKey k s.fresh) s.keys, fresh := s.fresh + 1 } else s
/-- CREATE_CONTEXT: admin opcode 3 (R413, R414, R449). -/
def execCreateContext (x : AdminSrc) (a : ContextArgs) (s : State) : Host.Outcome State Fault Refusal :=
  adminStep x (contextRefused s a) (fun s =>
    let g := nextGen s a.asid
    let s1 := flushIf ((Assoc.find a.asid s.gens).isSome && g == 0) s
    let c : Context := { attr := a, gen := g, keyId := a.keyId, st := .created, seed := 0, budget := min a.budget a.cap, dd := none, atoms := [],
                         root := a.root, lastLoad := 0xFFFFFFFF, collSeq := 0, early := [], outbox := [], image := none, gang := none }
    allotKey a.keyId { s1 with contexts := Assoc.put a.asid c s1.contexts, gens := Assoc.put a.asid g s1.gens }) s

/-- A region with every record of a context withdrawn, and the context not resident (R450 step 1). -/
def Region.without (asid : Nat) (R : Region) : Region :=
  let keep (x : Record) : Bool := decide (x.asid ≠ asid)
  let drop := (R.pending.map (fun x => decide (x.asid = asid))).getD false
  { R with levels := R.levels.map (fun (q : Nat × List Record) => (q.1, q.2.filter keep)),
           pending := if drop then none else R.pending, scrubDue := R.scrubDue && !drop, colJob := if drop then none else R.colJob,
           resident := if R.resident = some asid then none else R.resident,
           graph := (R.graph.filter (fun g => keep g.rcd)).map (fun g => { g with heldNodes := g.heldNodes.filter (fun q => keep q.2),
                                                                                  heldTasks := g.heldTasks.filter (fun q => keep q.2) }) }
/-- A function with every queue of a context unbound (R450 step 2). -/
def Func.unbind (asid : Nat) (F : Func) : Func :=
  { F with queues := F.queues.map (fun (q : Nat × Queue) => (q.1, if q.2.ctx.any (fun p => p.1 == asid) then { q.2 with ctx := none } else q.2)) }
/-- A key slot is zeroed and freed: what it sealed is unreadable, and the tiles are fresh for whoever comes next (R386, R450 step 6). [DEDUCED, log 45] -/
def freeKeySlot (key : Nat) (s : State) : State :=
  let l := tilesOf s key
  let s1 := l.foldl (fun s q => freshMeta q.2 (dropHeld q.2 s)) s
  { s1 with leaving := s1.leaving.map (fun (q : Nat × Context × Bool) => (q.1, q.2.1, q.2.2 && decide (q.2.1.keyId ≠ key))),
            keys := Assoc.erase key s1.keys, rekeys := s1.rekeys.filter (fun k => k ≠ key), places := s1.places.filter (fun (q : Nat × Place) => q.2.owner ≠ key),
            tmem := l.foldl (fun m q => VMem.wipe (q.1 * 4096) ((q.1 + 1) * 4096) m) s1.tmem }
/-- The states in which a context may be removed (R450). -/
def removable (c : Context) : Bool := c.st == .created || c.st == .preempted || c.st == .stopped || c.st == .damaged
/-- The regions in which a context is resident, with the context that leaves them. [DEDUCED, log 43] -/
def leavesOf (c : Context) (s : State) : Assoc (Context × Bool) :=
  (s.regions.filter (fun (q : Nat × Region) => decide (q.2.resident = some c.attr.asid))).foldl (fun l q => Assoc.put q.1 (c, true) l) s.leaving
/-- A context is removed (R450); what it left outside its region is scrubbed with the region (R406), and a level without
a selectable record counts its starvation anew (R293). [DEDUCED, log 43] -/
def removed (c : Context) (s : State) : State :=
  let a := c.attr.asid
  let s1 := { s with
    leaving := leavesOf c s,
    regions := s.regions.map (fun (q : Nat × Region) => (q.1, q.2.without a)),
    funcs := s.funcs.map (fun (q : Nat × Func) => (q.1, q.2.unbind a)),
    faults := s.faults.filter (fun e => e.asid ≠ a),
    contexts := Assoc.erase a s.contexts,
    gangs := s.gangs.filter (fun (q : Nat × Gang) => q.2.asid ≠ a) }
  let s2 := s1.regions.foldl (fun s (q : Nat × Region) => recount q.1 s) s1
  if s1.contexts.any (fun (q : Nat × Context) => q.2.keyId = c.keyId) then s2 else freeKeySlot c.keyId s2
/-- REMOVE_CONTEXT: admin opcode 4 (R449, R450). [DEDUCED, log 43] -/
def execRemoveContext (x : AdminSrc) (asid : Nat) (s : State) : Host.Outcome State Fault Refusal :=
  adminStep x (!(Assoc.find asid s.contexts).any removable) (fun s =>
    match Assoc.find asid s.contexts with
    | some c => removed c s
    | none => s) s

/-- BIND_QUEUE: admin opcode 5; refused where the function does not own the context (R443, R449). With it the physical function registers the
function's host aperture, where it names one. [DEDUCED, log 47] -/
def execBindQueue (x : AdminSrc) (f q : Nat) (a : BindArgs) (s : State) : Host.Outcome State Fault Refusal :=
  adminStep x (!isQueue f q || !(Assoc.find a.asid s.contexts).any (fun c => decide (c.attr.func = f))) (fun s =>
    let s1 := match a.aperture with
              | some p => s.setFunc f { s.func f with aperture := some p }
              | none => s
    s1.modQueue f q (fun Q => { Q with ctx := (Assoc.find a.asid s.contexts).map (fun c => (a.asid, c.gen)) })) s

/-- SET_SECOND_STAGE_ROOT: admin opcode 6, for the contexts of a virtual function; only the physical function may ask (R322, R413, R449). [DEDUCED, log 46] -/
def execSetSecondStageRoot (x : AdminSrc) (f root : Nat) (s : State) : Host.Outcome State Fault Refusal :=
  adminStep x (x == .firmware || f == 0 || decide (512 < f) || decide (2 ^ 34 ≤ root)) (fun s =>
    { s with contexts := s.contexts.map (fun (q : Nat × Context) => (q.1, if q.2.attr.func = f then { q.2 with root := root } else q.2)) }) s

/-- SECOND_STAGE_INVALIDATE: admin opcode 7: every cache drops the function's second-stage entries, and then the entry is done (R342, R449). -/
def execSecondStageInvalidate (x : AdminSrc) (f : Nat) (s : State) : Host.Outcome State Fault Refusal :=
  adminStep x false (fun s => { s with
    tlb2 := s.tlb2.filter (fun e => !(Assoc.find e.asid s.contexts).any (fun c => decide (c.attr.func = f))) }) s

/-- The record of a host's order to stop (R421). -/
def hostStopRec : StopRec := recOf 0x1B 12 0
/-- STOP_CONTEXT: admin opcode 8: the context's region halts; a pre-emption under way is abandoned (R416, R421, R430, R449). -/
def execStopContext (x : AdminSrc) (asid : Nat) (s : State) : Host.Outcome State Fault Refusal :=
  adminStep x (!(Assoc.find asid s.contexts).any (fun c => c.st == .resident || c.st == .preempting)) (fun s =>
    match Assoc.find asid s.contexts with
    | some c => raise c.attr.region hostStopRec s
    | none => s) s

/-- PREEMPT_CONTEXT: admin opcode 9: the graph that the context runs is pre-empted, or migrated; where it runs none, or its record is in
colophon wait, nothing happens here; a gang's other members are told in any case (R428, R430, R449, R458). -/
def execPreemptContext (x : AdminSrc) (asid : Nat) (migrate : Bool) (s : State) : Host.Outcome State Fault Refusal :=
  adminStep x (!(Assoc.find asid s.contexts).any (fun c => c.st == .resident)) (fun s =>
    match Assoc.find asid s.contexts with
    | none => s
    | some c =>
      let R := s.region c.attr.region
      if R.resident = some asid && R.graph.any (fun g => g.rcd.st == .running) && R.colJob.isNone && R.preempt.isNone && !R.halt then startPreempt c.attr.region migrate c s
      else tellPeers c 5 s) s

/-- The public attestation key: x and y, each as 48 bytes, the most significant first. [DEDUCED, log 46] -/
def publicKey (s : State) : List Byte :=
  let q := publicPoint s.attest
  (bytesBE 48 q.1 ++ bytesBE 48 q.2).map (BitVec.ofNat 8)
/-- READ_CERTIFICATE_CHAIN: admin opcode 10: the public attestation key and its certificate chain are returned through the management interface
(R409, R449). [DEDUCED, log 46] -/
def execReadCertificateChain (x : AdminSrc) (s : State) : Host.Outcome State Fault Refusal :=
  adminStep x false (fun s =>
    { s with notices := s.notices ++ [.certificates (publicKey s) (Config.certificateChain (publicPoint s.attest))] }) s

/-! ### Budgets and the module (R448, R451) -/

/-- BUDGET_REFILL: a context receives its refill, up to its cap (R448). [DEDUCED, log 32] -/
def execBudgetRefill (asid : Nat) (s : State) : Host.Outcome State Fault Refusal :=
  nx (s.modCtx asid (fun c => { c with budget := min c.attr.cap (c.budget + c.attr.refill) }))
/-- THERMAL_THROTTLE: the arithmetic clock is lowered; no result changes (R451). -/
def execThermalThrottle (s : State) : Host.Outcome State Fault Refusal := nx { s with throttled := true }

/-- A free byte that is not zero: what the exclusive or with a changed byte is. -/
def freeChange (n : Nat) : Byte := BitVec.ofNat 8 (1 + Config.freeNat n % 255)
/-- Something outside the package changes eight stored bytes of a tier tile; a fresh tile has none (R390, R398). [DESIGN CHOICE, log 38; DEDUCED, log 41] -/
def spoilTile (word : Nat) (s : State) : State :=
  let ptn := word / 512
  if (metaOf s ptn).z then s
  else
    { s with fresh := s.fresh + 8,
             spoilt := (List.range 8).foldl (fun m i => Assoc.set 0 (8 * word + i) (Assoc.get 0 (8 * word + i) m ^^^ freeChange (s.fresh + i)) m) s.spoilt }
/-- Something outside the package changes an entry of a stored metadata tile: its version and its tag (R391, R398). [DESIGN CHOICE, log 38; DEDUCED, log 41] -/
def spoilMeta (level m : Nat) (s : State) : State :=
  match Assoc.find (metaKey level m) s.metas with
  | none => s
  | some t =>
    let j := Config.freeNat s.fresh % 256
    let e := t.entry j
    let y := Config.freeNat (s.fresh + 1)
    let e1 : Meta := { e with version := Nat.xor e.version (y % 2 ^ 56), tag := e.tag ^^^ BitVec.ofNat 64 (1 + Config.freeNat (s.fresh + 2) % (2 ^ 64 - 1)) }
    { s with fresh := s.fresh + 3, metas := Assoc.put (metaKey level m) { t with entries := Assoc.put j e1 t.entries } s.metas }
/-- A bit error at a site, unless it has one. -/
def strike (site : ErrorSite) (s : State) : State :=
  { s with errors := if s.errors.any (fun e => e.toErrorSite == site) then s.errors else { site with wrote := 0 } :: s.errors }
/-- SOFT_ERROR: a bit error arises. In a switch's FIFO the site names the entry and the place from the head; one in a free word has no effect, since
the next beat overwrites it. In a protected word it waits for the word to be read. In tier memory (code 13) `unit` says what it strikes:
0 a word, within reach of the memory's own code or not; 1 a stored word past that code; 2 to 4 a stored metadata tile of level 0 to 2 (R175, R207, R234, R280, R396, R398). [DEDUCED, log 41] -/
def execSoftError (site : ErrorSite) (s : State) : Host.Outcome State Fault Refusal :=
  if site.code = 13 ∧ site.unit = 1 then nx (spoilTile site.key s)
  else if site.code = 13 ∧ 2 ≤ site.unit then
    (if site.unit ≤ 4 then nx (spoilMeta (site.unit - 2) site.key s) else nx s)
  else if site.code = 3 && !((s.core site.r site.unit).phase.any (fun w => decide (phaseKey w.sp w.addr = site.key))) then nx s
  else if site.code = 12 && (Assoc.find (site.key / 512) s.held).isNone then nx s
  else if site.code = 4 then
    match Assoc.find (arcKey site.unit (site.key / 2 ^ 48)) (s.region site.r).arcs with
    | some a => if site.key % 2 ^ 48 < a.fifo.length then nx (strike { site with key := site.key + a.out } s) else nx s
    | none => nx s
  else nx (strike site s)

/-- EXPANDER_LINK_FAILURE: the link to a tier-2 expander fails (R451). -/
def execExpanderLinkFailure (port : Nat) (s : State) : Host.Outcome State Fault Refusal :=
  if port < 8 && !s.expandersDown.contains port then nx { s with expandersDown := port :: s.expandersDown } else nx s

end Sys2Proof.Machine
end

