-- ==== Sys2Proof/Machine/Branch.lean ====
section
/-! DEFINITION. Branches (R103, R104). -/

namespace Sys2Proof.Machine

/-- The target of a branch: `pc + sext(disp)` (R35). -/
def branchTarget (pc : Word) (disp : Imm) : Int := (pc.toNat : Int) + disp.toInt
/-- A word index outside a compute core's instruction store (R45). -/
def pcBad (i : Int) : Bool := decide (i < 0) || decide (2047 < i)
/-- Go on at `i`, after `f`: on a compute core an index outside the store is ILLEGAL, with the index in the stop record (R45,
R104); on a control core any index is taken and the fetch is what fails. -/
def jumpTo (i : Int) (f : Slot → Slot) (s : State) : State :=
  if !isCtl s.cur.unit && pcBad i then failIllegal (addrWord i) s
  else s.modHere (fun sl => (f sl).goto (addrWord i))
/-- Take a branch. -/
def takeBranch (disp : Imm) (f : Slot → Slot) (s : State) : State := jumpTo (branchTarget s.here.pc disp) f s

/-- BR: branches where the register is not zero (R103). -/
def execBr (g : Guard) (c : Src) (disp : Imm) (s : State) : Host.Outcome State Fault Refusal :=
  issue g [c] [] (fun s => if rv s c ≠ 0 then takeBranch disp id s else retire id s) s

/-- JMP (R103). -/
def execJmp (g : Guard) (disp : Imm) (s : State) : Host.Outcome State Fault Refusal :=
  issue g [] [] (fun s => takeBranch disp id s) s

/-- CALL: the link register receives `pc + 1` (R103); on a compute core a return index of 2,048 is ILLEGAL (R104). [DESIGN CHOICE, log 65] -/
def execCall (g : Guard) (l : Reg) (disp : Imm) (s : State) : Host.Outcome State Fault Refusal :=
  issue g [] [l] (fun s =>
    let ret := s.here.pc + 1
    if !isCtl s.cur.unit && pcBad ret.toNat then failIllegal ret s
    else takeBranch disp (fun sl => sl.wr l ret) s) s

/-- LOOP: counts the register down and branches where the new value is not zero (R103). -/
def execLoop (g : Guard) (c : Src) (disp : Imm) (s : State) : Host.Outcome State Fault Refusal :=
  issue g [c] [c.r] (fun s =>
    let v := rv s c - 1
    if v ≠ 0 then takeBranch disp (fun sl => sl.wr c.r v) s else done c.r v s) s

end Sys2Proof.Machine
end

