-- ==== Sys2Proof/Machine/Coll.lean ====
section
/-! DEFINITION. Collectives (R461 to R471): COLL, what a member sends, combines and writes, and the beats that arrive from its peers. -/

namespace Sys2Proof.Machine

/-! ### Descriptors (R462, R463) -/

/-- src. -/
def collSrc (d : Nat) : Nat := bits d 127 0
/-- dst. -/
def collDst (d : Nat) : Nat := bits d 255 128
/-- n. -/
def collN (d : Nat) : Nat := bits d 287 256
/-- fmt. -/
def collFmt (d : Nat) : Fmt := fmtOf (bits d 291 288)
/-- wfmt. -/
def collWfmt (d : Nat) : Fmt := fmtOf (bits d 295 292)
/-- rnd. -/
def collRnd (d : Nat) : Rnd := rndOf (bits d 298 296)
/-- sat. -/
def collSat (d : Nat) : Bool := bit d 299
/-- root. -/
def collRoot (d : Nat) : Nat := bits d 315 304
/-- The accumulation format: FP32 or INT32 (R462). -/
def collAcc (d : Nat) : Fmt := if fmtInt (collFmt d) then .int32 else .fp32

/-- The gang of a context: its size, this member's rank, the ranks' domain ranks; a gang of one without a gang (R457). -/
structure Team where
  size : Nat
  rank : Nat
deriving DecidableEq, Repr

/-- A context's gang (R457). -/
def teamOf (s : State) (c : Context) : Team :=
  match c.gang.bind (fun g => Assoc.find g s.gangs) with
  | some G => { size := G.size, rank := G.rank }
  | none => { size := 1, rank := 0 }

/-- The elements of the source side that this member uses; 0 where it uses none (R462). -/
def srcCount (op : CollOp) (m : Team) (d : Nat) : Nat :=
  match op with
  | .scatter => if m.rank = collRoot d then m.size * collN d else 0
  | _ => collN d
/-- The elements of the destination side that this member uses. -/
def dstCount (op : CollOp) (m : Team) (d : Nat) : Nat :=
  match op with
  | .allReduce | .scatter => collN d
  | .reduce => if m.rank = collRoot d then collN d else 0
  | .gather => if m.rank = collRoot d then m.size * collN d else 0

/-- Gather and scatter. -/
def CollOp.moves (op : CollOp) : Bool := op == .gather || op == .scatter
/-- A field of a descriptor breaks R463. -/
def collBad (op : CollOp) (m : Team) (d : Nat) : Bool :=
  bits d 511 320 ≠ 0 || bits d 319 316 ≠ 0 || bit d 303 || decide (2 < bits d 302 300) || decide (5 < bits d 298 296)
    || decide (m.size ≤ collRoot d) || collN d == 0 || decide (2 ^ 24 < collN d)
    || collFmt d == .fp64 || collWfmt d == .fp64 || fmtInt (collFmt d) != fmtInt (collWfmt d)
    || (op.moves && (decide (collWfmt d ≠ collFmt d) || decide (bits d 302 296 ≠ 0)))
/-- A used side breaks the side checks of R332. -/
def collSideBad (R : Region) (f : Fmt) (x n : Nat) (tn : Option Tensor) : Bool :=
  match tn with
  | some t => tensorSideBad t f x (n, 1, 1) true
  | none => scratchSideBad R x (fmtBits f) (n, 1, 1)
/-- Two used sides overlap without being the same range (R463). -/
def collMeet (f : Fmt) (a n b m : Nat) : Bool :=
  if n = 0 ∨ m = 0 then false
  else if sideScratch a ∧ sideScratch b then
    let p := sideBit a (fmtBits f) (0, 0, 0) / 8
    let q := sideBit b (fmtBits f) (0, 0, 0) / 8
    decide (sideCl a = sideCl b) && meets p (n * fmtBits f / 8) q (m * fmtBits f / 8) && (p != q || n != m)
  else if sideScratch a ∨ sideScratch b then false
  else
    let l := (List.range n).map (fun i => sideCoords a (i, 0, 0))
    let k := (List.range m).map (fun i => sideCoords b (i, 0, 0))
    decide (sideTid a = sideTid b) && l.any k.contains && l != k

/-! ### Records (R471) -/

/-- The stop record of a COLL at issue: its position is the sequence number it would take. [DEDUCED, log 55] -/
def collIssueRec (cause : Nat) (address word d1 : Word) (s : State) : StopRec :=
  { recOf cause 9 s.cur.unit with sub := s.cur.slot, address := address, d0 := word, d1 := d1,
                                  position := toWord (((s.ctxOf s.hereR).map (fun c => c.collSeq)).getD 0) }

/-- The stop record of a COLL in flight. -/
def collRec (cause : Nat) (x : Coll) (d1 : Word) : StopRec :=
  { recOf cause 9 x.unit with sub := x.slot, position := toWord x.seq, address := toWord x.off, d0 := x.word, d1 := d1 }
/-- Go on with an access of the collective engine: it takes no translation fault (R327); tried again while the tile is moved. -/
def collAccess {α : Type} (r : Nat) (x : Coll) (tid : Nat) (write : Bool) (k : α → State → State) (s : State) (res : XRes α) : State :=
  let own (y : StopRec) : StopRec := { y with kind := 9, unit := x.unit, sub := x.slot, position := toWord x.seq }
  match res with
  | .ok v s1 => k v s1
  | .miss st s1 => raise r (own (abortRec tid 0 st write)) s1
  | .wait _ => s
  | .fail y s1 => raise r (own (forTensor tid y.address.toNat write y)) s1

/-! ### Elements of a side -/

/-- The tensor of a used side; none for a scratchpad side or an unused one. -/
def collTensor (c : Context) (r x n : Nat) (s : State) : XRes (Option Tensor) :=
  if n = 0 then .ok none s else sideTensor c r x s
/-- Element `i` of a side, as it stands now (R468). -/
def readElem (c : Context) (r : Nat) (f : Fmt) (x i : Nat) (s : State) : XRes Nat :=
  let w := fmtBits f
  if sideScratch x then
    let b := sideBit x w (i, 0, 0)
    .ok (elemAt w (b / 8) (s.sRead r (sideCl x) (b / 8) ((b % 8 + w + 7) / 8)) b) s
  else
    (tensorFor c r (sideTid x) s).bind (fun tn s1 =>
      let j := sideCoords x (i, 0, 0)
      (tensorRead c r [] (sideTid x) tn (tn.tile j) [tn.elem j * w] s1).bind (fun l s2 => .ok (l.headD 0) s2))
/-- The first `n` elements of a side from element `i` on. [DEDUCED, log 55] -/
def readElems (c : Context) (r : Nat) (f : Fmt) (x : Nat) : Nat → Nat → State → XRes (List Nat)
  | 0, _, s => .ok [] s
  | n + 1, i, s => (readElem c r f x i s).bind (fun v s1 => (readElems c r f x n (i + 1) s1).bind (fun t s2 => .ok (v :: t) s2))
/-- Write element `i` of a side: a write of the resident load, for the graph's other nodes (R300). -/
def writeElem (c : Context) (r : Nat) (f : Fmt) (x i v : Nat) (s : State) : XRes Unit :=
  let w := fmtBits f
  if sideScratch x then
    let cl := sideCl x
    let bs := laidBytes w (fun o => s.smem.read (sKey r cl o)) [(sideBit x w (i, 0, 0), v)]
    .ok () (s.sWriteEach r cl bs (wholeWords bs))
  else
    (tensorFor c r (sideTid x) s).bind (fun tn s1 =>
      let j := sideCoords x (i, 0, 0)
      if tileHeld c r (sideTid x) (tn.tile j) s1 then .wait s1
      else tensorWrite c r [] (sideTid x) tn (tn.tile j) [(tn.elem j * w, v)] s1)
/-- Write elements of a side. -/
def writeElems (c : Context) (r : Nat) (f : Fmt) (x : Nat) : List (Nat × Nat) → State → XRes Unit
  | [], s => .ok () s
  | e :: t, s => (writeElem c r f x e.1 e.2 s).bind (fun _ s1 => writeElems c r f x t s1)

/-! ### Roundings (R463) -/

/-- `wide`: a code of a format held exactly in the accumulation format. [DEDUCED, log 55] -/
def collWide (d : Nat) (f : Fmt) (x : Nat) : Nat × Flg := if f = collAcc d then (x, flNone) else convert (collAcc d) f .rne false 0 x
/-- `comb`: a sum rounded to nearest, integers clamped; or R65's maximumNumber or minimumNumber. [DEDUCED, log 55] -/
def collComb (d a x : Nat) : Nat × Flg :=
  let A := collAcc d
  match bits d 302 300 with
  | 0 =>
    let p := numSum [decodeNum A a, decodeNum A x]
    let q := encodeNum A (fmtInt A) .rne (fmtInt A) 0 p.1
    (q.1, p.2 ||| q.2)
  | 1 => minMaxCode A true true a x
  | _ => minMaxCode A false true a x
/-- A rounding from the accumulation format to `f` at package rank `r`, step `st`, element `i` (R60, R463). -/
def collRound (d : Nat) (f : Fmt) (seed : Word) (r st i a : Nat) : Nat × Flg :=
  if f = collAcc d then (a, flNone)
  else convert f (collAcc d) (collRnd d) (collSat d) (mixTop (mix seed (toWord r) (toWord st) (toWord i))) a

/-! ### What a member does (R464 to R466) -/

/-- A member in the midst of a collective: the collective, what it has to write, and the beats it sends. -/
structure CollWork where
  x : Coll
  writes : List (Nat × Nat)
  out : List (Nat × CollMsg)
deriving DecidableEq, Repr

/-- What a descriptor says that must agree at every member (R463). [DEDUCED, log 55] -/
def collTerms (x : Coll) : Nat :=
  let d := x.desc.toNat
  let o := match x.op with
           | .reduce => 0
           | .allReduce => 1
           | .gather => 2
           | .scatter => 3
  o + b2n x.tree * 2 ^ 2 + bits d 315 256 * 2 ^ 3
/-- Raise flags. -/
def CollWork.flag (fl : Flg) (w : CollWork) : CollWork := { w with x := { w.x with flags := w.x.flags ||| fl } }
/-- Send a beat. -/
def CollWork.send (m : Team) (dest step elem val : Nat) (fin : Bool) (w : CollWork) : CollWork :=
  { w with out := w.out ++ [(dest, { seq := w.x.seq, terms := collTerms w.x, src := m.rank, step := step, elem := elem, val := toWord val,
                                     fin := fin, head := false })] }
/-- Tell every other member what this one's descriptor says, so that each sees whether all agree (R463). [DEDUCED, log 55] -/
def CollWork.tell (m : Team) (w : CollWork) : CollWork :=
  { w with out := w.out ++ ((List.range m.size).filter (fun k => decide (k ≠ m.rank))).map (fun k =>
      (k, { seq := w.x.seq, terms := collTerms w.x, src := m.rank, step := 0, elem := 0, val := 0, fin := false, head := true })) }
/-- Write a destination element. -/
def CollWork.write (i v : Nat) (w : CollWork) : CollWork := { w with writes := w.writes ++ [(i, v)], x := { w.x with written := w.x.written + 1 } }
/-- This member's part of element `i` is over. -/
def CollWork.over (i : Nat) (w : CollWork) : CollWork := { w with x := { w.x with done := i :: w.x.done } }
/-- The next rank round the ring. -/
def Team.next (m : Team) : Nat := (m.rank + 1) % m.size
/-- How far rank `b` stands after rank `a` round the ring. -/
def ringDist (m : Team) (a b : Nat) : Nat := (b + m.size - a) % m.size
/-- The chunk of element `i` (R464). -/
def ringChunk (m : Team) (d i : Nat) : Nat := i / ceilDiv (collN d) m.size

/-- The finished value of element `i` at this member of a ring: written, sent on, or both (R464). -/
def ringFinal (m : Team) (i v : Nat) (w : CollWork) : CollWork :=
  let d := w.x.desc.toNat
  let c := ringChunk m d i
  match w.x.op with
  | .allReduce =>
    let w1 := w.write i v
    (if m.next = c then w1 else w1.send m m.next 0 i v true).over i
  | _ => (if m.rank = collRoot d then w.write i v else w.send m m.next 0 i v true).over i
/-- The partial `a` of element `i` leaves this member at step `st`, or is final at its owner (R464). [DEDUCED, log 55] -/
def ringPass (m : Team) (seed : Word) (i st a : Nat) (w : CollWork) : CollWork :=
  let d := w.x.desc.toNat
  let c := ringChunk m d i
  if st = m.size - 1 then
    let q := collRound d (collFmt d) seed c (m.size - 1) i a
    ringFinal m i q.1 (w.flag q.2)
  else
    let q := collRound d (collWfmt d) seed m.rank st i a
    let w1 := (w.flag q.2).send m m.next st i q.1 false
    let due := w.x.op == .allReduce || decide (ringDist m c m.rank ≤ ringDist m c (collRoot d))
    if due then w1 else w1.over i
/-- Element `i` at the start of a ring: the first of its chunk's ring sends. -/
def ringStart (m : Team) (seed : Word) (w : CollWork) (i : Nat) : CollWork :=
  let d := w.x.desc.toNat
  if (ringChunk m d i + 1) % m.size = m.rank then
    let a := collWide d (collFmt d) (w.x.src.getD i 0)
    ringPass m seed i 0 a.1 (w.flag a.2)
  else w
/-- A beat of a ring arrives (R464). -/
def ringTake (m : Team) (seed : Word) (b : CollMsg) (w : CollWork) : CollWork :=
  let d := w.x.desc.toNat
  if b.fin then ringFinal m b.elem b.val.toNat w
  else
    let a := collWide d (collWfmt d) b.val.toNat
    let x := collWide d (collFmt d) (w.x.src.getD b.elem 0)
    let q := collComb d a.1 x.1
    ringPass m seed b.elem (b.step + 1) q.1 (w.flag (a.2 ||| x.2 ||| q.2))

/-- The place of this member in the tree. -/
def treeV (m : Team) (d : Nat) : Nat := (m.rank + m.size - collRoot d % m.size) % m.size
/-- The rank of place `v`. -/
def treeRank (m : Team) (d v : Nat) : Nat := (v + collRoot d) % m.size
/-- T = ceil(log2 N). -/
def treeSteps (m : Team) : Nat := if m.size ≤ 1 then 0 else Nat.log2 (m.size - 1) + 1
/-- The finished value of element `i` at this member of a tree: written where due, and sent down (R465). -/
def treeFinal (m : Team) (i v : Nat) (w : CollWork) : CollWork :=
  let d := w.x.desc.toNat
  let p := treeV m d
  match w.x.op with
  | .allReduce =>
    let ks := (List.range (treeSteps m)).filter (fun s => decide (p % 2 ^ (s + 1) = 0) && decide (p + 2 ^ s < m.size))
    (ks.foldl (fun w s => w.send m (treeRank m d (p + 2 ^ s)) s i v true) (w.write i v)).over i
  | _ => (w.write i v).over i
/-- Element `i` advances through the steps of the tree as far as its beats allow (R465). [DEDUCED, log 55] -/
def treeGo (m : Team) (seed : Word) (i : Nat) : Nat → CollWork → CollWork
  | 0, w => w
  | n + 1, w =>
    let d := w.x.desc.toNat
    let p := treeV m d
    let s := Assoc.get 0 i w.x.steps
    let a := Assoc.get 0 i w.x.acc
    if treeSteps m ≤ s then
      let q := collRound d (collFmt d) seed (collRoot d) (treeSteps m) i a
      treeFinal m i q.1 (w.flag q.2)
    else if p % 2 ^ (s + 1) = 2 ^ s then
      let q := collRound d (collWfmt d) seed m.rank s i a
      let w1 := (w.flag q.2).send m (treeRank m d (p - 2 ^ s)) s i q.1 false
      if w.x.op = .allReduce then w1 else w1.over i
    else if p + 2 ^ s < m.size then
      match w.x.inbox.find? (fun b => !b.fin && decide (b.elem = i) && decide (b.step = s)) with
      | none => w
      | some b =>
        let y := collWide d (collWfmt d) b.val.toNat
        let q := collComb d a y.1
        treeGo m seed i n ({ w with x := { w.x with inbox := w.x.inbox.erase b, acc := Assoc.put i q.1 w.x.acc,
                                                    steps := Assoc.put i (s + 1) w.x.steps } }.flag (y.2 ||| q.2))
    else treeGo m seed i n { w with x := { w.x with steps := Assoc.put i (s + 1) w.x.steps } }
/-- Element `i` at the start of a tree. -/
def treeStart (m : Team) (seed : Word) (w : CollWork) (i : Nat) : CollWork :=
  let d := w.x.desc.toNat
  let a := collWide d (collFmt d) (w.x.src.getD i 0)
  treeGo m seed i (treeSteps m + 1) ({ w with x := { w.x with acc := Assoc.put i a.1 w.x.acc, steps := Assoc.put i 0 w.x.steps } }.flag a.2)
/-- A beat of a tree arrives. -/
def treeTake (m : Team) (seed : Word) (b : CollMsg) (w : CollWork) : CollWork :=
  if b.fin then treeFinal m b.elem b.val.toNat w
  else treeGo m seed b.elem (treeSteps m + 1) { w with x := { w.x with inbox := w.x.inbox ++ [b] } }

/-- Element `i` at the start of a gather or scatter (R466): at the root its own block is written; the others send or wait. -/
def moveStart (m : Team) (w : CollWork) (i : Nat) : CollWork :=
  let d := w.x.desc.toNat
  let n := collN d
  match w.x.op with
  | .gather =>
    if m.rank = collRoot d then (w.write (m.rank * n + i) (w.x.src.getD i 0)).over (m.rank * n + i)
    else (w.send m (collRoot d) 0 i (w.x.src.getD i 0) false).over i
  | _ =>
    if m.rank = collRoot d then
      let w1 := ((List.range m.size).filter (fun r => decide (r ≠ m.rank))).foldl
        (fun w r => w.send m r 0 i (w.x.src.getD (r * n + i) 0) false) w
      (w1.write i (w.x.src.getD (m.rank * n + i) 0)).over i
    else w
/-- A beat of a gather or scatter arrives. -/
def moveTake (b : CollMsg) (w : CollWork) : CollWork :=
  match w.x.op with
  | .gather =>
    let i := b.src * collN w.x.desc.toNat + b.elem
    (w.write i b.val.toNat).over i
  | _ => (w.write b.elem b.val.toNat).over b.elem

/-- The elements whose parts a member has to finish. -/
def collParts (m : Team) (x : Coll) : Nat :=
  let d := x.desc.toNat
  if x.op = .gather ∧ m.rank = collRoot d then m.size * collN d else collN d
/-- A member begins. [DEDUCED, log 55] -/
def collBegin (m : Team) (seed : Word) (w : CollWork) : CollWork :=
  let l := List.range (collN w.x.desc.toNat)
  if w.x.op.moves then l.foldl (moveStart m) w else if w.x.tree then l.foldl (treeStart m seed) w else l.foldl (ringStart m seed) w
/-- A member takes a beat; one that carries terms alone, which agree, counts its sender among those that agree. -/
def collTake (m : Team) (seed : Word) (w : CollWork) (b : CollMsg) : CollWork :=
  if b.head then { w with x := { w.x with heads := if w.x.heads.contains b.src then w.x.heads else b.src :: w.x.heads } }
  else if w.x.op.moves then moveTake b w else if w.x.tree then treeTake m seed b w else ringTake m seed b w

/-! ### The course of a context's collectives (R463, R467) -/

/-- Put a collective back. -/
def setColl (r : Nat) (x : Coll) (s : State) : State :=
  s.modRegion r (fun R => { R with colls := R.colls.map (fun y => if y.id = x.id then x else y) })
/-- A collective is over at this member: its status and flags land (R467). -/
def endColl (r : Nat) (x : Coll) (s : State) : State :=
  let s1 := s.modRegion r (fun R => { R with colls := R.colls.filter (fun y => y.id ≠ x.id) })
  match (s1.core r x.unit).producers.find? (fun p => decide (p.id = x.id)) with
  | some p => complete r x.unit p [toWord (x.written * 2 ^ 32 + x.flags.toNat)] x.flags s1
  | none => s1
/-- A member's work is done in memory and on the links; after its last element, and once every member's descriptor is known to agree, it ends. -/
def commitColl (r : Nat) (c : Context) (m : Team) (w : CollWork) (s : State) : State :=
  let d := w.x.desc.toNat
  collAccess r w.x (sideTid (collDst d)) true (fun _ s1 =>
    let s2 := (setColl r w.x s1).modCtx c.attr.asid (fun c => { c with outbox := c.outbox ++ w.out })
    if w.x.done.length < collParts m w.x ∨ w.x.heads.length + 1 < m.size then s2 else endColl r w.x s2) s
    (writeElems c r (collFmt d) (collDst d) w.writes s)

/-- A beat says that its sender's descriptor differs (R463). -/
def differs (x : Coll) : Bool := x.inbox.any (fun b => decide (b.terms ≠ collTerms x))

/-- The ranks with which this member exchanges elements: its neighbours round the ring, its parent and children in the tree, or the root and its
peers (R464 to R466). -/
def collPeers (m : Team) (x : Coll) : List Nat :=
  let d := x.desc.toNat
  let p := treeV m d
  let l := if x.op.moves then (if m.rank = collRoot d then List.range m.size else [collRoot d])
           else if x.tree then
             (List.range (treeSteps m)).flatMap (fun st => if p % 2 ^ (st + 1) = 2 ^ st then [treeRank m d (p - 2 ^ st)]
                                                          else if p % 2 ^ (st + 1) = 0 ∧ p + 2 ^ st < m.size then [treeRank m d (p + 2 ^ st)] else [])
           else [m.next, (m.rank + m.size - 1) % m.size]
  l.filter (fun k => decide (k ≠ m.rank))
/-- A rank with which the collective connects this member and to which no path is left: its domain rank, and the port of the link that failed
(R470). [DEDUCED, log 56] -/
def cutOff (s : State) (c : Context) (x : Coll) : Option (Nat × Nat) :=
  match c.gang.bind (fun g => Assoc.find g s.gangs) with
  | some G => s.unreach.find? (fun q => (collPeers (teamOf s c) x).any (fun k => decide (G.domain k = q.1)))
  | none => none
/-- The record of LINK (R471). -/
def linkRec (x : Coll) (q : Nat × Nat) : StopRec := { collRec 0x20 x (toWord q.2) with address := 0, d0 := toWord q.1 }

/-- The collective begins, once every earlier one of the context has ended: its source is read (R468), the other members are told its terms, and
the beats that came early are taken. [DEDUCED, log 55] -/
def startColl (r : Nat) (c : Context) (x : Coll) (s : State) : State :=
  let m := teamOf s c
  let d := x.desc.toNat
  match cutOff s c x with
  | some q => raise r (linkRec x q) s
  | none =>
    collAccess r x (sideTid (collSrc d)) false (fun l s1 =>
      let seed := regionSeed r s1
      let w0 : CollWork := { x := { x with started := true, src := l, inbox := [] }, writes := [], out := [] }
      let w1 := x.inbox.foldl (collTake m seed) (collBegin m seed (w0.tell m))
      if differs x then raise r (collRec 0x03 x 1) s1 else commitColl r c m w1 s1) s
      (readElems c r (collFmt d) (collSrc d) (srcCount x.op m d) 0 s)
/-- The collective under way takes the beats that it has received and not consumed: those kept at a pre-emption or while a tile was moved (R469). -/
def drainColl (r : Nat) (c : Context) (x : Coll) (s : State) : State :=
  let m := teamOf s c
  if differs x then raise r (collRec 0x03 x 1) s
  else commitColl r c m (x.inbox.foldl (collTake m (regionSeed r s)) { x := { x with inbox := [] }, writes := [], out := [] }) s
/-- The context's collectives go on in turn, as far as their beats allow. -/
def goColls (r : Nat) (c : Context) : Nat → State → State
  | 0, s => s
  | n + 1, s =>
    let R := s.region r
    match R.colls with
    | x :: _ =>
      if R.halt || R.preempt.isSome then s
      else if !x.started then goColls r c n (startColl r c x s)
      else if x.inbox.isEmpty then s
      else goColls r c n (drainColl r c x s)
    | [] => s

/-- COLL is accepted: it takes a sequence number, a place in the engine, and the beats that came before it (R463, R469). [DEDUCED, log 55] -/
def sendColl (op : CollOp) (tree : Bool) (d : Reg) (off desc : Nat) (c : Context) (s : State) : State :=
  if 4 ≤ s.hereR.colls.length then park .colls s
  else
    let r := s.cur.region
    let x : Coll := { id := s.hereR.nextId, seq := c.collSeq, unit := s.cur.unit, slot := s.cur.slot, op := op, tree := tree,
                      desc := BitVec.ofNat 512 desc, off := off, word := curWord s, started := false, flags := 0, src := [], acc := [],
                      steps := [], done := [], written := 0, inbox := c.early.filter (fun b => decide (b.seq = c.collSeq)), heads := [] }
    let s1 := (launch [d] .coll s).modHereR (fun R => { R with colls := R.colls ++ [x] })
    let s2 := retire id (s1.modCtx c.attr.asid (fun c =>
      { c with collSeq := c.collSeq + 1, early := c.early.filter (fun b => decide (b.seq ≠ c.collSeq)) }))
    goColls r c 9 s2

/-- The checks of COLL, and its acceptance (R463). [DEDUCED, log 55] -/
def checkColl (op : CollOp) (tree : Bool) (d : Reg) (off desc : Nat) (c : Context) (s : State) : State :=
  let r := s.cur.region
  let R := s.hereR
  let m := teamOf s c
  let f := collFmt desc
  let bad (s : State) : State := raise r (collIssueRec 0x03 (toWord off) (curWord s) 0 s) s
  let here (x : StopRec) : StopRec := { x with kind := 9, unit := s.cur.unit, sub := s.cur.slot, position := toWord c.collSeq }
  let go (tid : Nat) (k : Option Tensor → State → State) (s : State) (res : XRes (Option Tensor)) : State :=
    match res with
    | .ok v s1 => k v s1
    | .miss st s1 => raise r (here (abortRec tid 0 st false)) s1
    | .wait _ => s
    | .fail y s1 => raise r (here (forTensor tid 0 false y)) s1
  let n := srcCount op m desc
  let k := dstCount op m desc
  if chkOn s R then raise r (collIssueRec 0x06 0 (curWord s) 0 s) s
  else if collBad op m desc then bad s
  else
    go (sideTid (collSrc desc)) (fun st s1 =>
      go (sideTid (collDst desc)) (fun dt s2 =>
        if (n ≠ 0 && collSideBad R f (collSrc desc) n st) || (k ≠ 0 && collSideBad R f (collDst desc) k dt)
            || collMeet f (collSrc desc) n (collDst desc) k then bad s2
        else sendColl op tree d off desc c s2) s1 (collTensor c r (collDst desc) k s1)) s (collTensor c r (collSrc desc) n s)

/-- A COLL with a descriptor (R463). -/
def collWord (op : CollOp) (tree : Bool) (g : Guard) (d : Reg) (a : Src) (s : State) : Host.Outcome State Fault Refusal :=
  issue g [a] [d] (fun s =>
    let off := (rv s a).toNat
    let r := s.cur.region
    if off % 64 ≠ 0 then raise r (collIssueRec 0x03 (rv s a) (curWord s) 0 s) s
    else if hereSeg s < off + 64 then raise r (collIssueRec 0x04 (rv s a) (curWord s) (toWord (hereSeg s)) s) s
    else
      match s.ctxOf s.hereR with
      | none => failSpace (rv s a) s
      | some c => withGRecord off 8 (fun desc s => checkColl op tree d off desc (Assoc.get c c.attr.asid s.contexts) s) s) s

/-- COLL.reduce.ring (R464). -/
def execCollReduceRing (g : Guard) (d : Reg) (a : Src) (s : State) : Host.Outcome State Fault Refusal := collWord .reduce false g d a s
/-- COLL.reduce.tree (R465). -/
def execCollReduceTree (g : Guard) (d : Reg) (a : Src) (s : State) : Host.Outcome State Fault Refusal := collWord .reduce true g d a s
/-- COLL.allreduce.ring (R464). -/
def execCollAllreduceRing (g : Guard) (d : Reg) (a : Src) (s : State) : Host.Outcome State Fault Refusal := collWord .allReduce false g d a s
/-- COLL.allreduce.tree (R465). -/
def execCollAllreduceTree (g : Guard) (d : Reg) (a : Src) (s : State) : Host.Outcome State Fault Refusal := collWord .allReduce true g d a s
/-- COLL.gather (R466). -/
def execCollGather (g : Guard) (d : Reg) (a : Src) (s : State) : Host.Outcome State Fault Refusal := collWord .gather false g d a s
/-- COLL.scatter (R466). -/
def execCollScatter (g : Guard) (d : Reg) (a : Src) (s : State) : Host.Outcome State Fault Refusal := collWord .scatter false g d a s
/-- COLL.rank: a long-latency producer of N × 2^16 + rank, without any transfer (R27, R461). -/
def execCollRank (g : Guard) (d : Reg) (s : State) : Host.Outcome State Fault Refusal :=
  issue g [] [d] (fun s =>
    let m := match s.ctxOf s.hereR with
             | some c => teamOf s c
             | none => { size := 1, rank := 0 }
    produce [d] (.value [toWord (m.size * 2 ^ 16 + m.rank)] flNone false) s) s

/-! ### Beats, flits and links (R464, R469, R470) -/

/-- A beat is kept with the context until the collective that it belongs to is there (R469). [DEDUCED, log 55] -/
def keepBeat (asid : Nat) (b : CollMsg) (s : State) : State := s.modCtx asid (fun c => { c with early := c.early ++ [b] })
/-- COLL_BEAT_ARRIVAL: a beat of a peer arrives for a collective that this member has accepted; it is kept while an earlier one is performed
or a pre-emption is under way, and otherwise combined and forwarded (R464 to R466, R469). A beat whose descriptor differs is SPACE (R463). A
beat of a collective that this member has not issued yet is kept until it is (R469), and so is one that comes while the context is pre-empted or
its record still waits for "go" (R459); a collective held up by a tile being moved tries again. [DEDUCED, log 55] -/
def execCollBeatArrival (asid : Nat) (b : CollMsg) (s : State) : Host.Outcome State Fault Refusal :=
  match Assoc.find asid s.contexts with
  | none => nx s
  | some c =>
    let r := c.attr.region
    let R := s.region r
    if c.st = .preempted then nx (keepBeat asid b s)
    else if R.resident ≠ some asid || R.halt then nx s
    else if R.graph.isNone then nx (keepBeat asid b s)
    else
      match R.colls.find? (fun x => decide (x.seq = b.seq)) with
      | none => nx (goColls r c 9 (if c.collSeq ≤ b.seq then keepBeat asid b s else s))
      | some x => nx (goColls r c 9 (setColl r { x with inbox := x.inbox ++ [b] } s))

/-- The collectives of a resumed context take the beats that were saved and those that came since, and go on (R469). -/
def resumeColls (r asid : Nat) (s : State) : State :=
  match Assoc.find asid s.contexts with
  | some c =>
    goColls r c 9 ((s.modRegion r (fun R => { R with colls := R.colls.map (fun x =>
        { x with inbox := x.inbox ++ c.early.filter (fun b => decide (b.seq = x.seq)) }) })).modCtx asid (fun c =>
      { c with early := c.early.filter (fun b => decide (c.collSeq ≤ b.seq)) }))
  | none => s

/-- The region of a context that is resident on it and not halted. -/
def residentRegion (s : State) (asid : Nat) : Option (Nat × Context) :=
  match Assoc.find asid s.contexts with
  | some c =>
    let R := s.region c.attr.region
    if R.resident = some asid ∧ R.halt = false then some (c.attr.region, c) else none
  | none => none
/-- LIFT_FLIT_ARRIVAL: a peer's lift flit arrives at a member being pre-empted; one that comes before its own pre-emption has begun is kept, and
one that comes after it is over has no effect (R469). -/
def execLiftFlitArrival (asid rank : Nat) (s : State) : Host.Outcome State Fault Refusal :=
  match residentRegion s asid with
  | none => nx s
  | some (r, c) =>
    let add (l : List Nat) : List Nat := if l.contains rank then l else rank :: l
    if c.st = .preempted then nx s
    else
    match (s.region r).preempt, c.gang with
    | some _, _ => nx (s.modRegion r (fun R => { R with preempt := R.preempt.map (fun p => { p with flits := add p.flits }) }))
    | none, some gid => nx (s.modGang gid (fun G => { G with lifts := add G.lifts }))
    | none, none => nx s

/-- LINK on region `r` where a collective in flight is cut off from a member that it connects. [DEDUCED, log 56] -/
def cutRegion (s : State) (r : Nat) : State :=
  match s.ctxOf (s.region r) with
  | none => s
  | some c =>
    match (s.region r).colls.findSome? (fun x => (cutOff s c x).map (fun q => (x, q))) with
    | some (x, q) => raise r (linkRec x q) s
    | none => s
/-- LINK_DOWN: the link at one of the 18 ports is taken down; the fabric re-routes, and where no path is left to the packages of domain ranks
`peers`, a collective that connects this member with one of them raises LINK, now or when it begins, and no slice starts (R14, R470, R471). [DEDUCED, log 56] -/
def execLinkDown (port : Nat) (peers : RankList) (s : State) : Host.Outcome State Fault Refusal :=
  if 18 ≤ port then nx s
  else
    let s1 := { s with linksDown := if s.linksDown.contains port then s.linksDown else port :: s.linksDown,
                       unreach := s.unreach ++ (peers.filter (fun k => !s.unreach.any (fun q => decide (q.1 = k)))).map (fun k => (k, port)) }
    nx ((s.regions.map (fun q => q.1)).foldl cutRegion s1)

end Sys2Proof.Machine
end

