-- ==== Sys2Proof/Machine/Gangs.lean ====
section
/-! DEFINITION. Gangs (R457 to R460): forming and dissolving one, starting a slice, giving it up, and a peer's stop. What is sent to the other
members stands in `Gang.sent`; what they send arrives as an event. -/

namespace Sys2Proof.Machine

/-! ### Forming and dissolving (R457) -/

/-- The grace period asked for; 0 is the default of 20 microseconds. [DEDUCED, log 54] -/
def graceOf (a : GangArgs) : Nat := if a.grace = 0 then 20 else a.grace
/-- The member on this package: its rank and ASID. -/
def localMember (s : State) (a : GangArgs) : Option (Nat × Nat) :=
  (a.members.zipIdx.find? (fun q => decide (q.1.1 = s.domainRank))).map (fun q => (q.2, q.1.2))
/-- The request is refused (R457): of the members' contexts a root controller sees its own package's. [DEDUCED, log 54] -/
def gangRefused (s : State) (a : GangArgs) : Bool :=
  a.size == 0 || decide (4096 < a.size) || decide (1000 < a.grace) || decide (a.members.length ≠ a.size)
    || a.members.any (fun q => decide (4096 ≤ q.1)) || decide ((a.members.map (fun q => q.1)).dedup.length ≠ a.size)
    || (Assoc.find a.gid s.gangs).isSome
    || (match localMember s a with
        | none => true
        | some q => match Assoc.find q.2 s.contexts with
                    | some c => c.gang.isSome
                    | none => true)
/-- A record of the context that was selected and has not started goes back to its level: it starts in a slice now (R459). [DEDUCED, log 54] -/
def recallPending (asid : Nat) (s : State) : State :=
  match Assoc.find asid s.contexts with
  | none => s
  | some c =>
    match (s.region c.attr.region).pending with
    | some x => if x.asid = asid then s.modRegion c.attr.region (Region.giveBack x) else s
    | none => s

/-- The starvation counts of the context's region where its records are no longer selectable: a level without a selectable record counts anew
(R293). -/
def recountOf (asid : Nat) (s : State) : State :=
  match Assoc.find asid s.contexts with
  | some c => recount c.attr.region s
  | none => s

/-- FORM_GANG: admin opcode 11; `agreed` says that no other member's root controller refuses (R457). [DEDUCED, log 54] -/
def execFormGang (x : AdminSrc) (a : GangArgs) (s : State) : Host.Outcome State Fault Refusal :=
  adminStep x (!a.agreed || gangRefused s a) (fun s =>
    match localMember s a with
    | none => s
    | some q =>
      let G : Gang := { size := a.size, grace := graceOf a, members := a.members, rank := q.1, asid := q.2, slice := none, reports := [],
                        sent := [], timeouts := [], lifts := [], stopBy := none }
      recountOf q.2 (recallPending q.2 ({ s with gangs := Assoc.put a.gid G s.gangs }.modCtx q.2 (fun c => { c with gang := some a.gid })))) s

/-- A context holds its region. -/
def Context.holds (c : Context) : Bool := c.st == .resident || c.st == .preempting || c.st == .stopping
/-- DISSOLVE_GANG: admin opcode 12; refused while any member is resident, `agreed` being the other members' answer (R457). [DEDUCED, log 54] -/
def execDissolveGang (x : AdminSrc) (a : GangEnd) (s : State) : Host.Outcome State Fault Refusal :=
  adminStep x (!a.agreed || match Assoc.find a.gid s.gangs with
               | none => true
               | some G => (Assoc.find G.asid s.contexts).any Context.holds) (fun s =>
    match Assoc.find a.gid s.gangs with
    | none => s
    | some G => { s.modCtx G.asid (fun c => { c with gang := none }) with gangs := Assoc.erase a.gid s.gangs }) s

/-! ### Slices (R459, R460) -/

/-- The gang's region runs a graph of some context. -/
def outgoing (s : State) (G : Gang) : Option (Nat × Context) :=
  match Assoc.find G.asid s.contexts with
  | none => none
  | some c =>
    let R := s.region c.attr.region
    if R.graph.isSome && !R.halt then (s.ctxOf R).map (fun o => (c.attr.region, o)) else none
/-- SLICE_REQUEST: the firmware names a slice, which has not been given up already; the member vacates its region, its outgoing context being pre-empted or left to complete, a free
choice (R459 step 1). [DEDUCED, log 54] -/
def execSliceRequest (gid slice dl : Nat) (s : State) : Host.Outcome State Fault Refusal :=
  match Assoc.find gid s.gangs with
  | none => nx s
  | some G =>
    if G.slice.isSome || G.timeouts.contains slice then nx s
    else
      let s1 := s.modGang gid (fun G => { G with slice := some { num := slice, deadline := dl, vacated := false, go := false }, lifts := [] })
      match outgoing s1 G with
      | none => nx s1
      | some (r, o) =>
        let (n, s2) := s1.draw
        if n % 2 = 1 && o.st == .resident && (s1.region r).preempt.isNone then nx (startPreempt r false o s2) else nx s2

/-- VACATED_MESSAGE: the coordinator receives a member's report, where a path is left, and sends "go" with the last one that comes in time (R459 steps 2 and 3). -/
def execVacatedMessage (gid rank slice : Nat) (s : State) : Host.Outcome State Fault Refusal :=
  match Assoc.find gid s.gangs with
  | none => nx s
  | some G =>
    if G.rank ≠ 0 || rank == 0 || decide (G.size ≤ rank) || cutFrom s G rank then nx s
    else nx (s.modGang gid (fun G => Gang.decide (G.split s) s.time { G with
      reports := if G.reports.contains (slice, rank) then G.reports else G.reports ++ [(slice, rank)] }))

/-- GO_MESSAGE: a member that has reported, and that the coordinator reaches, receives "go"; its record goes straight to running (R459 step 4). -/
def execGoMessage (gid slice : Nat) (s : State) : Host.Outcome State Fault Refusal :=
  nx (s.modGang gid (fun G =>
    match G.slice with
    | some sl => if G.rank ≠ 0 ∧ G.split s = false ∧ sl.num = slice ∧ sl.vacated = true then { G with slice := some { sl with go := true } } else G
    | none => G))

/-- The record of GANG_TIMEOUT (R460, R471). [DEDUCED, log 54] -/
def timeoutRec (gid slice : Nat) : StopRec := { recOf 0x21 12 0 with d0 := toWord gid, d1 := toWord slice }
/-- The context that a late member's region has not given up: the one resident on it, running or between launches, unless that is the member's own,
scrubbed for its record (R460). [DEDUCED, log 54] -/
def lateContext (s : State) (G : Gang) : Option Nat :=
  match Assoc.find G.asid s.contexts with
  | none => none
  | some c =>
    let R := s.region c.attr.region
    if R.halt || (waitsForGo R G.asid).isSome then none else (s.ctxOf R).map (fun _ => c.attr.region)
/-- A member gives its slice up (R460): a late one forces its outgoing context out; the incoming record stays queued; the timeout is
reported. [DEDUCED, log 54] -/
def abortSlice (gid : Nat) (G : Gang) (sl : Slice) (s : State) : State :=
  let s1 := if sl.vacated then s
            else match lateContext s G with
                 | some r => raise r (timeoutRec gid sl.num) s
                 | none => s
  (recallPending G.asid s1).modGang gid (fun G => { G.endSlice with timeouts := G.timeouts ++ [sl.num] })

/-- GANG_DEADLINE: D + grace has passed and some member has not reported: the coordinator sends "abort" (R460). -/
def execGangDeadline (gid : Nat) (s : State) : Host.Outcome State Fault Refusal :=
  match Assoc.find gid s.gangs with
  | none => nx s
  | some G =>
    match G.slice with
    | none => nx s
    | some sl =>
      if G.rank ≠ 0 || sl.go || decide (s.time ≤ G.limit sl) then nx s
      else nx ((abortSlice gid G sl s).modGang gid (Gang.tell 3 sl.num))

/-- ABORT_MESSAGE: a member receives "abort" for its slice, or for one that has not been named here yet (R460). -/
def execAbortMessage (gid slice : Nat) (s : State) : Host.Outcome State Fault Refusal :=
  match Assoc.find gid s.gangs with
  | none => nx s
  | some G =>
    match G.slice with
    | none =>
      if G.rank == 0 || G.timeouts.contains slice then nx s
      else nx (abortSlice gid G { num := slice, deadline := 0, vacated := false, go := false } s)
    | some sl => if sl.num ≠ slice || sl.go || G.rank == 0 then nx s else nx (abortSlice gid G sl s)

/-- PEER_STOP_MESSAGE: another member has stopped; this one stops with PEER_HALT where it holds its region, running or waiting for "go", or
has a record there that still awaits its scrub, which it then does not outlive (R458). [DEDUCED, log 54] -/
def execPeerStopMessage (gid rank : Nat) (s : State) : Host.Outcome State Fault Refusal :=
  match Assoc.find gid s.gangs with
  | none => nx s
  | some G =>
    match Assoc.find G.asid s.contexts with
    | none => nx s
    | some c =>
      let r := c.attr.region
      match waitsForGo (s.region r) G.asid with
      | some x =>
        nx (stopWaiting r c x rank s)
      | none =>
        if (s.region r).scrubDue && ((s.region r).pending.map (fun x => x.asid)) == some G.asid then
          nx (s.modGang gid (fun G => { G with stopBy := G.stopBy.or (some rank) }))
        else if (c.st == .resident || c.st == .preempting) && (s.region r).resident == some G.asid then nx (raise r (peerStopRec rank) s) else nx s

end Sys2Proof.Machine
end

