-- ==== Sys2Proof/Machine/Int.lean ====
section
/-! DEFINITION. Integer arithmetic, immediate forms, LEA, SEL, integer compares and predicate logic (R87 to R95). -/

namespace Sys2Proof.Machine

/-! ### Shared forms -/

/-- A two-source form whose result is a function of its sources (R88). -/
def intBin (f : Word → Word → Word) (g : Guard) (d : Reg) (a b : Src) (s : State) : Host.Outcome State Fault Refusal :=
  issue g [a, b] [d] (fun s => done d (f (rv s a) (rv s b)) s) s
/-- A one-source form. -/
def intUn (f : Word → Word) (g : Guard) (d : Reg) (a : Src) (s : State) : Host.Outcome State Fault Refusal :=
  issue g [a] [d] (fun s => done d (f (rv s a)) s) s
/-- The result and flags of an exact signed value (R57, R88). -/
def clampWord (sat : Bool) (v : Int) : Word × Flg :=
  let p := intResult 64 sat (sMin 64) (sMax 64) v
  (toWord p.1, p.2)
/-- A two-source form whose exact value may overflow (R88). -/
def intOvf (sat : Bool) (f : Word → Word → Int) (g : Guard) (d : Reg) (a b : Src) (s : State) :
    Host.Outcome State Fault Refusal :=
  issue g [a, b] [d] (fun s => doneFl d (clampWord sat (f (rv s a) (rv s b))).1 (clampWord sat (f (rv s a) (rv s b))).2 s) s
/-- A long-latency integer producer: its value is taken at issue and delivered at completion (R27, R89). -/
def intLong (f : Word → Word → Word) (g : Guard) (d : Reg) (a b : Src) (s : State) : Host.Outcome State Fault Refusal :=
  issue g [a, b] [d] (fun s => produce [d] (.value [f (rv s a) (rv s b)] flNone false) s) s
/-- An immediate form (R91). -/
def intImm (f : Word → Word) (g : Guard) (d : Reg) (a : Src) (s : State) : Host.Outcome State Fault Refusal := intUn f g d a s
/-- An immediate form that may overflow (R91). -/
def intImmOvf (f : Word → Int) (g : Guard) (d : Reg) (a : Src) (s : State) : Host.Outcome State Fault Refusal :=
  issue g [a] [d] (fun s => doneFl d (clampWord false (f (rv s a))).1 (clampWord false (f (rv s a))).2 s) s
/-- A register compare (R94). -/
def intCmp (f : Word → Word → Bool) (g : Guard) (p : PReg) (a b : Src) (s : State) : Host.Outcome State Fault Refusal :=
  issue g [a, b] [] (fun s => doneP p (f (rv s a) (rv s b)) s) s
/-- An immediate compare (R94). -/
def intCmpImm (f : Word → Bool) (g : Guard) (p : PReg) (a : Src) (s : State) : Host.Outcome State Fault Refusal :=
  issue g [a] [] (fun s => doneP p (f (rv s a)) s) s
/-- A predicate form: either source may be inverted (R95). -/
def predOp (f : Bool → Bool → Bool) (g : Guard) (p x y : PReg) (nx ny : Bool) (s : State) : Host.Outcome State Fault Refusal :=
  issue g [] [] (fun s => doneP p (f (s.here.rdP x != nx) (s.here.rdP y != ny)) s) s

/-! ### Values -/

/-- The shift count: bits 5:0 (R88). -/
def shCount (b : Word) : Nat := b.toNat % 64
/-- The exact value of SHL (R88). -/
def shlExact (a : Word) (n : Nat) : Int := a.toInt * ((2 ^ n : Nat) : Int)
/-- Signed or unsigned quotient and remainder (R89): the quotient is all ones and the remainder the dividend where the divisor is
zero; else the quotient is truncated toward zero. The one quotient out of range, -2^63 by -1, wraps to -2^63 with remainder 0. -/
def divWord (x y : Int) (a : Word) : Word × Word :=
  if y = 0 then (BitVec.allOnes 64, a) else (BitVec.ofInt 64 (Int.tdiv x y), BitVec.ofInt 64 (Int.tmod x y))
/-- Zero bits above the highest set bit (R88). -/
def clzWord (a : Word) : Nat := if a = 0 then 64 else 63 - Nat.log2 a.toNat
/-- Zero bits below the lowest set bit (R88). -/
def ctzWord (a : Word) : Nat := ((List.range 64).find? (fun i => a.getLsbD i)).getD 64
/-- Set bits (R88). -/
def popWord (a : Word) : Nat := ((List.range 64).filter (fun i => a.getLsbD i)).length
/-- A signed immediate as a register value. -/
def immWord (imm : Imm) : Word := BitVec.signExtend 64 imm

/-! ### The meanings -/

/-- ADD: the sum, wrapping; overflow flagged (R88). -/
def execAdd (g : Guard) (d : Reg) (a b : Src) (s : State) : Host.Outcome State Fault Refusal :=
  intOvf false (fun a b => a.toInt + b.toInt) g d a b s

/-- ADD.sat: the sum, clamping; overflow flagged (R88). -/
def execAddSat (g : Guard) (d : Reg) (a b : Src) (s : State) : Host.Outcome State Fault Refusal :=
  intOvf true (fun a b => a.toInt + b.toInt) g d a b s

/-- SUB: the difference, wrapping; overflow flagged (R88). -/
def execSub (g : Guard) (d : Reg) (a b : Src) (s : State) : Host.Outcome State Fault Refusal :=
  intOvf false (fun a b => a.toInt - b.toInt) g d a b s

/-- SUB.sat: the difference, clamping; overflow flagged (R88). -/
def execSubSat (g : Guard) (d : Reg) (a b : Src) (s : State) : Host.Outcome State Fault Refusal :=
  intOvf true (fun a b => a.toInt - b.toInt) g d a b s

/-- MUL: the low 64 bits of the signed product; overflow flagged (R88). -/
def execMul (g : Guard) (d : Reg) (a b : Src) (s : State) : Host.Outcome State Fault Refusal :=
  intOvf false (fun a b => a.toInt * b.toInt) g d a b s

/-- MUL.sat: the signed product, clamping; overflow flagged (R88). -/
def execMulSat (g : Guard) (d : Reg) (a b : Src) (s : State) : Host.Outcome State Fault Refusal :=
  intOvf true (fun a b => a.toInt * b.toInt) g d a b s

/-- SHL: a times 2^sh, wrapping; overflow flagged (R88). -/
def execShl (g : Guard) (d : Reg) (a b : Src) (s : State) : Host.Outcome State Fault Refusal :=
  intOvf false (fun a b => shlExact a (shCount b)) g d a b s

/-- SHL.sat: a times 2^sh, clamping; overflow flagged (R88). -/
def execShlSat (g : Guard) (d : Reg) (a b : Src) (s : State) : Host.Outcome State Fault Refusal :=
  intOvf true (fun a b => shlExact a (shCount b)) g d a b s

/-- MULH: the high 64 bits of the signed product (R88). -/
def execMulh (g : Guard) (d : Reg) (a b : Src) (s : State) : Host.Outcome State Fault Refusal :=
  intBin (fun a b => BitVec.ofInt 64 (a.toInt * b.toInt / 2 ^ 64)) g d a b s

/-- MULHU: the high 64 bits of the unsigned product (R88). -/
def execMulhu (g : Guard) (d : Reg) (a b : Src) (s : State) : Host.Outcome State Fault Refusal :=
  intBin (fun a b => BitVec.ofNat 64 (a.toNat * b.toNat / 2 ^ 64)) g d a b s

/-- AND: bitwise (R88). -/
def execAnd (g : Guard) (d : Reg) (a b : Src) (s : State) : Host.Outcome State Fault Refusal :=
  intBin (fun a b => a &&& b) g d a b s

/-- OR: bitwise (R88). -/
def execOr (g : Guard) (d : Reg) (a b : Src) (s : State) : Host.Outcome State Fault Refusal :=
  intBin (fun a b => a ||| b) g d a b s

/-- XOR: bitwise (R88). -/
def execXor (g : Guard) (d : Reg) (a b : Src) (s : State) : Host.Outcome State Fault Refusal :=
  intBin (fun a b => a ^^^ b) g d a b s

/-- ANDN: bitwise a AND NOT b (R88). -/
def execAndn (g : Guard) (d : Reg) (a b : Src) (s : State) : Host.Outcome State Fault Refusal :=
  intBin (fun a b => a &&& ~~~b) g d a b s

/-- SHR: logical right shift (R88). -/
def execShr (g : Guard) (d : Reg) (a b : Src) (s : State) : Host.Outcome State Fault Refusal :=
  intBin (fun a b => a >>> shCount b) g d a b s

/-- SRA: arithmetic right shift (R88). -/
def execSra (g : Guard) (d : Reg) (a b : Src) (s : State) : Host.Outcome State Fault Refusal :=
  intBin (fun a b => BitVec.sshiftRight a (shCount b)) g d a b s

/-- ROTR: rotation to the right (R88). -/
def execRotr (g : Guard) (d : Reg) (a b : Src) (s : State) : Host.Outcome State Fault Refusal :=
  intBin (fun a b => BitVec.rotateRight a (shCount b)) g d a b s

/-- MIN: signed lesser (R88). -/
def execMin (g : Guard) (d : Reg) (a b : Src) (s : State) : Host.Outcome State Fault Refusal :=
  intBin (fun a b => if a.toInt < b.toInt then a else b) g d a b s

/-- MAX: signed greater (R88). -/
def execMax (g : Guard) (d : Reg) (a b : Src) (s : State) : Host.Outcome State Fault Refusal :=
  intBin (fun a b => if a.toInt < b.toInt then b else a) g d a b s

/-- MINU: unsigned lesser (R88). -/
def execMinu (g : Guard) (d : Reg) (a b : Src) (s : State) : Host.Outcome State Fault Refusal :=
  intBin (fun a b => if a.toNat < b.toNat then a else b) g d a b s

/-- MAXU: unsigned greater (R88). -/
def execMaxu (g : Guard) (d : Reg) (a b : Src) (s : State) : Host.Outcome State Fault Refusal :=
  intBin (fun a b => if a.toNat < b.toNat then b else a) g d a b s

/-- DIV: signed quotient, a long-latency producer (R89). -/
def execDiv (g : Guard) (d : Reg) (a b : Src) (s : State) : Host.Outcome State Fault Refusal :=
  intLong (fun a b => (divWord a.toInt b.toInt a).1) g d a b s

/-- DIVU: unsigned quotient, a long-latency producer (R89). -/
def execDivu (g : Guard) (d : Reg) (a b : Src) (s : State) : Host.Outcome State Fault Refusal :=
  intLong (fun a b => (divWord (a.toNat : Int) (b.toNat : Int) a).1) g d a b s

/-- REM: signed remainder, a long-latency producer (R89). -/
def execRem (g : Guard) (d : Reg) (a b : Src) (s : State) : Host.Outcome State Fault Refusal :=
  intLong (fun a b => (divWord a.toInt b.toInt a).2) g d a b s

/-- REMU: unsigned remainder, a long-latency producer (R89). -/
def execRemu (g : Guard) (d : Reg) (a b : Src) (s : State) : Host.Outcome State Fault Refusal :=
  intLong (fun a b => (divWord (a.toNat : Int) (b.toNat : Int) a).2) g d a b s

/-- CLZ: leading zeros (R88). -/
def execClz (g : Guard) (d : Reg) (a : Src) (s : State) : Host.Outcome State Fault Refusal :=
  intUn (fun a => toWord (clzWord a)) g d a s

/-- CTZ: trailing zeros (R88). -/
def execCtz (g : Guard) (d : Reg) (a : Src) (s : State) : Host.Outcome State Fault Refusal :=
  intUn (fun a => toWord (ctzWord a)) g d a s

/-- POPC: set bits (R88). -/
def execPopc (g : Guard) (d : Reg) (a : Src) (s : State) : Host.Outcome State Fault Refusal :=
  intUn (fun a => toWord (popWord a)) g d a s

/-- ADDI: adds the sign-extended immediate; overflow flagged (R91). -/
def execAddi (g : Guard) (d : Reg) (a : Src) (imm : Imm) (s : State) : Host.Outcome State Fault Refusal :=
  intImmOvf (fun a => a.toInt + imm.toInt) g d a s

/-- ANDI: bitwise with the sign-extended immediate (R91). -/
def execAndi (g : Guard) (d : Reg) (a : Src) (imm : Imm) (s : State) : Host.Outcome State Fault Refusal :=
  intImm (fun a => a &&& immWord imm) g d a s

/-- ORI: bitwise with the sign-extended immediate (R91). -/
def execOri (g : Guard) (d : Reg) (a : Src) (imm : Imm) (s : State) : Host.Outcome State Fault Refusal :=
  intImm (fun a => a ||| immWord imm) g d a s

/-- XORI: bitwise with the sign-extended immediate (R91). -/
def execXori (g : Guard) (d : Reg) (a : Src) (imm : Imm) (s : State) : Host.Outcome State Fault Refusal :=
  intImm (fun a => a ^^^ immWord imm) g d a s

/-- SHLI: as SHL with the immediate count; overflow flagged (R91). -/
def execShli (g : Guard) (d : Reg) (a : Src) (sh : Sh6) (s : State) : Host.Outcome State Fault Refusal :=
  intImmOvf (fun a => shlExact a sh.toNat) g d a s

/-- SHRI: as SHR with the immediate count (R91). -/
def execShri (g : Guard) (d : Reg) (a : Src) (sh : Sh6) (s : State) : Host.Outcome State Fault Refusal :=
  intImm (fun a => a >>> sh.toNat) g d a s

/-- SRAI: as SRA with the immediate count (R91). -/
def execSrai (g : Guard) (d : Reg) (a : Src) (sh : Sh6) (s : State) : Host.Outcome State Fault Refusal :=
  intImm (fun a => BitVec.sshiftRight a sh.toNat) g d a s

/-- LUI: bits 63:32 from the immediate, bits 31:0 kept (R91). -/
def execLui (g : Guard) (d : Reg) (a : Src) (imm : Imm) (s : State) : Host.Outcome State Fault Refusal :=
  intImm (fun a => toWord (imm.toNat * 2 ^ 32 + a.toNat % 2 ^ 32)) g d a s

/-- LEA: a + b times 2^k, no flags (R92). -/
def execLea (g : Guard) (d : Reg) (a b : Src) (k : Fin5) (s : State) : Host.Outcome State Fault Refusal :=
  intBin (fun a b => a + b <<< k.toNat) g d a b s

/-- SEL: a where the predicate reads true, else b; both must be full (R93). -/
def execSel (g : Guard) (d : Reg) (a b : Src) (p : PReg) (s : State) : Host.Outcome State Fault Refusal :=
  issue g [a, b] [d] (fun s => done d (if s.here.rdP p then rv s a else rv s b) s) s

/-- CEQ: compare (R94). -/
def execCeq (g : Guard) (p : PReg) (a b : Src) (s : State) : Host.Outcome State Fault Refusal :=
  intCmp (fun a b => a == b) g p a b s

/-- CNE: compare (R94). -/
def execCne (g : Guard) (p : PReg) (a b : Src) (s : State) : Host.Outcome State Fault Refusal :=
  intCmp (fun a b => a != b) g p a b s

/-- CLT: compare (R94). -/
def execClt (g : Guard) (p : PReg) (a b : Src) (s : State) : Host.Outcome State Fault Refusal :=
  intCmp (fun a b => decide (a.toInt < b.toInt)) g p a b s

/-- CLE: compare (R94). -/
def execCle (g : Guard) (p : PReg) (a b : Src) (s : State) : Host.Outcome State Fault Refusal :=
  intCmp (fun a b => decide (a.toInt ≤ b.toInt)) g p a b s

/-- CLTU: compare (R94). -/
def execCltu (g : Guard) (p : PReg) (a b : Src) (s : State) : Host.Outcome State Fault Refusal :=
  intCmp (fun a b => decide (a.toNat < b.toNat)) g p a b s

/-- CLEU: compare (R94). -/
def execCleu (g : Guard) (p : PReg) (a b : Src) (s : State) : Host.Outcome State Fault Refusal :=
  intCmp (fun a b => decide (a.toNat ≤ b.toNat)) g p a b s

/-- CEQI: equality with the immediate (R94). -/
def execCeqi (g : Guard) (p : PReg) (a : Src) (imm : Imm) (s : State) : Host.Outcome State Fault Refusal :=
  intCmpImm (fun a => a == immWord imm) g p a s

/-- CLTI: signed less than the immediate (R94). -/
def execClti (g : Guard) (p : PReg) (a : Src) (imm : Imm) (s : State) : Host.Outcome State Fault Refusal :=
  intCmpImm (fun a => decide (a.toInt < imm.toInt)) g p a s

/-- PAND: predicate logic (R95). -/
def execPand (g : Guard) (p x y : PReg) (nx ny : Bool) (s : State) : Host.Outcome State Fault Refusal :=
  predOp (fun x y => x && y) g p x y nx ny s

/-- POR: predicate logic (R95). -/
def execPor (g : Guard) (p x y : PReg) (nx ny : Bool) (s : State) : Host.Outcome State Fault Refusal :=
  predOp (fun x y => x || y) g p x y nx ny s

/-- PXOR: predicate logic (R95). -/
def execPxor (g : Guard) (p x y : PReg) (nx ny : Bool) (s : State) : Host.Outcome State Fault Refusal :=
  predOp (fun x y => x != y) g p x y nx ny s

end Sys2Proof.Machine
end

