-- ==== Sys2Proof/Machine/SaveArea.lean ====
section
/-! DEFINITION. Save images and dumps as bytes of the save area (R427, R432 to R435): the header, the section table and the sections. The
memory images of a section are the bytes themselves; every other item is opaque to software: its bytes are a free function of what it keeps. -/

namespace Sys2Proof.Machine

/-! ### What an image keeps (R178, R206, R235, R257, R282) -/

/-- Two lists of entries joined: `f` makes one of an entry that both have; an entry of the second alone is kept where `k` says so. -/
def mergeAssoc {α : Type} (k : Bool) (f : α → α → α) (a b : Assoc α) : Assoc α :=
  b.foldl (fun l q =>
    match Assoc.find q.1 a with
    | some x => Assoc.put q.1 (f x q.2) l
    | none => if k then Assoc.put q.1 q.2 l else l) a

/-- A stage without its word. -/
def Stage.kept (x : Stage) : Stage := { x with word := 0 }
/-- A template's state, without what an image gives. -/
def Template.kept (T : Template) : Template := { T with base := 0, len := 0, res := false, stages := T.stages.map Stage.kept }
/-- The template as an image gives it, in the state `b`. -/
def Template.overlay (t b : Template) : Template :=
  { b with base := t.base, len := t.len, res := t.res,
           stages := if t.stages.length = b.stages.length then (t.stages.zip b.stages).map (fun q => { q.2 with word := q.1.word }) else t.stages }
/-- A core's state, without what an image gives (R178). -/
def Core.kept (c : Core) : Core :=
  { c with istore := [], loadModes := [], sticky := [], consts := [], templates := c.templates.map (fun (q : Nat × Template) => (q.1, q.2.kept)) }
/-- The core as an image gives it, in the state `b`. -/
def Core.overlay (c b : Core) : Core :=
  { b with istore := c.istore, loadModes := c.loadModes, sticky := c.sticky, consts := c.consts, templates := mergeAssoc false Template.overlay c.templates b.templates }
/-- An arc's state, without its route. -/
def Arc.kept (a : Arc) : Arc := { a with route := default }
/-- A port's state, without its windows but for which of them are disabled (R341, R347). [DEDUCED, log 53] -/
def Port.kept (p : Port) : Port :=
  { p with windows := (p.windows.filter (fun q => q.2.off)).map (fun q => (q.1, { (default : Window) with off := true })) }
/-- The port as an image gives it, in the state `b`. -/
def Port.overlay (p b : Port) : Port := { b with windows := mergeAssoc false (fun w v => { w with off := v.off }) p.windows b.windows }
/-- An AG's state, without its patterns. -/
def Ag.kept (a : Ag) : Ag := { patterns := [], ports := a.ports.map (fun (q : Nat × Port) => (q.1, q.2.kept)) }
/-- The AG as an image gives it, in the state `b`. -/
def Ag.overlay (a b : Ag) : Ag := { patterns := a.patterns, ports := mergeAssoc false Port.overlay a.ports b.ports }
/-- A section's state, without its frame. -/
def Section.kept (x : Section) : Section :=
  { (default : Section) with count := x.count, j := x.j, tiles := x.tiles, flags := x.flags, latch := x.latch, lot := x.lot, hdr := x.hdr,
                             coll := x.coll, check := x.check }
/-- The section as an image gives it, in the state `b`. -/
def Section.overlay (x b : Section) : Section :=
  { x with count := b.count, j := b.j, tiles := b.tiles, flags := b.flags, latch := b.latch, lot := b.lot, hdr := b.hdr, coll := b.coll,
           check := b.check }
/-- The units of an MX's weight buffer into which the loads under way have written. -/
def loadingUnits (m : Mx) : Assoc Line := m.buffer.filter (fun q => m.loads.any (fun l => l.started && decide (l.off ≤ q.1) && decide (q.1 < l.off + l.got)))
/-- An MX's state, without its frames, and of its weight buffer what the loads under way have written. -/
def Mx.kept (m : Mx) : Mx :=
  { m with sections := m.sections.map (fun (q : Nat × Section) => (q.1, q.2.kept)), buffer := loadingUnits m }
/-- The MX as an image gives it, in the state `b`. -/
def Mx.overlay (m b : Mx) : Mx := { b with sections := mergeAssoc false Section.overlay m.sections b.sections }
/-- A coat's state, without its frames. -/
def Coat.kept (k : Coat) : Coat := { k with cores := [] }
/-- A chain's state, without its frames. -/
def CoatChain.kept (C : CoatChain) : CoatChain :=
  { C with depth := 0, sunit := 0, sport := 0, kunit := 0, kport := 0, coats := C.coats.map (fun (q : Nat × Coat) => (q.1, q.2.kept)) }
/-- The chain as an image gives it, in the state `b`. -/
def CoatChain.overlay (C b : CoatChain) : CoatChain :=
  { b with depth := C.depth, sunit := C.sunit, sport := C.sport, kunit := C.kunit, kport := C.kport,
           coats := mergeAssoc false (fun k x => { x with cores := k.cores }) C.coats b.coats }
/-- A region's state, without what the configuration image gives. [DEDUCED, log 53] -/
def Region.kept (R : Region) : Region :=
  { R with cores := R.cores.map (fun (q : Nat × Core) => (q.1, q.2.kept)), arcs := R.arcs.map (fun (q : Nat × Arc) => (q.1, q.2.kept)),
           nodes := [], allocs := [], ags := R.ags.map (fun (q : Nat × Ag) => (q.1, q.2.kept)),
           mxs := R.mxs.map (fun (q : Nat × Mx) => (q.1, q.2.kept)), coats := R.coats.map (fun (q : Nat × CoatChain) => (q.1, q.2.kept)) }
/-- Region `R`, in which a configuration image has taken effect, in the state `B`. [DEDUCED, log 53] -/
def Region.overlay (R B : Region) : Region :=
  { B with cores := mergeAssoc true Core.overlay R.cores B.cores, arcs := mergeAssoc false (fun a b => { b with route := a.route }) R.arcs B.arcs,
           nodes := R.nodes, allocs := R.allocs, ags := mergeAssoc false Ag.overlay R.ags B.ags, mxs := mergeAssoc true Mx.overlay R.mxs B.mxs,
           coats := mergeAssoc false CoatChain.overlay R.coats B.coats }

/-! ### Sections (R434, R435) -/

/-- The bytes of an opaque item, by what it keeps: their arrangement belongs to image version 1 and is not stated (R435). [DESIGN CHOICE, log 52] -/
opaque itemByte : Item → Nat → Byte
/-- The size of an item whose size no rule states (R160, R206). [DESIGN CHOICE, log 52] -/
opaque itemSize : Item → Nat

/-- The bytes of a part. -/
def Part.size : Part → Nat
  | .locals _ => 65536
  | .scratch _ l => l.foldl (fun n q => n + q.2) 0
  | .panel _ _ len => 64 * len
  | .opq n _ => n
  | .raw bs => bs.length
/-- The bytes of a section, its 16-byte head included. -/
def Sect.size (x : Sect) : Nat := x.items.foldl (fun n p => n + p.size) 16

/-- An opaque item of `n` bytes that keeps this part of a region's state. -/
def item (n type idx : Nat) (reg : Region) : Part := .opq n { type := type, idx := idx, reg := reg, dd := none, seq := 0 }
/-- An opaque item of a size that no rule states. -/
def openItem (type idx : Nat) (reg : Region) : Part :=
  let x : Item := { type := type, idx := idx, reg := reg, dd := none, seq := 0 }
  .opq (itemSize x % 2 ^ 18) x
/-- Part of one core's state. -/
def ofCore (u : Nat) (c : Core) : Region := { Region.absent with cores := [(u, c)] }
/-- Part of one MX's state. -/
def ofMx (u : Nat) (m : Mx) : Region := { Region.absent with mxs := [(u, m)] }

/-- A core's slots, channels and buffer hold something beyond the configuration. -/
def coreBusy (c : Core) : Bool :=
  c.slots.any (fun q => decide (q.2 ≠ Slot.init)) || c.chans.any (fun q => !q.2.words.isEmpty) || !c.phase.isEmpty || c.trapvec != 0 || c.cyc != 0
    || c.seed.isSome || !c.producers.isEmpty
/-- An accumulator entry is no longer as the image left it: its mode, or its bits (R178). -/
def accsMoved (c : Core) : Bool :=
  c.accs.any (fun q => q.2.bits != 0 || decide (q.2.mode ≠ (c.loadModes[q.1]?).getD 0))
/-- A compute core holds something beyond the configuration. -/
def coreHolds (r : Nat) (R : Region) (u : Nat) (s : State) : Bool :=
  coreBusy (R.core u) || decide ((R.core u).last ≠ 7) || accsMoved (R.core u)
    || s.lmem.cur.any (fun q => decide (lKey r u 0 ≤ q.1) && decide (q.1 < lKey r u 65536))
/-- A core's pipeline holds something beyond the configuration. -/
def pipeHolds (c : Core) : Bool :=
  !c.chains.isEmpty || !c.ended.isEmpty || decide (c.nextTicket ≠ 0) || c.templates.any (fun q => q.2.flags != 0 || q.2.mags.any (fun m => m != 0)
    || q.2.arcs.any (fun a => !a.2.isEmpty) || q.2.stages.any (fun st => decide (st.pos ≠ 0) || st.carry != 0 || !st.served.isEmpty))
/-- Slots, channels and phase buffer of a core, each slot in 272 bytes (R178). -/
def issueItems (type u slots : Nat) (c : Core) : List Part :=
  [item (slots * 272) type 2 (ofCore u { Core.init with slots := c.slots, producers := c.producers }),
   item (16 * 40) type 3 (ofCore u { Core.init with chans := c.chans }),
   item (16 * c.phase.length + 8) type 4 (ofCore u { Core.init with phase := c.phase })]
/-- Type 1: a compute core (R178). -/
def coreSect (R : Region) (u : Nat) : Sect :=
  let c := R.core u
  { type := 1, unit := u, inst := 0,
    items := [.locals u, item 2056 1 1 (ofCore u { Core.init with accs := c.accs })] ++ issueItems 1 u 8 c
      ++ [item 32 1 5 (ofCore u { Core.init with trapvec := c.trapvec, cyc := c.cyc, seed := c.seed, last := c.last })] }
/-- Type 2: its pipeline (R160). -/
def pipeSect (R : Region) (u : Nat) : Sect :=
  let c := R.core u
  { type := 2, unit := u, inst := 0,
    items := [openItem 2 1 (ofCore u { Core.init with templates := c.templates, chains := c.chains, nextTicket := c.nextTicket, ended := c.ended })] }
/-- Type 3: a control core that has started (R178, R434). -/
def ctlSect (R : Region) (u : Nat) : Sect := { type := 3, unit := u, inst := 0, items := issueItems 3 u 1 (R.core u) }
/-- The ranges of an MU's scratchpad that no arc and no hawk borrows, in pieces of 64 bytes (R235). -/
def muRanges (R : Region) (cl m : Nat) : List (Nat × Nat) :=
  ((List.range (2 ^ 14)).map (fun i => (m * 2 ^ 20 + 64 * i, 64))).filter (fun q => !borrowed R cl q.1 64)
/-- Type 4: an MU's scratchpad (R235). -/
def muSect (R : Region) (cl m : Nat) : Sect :=
  { type := 4, unit := mkUnit cl 1 m, inst := m, items := [.scratch cl (muRanges R cl m)] }
/-- An MU's scratchpad holds a byte that is not zero. -/
def muHolds (r : Nat) (s : State) (cl m : Nat) : Bool :=
  s.smem.cur.any (fun q => decide (sKey r cl (m * 2 ^ 20) ≤ q.1) && decide (q.1 < sKey r cl ((m + 1) * 2 ^ 20)))
/-- An AG's ports hold something beyond the configuration. -/
def agHolds (a : Ag) : Bool := a.ports.any (fun p => decide (p.2.kept ≠ Port.init))
/-- Type 5: an AG's ports, of which the two of a cluster have sixteen (R235). -/
def agSect (u : Nat) (a : Ag) : Sect := { type := 5, unit := u, inst := 0, items := [item (8 * 160) 5 1 { Region.absent with ags := [(u, a.kept)] }] }
/-- What is listed for a cluster, sixteen to each. -/
def ofCluster {α : Type} (cl : Nat) (l : Assoc α) : Assoc α := l.filter (fun q => decide (q.1 / 16 = cl))
/-- The copy state of a cluster's cores (R347). -/
def copyState (R : Region) (cl : Nat) : Assoc Core :=
  (R.cores.filter (fun q => decide (uCl q.1 = cl))).map (fun (q : Nat × Core) => (q.1, { Core.init with copyTicket := q.2.copyTicket, copyDone := q.2.copyDone }))
/-- Type 6: a cluster's barriers, holding buffers and issuers, transfer barriers and copy state (R235, R347). -/
def clusterSect (R : Region) (cl : Nat) : Sect :=
  let held := R.atomics.filter (fun a => decide (uCl a.unit = cl))
  let iss := (roster R).filter (fun q => decide (uCl q.1 = cl))
  { type := 6, unit := mkUnit cl 0 0, inst := 0,
    items := [item (16 * 16) 6 1 { Region.absent with bars := ofCluster cl R.bars },
              item (24 * held.length) 6 2 { Region.absent with atomics := held },
              item (8 * iss.length) 6 3 { Region.absent with cores := iss.map (fun q => (q.1, { Core.init with slots := [(q.2, (R.core q.1).slot q.2)] })) },
              item (5 * 24) 6 4 { Region.absent with cores := copyState R cl },
              item (16 * 24) 6 5 { Region.absent with tbars := ofCluster cl R.tbars }] }
/-- A cluster holds something of that. -/
def clusterHolds (R : Region) (cl : Nat) : Bool :=
  !(ofCluster cl R.bars).isEmpty || R.atomics.any (fun a => decide (uCl a.unit = cl)) || (roster R).any (fun q => decide (uCl q.1 = cl))
    || (copyState R cl).any (fun q => decide (q.2.copyTicket ≠ 0) || !q.2.copyDone.isEmpty) || !(ofCluster cl R.tbars).isEmpty
/-- The arcs of a switch, each in the state that an image's section keeps: the data of a ring's beats stays in memory (R206). -/
def arcsOf (R : Region) (u : Nat) : Assoc Arc :=
  (R.arcs.filter (fun q => decide (arcUnit q.1 = u))).map (fun (q : Nat × Arc) =>
    (q.1, { q.2.kept with ring := q.2.ring.map (fun b => { b with data := 0 }) }))
/-- Type 7: a switch's arcs and nodes, and the borrowed range of each arc that has one, of which the beats past the sixteenth are kept; no
rule says where in its range a beat stands (R195, R206, R435). [DESIGN CHOICE, log 52] -/
def switchSect (R : Region) (u : Nat) : Sect :=
  let lent := R.arcs.filter (fun q => decide (arcUnit q.1 = u) && decide (16 < q.2.route.depth))
  { type := 7, unit := u, inst := 0,
    items := openItem 7 1 { Region.absent with arcs := (arcsOf R u).map (fun (q : Nat × Arc) => (q.1, { q.2 with fifo := q.2.fifo.take 16 })) }
      :: lent.map (fun q => item ((q.2.route.depth - 16) * 64) 7 (2 + arcEntry q.1)
           { Region.absent with arcs := [(q.1, { Arc.fresh default with fifo := q.2.fifo.drop 16 })] }) }
/-- The unit of a chain's first head. -/
def chainUnit (C : CoatChain) : Nat := ((Assoc.get default 1 C.coats).headCore.map (fun c => c.unit)).getD 0
/-- A coat holds something beyond the configuration. -/
def coatHolds (k : Coat) : Bool := decide (k.kept ≠ { (default : Coat) with cores := [] })
/-- A chain runs, has an edge table, or has a coat that holds something. -/
def chainHolds (C : CoatChain) : Bool := C.running || C.ran || !C.edge.isEmpty || C.coats.any (fun k => coatHolds k.2)
/-- Type 8: a coat chain: its pass controller while it runs, its edge table where it has entries, its coats and their hawks (R257). -/
def chainSect (ch : Nat) (C : CoatChain) : Sect :=
  let part (x : CoatChain) : Region := { Region.absent with coats := [(ch, x)] }
  let K := C.kept
  { type := 8, unit := chainUnit C, inst := ch,
    items := (if C.running then [item 96 8 1 (part { K with edge := [], coats := [] })] else [])
      ++ (if C.edge.isEmpty then [] else [item (64 * 104) 8 2 (part { (default : CoatChain) with edge := C.edge })])
      ++ C.coats.map (fun k => item 64 8 (16 + k.1) (part { (default : CoatChain) with
          ran := C.ran, desc := C.desc, pass := C.pass, depth := C.depth, coats := [(k.1, { k.2.kept with cells := rep k.2.cells.length 0 })] }))
      ++ C.coats.map (fun k => item (64 * ((k.2.headCore.map (fun c => c.hsize + 1)).getD 0)) 8 (32 + k.1)
          (part { (default : CoatChain) with coats := [(k.1, { (default : Coat) with cells := k.2.cells })] })) }
/-- The valid panels of an MX that came over its input 4. -/
def portedPanels (m : Mx) : List Panel := (m.panels.filter (fun p => p.2.valid && p.2.src.isNone)).map (fun p => p.2)
/-- The cores of a cluster with their tensor scales alone. -/
def scalesOf (R : Region) (cl : Nat) : Assoc Core :=
  (R.cores.filter (fun q => decide (uCl q.1 = cl) && uKind q.1 == 0)).map (fun (q : Nat × Core) => (q.1, { Core.init with scale := q.2.scale }))
/-- Type 9: an MX (R282). -/
def mxSect (R : Region) (u : Nat) : Sect :=
  let m := R.mx u
  let mine (x : Section) : Mx := { Mx.init with
    bank := m.bank.filter (fun q => decide (x.node0 ≤ q.1 / 128) && decide (q.1 / 128 < x.node0 + x.g)),
    eors := m.eors.filter (fun q => decide (x.node0 ≤ q.1) && decide (q.1 < x.node0 + x.g)) }
  { type := 9, unit := u, inst := 0,
    items := [item 32 9 1 { ofMx u { Mx.init with scale := m.scale, rot := m.rot } with cores := scalesOf R (uCl u) }]
      ++ m.sections.map (fun q => item (64 + 72 * 7) 9 (16 + q.1) (ofMx u { Mx.init with sections := [(q.1, q.2.kept)] }))
      ++ m.sections.map (fun q => item (q.2.g * 516) 9 (32 + q.1) (ofMx u (mine q.2)))
      ++ [item (64 * 48) 9 2 (ofMx u { Mx.init with panels := m.panels })]
      ++ (portedPanels m).map (fun p => Part.panel u p.off p.len)
      ++ [item (4 * 32) 9 3 (ofMx u { Mx.init with loads := m.loads, loadId := m.loadId, buffer := loadingUnits m })] }
/-- An MX has a valid section, and holds something beyond the configuration. -/
def mxHolds (R : Region) (u : Nat) : Bool :=
  let m := R.mx u
  !m.sections.isEmpty && (!m.loads.isEmpty || !m.panels.isEmpty || !m.bank.isEmpty || !m.eors.isEmpty || m.scale != Mx.init.scale
    || decide (m.rot ≠ 0) || (scalesOf R (uCl u)).any (fun q => q.2.scale != Core.init.scale)
    || m.sections.any (fun q => decide (q.2.kept ≠ { (default : Section) with latch := 127 })))
/-- Type 10: a copy (R347). -/
def copySect (x : Copy) : Sect :=
  { type := 10, unit := if x.node.isSome then 0 else x.unit, inst := x.ticket % 2 ^ 16, items := [item 96 10 1 { Region.absent with copies := [x] }] }
/-- Type 11: the sequencer (R315); in the second run of checking mode it keeps the digests of both. -/
def seqSect (R : Region) (g : Graph) : Sect :=
  let part (x : Graph) : Region := { Region.absent with graph := some x }
  let z : Graph := { g with nodes := [], ready := [], loads := 0, resident := none, load := none, flags := 0, heldNodes := [], heldTasks := [],
                            outs := [], run := 0, digests1 := [], digests := [], wdog := 0, wdogAt := 0, spared := false, closing := false, ahead := [] }
  { type := 11, unit := 0, inst := 0,
    items := [item 64 11 1 (part z),
              item 32 11 2 (part { z with loads := g.loads, flags := g.flags, run := g.run, wdog := g.wdog, spared := g.spared, closing := g.closing }),
              item (4 * g.nodes.length) 11 3 (part { z with nodes := g.nodes, ready := g.ready, resident := g.resident, ahead := g.ahead }),
              item (32 * 72) 11 4 (part { z with heldNodes := g.heldNodes, heldTasks := g.heldTasks, outs := g.outs }),
              item (16 * (g.digests1.length + g.digests.length)) 11 5 (part { z with digests1 := g.digests1, digests := g.digests }),
              item (16 * 16) 11 6 { Region.absent with phases := R.phases }] }
/-- Type 12: the DDE (R381). -/
def ddeSect (R : Region) (T : DdTable) : Sect :=
  let x (n idx : Nat) (T : Option DdTable) (reg : Region) : Part := .opq n { type := 12, idx := idx, reg := reg, dd := T, seq := 0 }
  let z : DdTable := { T with nodes := [], uniq := [], cache := [], level := [], var := [], quota := none, kept := none }
  { type := 12, unit := 0, inst := 0,
    items := [x 32 1 (some z) Region.absent, x 262140 2 (some { z with level := T.level, var := T.var }) Region.absent,
              x (8 * (roster R).length) 3 none { Region.absent with cores := (roster R).map (fun q => (q.1, { Core.init with slots := [(q.2, (R.core q.1).slot q.2)] })) },
              x (64 * R.ddq.length) 4 none { Region.absent with ddq := R.ddq },
              x 8 5 none { Region.absent with graph := R.graph.map (fun g => { g with nodes := g.nodes.filter batchRuns }) }] }
/-- The elements of a collective whose partial sums this member has not sent yet: those of a tree that wait for a beat (R469). -/
def unsent (m : Team) (x : Coll) : Assoc Nat :=
  x.acc.filter (fun q => !x.done.contains q.1 && (let p := treeV m x.desc.toNat
                                                  let st := Assoc.get 0 q.1 x.steps
                                                  decide (st < treeSteps m) && decide (p % 2 ^ (st + 1) ≠ 2 ^ st)))
/-- Type 13: a collective in flight (R469). -/
def collSect (m : Team) (c : Context) (x : Coll) : Sect :=
  let part (x : Coll) : Region := { Region.absent with colls := [x] }
  let z : Coll := { x with acc := [], steps := [], inbox := [] }
  { type := 13, unit := x.unit, inst := 0,
    items := [item 96 13 1 (part z), item (8 * (unsent m x).length) 13 2 (part { z with acc := unsent m x, steps := x.steps }),
              item (64 * x.inbox.length) 13 3 (part { z with inbox := x.inbox }),
              .opq 16 { type := 13, idx := 4, reg := Region.absent, dd := none, seq := c.collSeq }] }

/-- The sections of region `R` as it is to be kept, in the order of the table: type, unit, instance (R433, R434). [DESIGN CHOICE, log 52] -/
def sectionsOf (r : Nat) (R : Region) (c : Context) (s : State) : List Sect :=
  let cores := (clusters R).flatMap (fun cl => (List.range 4).map (fun i => mkUnit cl 0 i))
  let ctls := ((clusters R).map (fun cl => mkUnit cl 4 0)).filter (fun u => (R.core u).started && coreBusy (R.core u))
  let mus := ((clusters R).flatMap (fun cl => (List.range 4).map (fun m => (cl, m)))).filter (fun q => muHolds r s q.1 q.2)
  let switches := uniq ((R.arcs.filter (fun q => decide (q.2.kept ≠ (Arc.fresh default)))).map (fun q => arcUnit q.1))
  let l := (cores.filter (fun u => coreHolds r R u s)).map (coreSect R) ++ (cores.filter (fun u => pipeHolds (R.core u))).map (pipeSect R)
    ++ ctls.map (ctlSect R) ++ mus.map (fun q => muSect R q.1 q.2) ++ (R.ags.filter (fun q => agHolds q.2)).map (fun q => agSect q.1 q.2)
    ++ ((clusters R).filter (clusterHolds R)).map (clusterSect R) ++ switches.map (switchSect R)
    ++ (R.coats.filter (fun q => chainHolds q.2)).map (fun q => chainSect q.1 q.2)
    ++ (R.mxs.filter (fun q => mxHolds R q.1)).map (fun q => mxSect R q.1)
    ++ R.copies.map copySect ++ (R.graph.map (seqSect R)).toList ++ (c.dd.map (ddeSect R)).toList ++ R.colls.map (collSect (teamOf s c) c)
  sortBy (fun a b => decide (a.type < b.type) || (a.type == b.type && (decide (a.unit < b.unit)
    || (a.unit == b.unit && decide (a.inst ≤ b.inst))))) l

/-- These sections keep the word `w` of a cluster's scratchpad: with its MU, or with the arc or the hawk that borrows it (R206, R235, R257). -/
def wordKept (R : Region) (l : List Sect) (cl w : Nat) : Bool :=
  let a := 8 * w
  if borrowed R cl a 8 then
    R.arcs.any (fun p => decide (uCl (arcUnit p.1) = cl) && decide (16 < p.2.route.depth) && arcBorrows p.2.route a 8
        && l.any (fun x => x.type == 7 && x.unit == arcUnit p.1))
      || R.coats.any (fun ch => ch.2.coats.any (fun k => k.2.cores.any (fun c => decide (uCl c.unit = cl) && hawkHolds c a 8))
        && l.any (fun x => x.type == 8 && x.inst == ch.1))
  else l.any (fun x => x.type == 4 && x.unit == mkUnit cl 1 (a / 2 ^ 20))
/-- An MX's section keeps word `key` of its buffer or directory: a directory entry, or a unit of a port-loaded panel or of a load under way
(R282). -/
def bufferKept (m : Mx) (key : Nat) : Bool :=
  decide (24576 ≤ key) || (portedPanels m).any (fun p => decide (p.off ≤ key) && decide (key < p.off + p.len))
    || m.loads.any (fun l => l.started && decide (l.off ≤ key) && decide (key < l.off + l.got))
/-- The save process reads the word of a soft error for these sections (R175, R207, R234, R280). [DEDUCED, log 41] -/
def sectReads (R : Region) (l : List Sect) (e : ErrorSite) : Bool :=
  let has (type : Nat) : Bool := l.any (fun x => x.type == type && x.unit == e.unit)
  match e.code with
  | 0 | 2 => has 1
  | 3 => has 1 || has 3
  | 4 => has 7 && (Assoc.find (arcKey e.unit (e.key / 2 ^ 48)) R.arcs).any (fun a =>
           decide (a.out ≤ e.key % 2 ^ 48) && decide (e.key % 2 ^ 48 < a.out + a.fifo.length))
  | 5 => has 7
  | 6 => wordKept R l e.unit e.key
  | 7 => R.atomics.any (fun a => decide (a.mem = e.unit))
  | 8 => has 5
  | 9 => has 9 && bufferKept (R.mx e.unit) e.key
  | 10 => has 9 && (R.mx e.unit).sections.any (fun q => decide (q.2.node0 ≤ e.key / 128) && decide (e.key / 128 < q.2.node0 + q.2.g))
  | _ => false

/-- The next multiple of 64. -/
def up64 (n : Nat) : Nat := (n + 63) / 64 * 64
/-- The section table (R433): the offset of each section, and the section. -/
def tableOf (at0 : Nat) : List Sect → List (Nat × Sect)
  | [] => []
  | x :: t => (at0, x) :: tableOf (up64 (at0 + x.size)) t
/-- The image's length (R432). -/
def lengthOf (at0 : Nat) : List Sect → Nat
  | [] => at0
  | x :: t => lengthOf (up64 (at0 + x.size)) t
/-- The first section's place, of so many. -/
def firstOffset (n : Nat) : Nat := up64 (64 + 16 * n)
/-- An image's table. -/
def SaveImage.table (i : SaveImage) : List (Nat × Sect) := tableOf (firstOffset i.sects.length) i.sects
/-- The parts of a section, each with its offset, from `a` on. -/
def partsFrom (a : Nat) : List Part → List (Nat × Part)
  | [] => []
  | p :: t => (a, p) :: partsFrom (a + p.size) t

/-! ### Bytes -/

/-- The bytes of a part, of region `R` at `r`: a memory image's in address order (R435). -/
def Part.bytes (r : Nat) (R : Region) (s : State) : Part → List Byte
  | .locals u => s.lRead r u 0 65536
  | .scratch cl l => l.flatMap (fun q => s.sRead r cl q.1 q.2)
  | .panel u off len => bytesLE (64 * len) ((R.mx u).unitBits off len)
  | .opq n x => (List.range n).map (itemByte x)
  | .raw bs => bs
/-- The 16 bytes with which a section begins (R435). -/
def Sect.head (x : Sect) : List Byte := bytesLE 16 (x.type + x.unit * 2 ^ 16 + x.items.length * 2 ^ 32)
/-- Filled up to a multiple of 64. -/
def padded (l : List Byte) : List Byte := l ++ rep (up64 l.length - l.length) 0
/-- The bytes of a section, filled up to a multiple of 64 (R435). -/
def Sect.bytes (r : Nat) (R : Region) (s : State) (x : Sect) : List Byte := padded (x.head ++ x.items.flatMap (Part.bytes r R s))
/-- An image's header (R432). [DESIGN CHOICE, log 52] -/
def headerBytes (asid : Nat) (device : Word) (i : SaveImage) : List Byte :=
  bytesLE 64 (0x3753565A + 1 * 2 ^ 32 + i.kind * 2 ^ 48 + i.st * 2 ^ 56 + i.length * 2 ^ 64 + i.sects.length * 2 ^ 128
    + (i.w - 1) * 2 ^ 160 + (i.h - 1) * 2 ^ 168 + asid * 2 ^ 192 + i.gen * 2 ^ 208 + i.cseq * 2 ^ 256 + i.image * 2 ^ 320
    + i.time % 2 ^ 64 * 2 ^ 384 + device.toNat * 2 ^ 448)
/-- An entry of the section table (R433). -/
def entryBytes (e : Nat × Sect) : List Byte := bytesLE 16 (e.2.type + e.2.unit * 2 ^ 16 + e.2.inst * 2 ^ 32 + e.1 * 2 ^ 64 + e.2.size * 2 ^ 96)
/-- The header and the table, filled up to the first section. [DESIGN CHOICE, log 52] -/
def frontBytes (asid : Nat) (device : Word) (i : SaveImage) : List Byte := padded (headerBytes asid device i ++ i.table.flatMap entryBytes)

/-! ### The save area -/

/-- Write pieces of 4,096 bytes to consecutive tiles. -/
def writeArea (c : Context) (r : Nat) : Nat → List (List Byte) → State → XRes Unit
  | _, [], s => .ok () s
  | mid, p :: t, s => (writeMid c r mid p s).bind (fun _ s1 => writeArea c r (mid + 1) t s1)
/-- An image as pieces of 4,096 bytes. -/
def pieces (l : List Byte) : List (List Byte) :=
  let q := cutBeats 4096 (l.length / 4096 + 1) l
  if q.2.isEmpty then q.1 else q.1 ++ [q.2]
/-- Write an image's header alone, and through to memory. -/
def writeHeader (c : Context) (r : Nat) (i : SaveImage) (s : State) : XRes Unit :=
  (writeMid c r c.attr.saveBase (headerBytes c.attr.asid (deviceOf s) i) s).bind (fun _ s1 => .ok () (writebackKey c.keyId s1))
/-- Write a whole image of region `R` at `r`: first with state 0; then, when every section stands in memory, the header with its state, last
(R432). -/
def writeImage (c : Context) (r : Nat) (R : Region) (i : SaveImage) (s : State) : XRes Unit :=
  (writeArea c r c.attr.saveBase (pieces (frontBytes c.attr.asid (deviceOf s) { i with st := 0 } ++ i.sects.flatMap (Sect.bytes r R s))) s).bind
    (fun _ s1 => writeHeader c r i (writebackKey c.keyId s1))

/-- The history of a region's part of a memory, at its keys within the region. -/
def relative (r : Nat) (m : VMem) : List (Nat × Nat × Byte) :=
  (m.past.filter (fun p => decide (p.1 / 2 ^ 40 = r))).map (fun p => (p.1 % 2 ^ 40, p.2))
/-- An image of region `R`, at `r`, with these sections: its kind, and the state that it keeps (R432). [DESIGN CHOICE, log 52] -/
def makeImage (r kind : Nat) (R : Region) (c : Context) (l : List Sect) (s : State) : SaveImage :=
  let resident := R.graph.bind (fun g => g.resident.bind (fun n => g.nodes[n]?))
  { kind := kind, st := 1, w := R.w, h := R.h, gen := c.gen,
    cseq := match R.graph with
            | some g => if g.resident.isSome then g.cseq else 0xFFFFFFFF
            | none => 0xFFFFFFFF,
    image := (resident.map (fun x => x.arg0)).getD 0, time := s.time, body := R.kept, sects := l, length := lengthOf (firstOffset l.length) l,
    pastS := relative r s.smem, pastL := relative r s.lmem, waits := s.faults.filter (fun e => decide (e.asid = c.attr.asid)),
    rings := (R.graph.map (heldRings R)).getD [] }

/-! ### Reading an image back (R437) -/

/-- A memory whose bytes at these keys are set as they were saved: no write has replaced anything (R431). -/
def VMem.lay (l : List (Nat × Byte)) (m : VMem) : VMem := { m with cur := l.foldl (fun c p => Assoc.set 0 p.1 p.2 c) m.cur }
/-- The bytes of a part in an image's bytes. -/
def partBytes (bs : List Byte) (q : Nat × Part) : List Byte := (bs.drop q.1).take q.2.size
/-- The bytes of ranges, at their keys. -/
def rangeCells (key : Nat → Nat) : List (Nat × Nat) → List Byte → List (Nat × Byte)
  | [], _ => []
  | q :: t, bs => ((List.range q.2).map (fun i => key (q.1 + i))).zip bs ++ rangeCells key t (bs.drop q.2)
/-- The scratchpad bytes of an image's parts, at the keys of region `r` (R437 step 4). -/
def scratchCells (r : Nat) (ps : List (Nat × Part)) (bs : List Byte) : List (Nat × Byte) :=
  ps.flatMap (fun q => match q.2 with
                       | .scratch cl l => rangeCells (sKey r cl) l (partBytes bs q)
                       | _ => [])
/-- Their local-store bytes. -/
def localCells (r : Nat) (ps : List (Nat × Part)) (bs : List Byte) : List (Nat × Byte) :=
  ps.flatMap (fun q => match q.2 with
                       | .locals u => rangeCells (lKey r u) [(0, 65536)] (partBytes bs q)
                       | _ => [])
/-- Lines from bytes, from unit `k` of a weight buffer on. -/
def unitLines (k n : Nat) (bs : List Byte) : List (Nat × Line) :=
  (List.range n).map (fun j => (k + j, BitVec.ofNat 512 (ofBytesLE ((bs.drop (64 * j)).take 64))))
/-- The weight-buffer units of MX `u` among them: those of the panels that came over input 4. -/
def panelLines (ps : List (Nat × Part)) (bs : List Byte) (u : Nat) : List (Nat × Line) :=
  ps.flatMap (fun q => match q.2 with
                       | .panel v off len => if v = u then unitLines off len (partBytes bs q) else []
                       | _ => [])

end Sys2Proof.Machine
end

