-- ==== Sys2Proof/Machine/Preempt.lean ====
section
/-! DEFINITION. Gate-and-mark pre-emption (R428 to R431), and restoring a pre-empted context (R437 to R439). -/

namespace Sys2Proof.Machine

/-! ### The nodes that save (R428) -/

/-- The input ports of a stage that take tokens from arcs under the chain that runs its template. -/
def stagePorts (c : Core) (t : Nat) (T : Template) (st : Stage) : List Nat :=
  if T.res || (c.chainOf t).isSome then (uniq (inPorts st.word)).filter (fun p => (memField (c.chainOf t) p).isNone) else []
/-- The earlier stages whose results stage `j` reads. -/
def stageFrom (T : Template) (j : Nat) : List Nat :=
  uniq (((opnds (T.word j)).filter (fun o => decide (4 ≤ o.sel) && decide (o.sel < 12))).map (fun o => o.sel - 3))
/-- The ports that stage `j` pushes to. -/
def stageOuts (c : Core) (t : Nat) (T : Template) (st : Stage) : List Nat :=
  if T.res || (c.chainOf t).isSome then (outPorts st.word).filter (fun p => (memField (c.chainOf t) (4 + p)).isNone) else []
/-- Whether a list of beats has a lift marker at a place. -/
def liftAt (l : List Beat) (i : Nat) : Bool := ((l[i]?).map Beat.lift).getD false
/-- An arc holds a lift marker somewhere. -/
def Arc.hasLift (a : Arc) : Bool := a.fifo.any Beat.lift || a.ring.any Beat.lift || a.inbox.any (fun b => b.beat.lift)
/-- A lift marker has entered the FIFO at an input port. -/
def Region.liftedIn (R : Region) (u p : Nat) : Bool :=
  match R.inArc u p with
  | some e => e.2.fifo.any Beat.lift
  | none => true
/-- A lift marker is on the arc into a port. -/
def Region.liftOn (R : Region) (u p : Nat) : Bool :=
  match R.inArc u p with
  | some e => e.2.hasLift
  | none => false
/-- The port has a marker at place `i`, or has no arc. -/
def Region.liftDue (R : Region) (u p i : Nat) : Bool := (R.inArc u p).isNone || R.liftIn u p i

/-- Everything of region `R` that saves: stages, switch nodes, sections, stream ports, coats, cores, MX loaders, and the switches through which
the DDE's bitmap port pushes (R428). [DESIGN CHOICE, log 51] -/
def liftNodes (R : Region) : List NodeRef :=
  R.cores.flatMap (fun (q : Nat × Core) => NodeRef.unit q.1 ::
    q.2.templates.flatMap (fun (t : Nat × Template) => (List.range' 1 t.2.stages.length).map (fun j => NodeRef.stage q.1 t.1 j)))
  ++ R.nodes.map (fun q => NodeRef.switch (arcUnit q.1) (arcEntry q.1))
  ++ R.mxs.flatMap (fun (q : Nat × Mx) => NodeRef.unit q.1 :: q.2.sections.map (fun x => NodeRef.mx q.1 x.1))
  ++ R.ags.flatMap (fun (q : Nat × Ag) =>
    ((List.range 8).filter (fun p => R.isSource q.1 p || (R.inArc q.1 p).isSome)).map (fun p => NodeRef.port q.1 p))
  ++ R.coats.flatMap (fun (q : Nat × CoatChain) => q.2.coats.map (fun k => NodeRef.coat q.1 k.1))
  ++ (clusters R).map (fun cl => NodeRef.unit (mkUnit cl 5 0))

/-- The input ports of the resident templates of a core. -/
def residentPorts (c : Core) : List Nat :=
  uniq (c.templates.flatMap (fun (t : Nat × Template) => if t.2.res then t.2.stages.flatMap (fun st => inPorts st.word) else []))
/-- The node's inputs in arcs: unit and port. -/
def nodePorts (R : Region) : NodeRef → List (Nat × Nat)
  | .stage u t j =>
    match Assoc.find t (R.core u).templates with
    | some T => match T.stage j with
                | some st => (stagePorts (R.core u) t T st).map (fun p => (u, p))
                | none => []
    | none => []
  | .switch u j => match R.node u j with
                   | some x => (nodeIns j x ++ [8 * j + 4]).map (fun p => (u, p))
                   | none => []
  | .mx u sec => [(u, sec)]
  | .port u p => if R.isSource u p then [] else [(u, p)]
  | .coat ch k => match (R.coat ch k).headCore with
                  | some c => [(c.unit, c.iport)]
                  | none => []
  | .unit u => if uKind u = 2 then (if (R.mx u).loads.any (fun l => l.started && l.src.isNone) then [(u, 4)] else [])
               else if uKind u = 0 then (residentPorts (R.core u)).map (fun p => (u, p)) else []

/-- An armed section holds every token of a firing: it completes first, even where it waits for room (R282). -/
def holdsFiring (R : Region) (u sec : Nat) : Bool :=
  match R.section u sec, R.inArc u sec with
  | some x, some e => x.count != 0 && !x.check && (match collectAll x e.2.fifo with
                                                   | .ok _ _ _ => true
                                                   | _ => false)
  | _, _ => false
/-- Every stage tied to the blocks of a coat has fired on each that the coat has admitted (R256). -/
def blocksFired (R : Region) (ch k : Nat) : Bool :=
  let K := R.coat ch k
  !(Assoc.get default ch R.coats).computes k || K.headCore.all (fun c => tiedAt R K c K.next)
/-- In deterministic mode, a value-returning atomic that has not been performed waits for an interval of a slot of core `u`: it must complete
before its slot is saved (R85), and only that core can close the interval (R221), so the core goes on. Every other core without inputs stops at
once (R178). [DESIGN CHOICE, log 51] -/
def atomAwaits (det : Bool) (R : Region) (u : Nat) : Bool :=
  det && R.atomics.any (fun a => valueAtomic R a && (roster R).any (fun q => decide (q.1 = u) && !keyPast R a.key q))
/-- A lift marker stands at the head of every input of a node, and the node can do nothing more before it (R428 step 4). [DESIGN CHOICE, log 51] -/
def liftReady (r : Nat) (s : State) : NodeRef → Bool
  | .stage u t j =>
    let R := s.region r
    match Assoc.find t (R.core u).templates with
    | none => true
    | some T =>
      match T.stage j with
      | none => true
      | some st =>
        st.firing.isNone
          && (stagePorts (R.core u) t T st).all (fun p => R.liftDue u p (stageMarkAt R u st p))
          && (stageFrom T j).all (fun p => liftAt (T.inner p j) 0)
          && (match R.coatAt u t with
              | some (ch, k, c) => !(c.head && blockTied T j) || (R.frozen (.coat ch k)
                  && !canFire st.word { s with cur := { region := r, unit := u, slot := 0, tmpl := t, stage := j } })
              | none => true)
  | .switch u j => (nodePorts (s.region r) (.switch u j)).all (fun q => (s.region r).liftDue q.1 q.2 0)
  | .mx u sec => (s.region r).liftedIn u sec && !holdsFiring (s.region r) u sec && still (execMxFiring r u sec s) s
      && still (execHeaderLatch r (.mx u sec) sec s) s && still (execEoiHandling r (.mx u sec) s) s
  | .port u p => (s.region r).isSource u p || (s.region r).liftDue u p 0
  | .coat ch k => (nodePorts (s.region r) (.coat ch k)).all (fun q => (s.region r).liftDue q.1 q.2 0) && still (execCoatFiring r ch k s) s
      && blocksFired (s.region r) ch k
  | .unit u =>
    if uKind u = 5 then !((s.region r).ddq.zipIdx).any (fun q => q.1.op == 0xE9 && decide (switchOf q.1.unit = u) && ddMust (detOn s (s.region r)) (s.region r) q.2 q.1)
    else (nodePorts (s.region r) (.unit u)).all (fun q => (s.region r).liftedIn q.1 q.2)
      && (!(uKind u == 0 || isCtl u) || !(atomAwaits (detOn s (s.region r)) (s.region r) u || copyAwaited r (fun v => v == u) s))

/-- An armed section takes the beats ahead of a marker that complete no firing into its operand collector (R282). -/
def Region.gather (u sec : Nat) (R : Region) : Region :=
  match R.section u sec, R.inArc u sec with
  | some x, some e =>
    if x.count = 0 || x.check || !e.2.fifo.any Beat.lift then R
    else
      let q := gatherShort x 0 e.2.fifo
      (R.popIn u sec q.2).setSection u sec q.1
  | _, _ => R
/-- A node forwards one marker on every output; a source injects one on each of its arcs (R428). -/
def forwardLift (R : Region) : NodeRef → Region
  | .stage u t j =>
    match Assoc.find t (R.core u).templates with
    | none => R
    | some T =>
      match T.stage j with
      | none => R
      | some st =>
        let c := R.core u
        let R1 := R.setCore u { c with templates := Assoc.put t (T.pushInner j [liftBeat]) c.templates }
        (stageOuts c t T st).foldl (fun R p => R.pushOut u p [liftBeat]) R1
  | .switch u j => match R.node u j with
                   | some x => (nodeOuts j x).foldl (fun R p => R.pushOut u p [liftBeat]) R
                   | none => R
  | .mx u sec => (R.gather u sec).pushOut u sec [liftBeat]
  | .port u p => R.pushOut u p [liftBeat]
  | .coat ch k =>
    match (R.coat ch k).lastCore with
    | some o => if (Assoc.get default ch R.coats).computes k then R else R.pushOut o.unit o.oport [liftBeat]
    | none => R
  | .unit u => if uKind u = 5 then R.pushOut u 31 [liftBeat] else R

/-- A node has saved its state (R428 step 4). -/
def saveNode (R : Region) (nd : NodeRef) : Region :=
  let R1 := forwardLift R nd
  { R1 with preempt := R1.preempt.map (fun p => { p with saved := nd :: p.saved }) }
/-- Read the words that a node reads as it saves: of the FIFOs of its inputs, and of its own entry; then go on (R207). -/
def nodeReads (r : Nat) (nd : NodeRef) (k : State → State) (s : State) : State :=
  let R := s.region r
  let ports := fifosChk r ((nodePorts R nd).filterMap (fun q => (R.inArc q.1 q.2).map (fun e => (e.1, 0, e.2.fifo.length)))) k
  match nd with
  | .switch u j => nodeChk r u j ports s
  | _ => ports s
/-- Nodes save one after another. -/
def saveNodes (r : Nat) : List NodeRef → State → State
  | [], s => s
  | nd :: t, s => nodeReads r nd (fun s => saveNodes r t (s.modRegion r (fun R => saveNode R nd))) s
/-- The nodes that have not saved yet. [DESIGN CHOICE, log 51] -/
def unsaved (R : Region) : List NodeRef := (liftNodes R).filter (fun nd => !R.frozen nd)
/-- The pre-emption's markers are out: one is in progress, the region runs, and no image is being loaded (R315, R428). [DESIGN CHOICE, log 51] -/
def marking (R : Region) : Bool := R.preempt.isSome && !R.halt && (R.graph.bind (fun g => g.load)).isNone

/-- LIFT_MARKER_SAVE: a node with a lift marker at every input, or a source at a beat boundary, saves its state and forwards markers (R428). [DESIGN CHOICE, log 51] -/
def execLiftMarkerSave (r : Nat) (nd : NodeRef) (s : State) : Host.Outcome State Fault Refusal :=
  let R := s.region r
  if marking R && (unsaved R).contains nd && liftReady r s nd then nx (saveNodes r [nd] s) else nx s

/-- No pass of a coat chain is over whose successor the pass controller has still to start, or whose commands have still to leave their ports
(R256). [DESIGN CHOICE, log 51] -/
def passesStill (r : Nat) (s : State) : Bool :=
  (s.region r).coats.all (fun ch => !ch.2.running || (still (execCoatPassStart r ch.1 s) s
    && still (execStreamCommandComplete r ch.2.sunit ch.2.sport s) s && still (execStreamCommandComplete r ch.2.kunit ch.2.kport s) s))
/-- Nothing of the region is in flight that will still perform: loads, sends, publishes, transforms, invalidations, and atomics that
neither their keys nor a node of the graph hold back (R85, R235, R300). -/
def settled (r : Nat) (s : State) : Bool :=
  let R := s.region r
  R.atomics.all (fun a => !atomReady s R a || atomHeld r a s) && R.flying.isEmpty && R.publishes.isEmpty && R.xforms.isEmpty && R.tinvs.isEmpty && heldStill r s && !mustWait r s
    && passesStill r s
    && R.cores.all (fun c => c.2.producers.all (fun p => match p.work with
                                                         | .atomic | .dde | .coll => true
                                                         | _ => false))
/-- An input of the node holds a marker: at an arc or inside its template. [DESIGN CHOICE, log 51] -/
def holdsLift (R : Region) (nd : NodeRef) : Bool :=
  (nodePorts R nd).any (fun q => R.liftOn q.1 q.2)
    || (match nd with
        | .stage u t j => match Assoc.find t (R.core u).templates with
                          | some T => (stageFrom T j).any (fun p => (T.inner p j).any Beat.lift)
                          | none => false
        | _ => false)

/-- The lowest key of the region's atomics, where one of them is value-returning: no issuer can close its interval any more, so the missing
intervals count as closed (R85, R429). [DESIGN CHOICE, log 51] -/
def forcedAtomic (R : Region) : Option Atomic :=
  if R.atomics.any (valueAtomic R) then
    R.atomics.foldl (fun m a => match m with
                                | some b => if Key.lt a.key b.key then some a else m
                                | none => some a) none
  else none
/-- FORCED_MARKER: the region is quiescent while nodes still miss markers: every node that holds one on some input takes the others as arrived
(R429). Where none holds one, every node left saves, so that a pre-emption always ends. Before that, while a value-returning atomic is held,
the atomics perform in key order, and its register is saved full (R85). [DESIGN CHOICE, log 51] -/
def execForcedMarker (r : Nat) (s : State) : Host.Outcome State Fault Refusal :=
  let R := s.region r
  let l := unsaved R
  if !marking R || l.isEmpty || !settled r s || !unitsStill r s || l.any (liftReady r s) then nx s
  else
    match forcedAtomic R with
    | some a => if hasBudget r s then nx (atomPerform r a s) else nx s
    | none =>
      let h := l.filter (holdsLift R)
      nx (saveNodes r (if h.isEmpty then l else h) s)

/-! ### The image is complete (R428 steps 5 and 6) -/

/-- A firing that has not committed leaves no trace (R78). -/
def Template.released (T : Template) : Template :=
  { T with stages := T.stages.map (fun st => { st with firing := none }),
           arcs := (T.arcs.map (fun (q : Nat × List Beat) => (q.1, q.2.filter (fun b => !b.lift)))).filter (fun q => !q.2.isEmpty) }
/-- An arc without its lift markers. -/
def Arc.unmarked (a : Arc) : Arc :=
  { a with fifo := a.fifo.filter (fun b => !b.lift), ring := a.ring.filter (fun b => !b.lift), inbox := a.inbox.filter (fun b => !b.beat.lift) }
/-- The waits whose word is attempted again after a pre-emption: those for a channel, a register or a queue (R73). -/
def Wait.again : Wait → Bool
  | .word _ | .place _ _ | .sendPublish _ | .regs _ _ | .chainQueue | .portQueues _ | .copies | .mxQueue _ | .panels _ _ _ _ | .chainsEnd _ | .level _
  | .colls | .holding _ | .ownAtomics | .fpDone | .edge _ _ => true
  | .chain _ | .transfer _ _ | .coats _ | .mxIdle _ _ | .copy _ | .streamBarrier _ | .tinv _ | .xform _ | .publish _ | .earlier | .ordered _ | .dde _
  | .barrier | .trapDelivery | .trapped => false
/-- A word that waits for a channel, a register or a queue is attempted again as a whole; a completion wait goes on where it stood (R73). -/
def Slot.resumed (sl : Slot) : Slot :=
  match sl.st with
  | .waiting w => if w.again then { sl with prog := .fresh } else sl
  | _ => sl
/-- A core as it is saved. -/
def Core.parked (c : Core) : Core :=
  { c with templates := c.templates.map (fun (q : Nat × Template) => (q.1, q.2.released)),
           slots := c.slots.map (fun (q : Nat × Slot) => (q.1, q.2.resumed)) }
/-- A graph whose successor nodes that wait for a free place have not started (R315). -/
def Graph.unstarted (g : Graph) : Graph :=
  let l := ((g.nodes.zipIdx).filter (fun q => q.1.kind == 3 && q.1.st == .running)).map (fun q => q.2)
  { g with nodes := l.foldl (fun ns n => match ns[n]? with
                                         | some x => listSet n { x with st := .waiting } ns
                                         | none => ns) g.nodes,
           ready := l ++ g.ready.filter (fun n => !l.contains n) }
/-- The region's state as the image keeps it. -/
def Region.parked (now : Nat) (R : Region) : Region :=
  { R with cores := R.cores.map (fun (q : Nat × Core) => (q.1, q.2.parked)), arcs := R.arcs.map (fun (q : Nat × Arc) => (q.1, q.2.unmarked)),
           preempt := none, graph := R.graph.map (fun g => { g.unstarted with wdog := g.used now, wdogAt := now }) }
/-- Every collective of the context has stopped, and the lift flit of every peer from which it receives has come: of all where it has a collective
under way, of those from which beats have come where it has issued none yet (R469). [DEDUCED, log 55] -/
def collsParked (s : State) (R : Region) (c : Context) (p : Preempt) : Bool :=
  match gangOf s c with
  | some G => (List.range G.size).all (fun k => decide (k = G.rank) || p.flits.contains k
      || (R.colls.isEmpty && !c.early.any (fun b => decide (b.src = k))))
  | none => true
/-- The record goes back to the head of its level, pre-empted; the region is free (R293, R294). -/
def vacate (x : Record) (R : Region) : Region :=
  let l := recLevel x.b
  { R.cleared with graph := none, pending := none, levels := Assoc.put l ({ x with st := .preempted } :: R.level l) R.levels }

/-- The unit of a structure's word, for a stop record: its kind and number. -/
def structUnit (code unit key : Nat) : Nat × Nat :=
  match code with
  | 6 => (1, mkUnit unit 1 (key / 2 ^ 17))
  | 7 => (1, if unit < 2 ^ 20 then mkUnit (unit / 4) 1 (unit % 4) else 0)
  | _ => (uKind unit, unit)
/-- The address of a structure's word. [DEDUCED, log 41] -/
def structAddr (code key : Nat) : Nat := if code = 3 then key / 4 * 8 else if code = 4 then key / 2 ^ 48 else if code = 5 then key % 64 else if code ≤ 6 then 8 * key else if 9 ≤ code then key else 0
/-- The section of an MX to which a word of its bank, its buffer or its directory belongs: that which holds the node, or names the slot (R279). [DEDUCED, log 41] -/
def sectionHaving (m : Mx) (code key : Nat) : Option (Nat × Section) :=
  if code = 10 then m.sections.find? (fun q => decide (q.2.node0 ≤ key / 128) && decide (key / 128 < q.2.node0 + q.2.g))
  else
    let slots := if 24576 ≤ key then [key - 24576]
                 else (m.panels.filter (fun p => decide (p.2.off ≤ key) && decide (key < p.2.off + p.2.len))).map (fun p => p.1)
    m.sections.find? (fun q => slots.any q.2.names)
/-- The engine fields of an UNCORRECTABLE that the save process meets. [DEDUCED, log 41] -/
def saveRec (R : Region) (e : SoftErr) : StopRec :=
  let q := structUnit e.code e.unit e.key
  let x := recOf 0x14 q.1 q.2
  match e.code with
  | 4 | 5 => { x with kind := 5, sub := structAddr e.code e.key, sk := 3 }
  | 9 | 10 => match sectionHaving (R.mx e.unit) e.code e.key with
              | some p => sectionRec e.unit p.1 p.2 0 0
              | none => { x with sk := 3 }
  | _ => { x with sk := 3 }
/-- The save process reads every protected word that goes into an image's sections (R175, R207, R234, R280). [DEDUCED, log 41] -/
def saveChk (r : Nat) (l : List Sect) (k : State → State) (s : State) : State :=
  let R := s.region r
  let read (e : SoftErr) : Bool := decide (e.r = r) && sectReads R l e.toErrorSite
  let mine := s.errors.filter read
  match mine.find? (fun e => e.double) with
  | some e =>
    raise r { saveRec R e with cause := 0x14, address := toWord (structAddr e.code e.key), d0 := toWord e.code, d1 := 0 } s
  | none => k { s with errors := s.errors.filter (fun e => !read e), corrected := s.corrected + mine.length }

/-- SAVE_IMAGE_COMPLETE: every unit has saved and nothing is in flight: the save image is written, and the context is pre-empted (R428). -/
def execSaveImageComplete (r : Nat) (s : State) : Host.Outcome State Fault Refusal :=
  let R := s.region r
  match R.preempt, R.graph, s.ctxOf R with
  | some p, some g, some c =>
    if !marking R || !(unsaved R).isEmpty || !settled r s || !collsParked s R c p then nx s
    else
      nx (saveChk r (sectionsOf r (R.parked s.time) c s) (thenDdBack c r (fun s1 =>
        let B := R.parked s.time
        let i := makeImage r (if p.migrate then 2 else 1) B c (sectionsOf r B c s1) s1
        match writeImage c r B i s1 with
        | .wait _ => s
        | .miss k s2 => raise r { forTable true (accessRec causeUnresolved 0 k 1) with kind := 12, unit := 0 } s2
        | .fail x s2 => raise r { forTable true x with kind := 12, unit := 0 } s2
        | .ok _ s2 =>
          recount r (({ s2.setRegion r (vacate g.rcd (s2.region r)) with
              faults := s2.faults.filter (fun e => e.asid ≠ c.attr.asid) }).modCtx c.attr.asid (fun c =>
            { c with st := .preempted, image := some i })))) s)
  | _, _, _ => nx s

/-! ### Restore (R437 to R439) -/

/-- Why a restore fails: the position in the image, the section's index, the reason, and the section's type or a CONFIG_LOAD reason. -/
structure Damage where
  pos : Nat
  sect : Nat
  d1 : Nat
deriving DecidableEq, Repr

/-- A failure of the header or the table. [DEDUCED, log 53] -/
def frontDamage (pos reason : Nat) : Damage := { pos := pos, sect := 0xFFFFFFFF, d1 := reason }
/-- A failure in section `k`. [DEDUCED, log 53] -/
def sectDamage (pos k type reason : Nat) : Damage := { pos := pos, sect := k, d1 := reason + type * 2 ^ 16 }
/-- The section that the byte at `pos` belongs to. -/
def damageAt (i : SaveImage) (pos reason : Nat) : Damage :=
  match (i.table.zipIdx).find? (fun q => decide (q.1.1 ≤ pos) && decide (pos < q.1.1 + q.1.2.size)) with
  | some q => sectDamage pos q.2 q.1.2.type reason
  | none => frontDamage pos reason

/-- Read tiles of the save area through the seal cache; a tile that fails its tag or its code is a miss at its number. [DEDUCED, log 53] -/
def readArea (c : Context) (r : Nat) : Nat → Nat → State → XRes (List Byte)
  | 0, _, s => .ok [] s
  | n + 1, k, s =>
    match readMid c r (c.attr.saveBase + k) 0 4096 s with
    | .ok bs s1 => (readArea c r n (k + 1) s1).bind (fun t s2 => .ok (bs ++ t) s2)
    | .miss _ s1 => .miss k s1
    | .wait s1 => .wait s1
    | .fail _ s1 => .miss k s1

/-- What is wrong with the header as it stands in memory (R438). [DEDUCED, log 53] -/
def headDamage (R : Region) (c : Context) (h : Nat) : Option Damage :=
  if bits h 31 0 ≠ 0x3753565A then some (frontDamage 0 1)
  else if bits h 47 32 ≠ 1 then some (frontDamage 4 1)
  else if bits h 55 48 ≠ 1 ∧ bits h 55 48 ≠ 2 then some (frontDamage 6 1)
  else if bits h 63 56 ≠ 1 then some (frontDamage 7 1)
  else if c.attr.saveSize * 4096 < bits h 127 64 then some (frontDamage 8 2)
  else if bits h 164 160 + 1 ≠ R.w ∨ bits h 171 168 + 1 ≠ R.h then some (frontDamage 20 3)
  else none
/-- Entry `k` of the section table in an image's bytes (R433). -/
def entryAt (bs : List Byte) (k : Nat) : Nat := ofBytesLE ((bs.drop (64 + 16 * k)).take 16)
/-- Type, unit and instance of an entry, in the order of the table. -/
def entryKey (e : Nat) : Nat := bits e 15 0 * 2 ^ 32 + bits e 31 16 * 2 ^ 16 + bits e 47 32
/-- Those of a section. -/
def Sect.key (x : Sect) : Nat := x.type * 2 ^ 32 + x.unit * 2 ^ 16 + x.inst
/-- What is wrong with the section table: an entry out of order or out of bounds, an overlap, or a type that is none (R438). -/
def tableDamage (len : Nat) (es : List Nat) : Option Damage :=
  let bad (k e : Nat) : Bool := bits e 63 48 ≠ 0 || bits e 15 0 == 0 || decide (13 < bits e 15 0) || bits e 95 64 % 64 != 0
    || decide (bits e 95 64 < firstOffset es.length) || decide (len < bits e 95 64 + bits e 127 96)
    || (es.take k).any (fun x => decide (entryKey e < entryKey x) || meets (bits x 95 64) (bits x 127 96) (bits e 95 64) (bits e 127 96))
  (es.zipIdx.find? (fun q => bad q.2 q.1)).map (fun q => frontDamage (64 + 16 * q.2) 2)
/-- A section is missing, is there twice, or names a unit that saved none (R438): the first place at which the table differs from what was saved. -/
def placeDamage (want got : List Nat) : Option Damage :=
  ((List.range (max want.length got.length)).find? (fun k => want[k]? != got[k]?)).map (fun k =>
    let x := match got[k]? with
             | some g => if want.contains g && !(got.take k).contains g then (want[k]?).getD g else g
             | none => (want[k]?).getD 0
    sectDamage (64 + 16 * k) k (x / 2 ^ 32) 4)
/-- The first place at which two lists differ. -/
def firstDiff (i : Nat) : List Byte → List Byte → Option Nat
  | [], _ => none
  | a :: t, l => match l with
                 | [] => some i
                 | b :: u => if a = b then firstDiff (i + 1) t u else some i
/-- What is wrong with section `k`, which lies at `a` and is `n` bytes long: its head, its length, or an opaque item whose bytes are not those that
were saved (R438). [DEDUCED, log 53] -/
def sectionDamage (bs : List Byte) (k a n : Nat) (x : Sect) : Option Damage :=
  let h := ofBytesLE ((bs.drop a).take 16)
  if bits h 15 0 ≠ x.type ∨ bits h 31 16 ≠ x.unit then some (sectDamage a k x.type 4)
  else if bits h 63 32 ≠ x.items.length ∨ n ≠ x.size then some (sectDamage a k x.type 5)
  else if bits h 127 64 ≠ 0 then some (sectDamage (a + 8) k x.type 9)
  else
    ((partsFrom (a + 16) x.items).findSome? (fun q =>
      match q.2 with
      | .opq m y => firstDiff q.1 ((List.range m).map (itemByte y)) (partBytes bs q)
      | _ => none)).map (fun p => sectDamage p k x.type 9)

/-- The digest of a slot's units, read from the image's scratchpad sections (R283, R438). -/
def savedDigest (cells : List (Nat × Byte)) (u : Nat) (p : Panel) : Word :=
  ((List.range (64 * p.len)).map (fun k => Assoc.get 0 (sKey 0 (uCl u) (p.src.getD 0 + k)) cells)).foldl crcByte 0
/-- An MX slot whose source is the scratchpad no longer matches its digest. [DEDUCED, log 53] -/
def panelDamage (i : SaveImage) (offs : List Nat) (ps : List (Nat × Part)) (bs : List Byte) : Option Damage :=
  let cells := scratchCells 0 ps bs
  ((offs.zip i.sects).zipIdx.find? (fun q => q.1.2.type == 9 && ((i.body.mx q.1.2.unit).panels.any (fun p => p.2.valid && p.2.src.isSome
      && decide (savedDigest cells q.1.2.unit p.2 ≠ p.2.digest))))).map (fun q => sectDamage q.1.1 q.2 9 8)

/-- Read a configuration image again (R437): its frames before the end frame, and that; none where it has no end. -/
def readFrames (c : Context) (r base : Nat) : Nat → Nat → State → MemRes (Option (List (BitVec 256) × Nat))
  | 0, _, s => .ok none s
  | n + 1, k, s =>
    (frameAt c r { node := 0, base := base, frames := [] } k s).bind (fun f s1 =>
      match f with
      | none => .ok none s1
      | some x =>
        if bits x 255 252 = 15 then .ok (some ([], x)) s1
        else (readFrames c r base n (k + 1) s1).bind (fun t s2 => .ok (t.map (fun l => (BitVec.ofNat 256 x :: l.1, l.2))) s2))
/-- What is wrong with the configuration image, by every check of R190 (R438, reason 7). [DEDUCED, log 53] -/
def configDamage (R : Region) (g : Nat) (fs : Option (List (BitVec 256) × Nat)) : Option Damage :=
  match fs with
  | none => some (frontDamage 40 (7 + 13 * 2 ^ 8))
  | some (l, x) =>
    match firstBad R (imageOf l) (bits g 319 256) (bits g 351 320) with
    | some q => some (frontDamage 40 (7 + q.2 * 2 ^ 8))
    | none => (endReason { pos := l.length, x := x, k := 0 }).map (fun k => frontDamage 40 (7 + k * 2 ^ 8))

/-- A graph with the flags of the load that is resident (R305). -/
def Graph.flagged (R : Region) (g : Graph) : Graph := if g.resident.isSome then { g with flags := g.flags ||| loadFlags R } else g
/-- RESTORE_DAMAGED: the context is damaged, one stop record and the completion record are written, and the region, idle, is released (R439).
Where a tile of these writes is being moved, nothing has happened yet (R329). For its gang it is a fatal stop, and a slice that waits for this member ends with its deadline (R460). [DEDUCED, log 53] -/
def damage (r : Nat) (x : Record) (c : Context) (e : Damage) (s : State) : State :=
  let h : Nat := 1 + 0x1C * 2 ^ 64 + c.lastLoad % 2 ^ 32 * 2 ^ 96 + s.time % 2 ^ 64 * 2 ^ 128
  let rc : Nat := 0x1C + 12 * 2 ^ 8 + 2 ^ 48 + 2 ^ 49 + e.pos * 2 ^ 64 + e.sect * 2 ^ 192 + e.d1 * 2 ^ 256 + s.time % 2 ^ 64 * 2 ^ 320
    + c.lastLoad % 2 ^ 32 * 2 ^ 384 + c.attr.asid * 2 ^ 416 + c.gen * 2 ^ 432
  let thenGo (q : MemRes Unit) (k : State → State) : State :=
    match q with
    | .ok _ s1 => k s1
    | .wait _ => s
    | .fail _ s1 => k s1
  let B := (c.image.map (fun i => i.body)).getD Region.absent
  let g := (B.graph.map (Graph.flagged B)).getD (Graph.begin .selected x [] [] s.time)
  thenGo (gWriteLines c r (c.attr.stopOff + 64) [bytesLE 64 rc] s) (fun s1 =>
  thenGo (gWriteLines c r c.attr.stopOff [bytesLE 64 h] s1) (fun s2 =>
  thenGo (if doneValid c x.b then gWrite c r (recDone x.b) (completionBytes { g with rcd := x } 1 0x1C 0 s.time) (writebackKey c.keyId s2)
          else .ok () (writebackKey c.keyId s2)) (fun s3 =>
  let s4 := msix c.attr.func 0 (writebackKey c.keyId s3)
  (tellPeers c 4 (if mayStart s4 c then startSlice c s4 else s4)).modRegion r (fun R =>
      { R with pending := none, resident := none, doneRec := if doneValid c x.b then some { x with st := .done } else R.doneRec })
    |>.modCtx c.attr.asid (fun c => { c with st := .damaged }) |> recount r)))

/-- A copy that waited for the tag `old` waits for the tag `new`; with none it walks again. -/
def retag (old : Nat) (new : Option Nat) (R : Region) : Region :=
  { R with copies := R.copies.map (fun x => if x.fault = some old then { x with fault := new } else x),
           ags := R.ags.map (fun (q : Nat × Ag) => (q.1, { q.2 with ports := q.2.ports.map (fun (p : Nat × Port) =>
             (p.1, if p.2.fault = some old then { p.2 with fault := new } else p.2)) })) }
/-- A pending fault entry is posted again (R347); where it cannot be, the access walks again. [DEDUCED, log 49] -/
def repost (c : Context) (r : Nat) (s : State) (e : FaultEntry) : State :=
  match postFault c r e.write e.stage e.tid e.tile e.copy e.port s with
  | .tag t s1 => s1.modRegion r (retag e.tag (some t))
  | .full => s.modRegion r (retag e.tag none)
  | .off => s.modRegion r (retag e.tag none)

/-- The weight buffer of MX `u` rebuilt: the panels that came over input 4 from the image, the others from the restored scratchpad, and what the
loads under way had written (R283). -/
def Mx.rebuilt (r u : Nat) (lines : List (Nat × Line)) (s : State) (m : Mx) : Mx :=
  let ls := m.panels.flatMap (fun p =>
    match p.2.valid, p.2.src with
    | true, some a => unitLines p.2.off p.2.len (s.sRead r (uCl u) a (64 * p.2.len))
    | _, _ => [])
  { m with buffer := (ls ++ lines).foldl (fun b q => Assoc.put q.1 q.2 b) m.buffer }
/-- The memories of region `r` as they were saved, with what a core that has not refreshed since may still read of them (R431). -/
def layMemories (r : Nat) (i : SaveImage) (ps : List (Nat × Part)) (bs : List Byte) (s : State) : State :=
  let old (l : List (Nat × Nat × Byte)) : List (Nat × Nat × Byte) := l.map (fun p => (r * 2 ^ 40 + p.1, p.2))
  { s with smem := VMem.lay (scratchCells r ps bs) { s.smem with past := old i.pastS ++ s.smem.past },
           lmem := VMem.lay (localCells r ps bs) { s.lmem with past := old i.pastL ++ s.lmem.past } }

/-- The configuration image takes effect, every unit takes its saved state, memory images first, and the region runs again (R437 steps 3 to 5). It
is no acquire: no core's snapshot is refreshed (R431, R495). [DEDUCED, log 62] -/
def resume (r : Nat) (x : Record) (c : Context) (i : SaveImage) (I : Image) (ps : List (Nat × Part)) (bs : List Byte) (s : State) : State :=
  let R := s.region r
  let s1 := layMemories r i ps bs s
  let B := (install I R).overlay i.body
  let B1 : Region := { B with
    x := R.x, y := R.y, pw := R.pw, ph := R.ph, w := R.w, h := R.h, vmap := R.vmap, inService := R.inService, resident := some c.attr.asid,
    spills := if recSpSize x.b = 0 then [] else [(recSpBase x.b, recSpSize x.b)],
    levels := R.levels, starve := R.starve, pending := none, doneRec := R.doneRec, scrubDue := false, colJob := none, col := R.col, halt := false,
    raised := [], phase := .none, preempt := none,
    mxs := B.mxs.map (fun (q : Nat × Mx) => (q.1, q.2.rebuilt r q.1 (panelLines ps bs q.1) s1)),
    graph := B.graph.map (fun g => { g with rcd := { g.rcd with st := .running }, wdogAt := s.time }) }
  resumeColls r c.attr.asid (i.waits.foldl (repost c r) ((s1.setRegion r B1).modCtx c.attr.asid (fun c => { c with st := .resident, image := none })))

/-- The configuration image that header `h` names is read and checked again, then `k` (R437 step 3, R438). [DEDUCED, log 53] -/
def withConfig (r : Nat) (x : Record) (c : Context) (h : Nat) (k : Image → State → State) (s : State) : State :=
  if bits h 287 256 = 0xFFFFFFFF then k (imageOf []) s
  else
    match readFrames c r (bits h 383 320) (segSize c / 32) 0 s with
    | .wait _ => s
    | .fail _ s1 => damage r x c (frontDamage 40 7) s1
    | .ok fs s1 =>
      match configDamage (s1.region r) x.b fs with
      | some e => damage r x c e s1
      | none => k (imageOf ((fs.map (fun l => l.1)).getD [])) s1
/-- The first `n` tiles of the save area are read, then `k` with their bytes; one that fails damages the context (R438, reason 6). -/
def withTiles (r : Nat) (x : Record) (c : Context) (i : SaveImage) (n : Nat) (k : List Byte → State → State) (s : State) : State :=
  match readArea c r n 0 s with
  | .wait _ => s
  | .miss t s1 => damage r x c (damageAt i (t * 4096) 6) s1
  | .fail _ s1 => damage r x c (frontDamage 0 6) s1
  | .ok bs s1 => k bs s1
/-- The whole image is verified, its header first, then all of the length that this gives; then `k` with the configuration image, the sections'
parts and their bytes (R437 step 2, R438). [DEDUCED, log 53] -/
def withImage (r : Nat) (x : Record) (c : Context) (i : SaveImage) (k : Image → List (Nat × Part) → List Byte → State → State) (s : State) : State :=
  withTiles r x c i 1 (fun front s0 =>
  let h := ofBytesLE (front.take 64)
  match headDamage (s0.region r) c h with
  | some e => damage r x c e s0
  | none =>
  withTiles r x c i ((bits h 127 64 + 4095) / 4096) (fun bs s1 =>
    let n := bits h 159 128
    if bits h 127 64 < 64 + 16 * n then damage r x c (frontDamage 16 2) s1
    else
      let es := (List.range n).map (entryAt bs)
      let offs := es.map (fun e => bits e 95 64)
      let ps := (offs.zip i.sects).flatMap (fun q => partsFrom (q.1 + 16) q.2.items)
      let sects := (es.zip i.sects).zipIdx.findSome? (fun q => sectionDamage bs q.2 (bits q.1.1 95 64) (bits q.1.1 127 96) q.1.2)
      match (tableDamage (bits h 127 64) es).or ((placeDamage (i.sects.map Sect.key) (es.map entryKey)).or sects) with
      | some e => damage r x c e s1
      | none => withConfig r x c h (fun I s2 =>
          match panelDamage i offs ps bs with
          | some e => damage r x c e s2
          | none => k I ps bs s2) s1) s0) s

/-- RESTORE: the pre-empted context whose record is selected, its region scrubbed and its colophon written, is verified and resumed, or is
damaged (R437 to R439). A gang's member reports when it is verified, and goes on at "go" (R459). [DEDUCED, log 53] -/
def execRestore (r : Nat) (s : State) : Host.Outcome State Fault Refusal :=
  let R := s.region r
  match R.pending with
  | none => nx s
  | some x =>
    match Assoc.find x.asid s.contexts with
    | none => nx s
    | some c =>
      match c.image with
      | none => nx s
      | some i =>
        if x.st ≠ .preempted || c.st ≠ .preempted || R.scrubDue || R.colJob.isSome || !R.inService || R.halt || R.graph.isSome
            || R.resident ≠ some x.asid then nx s
        else if c.gang.isNone then nx (withImage r x c i (resume r x c i) s)
        else if mayStart s c then nx (withImage r x c i (fun I ps bs s1 => resume r x c i I ps bs (startSlice c s1)) s)
        else if ((gangOf s c).bind (fun G => G.slice)).any (fun sl => !sl.vacated) then
          nx (withImage r x c i (fun _ _ _ => reportVacated (c.gang.getD 0)) s)
        else nx s

end Sys2Proof.Machine
end

