-- ==== Sys2Proof/Machine/Slots.lean ====
section
/-! DEFINITION. The choice of the slot that issues next (R72, R75). -/

namespace Sys2Proof.Machine

/-- The slots of core `u` in the order in which they are examined: after the one that issued most recently (R75); a control core has one
slot. -/
def slotOrder (c : Core) (u : Nat) : List Nat := if isCtl u then [0] else (List.range 8).map (fun i => (c.last + 1 + i) % 8)
/-- A slot's next word may issue. A slot found running was held up by a tile being moved and tries its word again (R329). -/
def Slot.mayIssue (sl : Slot) : Bool := sl.st == .runnable || sl.st == .running
/-- Slot `k` of core `u` is selected: it runs, and the next step issues its word. [DESIGN CHOICE, log 67] -/
def selectSlot (r u k : Nat) (s : State) : State :=
  { s.modCore r u (fun c => { c.setSlot k { c.slot k with st := .running } with last := k }) with
    turn := .issue, cur := { region := r, unit := u, slot := k, tmpl := 0, stage := 0 } }

/-- ISSUE_SELECT: core `u` wakes the slots whose waits are over, delivers a waiting trap, and selects the first runnable slot after the one
that issued most recently (R72, R75, R83). [DESIGN CHOICE, log 7; DEDUCED, log 8; DESIGN CHOICE, log 67] -/
def execIssueSelect (r u : Nat) (s : State) : Host.Outcome State Fault Refusal :=
  let R := s.region r
  if !isCoreUnit R u || R.halt || R.frozen (.unit u) then nx s
  else
    let s1 := deliver r u (wake r u s)
    let c := s1.core r u
    match (slotOrder c u).find? (fun k => (c.slot k).mayIssue) with
    | some k => nx (selectSlot r u k s1)
    | none => nx s1

end Sys2Proof.Machine
end

