-- ==== Sys2Proof/Machine/Stops.lean ====
section
/-! DEFINITION. What follows a fatal stop (R416 to R427): the stop records, the dump, the whitewash load, and the region's release. -/

namespace Sys2Proof.Machine

/-! ### Stop records (R418 to R421) -/

/-- The 64 bytes of a stop record (R419). -/
def stopBytes (cseq asid gen k : Nat) (x : StopRec) : List Byte :=
  bytesLE 64 (x.cause + x.kind * 2 ^ 8 + x.unit * 2 ^ 16 + x.sub * 2 ^ 32 + 2 ^ 48 + b2n (k == 0) * 2 ^ 49 + x.sk * 2 ^ 50
    + x.position.toNat * 2 ^ 64 + x.address.toNat * 2 ^ 128 + x.d0.toNat * 2 ^ 192 + x.d1.toNat * 2 ^ 256 + x.time % 2 ^ 64 * 2 ^ 320
    + cseq % 2 ^ 32 * 2 ^ 384 + asid * 2 ^ 416 + gen * 2 ^ 432 + k * 2 ^ 448)
/-- The order of records: kind, unit, sub (R421). -/
def recBefore (a b : StopRec) : Bool :=
  decide (a.kind < b.kind) || (a.kind == b.kind && (decide (a.unit < b.unit) || (a.unit == b.unit && decide (a.sub ≤ b.sub))))
/-- The order that finds the primary record: time, then unit, kind, sub (R421). -/
def recEarlier (a b : StopRec) : Bool :=
  decide (a.time < b.time) || (a.time == b.time && (decide (a.unit < b.unit) || (a.unit == b.unit
    && (decide (a.kind < b.kind) || (a.kind == b.kind && decide (a.sub ≤ b.sub))))))
/-- The lowest-numbered slot of a core that is not idle; 0 where all are. [DEDUCED, log 42] -/
def firstBusy (R : Region) (u : Nat) : Nat :=
  ((List.range (slotCount u)).find? (fun k => ((R.core u).slot k).st != .idle)).getD 0
/-- The record of a unit that was not idle when it halted (R421). [DEDUCED, log 42] -/
def peerRec (R : Region) (cause u : Nat) : StopRec :=
  { recOf 0x1B (uKind u) u with sub := if uKind u = 0 ∨ uKind u = 4 then firstBusy R u else 0, d0 := toWord cause, time := R.haltTime }
/-- Every record of a stop, the primary first (R421). [DEDUCED, log 42] -/
def stopRecords (R : Region) : List StopRec :=
  match sortBy recEarlier R.raised with
  | [] => []
  | p :: t =>
    let mine := R.raised.map (fun x => x.unit)
    let peers := ((blockedUnits R).filter (fun u => !(mine.contains u && R.raised.any (fun x => decide (x.unit = u ∧ x.kind = uKind u))))).map
      (peerRec R p.cause)
    p :: (sortBy recBefore t ++ sortBy recBefore peers)
/-- The primary cause. -/
def primaryCause (R : Region) : Nat := ((stopRecords R).head?.map (fun x => x.cause)).getD 0
/-- The configuration sequence number that stop records carry: of the last load started, which is the one resident where one is; all ones where
none was ever started (R418). [DEDUCED, log 42] -/
def stopCseq (c : Context) : Nat := c.lastLoad

/-- The header of the stop-record area (R418). -/
def stopHeader (n cause cseq time report : Nat) : List Byte :=
  bytesLE 64 (n + cause * 2 ^ 64 + cseq % 2 ^ 32 * 2 ^ 96 + time % 2 ^ 64 * 2 ^ 128 + report * 2 ^ 192)
/-- The records, and the deadlock report of a DEADLOCK, as lines of 64 bytes from byte 64 on (R418). -/
def stopLines (R : Region) (c : Context) : List (List Byte) :=
  let rs := stopRecords R
  let recs := rs.zipIdx.map (fun q => stopBytes (stopCseq c) c.attr.asid c.gen q.2 q.1)
  if primaryCause R = 0x18 then
    let q := cutBeats 64 64 (deadlockReport R (stopCseq c))
    recs ++ q.1 ++ (if q.2.isEmpty then [] else [q.2])
  else recs
/-- The stop-record area is written, records first and header last (R418). [DEDUCED, log 42] -/
def writeStop (r : Nat) (R : Region) (c : Context) (s : State) : MemRes Unit :=
  let n := (stopRecords R).length
  let report := if primaryCause R = 0x18 then 64 + 64 * n else 0
  (gWriteLines c r (c.attr.stopOff + 64) (stopLines R c) s).bind (fun _ s1 =>
    gWriteLines c r c.attr.stopOff [stopHeader n (primaryCause R) (stopCseq c) R.haltTime report] s1)
/-- The image of a pre-emption that the stop abandoned is marked so (R430, R432); none while its tile is being moved (R329). [DESIGN CHOICE, log 52] -/
def markAbandoned (r : Nat) (c : Context) (s : State) : Option State :=
  match c.image with
  | some i =>
    if i.st ≠ 2 then some s
    else
      let gone (s : State) : State := s.modCtx c.attr.asid (fun c => { c with image := none })
      match writeMid c r c.attr.saveBase (headerBytes c.attr.asid (deviceOf s) { i with sects := [], length := 64 }) s with
      | .ok _ s1 => some (gone s1)
      | .miss _ s1 => some (gone s1)
      | .wait _ => none
      | .fail _ s1 => some (gone s1)
  | none => some s
/-- The stop came from a gang peer, whose root controller has told every member (R421, R458). -/
def fromPeer (R : Region) : Bool := R.raised.any (fun x => decide (x.cause = 0x1B ∧ x.kind = 12 ∧ x.d1 ≠ 0))
/-- The stop is recorded and, where the context belongs to a gang, sent to every other member; without a dump, the context is stopped
(R415, R458). -/
def recorded (r : Nat) (c : Context) (s : State) : State :=
  ((if fromPeer (s.region r) then s else tellPeers c 4 s).modRegion r (fun R => { R with phase := .recorded })).modCtx c.attr.asid (fun c => if c.attr.dump then c else { c with st := .stopped })

/-- The halted DDE has written its cached table back (R380); none while a tile of the table is being moved. -/
def stopTable (r : Nat) (c : Context) (s : State) : Option State :=
  match c.dd with
  | none => some s
  | some T =>
    match ddWriteback c r false T s with
    | .ok _ s1 => some s1
    | .miss _ s1 => some s1
    | .wait _ => none
    | .fail _ s1 => some s1
/-- STOP_RECORDS_WRITTEN: every engine has halted; the records and the header are written at system scope (R418). The DDE's table is written
back first (R380). A write that fails leaves the rest of the area as it was. [DEDUCED, log 42] -/
def execStopRecordsWritten (r : Nat) (s : State) : Host.Outcome State Fault Refusal :=
  let R := s.region r
  if !R.halt || R.phase ≠ .halted then nx s
  else
    match s.ctxOf R with
    | none => nx (s.setRegion r { R with phase := .recorded })
    | some c =>
      match (stopTable r c s).bind (markAbandoned r c) with
      | none => nx s
      | some s0 =>
        match writeStop r R c s0 with
        | .wait _ => nx s
        | .fail _ s1 => nx (recorded r c s1)
        | .ok _ s1 => nx (recorded r c (writebackKey c.keyId s1))

/-! ### The dump (R427) -/

/-- The section of a dump that holds the stop-record area (R434, type 14). -/
def stopSect (R : Region) (c : Context) : Sect :=
  let n := (stopRecords R).length
  let report := if primaryCause R = 0x18 then 64 + 64 * n else 0
  { type := 14, unit := 0, inst := 0,
    items := [.raw (stopHeader n (primaryCause R) (stopCseq c) R.haltTime report ++ (stopLines R c).flatten)] }
/-- The dump stands, complete or not; the context is stopped. -/
def dumped (r : Nat) (c : Context) (i : SaveImage) (s : State) : State :=
  (s.modRegion r (fun R => { R with phase := .dumped })).modCtx c.attr.asid (fun c => { c with st := .stopped, image := some i })

/-- DUMP_WRITTEN: the dump image of the halted state is written to the save area, or a fault stops its writing (R427). -/
def execDumpWritten (r : Nat) (ok : Bool) (s : State) : Host.Outcome State Fault Refusal :=
  let R := s.region r
  match s.ctxOf R with
  | none => nx s
  | some c =>
    if R.phase ≠ .recorded || !c.attr.dump then nx s
    else
      let i := makeImage r 3 R c (sectionsOf r R c s ++ [stopSect R c]) s
      let bad := { i with st := 0 }
      match if ok then writeImage c r R i s else writeHeader c r bad s with
      | .wait _ => nx s
      | .miss _ s1 => nx (dumped r c bad s1)
      | .fail _ s1 => nx (dumped r c bad s1)
      | .ok _ s1 => nx (dumped r c (if ok then i else bad) s1)

/-! ### Whitewash and release (R425, R426) -/

/-- The completion record of a stopped launch, with the streams compared where its runs differ (R314), where it has a place for one; the host is told of the launch in any case (R305, R446). -/
def stopDone (r : Nat) (R : Region) (c : Context) (s : State) : Option State :=
  let tell (s : State) : State := msix c.attr.func 0 (writebackKey c.keyId s)
  match R.graph with
  | none => some s
  | some g =>
    if !doneValid c g.rcd.b then some (tell s)
    else
      let cause := primaryCause R
      let result := if cause = 0x07 then completionBytes (g.flagged R) 2 cause (streamKeys g).length s.time
                    else completionBytes (g.flagged R) 1 cause 0 s.time
      match gWrite c r (recDone g.rcd.b) result s with
      | .ok _ s1 => some ((tell s1).modRegion r (fun R => { R with doneRec := some { g.rcd with st := .done } }))
      | .wait _ => none
      | .fail _ s1 => some (tell s1)

/-- WHITEWASH_LOAD: the completion record is written, and the region takes the drain configuration, in which everything that is left is
discarded and performs nowhere (R425 steps 2 and 3). -/
def execWhitewashLoad (r : Nat) (s : State) : Host.Outcome State Fault Refusal :=
  let R := s.region r
  let drain (s : State) : State :=
    s.modRegion r (fun R => { R.cleared with graph := none, phase := .whitewash s.time })
  match s.ctxOf R with
  | none => if R.phase = .recorded ∨ R.phase = .dumped then nx (drain s) else nx s
  | some c =>
    if R.phase ≠ .dumped && (R.phase ≠ .recorded || c.attr.dump) then nx s
    else
      match stopDone r R c s with
      | none => nx s
      | some s1 => nx (dropRewrites r (drain { s1 with faults := s1.faults.filter (fun e => e.asid ≠ c.attr.asid) }))

/-- The region is in its whitewash load. -/
def washing (R : Region) : Option Nat :=
  match R.phase with
  | .whitewash t => some t
  | _ => none
/-- The region is free again: no resident context, its halt line down (R416, R425). A record selected but not yet running is scrubbed for
again. -/
def released (R : Region) : Region :=
  { R with halt := false, raised := [], phase := .none, resident := none, spills := [], colJob := none, scrubDue := R.pending.isSome }

/-- REGION_RELEASE: the Blotter reports the whitewashed region empty; it is scrubbed at once, without a colophon, and released; the stopped
context returns to created (R425 step 4, R415). Where a class cannot be cleared, the region is taken out of service (R407). -/
def execRegionRelease (q : Clearing) (s : State) : Host.Outcome State Fault Refusal :=
  let r := q.region
  let R := s.region r
  match washing R with
  | none => nx s
  | some _ =>
    if !R.inService then nx s
    else
      match q.bad with
      | some cls => nx (scrubFails r cls s)
      | none =>
        match scrubAll r s with
        | none => nx s
        | some s1 =>
          let s2 := s1.modRegion r released
          match R.resident with
          | some a => nx (s2.modCtx a (fun c => if c.st = CtxState.stopped then { c with st := .created } else c))
          | none => nx s2

/-- WHITEWASH_TIMEOUT: 200 µs have passed without the report; the region is taken out of service, and its records stay queued (R426). -/
def execWhitewashTimeout (r : Nat) (s : State) : Host.Outcome State Fault Refusal :=
  let R := s.region r
  match washing R with
  | none => nx s
  | some t => if s.time < t + 200000 || !R.inService then nx s else nx (outOfService r s)

end Sys2Proof.Machine
end

