-- ==== Sys2Proof/Machine/Sys.lean ====
section
/-! DEFINITION. System instructions (R119 to R125): system registers, fences, time, digests, the seed and the colophon state. -/

namespace Sys2Proof.Machine

/-- The value of a system register (R46). [DESIGN CHOICE, log 4] -/
def sysRead (y : SysReg) (s : State) : Word :=
  let R := s.hereR
  match y with
  | .taskid => toWord (if isCtl s.cur.unit then 0 else s.cur.slot)
  | .corenum => toWord s.cur.unit
  | .clusterxy => toWord (uCl s.cur.unit / 16 * 16 + uCl s.cur.unit % 16)
  | .regionxy => toWord ((R.w - 1) * 16 + (R.h - 1))
  | .ctxid =>
    match s.ctxOf R with
    | some c => toWord (c.attr.asid % 2 ^ 16 + c.gen % 2 ^ 8 * 2 ^ 16)
    | none => 0
  | .detmode => toWord (detMode s R)
  | .chbind => toWord s.here.chbind.toNat
  | .fpflags => toWord s.here.fpflags.toNat
  | .fpmode => toWord s.here.fpmode.toNat
  | .seedreg => seedOf s
  | .phbuf => toWord (phbuf s.hereC)
  | .stopptr =>
    match s.ctxOf R with
    | some c => toWord c.attr.stopOff
    | none => 0
  | .trapvec => toWord s.hereC.trapvec.toNat
  | .trapinfo => s.here.trapinfo
  | .time => toWord s.time

/-- An access to FPFLAGS waits for the slot's earlier FDIV and FSQRT (R102). [DEDUCED, log 13] -/
def awaitFp (y : SysReg) (s : State) : Bool :=
  decide (y = .fpflags) && !waitDone s.hereR s.cur.unit s.cur.slot .fpDone

/-- MFSR (R119). -/
def execMfsr (g : Guard) (d : Reg) (y : SysReg) (s : State) : Host.Outcome State Fault Refusal :=
  issue g [] [d] (fun s => if awaitFp y s then park .fpDone s else done d (sysRead y s) s) s

/-- The bits of TRAPVEC that exist (R46). -/
def trapvecMask : BitVec 32 := 0x800707FF#32

/-- MTSR: writes FPFLAGS, FPMODE or TRAPVEC; FPMODE 6 or 7 is SPACE (R46, R47, R119). A read-only register is no operand of a
legal MTSR. -/
def execMtsr (g : Guard) (y : SysReg) (a : Src) (s : State) : Host.Outcome State Fault Refusal :=
  issue g [a] [] (fun s =>
    let v := rv s a
    match y with
    | .fpflags => if awaitFp y s then park .fpDone s else retire (fun sl => { sl with fpflags := BitVec.setWidth 5 v }) s
    | .fpmode => if 6 ≤ v.toNat % 8 then failSpace 0 s else retire (fun sl => { sl with fpmode := BitVec.setWidth 3 v }) s
    | .trapvec => retire id (s.modHereC (fun c => { c with trapvec := BitVec.setWidth 32 v &&& trapvecMask }))
    | .taskid | .corenum | .clusterxy | .regionxy | .ctxid | .detmode | .chbind | .seedreg | .phbuf | .stopptr | .trapinfo | .time =>
      failIllegal (curWord s) s) s

/-- FENCE.wait: waits for the slot's earlier producers, sends and atomics (R120). [DEDUCED, log 13] -/
def execFenceWait (g : Guard) (s : State) : Host.Outcome State Fault Refusal :=
  issue g [] [] (fun s =>
    if waitDone s.hereR s.cur.unit s.cur.slot .earlier then retire id (s.modHereC (Core.fence s.cur.slot)) else parkAt .earlier .accepted s) s

/-- FENCE.rel: publishes the core's phase buffer and waits until the publish completes (R120). -/
def execFenceRel (g : Guard) (sc : Scope) (s : State) : Host.Outcome State Fault Refusal :=
  issue g [] [] (fun s => if s.here.prog = .published then retire id s else beginPublish sc .publish s) s

/-- FENCE.acq: refreshes the core's snapshot, at every scope alike (R120). -/
def execFenceAcq (g : Guard) (sc : Scope) (s : State) : Host.Outcome State Fault Refusal :=
  issue g [] [] (fun s =>
    match sc with
    | .core | .cluster | .region | .package | .system => retire id (refresh s.cur.region s.cur.unit s)) s

/-- FENCE.acqrel: the publish, then the refresh (R120). -/
def execFenceAcqrel (g : Guard) (sc : Scope) (s : State) : Host.Outcome State Fault Refusal :=
  issue g [] [] (fun s =>
    if s.here.prog = .published then retire id (refresh s.cur.region s.cur.unit s) else beginPublish sc .publish s) s

/-- RDTIME: TIME at issue (R121). -/
def execRdtime (g : Guard) (d : Reg) (s : State) : Host.Outcome State Fault Refusal :=
  issue g [] [d] (fun s => done d (toWord s.time) s) s

/-- RDTIME.cyc: the cycles that the core has been resident with the current fabric load; how many have passed since the last
look is free (R121). -/
def execRdtimeCyc (g : Guard) (d : Reg) (s : State) : Host.Outcome State Fault Refusal :=
  issue g [] [d] (fun s =>
    let n := s.hereC.cyc + Config.freeCycles s.fresh
    done d (toWord n) ({ s with fresh := s.fresh + 1 }.modHereC (fun c => { c with cyc := n }))) s

/-- DIGEST function 0: `crc(a, b)` (R122). -/
def execDigest (g : Guard) (d : Reg) (a b : Src) (s : State) : Host.Outcome State Fault Refusal :=
  issue g [a, b] [d] (fun s => done d (crc (rv s a) (rv s b)) s) s

/-- DIGEST.out: in checking mode folds the stream's name, position and data into its digest; else nothing (R122). [DEDUCED, log 37] -/
def execDigestOut (g : Guard) (a b c : Src) (s : State) : Host.Outcome State Fault Refusal :=
  issue g [a, b, c] [] (fun s =>
    if chkOn s s.hereR then
      let key := taskStream s.cur.unit (if isCtl s.cur.unit then 0 else s.cur.slot) (rv s a).toNat
      let s1 := digestStream s.cur.region key (fun x => crc (crc (crc x (toWord key)) (rv s b)) (rv s c)) s
      if s1.hereR.halt then s1 else retire id s1
    else retire id s) s

/-- The seed of a later SEED of the same core replaces an earlier one unless a lower slot set it (R123). -/
def seedRecord (old : Option (Nat × Word)) (k : Nat) (v : Word) : Option (Nat × Word) :=
  match old with
  | some (j, w) => if j < k then some (j, w) else some (k, v)
  | none => some (k, v)

/-- SEED: records a pending seed, which the next reconfiguration token takes (R123, R204). -/
def execSeed (g : Guard) (a : Src) (s : State) : Host.Outcome State Fault Refusal :=
  issue g [a] [] (fun s =>
    retire id (s.modHereC (fun c => { c with seed := seedRecord c.seed s.cur.slot (rv s a) }))) s

/-- The COLCHK word (R124, R410). -/
def colWord (x : ColState) : Word :=
  toWord (x.seq % 2 ^ 32 * 2 ^ 32 + x.mask % 2 ^ 16 * 2 ^ 16 + 4 * b2n x.required + 2 * b2n x.nonce + b2n x.written)

/-- COLCHK: the colophon of the region's most recent scrub (R124). -/
def execColchk (g : Guard) (d : Reg) (s : State) : Host.Outcome State Fault Refusal :=
  issue g [] [d] (fun s => done d (colWord s.hereR.col) s) s

end Sys2Proof.Machine
end

