-- ==== Sys2Proof/Machine/Task.lean ====
section
/-! DEFINITION. Task control (R105 to R111): TWAIT, TRUN, TEND, TRAP, EMPTY, FULLQ, YIELD, HALT. -/

namespace Sys2Proof.Machine

/-- The smallest channel of a mask that holds a word. -/
def firstWord (c : Core) (mask : BitVec 16) : Option Nat :=
  (List.range 16).find? (fun j => mask.getLsbD j && !((c.chan j).words.isEmpty))

/-- TWAIT: the smallest bound channel of the mask that holds a word; waits where none does; SPACE where no channel of the mask is
bound (R105). -/
def execTwait (g : Guard) (d : Reg) (a : Src) (s : State) : Host.Outcome State Fault Refusal :=
  issue g [a] [d] (fun s =>
    let m : BitVec 16 := (if a.r = 0 then 0xFFFF#16 else BitVec.setWidth 16 (rv s a)) &&& s.here.chbind
    if m = 0 then failSpace 0 s
    else
      match firstWord s.hereC m with
      | some j => done d (toWord j) s
      | none => park (.word s.here.chbind) s) s

/-- A channel of the mask is bound to a slot other than these two. -/
def boundElsewhere (c : Core) (u k me : Nat) (m : BitVec 16) : Bool :=
  (List.range (slotCount u)).any (fun j => decide (j ≠ k) && decide (j ≠ me) && decide ((c.slot j).chbind &&& m ≠ 0))

/-- Bind the channels of a mask to slot `k`: a channel is bound to at most one slot of its core (R70). -/
def bindChannels (c : Core) (k : Nat) (m : BitVec 16) : Core :=
  let c1 := { c with slots := c.slots.map (fun (p : Nat × Slot) => (p.1, { p.2 with chbind := p.2.chbind &&& ~~~m })) }
  c1.setSlot k { c1.slot k with chbind := (c.slot k).chbind ||| m }

/-- Start a task in slot `k` (R106). -/
def startTask (k : Nat) (e : Word) (m : BitVec 16) (c : Core) : Core :=
  let c1 := bindChannels c k m
  c1.setSlot k { c1.slot k with pc := e, count := 0, st := .runnable, prog := .fresh }

/-- TRUN: starts an idle slot (status 0), resumes a trapped one (status 1), or changes nothing (status 2); SPACE for a bad slot,
entry word or channel (R106). -/
def execTrun (g : Guard) (d : Reg) (a b c : Src) (s : State) : Host.Outcome State Fault Refusal :=
  issue g [a, b, c] [d] (fun s =>
    let k := (rv s a).toNat
    let e := rv s b
    let m := BitVec.setWidth 16 (rv s c)
    let u := s.cur.unit
    if slotCount u ≤ k ∨ (!isCtl u ∧ 2047 < e.toNat) then failSpace 0 s
    else if boundElsewhere s.hereC u k s.cur.slot m then failSpace 0 s
    else
      match (s.hereC.slot k).st with
      | .idle => done d 0 (s.modHereC (startTask k e m))
      | .waiting .trapped => done d 1 (resumeTrapped s.cur.region u k s)
      | _ => done d 2 s) s

/-- The registers of a slot that are pending. -/
def pendingRegs (sl : Slot) : List Nat := (sl.fills.filter (fun p => p.2 == .pending)).map (fun p => p.1)

/-- TEND: waits until no register of the slot is pending; then the slot is idle and leaves the roster (R107, R221), and if it is
the handler slot the next waiting trap is delivered (R83). -/
def execTend (g : Guard) (s : State) : Host.Outcome State Fault Refusal :=
  issue g [] [] (fun s =>
    if s.here.anyPending then park (.regs [] (pendingRegs s.here)) s
    else
      let s1 := s.modHere (fun sl => { sl with pc := sl.pc + 1, st := .idle, prog := .fresh, roster := false })
      if handlerSlot s1.hereC = s.cur.slot ∧ !isCtl s.cur.unit then deliver s.cur.region s.cur.unit s1 else s1) s

/-- TRAP: SOFT_TRAP with the immediate as detail; the slot resumes at the following word (R83, R108). -/
def execTrap (g : Guard) (imm : Imm) (s : State) : Host.Outcome State Fault Refusal :=
  issue g [] [] (fun s =>
    takeTrap s.cur.region s.cur.unit s.cur.slot { cause := 0x05, operand := 0, detail := imm, pc := s.here.pc }
      (s.here.pc + 1) (curWord s) s) s

/-- EMPTY: the register becomes cleared; a pending one lands first (R29, R109). -/
def execEmpty (g : Guard) (d : Reg) (s : State) : Host.Outcome State Fault Refusal :=
  issue g [] [d] (fun s => retire (Slot.setFill d .cleared) s) s

/-- FULLQ: whether a register is full, without waiting (R109). -/
def execFullq (g : Guard) (p : PReg) (a : Reg) (s : State) : Host.Outcome State Fault Refusal :=
  issue g [] [] (fun s => doneP p (s.here.fill a == .full) s) s

/-- YIELD: on to the next word (R110). -/
def execYield (g : Guard) (s : State) : Host.Outcome State Fault Refusal := issue g [] [] (retire id) s

/-- HALT: the fatal HALT_INSTRUCTION, with the immediate as detail word 0 (R111). -/
def execHalt (g : Guard) (imm : Imm) (s : State) : Host.Outcome State Fault Refusal :=
  issue g [] [] (fun s => raise s.cur.region (slotRec 0x1A (toWord imm.toNat) 0 0 s) s) s

end Sys2Proof.Machine
end

