-- ==== Sys2Proof/Machine/Tiles.lean ====
section
/-! DEFINITION. What the seal caches, the root controller and the management firmware do with tiles of their own accord (R329, R394, R395,
R400): fills, writebacks and evictions, re-keying, migration. -/

namespace Sys2Proof.Machine

/-- SEAL_FILL: the seal cache of device tile `tile`'s home port fills it for context `asid` (R394). A fill that fails leaves its mark with the
access that needs the tile, which meets it itself. [DESIGN CHOICE, log 39] -/
def execSealFill (asid tile : Nat) (s : State) : Host.Outcome State Fault Refusal :=
  match Assoc.find asid s.contexts with
  | none => nx s
  | some c =>
    match openTile c.keyId tile c.attr.region false false s with
    | .ok _ s1 => nx s1
    | .wait _ => nx s
    | .fail _ _ => nx s

/-- A tile is evicted unless a rewrite of it is under way, or it stays held: a free choice (R393, R398). [DESIGN CHOICE, log 39] -/
def evict (ptn n : Nat) (s : State) : State :=
  match Assoc.find ptn s.held with
  | some h => if h.rewrite.isNone && n % 2 == 1 then dropHeld ptn s else s
  | none => s

/-- The metadata tiles above a tile that leave the seal cache too: a free choice of each (R391, R392). [DESIGN CHOICE, log 39] -/
def evictAbove (ptn n : Nat) (s : State) : State :=
  [0, 1, 2].foldl (fun s l => if bit n (l + 1) then evictMeta l (metaTile l ptn) s else s) s
/-- SEAL_WRITEBACK: device tile `tile` is written back at its version + 1 if it is dirty, and may be evicted (R395). [DESIGN CHOICE, log 39] -/
def execSealWriteback (tile : Nat) (s : State) : Host.Outcome State Fault Refusal :=
  match Assoc.find tile s.places with
  | none => nx s
  | some p =>
    let (n, s1) := s.draw
    nx (evictAbove p.ptn n (evict p.ptn n (writeback p.ptn s1)))

/-- REKEY: after a version is exhausted, the root controller puts the tenant's tiles under a new key, in PTN order, gives the tenant's contexts
the new key ID, and frees the old slot (R400). It waits while no key slot is free, and while a tile of the tenant is being moved (R386, R397). [DEDUCED, log 40] -/
def execRekey (asid : Nat) (s : State) : Host.Outcome State Fault Refusal :=
  match Assoc.find asid s.contexts with
  | none => nx s
  | some c =>
    match freeKey s with
    | none => nx s
    | some k =>
    if !s.rekeys.contains c.keyId || s.places.any (fun q => q.2.owner == c.keyId && q.2.moving) then nx s
    else
      let l := sortBy (fun a b => decide (a.2 ≤ b.2)) (tilesOf s c.keyId)
      let s0 := { s with keys := Assoc.put k (newKey k s.fresh) s.keys, fresh := s.fresh + 1 }
      let s1 := l.foldl (rekeyTile c.keyId k) s0
      nx { s1 with keys := Assoc.put c.keyId KeySlot.none s1.keys, rekeys := s1.rekeys.filter (fun k => k ≠ c.keyId),
                   contexts := s1.contexts.map (fun (q : Nat × Context) => if q.2.keyId = c.keyId then (q.1, { q.2 with keyId := k }) else q),
                   leaving := s1.leaving.map (fun (q : Nat × Context × Bool) => if q.2.1.keyId = c.keyId then (q.1, { q.2.1 with keyId := k }, q.2.2) else q) }

/-- TILE_MIGRATION_START: the firmware begins to move a device tile: it is written back and dropped, and every access to it waits
(R329, R395, R397). [DEDUCED, log 40] -/
def execTileMigrationStart (tile : Nat) (s : State) : Host.Outcome State Fault Refusal :=
  match Assoc.find tile s.places with
  | none => nx s
  | some p =>
    if p.moving then nx s
    else
      let s1 := dropHeld p.ptn (writeback p.ptn s)
      nx { s1 with places := Assoc.put tile { p with moving := true } s1.places }

/-- The tile is sealed anew at PTN `n`, at the next version of that place; one that cannot be read back is poisoned there, and a fresh one
stays fresh (R388, R390, R398). [DEDUCED, log 40] -/
def reseal (key dev old n : Nat) (s0 : State) : State :=
  let s := (fetchMeta n (fetchMeta old s0).2).2
  let m := metaOf s old
  let v := (metaOf s n).version
  let s1 := if lostTile s key old dev then setMeta n { m with p := true, version := v + 1 } s
            else if m.z then setMeta n { m with version := v } s
            else store key (v + 1) n dev s
  setMeta old { p := false, z := true, version := m.version, tag := 0 } (clearTier n (clearTier old (unspoil n (unspoil old s1))))

/-- A place whose version has reached the last one: nothing can be sealed there under the same key again (R395, R400). [DEDUCED, log 40] -/
def lastVersion (s : State) (ptn : Nat) : Bool := decide (maxVersion ≤ (metaOf (fetchMeta ptn s).2 ptn).version)
/-- TILE_MIGRATION_END: the move of a device tile to PTN `ptn` ends, and the accesses that waited go on (R329). [DEDUCED, log 40] -/
def execTileMigrationEnd (tile ptn : Nat) (s : State) : Host.Outcome State Fault Refusal :=
  match Assoc.find tile s.places with
  | none => nx s
  | some p =>
    if !p.moving || !isPtn ptn || s.places.any (fun q => decide (q.2.ptn = ptn)) || lastVersion s ptn then nx s
    else
      let s1 := reseal p.owner tile p.ptn ptn s
      nx { s1 with places := Assoc.put tile { p with ptn := ptn, moving := false } s1.places }

end Sys2Proof.Machine
end

