-- ==== Sys2Proof/Machine/NumFn.lean ====
section
/-! DEFINITION. The special functions of R64: the exact value where it is a fraction, else a fraction so close to it that every rounding to
the precision of a V-form type is that of the exact value. -/

namespace Sys2Proof.Machine

/-- Fraction bits of the fixed-point arithmetic below. [DEDUCED, log 17] -/
def fxBits : Nat := 256
/-- One in fixed point. -/
def fxOne : Nat := 2 ^ fxBits
/-- A fraction in fixed point, truncated. -/
def fxOf (n d : Nat) : Nat := n * fxOne / d
/-- The product of two fixed-point numbers. -/
def fxMul (x y : Nat) : Nat := x * y / fxOne
/-- The value of a fixed-point number. -/
def fxNum (neg : Bool) (x : Nat) : XNum := if x = 0 then .zero neg else .fin neg x fxOne

/-- `x + x^2/2! + ...` as terms `t * x / i`: the exponential series from term `t` at index `i`. -/
def expGo (x : Nat) : Nat → Nat → Nat → Nat
  | 0, _, _ => 0
  | k + 1, i, t => if t = 0 then 0 else t + expGo x k (i + 1) (fxMul t x / i)
/-- `e^x` of a fixed-point number below 2. -/
def fxExp (x : Nat) : Nat := expGo x 120 1 fxOne
/-- `y + y^3/3 + y^5/5 + ...`. -/
def atanhGo (y2 : Nat) : Nat → Nat → Nat → Nat
  | 0, _, _ => 0
  | k + 1, i, t => if t = 0 then 0 else t / i + atanhGo y2 k (i + 2) (fxMul t y2)
/-- `ln m` of a fixed-point number from 1 to 2: twice the inverse hyperbolic tangent of `(m - 1) / (m + 1)`. -/
def fxLn (m : Nat) : Nat :=
  let y := (m - fxOne) * fxOne / (m + fxOne)
  2 * atanhGo (fxMul y y) 120 1 y
/-- `ln 2`. -/
def fxLn2 : Nat := fxLn (2 * fxOne)
/-- `4 * atan(1 / k)` terms: the alternating series of the inverse tangent of `1 / k`. -/
def atanGo (k2 : Nat) : Nat → Nat → Nat → Bool → Int
  | 0, _, _, _ => 0
  | f + 1, i, t, s => if t = 0 then 0 else (if s then -((t / i : Nat) : Int) else ((t / i : Nat) : Int)) + atanGo k2 f (i + 2) (t / k2) (!s)
/-- The inverse tangent of `1 / k`. -/
def fxAtanInv (k : Nat) : Int := atanGo (k * k) 130 1 (fxOne / k) false
/-- pi, by Machin's formula. -/
def fxPi : Nat := (16 * fxAtanInv 5 - 4 * fxAtanInv 239).toNat
/-- The alternating series of sine (`i = 1`, `t = x`) or cosine (`i = 0`, `t = 1`). -/
def trigGo (x2 : Nat) : Nat → Nat → Nat → Bool → Int
  | 0, _, _, _ => 0
  | f + 1, i, t, s =>
    if t = 0 then 0 else (if s then -(t : Int) else (t : Int)) + trigGo x2 f (i + 2) (fxMul t x2 / ((i + 1) * (i + 2))) (!s)
/-- The sine of a fixed-point angle from 0 to pi/2. -/
def fxSin (x : Nat) : Nat := (trigGo (fxMul x x) 60 1 x false).toNat
/-- The cosine of a fixed-point angle from 0 to pi/2. -/
def fxCos (x : Nat) : Nat := (trigGo (fxMul x x) 60 0 fxOne false).toNat
/-- The series of erf: `x^(2n+1) / (n! (2n+1))` with alternating signs. -/
def erfGo (x2 : Nat) : Nat → Nat → Nat → Bool → Int
  | 0, _, _, _ => 0
  | f + 1, n, t, s =>
    if t = 0 then 0
    else (if s then -((t / (2 * n + 1) : Nat) : Int) else ((t / (2 * n + 1) : Nat) : Int)) + erfGo x2 f (n + 1) (fxMul t x2 / (n + 1)) (!s)

/-- `2^e` as an exact value. -/
def pow2Num (e : Int) : XNum := dyad false 1 e

/-- exp2 of `±n/d`. A whole exponent is exact; one beyond 2,048 in magnitude overflows or underflows every format as 2,048 does, and one
below 2^-100 gives a value just beside 1. [DEDUCED, log 17] -/
def fnExp2 (neg : Bool) (n d : Nat) : XNum :=
  if 2048 * d < n then pow2Num (if neg then -2049 else 2049)
  else if n % d = 0 then pow2Num (if neg then -((n / d : Nat) : Int) else ((n / d : Nat) : Int))
  else if n * 2 ^ 100 < d then .fin false (if neg then 2 ^ 100 - 1 else 2 ^ 100 + 1) (2 ^ 100)
  else
    -- 2^(k + f) with 0 < f < 1
    let k : Int := if neg then -((n / d : Nat) : Int) - 1 else ((n / d : Nat) : Int)
    let f := if neg then fxOf (d - n % d) d else fxOf (n % d) d
    let m := fxExp (fxMul f fxLn2)
    if 0 ≤ k then .fin false (m * 2 ^ k.toNat) fxOne else .fin false m (fxOne * 2 ^ (-k).toNat)

/-- log2 of a positive fraction: exact for a power of two. [DEDUCED, log 17] -/
def fnLog2 (n d : Nat) : XNum :=
  let e := floorLog2 n d
  let m := if 0 ≤ e then fxOf n (d * 2 ^ e.toNat) else fxOf (n * 2 ^ (-e).toNat) d
  if m = fxOne then (if e = 0 then .zero false else .fin (decide (e < 0)) e.natAbs 1)
  else
    let x : Int := e * fxOne + ((fxLn m * fxOne / fxLn2 : Nat) : Int)
    if x = 0 then .zero false else .fin (decide (x < 0)) x.natAbs fxOne

/-- The sine of `pi * r / d` for `0 < r < d`, by symmetry about one half. -/
def sinPart (r d : Nat) : XNum :=
  if 2 * r = d then .fin false 1 1
  else
    let q := if 2 * r < d then r else d - r
    -- below 2^-60 the sine is the angle, less a part that is too small to reach a rounding but for its sign
    if q * 2 ^ 60 < d then .fin false (q * fxPi * (2 ^ 100 - 1)) (d * fxOne * 2 ^ 100)
    else .fin false (fxSin (q * fxPi / d)) fxOne

/-- sin(pi x) of `±n/d` that is no whole number. [DEDUCED, log 17] -/
def fnSin (neg : Bool) (n d : Nat) : XNum :=
  let m := n % (2 * d)
  if m % d = 0 then .zero neg
  else
    let v := sinPart (m % d) d
    if (decide (d ≤ m)) != neg then v.negate else v

/-- cos(pi x) of `n/d` (even in `x`). [DEDUCED, log 17] -/
def fnCos (n d : Nat) : XNum :=
  let m := n % (2 * d)
  -- the distance from the nearest even number, 0 to 1
  let q := if m ≤ d then m else 2 * d - m
  if 2 * q = d then .zero false
  else if q = 0 then .fin false 1 1
  else if q = d then .fin true 1 1
  else
    let lower := decide (2 * q < d)
    let p := if lower then q else d - q
    let v : XNum := if p * 2 ^ 60 < d then .fin false (2 ^ 100 - 1) (2 ^ 100)
                    else if 4 * p ≤ d then .fin false (fxCos (p * fxPi / d)) fxOne
                    else .fin false (fxSin ((d - 2 * p) * fxPi / (2 * d))) fxOne
    if lower then v else v.negate

/-- `e^x` of a positive fraction below 2^12, as a fixed-point number: `2^k * e^f`. -/
def bigExp (n d : Nat) : Nat :=
  let x := fxOf n d
  let k := x / fxLn2
  fxExp (x % fxLn2) * 2 ^ k

/-- tanh of `±n/d`: `(e^2x - 1) / (e^2x + 1)`; below 2^-40 the argument less a little, above 64 just below 1. [DEDUCED, log 17] -/
def fnTanh (neg : Bool) (n d : Nat) : XNum :=
  if n * 2 ^ 40 < d then .fin neg (n * (2 ^ 78 - 1)) (d * 2 ^ 78)
  else if 64 * d < n then .fin neg (2 ^ 100 - 1) (2 ^ 100)
  else
    let t := bigExp (2 * n) d
    .fin neg (t - fxOne) (t + fxOne)

/-- sigmoid of `±n/d`: `1 / (1 + e^-x)`; beyond 256 as at a value that rounds the same way. [DEDUCED, log 17] -/
def fnSigmoid (neg : Bool) (n d : Nat) : XNum :=
  if 256 * d < n then (if neg then .fin false 1 (2 ^ 300) else .fin false (2 ^ 100 - 1) (2 ^ 100))
  else if n * 2 ^ 100 < d then .fin false (if neg then 2 ^ 102 - 1 else 2 ^ 102 + 1) (2 ^ 103)
  else
    let t := bigExp n d
    if neg then .fin false fxOne (t + fxOne) else .fin false t (t + fxOne)

/-- erf of `±n/d`; below 2^-40 the leading term less a little, above 6 just below 1. [DEDUCED, log 17] -/
def fnErf (neg : Bool) (n d : Nat) : XNum :=
  let twoOverRootPi := 2 * fxOne * fxOne / isqrt (fxPi * fxOne)
  if n * 2 ^ 40 < d then .fin neg (n * twoOverRootPi * (2 ^ 80 - 1)) (d * fxOne * 2 ^ 80)
  else if 6 * d < n then .fin neg (2 ^ 50 - 1) (2 ^ 50)
  else
    let x := fxOf n d
    .fin neg (fxMul (erfGo (fxMul x x) 400 0 x false).toNat twoOverRootPi) fxOne

/-- A special function of a finite nonzero value. -/
def vsfFin (fn : Nat) (neg : Bool) (n d : Nat) : XNum × Flg :=
  match fn with
  | 0 => (fnExp2 neg n d, flNone)
  | 1 => if neg then (.qnan, flInv) else (fnLog2 n d, flNone)
  | 2 => (.fin neg d n, flNone)
  | 3 => if neg then (.qnan, flInv) else (sqrtFrac d n, flNone)
  | 4 => if neg then (.qnan, flInv) else (sqrtFrac n d, flNone)
  | 5 => (fnSin neg n d, flNone)
  | 6 => (fnCos n d, flNone)
  | 7 => (fnTanh neg n d, flNone)
  | 8 => (fnSigmoid neg n d, flNone)
  | _ => (fnErf neg n d, flNone)

/-- A special function of a zero (R64). -/
def vsfZero (fn : Nat) (neg : Bool) : XNum × Flg :=
  match fn with
  | 0 | 6 => (.fin false 1 1, flNone)
  | 1 => (.inf true, flDz)
  | 2 | 3 => (.inf neg, flDz)
  | 8 => (.fin false 1 2, flNone)
  | _ => (.zero neg, flNone)

/-- A special function of an infinity (R64). -/
def vsfInf (fn : Nat) (neg : Bool) : XNum × Flg :=
  match fn with
  | 0 => (if neg then .zero false else .inf false, flNone)
  | 1 | 4 => if neg then (.qnan, flInv) else (.inf false, flNone)
  | 2 => (.zero neg, flNone)
  | 3 => if neg then (.qnan, flInv) else (.zero false, flNone)
  | 5 | 6 => (.qnan, flInv)
  | 8 => (if neg then .zero false else .fin false 1 1, flNone)
  | _ => (.fin neg 1 1, flNone)

/-- The value of special function `fn` and the flags of its own (R64, R149): 0 exp2, 1 log2, 2 rcp, 3 rsqrt, 4 sqrt, 5 sin(pi x),
6 cos(pi x), 7 tanh, 8 sigmoid, 9 erf. [DEDUCED, log 17] -/
def numVsf (fn : Nat) (x : XNum) : XNum × Flg :=
  match x with
  | .snan => (.qnan, flInv)
  | .qnan => (.qnan, flNone)
  | .inf s => vsfInf fn s
  | .zero s => vsfZero fn s
  | .szero => vsfZero fn false
  | .fin s n d => vsfFin fn s n d

end Sys2Proof.Machine
end

