-- ==== Sys2Proof/Machine/Vec.lean ====
section
/-! DEFINITION. The element operations (R137 to R155): what one firing of a stage computes. -/

namespace Sys2Proof.Machine

/-! ### Element by element -/

/-- The element type of a word. -/
def FireIn.ty (x : FireIn) : Fmt := x.v.ty
/-- The codes of source A in the stage's type. -/
def FireIn.ea (x : FireIn) : List Nat := elemsOf x.ty x.a0
/-- The codes of source B. -/
def FireIn.eb (x : FireIn) : List Nat := elemsOf x.ty x.b
/-- The codes of source C. -/
def FireIn.ec (x : FireIn) : List Nat := elemsOf x.ty x.c

/-- One beat of results with flags of their own. -/
def outElems (f : Fmt) (l : List (Nat × Flg)) : FireOut :=
  { outs := [lineOf f (l.map (fun e => e.1))], flags := l.foldl (fun g e => g ||| e.2) flNone }
/-- One beat of codes that moved without interpretation. -/
def outMoved (f : Fmt) (l : List Nat) : FireOut := { outs := [lineOf f l], flags := flNone }
/-- Lane numbers beside a list. -/
def lanes {α : Type} (l : List α) : List (α × Nat) := l.zipIdx

/-- An exact result rounded into the stage's type (R137). -/
def vRound (x : FireIn) (i : Nat) (p : XNum × Flg) : Nat × Flg :=
  let q := encodeNum x.ty (fmtInt x.ty) x.v.rnd x.v.sat (x.mix i) p.1
  (q.1, p.2 ||| q.2)
/-- An arithmetic operation on two operands (R137, R140). -/
def vArith2 (f : XNum → XNum → XNum × Flg) (x : FireIn) : FireOut :=
  outElems x.ty ((lanes (x.ea.zip x.eb)).map (fun e => vRound x e.2 (f (decodeNum x.ty e.1.1) (decodeNum x.ty e.1.2))))
/-- An operation on the codes of two operands. -/
def vCode2 (f : Nat → Nat → Nat × Flg) (x : FireIn) : FireOut := outElems x.ty ((x.ea.zip x.eb).map (fun e => f e.1 e.2))
/-- A bitwise operation (R144). -/
def vBits (f : Line → Line → Line) (x : FireIn) : FireOut := { outs := [f x.a0 x.b], flags := flNone }

/-- The sign operations on one code (R142). -/
def signCode (f : Fmt) (neg sat : Bool) (a : Nat) : Nat × Flg :=
  let top := 2 ^ (fmtBits f - 1)
  match fmtKind f with
  | .fp _ => (if neg then (a + top) % (2 * top) else a % top, flNone)
  | .df8 => (if a = 0 ∨ a = 0x80 then a else if neg then (a + 128) % 256 else a % 128, flNone)
  | .int signed =>
    if !signed && !neg then (a, flNone)
    else
      let v := decodeNum f a
      encodeNum f true .rne sat 0 (if neg || v.neg then v.negate else v)

/-- A shift of one code (R144); counts of the width and more shift everything out. -/
def shiftCode (f : Fmt) (left arith sat : Bool) (a b : Nat) : Nat × Flg :=
  let w := fmtBits f
  let k := min b w
  if left then
    match decodeNum f a with
    | .fin s n d => encodeNum f true .rne sat 0 (.fin s (n * 2 ^ k) d)
    | _ => (0, flNone)
  else if arith && (match fmtKind f with
                    | .int signed => signed
                    | _ => false) then (wrapN w (sextN w a / ((2 ^ k : Nat) : Int)), flNone)
  else (a / 2 ^ k, flNone)

/-- A comparison of two codes (R145): conditions 0 eq, 1 ne, 2 lt, 3 le, 4 un. -/
def cmpCode (f : Fmt) (cond : Nat) (a b : Nat) : Nat × Flg :=
  let x := decodeNum f a
  let y := decodeNum f b
  let nan := x.isNaN || y.isNaN
  let sig := x == .snan || y == .snan
  let hold := match cond with
              | 0 => !nan && numEq x y
              | 1 => nan || !numEq x y
              | 2 => !nan && numLt x y
              | 3 => !nan && !numLt y x
              | _ => nan
  (if hold then 2 ^ fmtBits f - 1 else 0, flIf (sig || (nan && (cond == 2 || cond == 3))) flInv)

/-- `x * 2^k`. -/
def scaleNum (k : Int) : XNum → XNum
  | .fin s n d => if 0 ≤ k then .fin s (n * 2 ^ k.toNat) d else .fin s n (d * 2 ^ (-k).toNat)
  | x => x
/-- The exponent of VSCALE (R147); beyond 1,200 in magnitude every element rounds as at 1,200. -/
def scaleExp (w b : Nat) : Int := max (-1200) (min 1200 (sextN w b))

/-- Cut elements into beats of the stage's type. -/
def outBeats (f : Fmt) (l : List (Nat × Flg)) : FireOut :=
  { outs := (cutBeats (beatElems f) 64 (l.map (fun e => e.1))).1.map (lineOf f), flags := l.foldl (fun g e => g ||| e.2) flNone }

/-- The prefixes of a list that are not empty. -/
def prefixes {α : Type} (l : List α) : List (List α) := (List.range' 1 l.length).map (fun n => l.take n)

/-- The mask bit of element `i` (R152). -/
def maskBit (x : FireIn) (i : Nat) : Bool := if x.v.fn.getLsbD 0 then x.b.getLsbD i else x.eb.getD i 0 != 0
/-- VEXPAND: each set bit takes the next element (R152). -/
def expandGo (m : Nat → Bool) : Nat → Nat → List Nat → List Nat
  | 0, _, _ => []
  | n + 1, i, l => if m i then l.headD 0 :: expandGo m n (i + 1) l.tail else 0 :: expandGo m n (i + 1) l

/-- VADD: `A + B` in each element, rounded once (R137, R140). -/
def execVadd (v : VWord) (s : State) : Host.Outcome State Fault Refusal :=
  fireStage 0x80 v (vArith2 (fun a b => numSum [a, b])) s

/-- VSUB: `A - B` in each element (R137, R140). -/
def execVsub (v : VWord) (s : State) : Host.Outcome State Fault Refusal :=
  fireStage 0x81 v (vArith2 (fun a b => numSum [a, b.negate])) s

/-- VMUL: `A * B` in each element (R137, R140). -/
def execVmul (v : VWord) (s : State) : Host.Outcome State Fault Refusal :=
  fireStage 0x82 v (vArith2 numMul) s

/-- VFMA: `A * B + C` in each element with one rounding (R63, R140). -/
def execVfma (v : VWord) (s : State) : Host.Outcome State Fault Refusal :=
  fireStage 0x83 v (fun x =>
    outElems x.ty ((lanes (x.ea.zip (x.eb.zip x.ec))).map (fun e =>
      vRound x e.2 (numFma (decodeNum x.ty e.1.1) (decodeNum x.ty e.1.2.1) (decodeNum x.ty e.1.2.2))))) s

/-- VMAC: products into an accumulator, formed at the commit (R138, R141). -/
def execVmac (v : VWord) (s : State) : Host.Outcome State Fault Refusal :=
  fireStage 0x84 v (fun _ => { outs := [], flags := flNone }) s

/-- VDOT4: groups of four products into a quarter of an accumulator, formed at the commit (R138, R141). -/
def execVdot4 (v : VWord) (s : State) : Host.Outcome State Fault Refusal :=
  fireStage 0x85 v (fun _ => { outs := [], flags := 0 }) s

/-- VABS: the magnitude of each element (R142). -/
def execVabs (v : VWord) (s : State) : Host.Outcome State Fault Refusal :=
  fireStage 0x86 v (fun x => outElems x.ty (x.ea.map (signCode x.ty false x.v.sat))) s

/-- VNEG: each element with its sign changed (R142). -/
def execVneg (v : VWord) (s : State) : Host.Outcome State Fault Refusal :=
  fireStage 0x87 v (fun x => outElems x.ty (x.ea.map (signCode x.ty true x.v.sat))) s

/-- VMIN: minimumNumber (R65, R143). -/
def execVmin (v : VWord) (s : State) : Host.Outcome State Fault Refusal :=
  fireStage 0x88 v (fun x => vCode2 (minMaxCode x.ty false true) x) s

/-- VMAX: maximumNumber (R65, R143). -/
def execVmax (v : VWord) (s : State) : Host.Outcome State Fault Refusal :=
  fireStage 0x89 v (fun x => vCode2 (minMaxCode x.ty true true) x) s

/-- VMINP: minimum, NaN-propagating (R65, R143). -/
def execVminp (v : VWord) (s : State) : Host.Outcome State Fault Refusal :=
  fireStage 0x8A v (fun x => vCode2 (minMaxCode x.ty false false) x) s

/-- VMAXP: maximum, NaN-propagating (R65, R143). -/
def execVmaxp (v : VWord) (s : State) : Host.Outcome State Fault Refusal :=
  fireStage 0x8B v (fun x => vCode2 (minMaxCode x.ty true false) x) s

/-- VCLAMP: `min(max(A, B), C)`, both steps by R65 (R143). -/
def execVclamp (v : VWord) (s : State) : Host.Outcome State Fault Refusal :=
  fireStage 0x8C v (fun x =>
    outElems x.ty ((x.ea.zip (x.eb.zip x.ec)).map (fun e =>
      let p := minMaxCode x.ty true true e.1 e.2.1
      let q := minMaxCode x.ty false true p.1 e.2.2
      (q.1, p.2 ||| q.2)))) s

/-- VAND (R144). -/
def execVand (v : VWord) (s : State) : Host.Outcome State Fault Refusal :=
  fireStage 0x8D v (vBits (fun a b => a &&& b)) s

/-- VOR (R144). -/
def execVor (v : VWord) (s : State) : Host.Outcome State Fault Refusal :=
  fireStage 0x8E v (vBits (fun a b => a ||| b)) s

/-- VXOR (R144). -/
def execVxor (v : VWord) (s : State) : Host.Outcome State Fault Refusal :=
  fireStage 0x8F v (vBits (fun a b => a ^^^ b)) s

/-- VSHL: `A * 2^B`, wrapped or clamped (R137, R144). -/
def execVshl (v : VWord) (s : State) : Host.Outcome State Fault Refusal :=
  fireStage 0x90 v (fun x => vCode2 (shiftCode x.ty true false x.v.sat) x) s

/-- VSHR: logical right shift (R144). -/
def execVshr (v : VWord) (s : State) : Host.Outcome State Fault Refusal :=
  fireStage 0x91 v (fun x => vCode2 (shiftCode x.ty false false false) x) s

/-- VSRA: arithmetic right shift (R144). -/
def execVsra (v : VWord) (s : State) : Host.Outcome State Fault Refusal :=
  fireStage 0x92 v (fun x => vCode2 (shiftCode x.ty false true false) x) s

/-- VCMP: all ones where the condition holds (R145). -/
def execVcmp (v : VWord) (s : State) : Host.Outcome State Fault Refusal :=
  fireStage 0x93 v (fun x => vCode2 (cmpCode x.ty x.v.fn.toNat) x) s

/-- VSEL: A where the bits of C are not zero, else B (R145). -/
def execVsel (v : VWord) (s : State) : Host.Outcome State Fault Refusal :=
  fireStage 0x94 v (fun x =>
    outMoved x.ty ((x.ea.zip (x.eb.zip x.ec)).map (fun e => if e.2.2 = 0 then e.2.1 else e.1))) s

/-- VCVT: elements of the source format converted and repacked (R61, R132, R146). -/
def execVcvt (v : VWord) (s : State) : Host.Outcome State Fault Refusal :=
  fireStage 0x95 v (fun x =>
    let src := fmtOf x.v.fn.toNat
    outBeats x.ty ((lanes (x.a.flatMap (elemsOf src))).map (fun e => convert x.ty src x.v.rnd x.v.sat (x.mix e.2) e.1))) s

/-- VSCALE: `A * 2^B` (R147). -/
def execVscale (v : VWord) (s : State) : Host.Outcome State Fault Refusal :=
  fireStage 0x96 v (fun x =>
    outElems x.ty ((lanes (x.ea.zip x.eb)).map (fun e =>
      vRound x e.2 (scaleNum (scaleExp (fmtBits x.ty) e.1.2) (decodeNum x.ty e.1.1), flNone)))) s

/-- VAMAX: A moves on, and its largest magnitude goes to a register at the commit (R69, R148). -/
def execVamax (v : VWord) (s : State) : Host.Outcome State Fault Refusal :=
  fireStage 0x97 v (fun x =>
    { outs := [x.a0], flags := flNone,
      mag := some (x.v.fn.toNat % 4, x.ea.foldl (fun m e => magUpdate m (decodeNum x.ty e)) 0) }) s

/-- VSF: a special function of each element, correctly rounded (R64, R149). -/
def execVsf (v : VWord) (s : State) : Host.Outcome State Fault Refusal :=
  fireStage 0x98 v (fun x =>
    outElems x.ty ((lanes x.ea).map (fun e => vRound x e.2 (numVsf x.v.fn.toNat (decodeNum x.ty e.1))))) s

/-- VSUM: the sum of all elements in element 0 (R150). -/
def execVsum (v : VWord) (s : State) : Host.Outcome State Fault Refusal :=
  fireStage 0x99 v (fun x =>
    outElems x.ty (vRound x 0 (numSum (x.ea.map (decodeNum x.ty))) :: rep (x.ea.length - 1) (0, flNone))) s

/-- VSCAN: each prefix sum rounded from its own exact sum, with or without the carry (R150). [DESIGN CHOICE, log 66] -/
def execVscan (v : VWord) (s : State) : Host.Outcome State Fault Refusal :=
  fireStage 0x9A v (fun x =>
    let c := x.v.fn.getLsbD 0
    let lead := if c then [decodeNum x.ty x.carry.toNat] else []
    let l := (lanes (prefixes (x.ea.map (decodeNum x.ty)))).map (fun e => vRound x e.2 (numSum (lead ++ e.1)))
    { outElems x.ty l with carry := if c then some (toWord (l.getLastD (0, flNone)).1) else none }) s

/-- VPERM: each lane picks an element of A (R151). -/
def execVperm (v : VWord) (s : State) : Host.Outcome State Fault Refusal :=
  fireStage 0x9B v (fun x =>
    outMoved x.ty (x.eb.map (fun i => x.ea.getD (i % x.ea.length) 0))) s

/-- VPERM, function 1: each lane picks an element of A followed by C (R151). -/
def execVperm2 (v : VWord) (s : State) : Host.Outcome State Fault Refusal :=
  fireStage 0x9B v (fun x =>
    outMoved x.ty (x.eb.map (fun i => (x.ea ++ x.ec).getD (i % (2 * x.ea.length)) 0))) s

/-- VBCAST: element k of A in every lane (R151). -/
def execVbcast (v : VWord) (s : State) : Host.Outcome State Fault Refusal :=
  fireStage 0x9C v (fun x =>
    outMoved x.ty (rep x.ea.length (x.ea.getD x.v.fn.toNat 0))) s

/-- VSLIDE: A followed by B, from element k (R151). -/
def execVslide (v : VWord) (s : State) : Host.Outcome State Fault Refusal :=
  fireStage 0x9D v (fun x =>
    outMoved x.ty (((x.ea ++ x.eb).drop x.v.fn.toNat).take x.ea.length)) s

/-- VTAP: each lane reads its own tap (R151). -/
def execVtap (v : VWord) (s : State) : Host.Outcome State Fault Refusal :=
  fireStage 0x9E v (fun x =>
    outMoved x.ty ((lanes x.eb).map (fun e =>
      let i : Int := ((x.v.selA.toNat - 64 : Nat) : Int) + sextN (fmtBits x.ty) e.1
      (elemsOf x.ty (Assoc.get 0 (max 0 (min 63 i)).toNat x.taps)).getD e.2 0))) s

/-- VEXPAND: the elements of A spread over the set mask bits (R152). -/
def execVexpand (v : VWord) (s : State) : Host.Outcome State Fault Refusal :=
  fireStage 0x9F v (fun x => outMoved x.ty (expandGo (maskBit x) x.ea.length 0 x.ea)) s

/-- VCOMPRESS: the masked elements of A, in order, then zeros (R152). -/
def execVcompress (v : VWord) (s : State) : Host.Outcome State Fault Refusal :=
  fireStage 0xA0 v (fun x =>
    outMoved x.ty (((lanes x.ea).filter (fun e => maskBit x e.2)).map (fun e => e.1))) s

/-- VSTEER: A to the output that bit 0 of B selects (R153). -/
def execVsteer (v : VWord) (s : State) : Host.Outcome State Fault Refusal :=
  fireStage 0xA1 v (fun x =>
    { outs := [x.a0], flags := flNone, steer := some (b2n (x.b.getLsbD 0)) }) s

/-- VMERGE: the token of the input that bit 0 of C selects (R153). -/
def execVmerge (v : VWord) (s : State) : Host.Outcome State Fault Refusal :=
  fireStage 0xA2 v (fun x =>
    { outs := [if x.c.getLsbD 0 then x.b else x.a0], flags := flNone }) s

/-- VNRW from an accumulator: read, scaled and rounded at the commit (R138, R154). -/
def execVnrw (v : VWord) (s : State) : Host.Outcome State Fault Refusal :=
  fireStage 0xA3 v (fun _ => { outs := [], flags := flNone, mag := none }) s

/-- VNRW in stream mode: FP32 elements scaled and rounded once (R154). -/
def execVnrwStream (v : VWord) (s : State) : Host.Outcome State Fault Refusal :=
  fireStage 0xA3 v (fun x =>
    let t : XNum := if x.v.fn.getLsbD 4 then .fin false 1 1 else decodeNum .fp32 x.scale.toNat
    outBeats x.ty ((lanes (x.a.flatMap (elemsOf .fp32))).map (fun e =>
      let p := numMul (decodeNum .fp32 e.1) t
      let q := encodeNum x.ty false x.v.rnd x.v.sat (x.mix e.2) p.1
      (q.1, p.2 ||| q.2)))) s

/-- VMOV: A to an output bit for bit; into an accumulator at the commit (R138, R155). -/
def execVmov (v : VWord) (s : State) : Host.Outcome State Fault Refusal :=
  fireStage 0xA4 v (fun x =>
    { outs := [x.a0], flags := flNone }) s

end Sys2Proof.Machine
end

