-- ==== Sys2Proof/Machine/Dispatch.lean ====
section
/-! DEFINITION. The meaning of every instruction: one arm for each constructor, one call of its meaning. -/

namespace Sys2Proof.Machine

def exec (i : Instr) (s : State) : Host.Outcome State Fault Refusal :=
  match i with
  | .add g d a b => Sys2Proof.Machine.execAdd g d a b s
  | .addSat g d a b => Sys2Proof.Machine.execAddSat g d a b s
  | .sub g d a b => Sys2Proof.Machine.execSub g d a b s
  | .subSat g d a b => Sys2Proof.Machine.execSubSat g d a b s
  | .mul g d a b => Sys2Proof.Machine.execMul g d a b s
  | .mulSat g d a b => Sys2Proof.Machine.execMulSat g d a b s
  | .mulh g d a b => Sys2Proof.Machine.execMulh g d a b s
  | .mulhu g d a b => Sys2Proof.Machine.execMulhu g d a b s
  | .div g d a b => Sys2Proof.Machine.execDiv g d a b s
  | .divu g d a b => Sys2Proof.Machine.execDivu g d a b s
  | .rem g d a b => Sys2Proof.Machine.execRem g d a b s
  | .remu g d a b => Sys2Proof.Machine.execRemu g d a b s
  | .and g d a b => Sys2Proof.Machine.execAnd g d a b s
  | .or g d a b => Sys2Proof.Machine.execOr g d a b s
  | .xor g d a b => Sys2Proof.Machine.execXor g d a b s
  | .andn g d a b => Sys2Proof.Machine.execAndn g d a b s
  | .shl g d a b => Sys2Proof.Machine.execShl g d a b s
  | .shlSat g d a b => Sys2Proof.Machine.execShlSat g d a b s
  | .shr g d a b => Sys2Proof.Machine.execShr g d a b s
  | .sra g d a b => Sys2Proof.Machine.execSra g d a b s
  | .rotr g d a b => Sys2Proof.Machine.execRotr g d a b s
  | .min g d a b => Sys2Proof.Machine.execMin g d a b s
  | .max g d a b => Sys2Proof.Machine.execMax g d a b s
  | .minu g d a b => Sys2Proof.Machine.execMinu g d a b s
  | .maxu g d a b => Sys2Proof.Machine.execMaxu g d a b s
  | .clz g d a => Sys2Proof.Machine.execClz g d a s
  | .ctz g d a => Sys2Proof.Machine.execCtz g d a s
  | .popc g d a => Sys2Proof.Machine.execPopc g d a s
  | .addi g d a imm => Sys2Proof.Machine.execAddi g d a imm s
  | .andi g d a imm => Sys2Proof.Machine.execAndi g d a imm s
  | .ori g d a imm => Sys2Proof.Machine.execOri g d a imm s
  | .xori g d a imm => Sys2Proof.Machine.execXori g d a imm s
  | .shli g d a sh => Sys2Proof.Machine.execShli g d a sh s
  | .shri g d a sh => Sys2Proof.Machine.execShri g d a sh s
  | .srai g d a sh => Sys2Proof.Machine.execSrai g d a sh s
  | .lui g d a imm => Sys2Proof.Machine.execLui g d a imm s
  | .lea g d a b k => Sys2Proof.Machine.execLea g d a b k s
  | .sel g d a b p => Sys2Proof.Machine.execSel g d a b p s
  | .ceq g p a b => Sys2Proof.Machine.execCeq g p a b s
  | .cne g p a b => Sys2Proof.Machine.execCne g p a b s
  | .clt g p a b => Sys2Proof.Machine.execClt g p a b s
  | .cle g p a b => Sys2Proof.Machine.execCle g p a b s
  | .cltu g p a b => Sys2Proof.Machine.execCltu g p a b s
  | .cleu g p a b => Sys2Proof.Machine.execCleu g p a b s
  | .ceqi g p a imm => Sys2Proof.Machine.execCeqi g p a imm s
  | .clti g p a imm => Sys2Proof.Machine.execClti g p a imm s
  | .pand g p x y nx ny => Sys2Proof.Machine.execPand g p x y nx ny s
  | .por g p x y nx ny => Sys2Proof.Machine.execPor g p x y nx ny s
  | .pxor g p x y nx ny => Sys2Proof.Machine.execPxor g p x y nx ny s
  | .fadd g d a b f => Sys2Proof.Machine.execFadd g d a b f s
  | .fsub g d a b f => Sys2Proof.Machine.execFsub g d a b f s
  | .fmul g d a b f => Sys2Proof.Machine.execFmul g d a b f s
  | .ffma g d a b c f => Sys2Proof.Machine.execFfma g d a b c f s
  | .fdiv g d a b f => Sys2Proof.Machine.execFdiv g d a b f s
  | .fsqrt g d a f => Sys2Proof.Machine.execFsqrt g d a f s
  | .fmin g d a b pr => Sys2Proof.Machine.execFmin g d a b pr s
  | .fmax g d a b pr => Sys2Proof.Machine.execFmax g d a b pr s
  | .fcmp g p a b pr c => Sys2Proof.Machine.execFcmp g p a b pr c s
  | .fcvt g d a sk dk rm sat => Sys2Proof.Machine.execFcvt g d a sk dk rm sat s
  | .fclass g d a pr => Sys2Proof.Machine.execFclass g d a pr s
  | .ldl g x base m => Sys2Proof.Machine.execLdl g x base m s
  | .stl g x base m => Sys2Proof.Machine.execStl g x base m s
  | .ldr g x base m => Sys2Proof.Machine.execLdr g x base m s
  | .str g x base m => Sys2Proof.Machine.execStr g x base m s
  | .lds g x base m => Sys2Proof.Machine.execLds g x base m s
  | .sts g x base m => Sys2Proof.Machine.execSts g x base m s
  | .ldg g x base m => Sys2Proof.Machine.execLdg g x base m s
  | .ldgAcq g x base m => Sys2Proof.Machine.execLdgAcq g x base m s
  | .ldgSc g x base m => Sys2Proof.Machine.execLdgSc g x base m s
  | .stg g x base m => Sys2Proof.Machine.execStg g x base m s
  | .stgRel g x base m => Sys2Proof.Machine.execStgRel g x base m s
  | .stgSc g x base m => Sys2Proof.Machine.execStgSc g x base m s
  | .ats g a b op dbl => Sys2Proof.Machine.execAts g a b op dbl s
  | .atsv g d a b c op dbl => Sys2Proof.Machine.execAtsv g d a b c op dbl s
  | .atg g a b op dbl => Sys2Proof.Machine.execAtg g a b op dbl s
  | .atgv g d a b c op dbl => Sys2Proof.Machine.execAtgv g d a b c op dbl s
  | .recv g d j => Sys2Proof.Machine.execRecv g d j s
  | .send g a b => Sys2Proof.Machine.execSend g a b s
  | .sendRel g a b sc => Sys2Proof.Machine.execSendRel g a b sc s
  | .peek g d j => Sys2Proof.Machine.execPeek g d j s
  | .peekQ g p j => Sys2Proof.Machine.execPeekQ g p j s
  | .br g c disp => Sys2Proof.Machine.execBr g c disp s
  | .jmp g disp => Sys2Proof.Machine.execJmp g disp s
  | .call g l disp => Sys2Proof.Machine.execCall g l disp s
  | .loop g c disp => Sys2Proof.Machine.execLoop g c disp s
  | .twait g d a => Sys2Proof.Machine.execTwait g d a s
  | .trun g d a b c => Sys2Proof.Machine.execTrun g d a b c s
  | .tend g => Sys2Proof.Machine.execTend g s
  | .trap g imm => Sys2Proof.Machine.execTrap g imm s
  | .empty g d => Sys2Proof.Machine.execEmpty g d s
  | .fullq g p a => Sys2Proof.Machine.execFullq g p a s
  | .yield g => Sys2Proof.Machine.execYield g s
  | .halt g imm => Sys2Proof.Machine.execHalt g imm s
  | .mfsr g d y => Sys2Proof.Machine.execMfsr g d y s
  | .mtsr g y a => Sys2Proof.Machine.execMtsr g y a s
  | .fenceWait g => Sys2Proof.Machine.execFenceWait g s
  | .fenceRel g sc => Sys2Proof.Machine.execFenceRel g sc s
  | .fenceAcq g sc => Sys2Proof.Machine.execFenceAcq g sc s
  | .fenceAcqrel g sc => Sys2Proof.Machine.execFenceAcqrel g sc s
  | .rdtime g d => Sys2Proof.Machine.execRdtime g d s
  | .rdtimeCyc g d => Sys2Proof.Machine.execRdtimeCyc g d s
  | .digest g d a b => Sys2Proof.Machine.execDigest g d a b s
  | .digestOut g a b c => Sys2Proof.Machine.execDigestOut g a b c s
  | .seed g a => Sys2Proof.Machine.execSeed g a s
  | .colchk g d => Sys2Proof.Machine.execColchk g d s
  | .vadd v => Sys2Proof.Machine.execVadd v s
  | .vsub v => Sys2Proof.Machine.execVsub v s
  | .vmul v => Sys2Proof.Machine.execVmul v s
  | .vfma v => Sys2Proof.Machine.execVfma v s
  | .vmac v => Sys2Proof.Machine.execVmac v s
  | .vdot4 v => Sys2Proof.Machine.execVdot4 v s
  | .vabs v => Sys2Proof.Machine.execVabs v s
  | .vneg v => Sys2Proof.Machine.execVneg v s
  | .vmin v => Sys2Proof.Machine.execVmin v s
  | .vmax v => Sys2Proof.Machine.execVmax v s
  | .vminp v => Sys2Proof.Machine.execVminp v s
  | .vmaxp v => Sys2Proof.Machine.execVmaxp v s
  | .vclamp v => Sys2Proof.Machine.execVclamp v s
  | .vand v => Sys2Proof.Machine.execVand v s
  | .vor v => Sys2Proof.Machine.execVor v s
  | .vxor v => Sys2Proof.Machine.execVxor v s
  | .vshl v => Sys2Proof.Machine.execVshl v s
  | .vshr v => Sys2Proof.Machine.execVshr v s
  | .vsra v => Sys2Proof.Machine.execVsra v s
  | .vcmp v => Sys2Proof.Machine.execVcmp v s
  | .vsel v => Sys2Proof.Machine.execVsel v s
  | .vcvt v => Sys2Proof.Machine.execVcvt v s
  | .vscale v => Sys2Proof.Machine.execVscale v s
  | .vamax v => Sys2Proof.Machine.execVamax v s
  | .vsf v => Sys2Proof.Machine.execVsf v s
  | .vsum v => Sys2Proof.Machine.execVsum v s
  | .vscan v => Sys2Proof.Machine.execVscan v s
  | .vperm v => Sys2Proof.Machine.execVperm v s
  | .vperm2 v => Sys2Proof.Machine.execVperm2 v s
  | .vbcast v => Sys2Proof.Machine.execVbcast v s
  | .vslide v => Sys2Proof.Machine.execVslide v s
  | .vtap v => Sys2Proof.Machine.execVtap v s
  | .vexpand v => Sys2Proof.Machine.execVexpand v s
  | .vcompress v => Sys2Proof.Machine.execVcompress v s
  | .vsteer v => Sys2Proof.Machine.execVsteer v s
  | .vmerge v => Sys2Proof.Machine.execVmerge v s
  | .vnrw v => Sys2Proof.Machine.execVnrw v s
  | .vnrwStream v => Sys2Proof.Machine.execVnrwStream v s
  | .vmov v => Sys2Proof.Machine.execVmov v s
  | .chain g d a b t eoi => Sys2Proof.Machine.execChain g d a b t eoi s
  | .cwait g d a => Sys2Proof.Machine.execCwait g d a s
  | .cwaitFlags g d t => Sys2Proof.Machine.execCwaitFlags g d t s
  | .cwaitMag g d t m => Sys2Proof.Machine.execCwaitMag g d t m s
  | .sbind g d a b eoi port ag pat => Sys2Proof.Machine.execSbind g d a b eoi port ag pat s
  | .sclose g d port ag => Sys2Proof.Machine.execSclose g d port ag s
  | .scloseAbort g d port ag => Sys2Proof.Machine.execScloseAbort g d port ag s
  | .sbar g mask => Sys2Proof.Machine.execSbar g mask s
  | .sbarWait g mask => Sys2Proof.Machine.execSbarWait g mask s
  | .cbar g d a id => Sys2Proof.Machine.execCbar g d a id s
  | .phase g d a sc id => Sys2Proof.Machine.execPhase g d a sc id s
  | .xformCvt g d a b fmt dfmt rnd sat => Sys2Proof.Machine.execXformCvt g d a b fmt dfmt rnd sat s
  | .xformScale g d a b c fmt rnd sat => Sys2Proof.Machine.execXformScale g d a b c fmt rnd sat s
  | .xformFill g d a b c fmt sat => Sys2Proof.Machine.execXformFill g d a b c fmt sat s
  | .xformAdd g d a b c fmt rnd sat => Sys2Proof.Machine.execXformAdd g d a b c fmt rnd sat s
  | .xformAmax g d a b fmt sat => Sys2Proof.Machine.execXformAmax g d a b fmt sat s
  | .mscale g d a b => Sys2Proof.Machine.execMscale g d a b s
  | .mscaleMx g d a b => Sys2Proof.Machine.execMscaleMx g d a b s
  | .mwload g d a b c => Sys2Proof.Machine.execMwload g d a b c s
  | .mwloadP g d b c => Sys2Proof.Machine.execMwloadP g d b c s
  | .marm g d a sec => Sys2Proof.Machine.execMarm g d a sec s
  | .marmQ g d sec => Sys2Proof.Machine.execMarmQ g d sec s
  | .marmWait g d sec => Sys2Proof.Machine.execMarmWait g d sec s
  | .marmFlags g d sec => Sys2Proof.Machine.execMarmFlags g d sec s
  | .crun g d a ch => Sys2Proof.Machine.execCrun g d a ch s
  | .crunWait g d ch => Sys2Proof.Machine.execCrunWait g d ch s
  | .cedge g d a b ch => Sys2Proof.Machine.execCedge g d a b ch s
  | .copy g d a => Sys2Proof.Machine.execCopy g d a s
  | .copyWait g d a => Sys2Proof.Machine.execCopyWait g d a s
  | .xexpect g d a id => Sys2Proof.Machine.execXexpect g d a id s
  | .xwait g d id => Sys2Proof.Machine.execXwait g d id s
  | .tinv g d a b => Sys2Proof.Machine.execTinv g d a b s
  | .tinvT g d a => Sys2Proof.Machine.execTinvT g d a s
  | .tinvAll g d => Sys2Proof.Machine.execTinvAll g d s
  | .tinvWait g d => Sys2Proof.Machine.execTinvWait g d s
  | .xlook g d a b => Sys2Proof.Machine.execXlook g d a b s
  | .xlookO g d a b => Sys2Proof.Machine.execXlookO g d a b s
  | .glaunch g d a => Sys2Proof.Machine.execGlaunch g d a s
  | .glaunchQ g d a => Sys2Proof.Machine.execGlaunchQ g d a s
  | .garm g d a b sec => Sys2Proof.Machine.execGarm g d a b sec s
  | .garmQ g d a sec => Sys2Proof.Machine.execGarmQ g d a sec s
  | .collReduceRing g d a => Sys2Proof.Machine.execCollReduceRing g d a s
  | .collReduceTree g d a => Sys2Proof.Machine.execCollReduceTree g d a s
  | .collAllreduceRing g d a => Sys2Proof.Machine.execCollAllreduceRing g d a s
  | .collAllreduceTree g d a => Sys2Proof.Machine.execCollAllreduceTree g d a s
  | .collGather g d a => Sys2Proof.Machine.execCollGather g d a s
  | .collScatter g d a => Sys2Proof.Machine.execCollScatter g d a s
  | .collRank g d => Sys2Proof.Machine.execCollRank g d s
  | .ddcfg g d a => Sys2Proof.Machine.execDdcfg g d a s
  | .ddcfgGrow g d a => Sys2Proof.Machine.execDdcfgGrow g d a s
  | .ddvar g d a => Sys2Proof.Machine.execDdvar g d a s
  | .ddvarLvl g d a => Sys2Proof.Machine.execDdvarLvl g d a s
  | .ddvarVar g d a => Sys2Proof.Machine.execDdvarVar g d a s
  | .ddite g d a b c => Sys2Proof.Machine.execDdite g d a b c s
  | .ddapply g d a b op => Sys2Proof.Machine.execDdapply g d a b op s
  | .ddrestrict g d a b => Sys2Proof.Machine.execDdrestrict g d a b s
  | .ddquantEx g d a b => Sys2Proof.Machine.execDdquantEx g d a b s
  | .ddquantAll g d a b => Sys2Proof.Machine.execDdquantAll g d a b s
  | .ddcompose g d a b c => Sys2Proof.Machine.execDdcompose g d a b c s
  | .ddwcount g d a b c => Sys2Proof.Machine.execDdwcount g d a b c s
  | .ddsat g d a => Sys2Proof.Machine.execDdsat g d a s
  | .ddenum g d a b c => Sys2Proof.Machine.execDdenum g d a b c s
  | .ddenumE g d a b c => Sys2Proof.Machine.execDdenumE g d a b c s
  | .ddref g d a => Sys2Proof.Machine.execDdref g d a s
  | .ddderef g d a => Sys2Proof.Machine.execDdderef g d a s
  | .ddgc g d => Sys2Proof.Machine.execDdgc g d s
  | .ddswap g d a => Sys2Proof.Machine.execDdswap g d a s
  | .ddnode g d a => Sys2Proof.Machine.execDdnode g d a s
  | .ddstat g d k => Sys2Proof.Machine.execDdstat g d k s
  | .issueSelect r u => Sys2Proof.Machine.execIssueSelect r u s
  | .producerCompletion r u k => Sys2Proof.Machine.execProducerCompletion r u k s
  | .channelWordArrival r k => Sys2Proof.Machine.execChannelWordArrival r k s
  | .atomicPerform r k => Sys2Proof.Machine.execAtomicPerform r k s
  | .nodeFiringCommit r u t j => Sys2Proof.Machine.execNodeFiringCommit r u t j s
  | .eoiHandling r nd => Sys2Proof.Machine.execEoiHandling r nd s
  | .chainStart r u k => Sys2Proof.Machine.execChainStart r u k s
  | .chainEnd r u k => Sys2Proof.Machine.execChainEnd r u k s
  | .arcBeat r u k => Sys2Proof.Machine.execArcBeat r u k s
  | .spillReturn r u k => Sys2Proof.Machine.execSpillReturn r u k s
  | .headerLatch r nd p => Sys2Proof.Machine.execHeaderLatch r nd p s
  | .steerNodeFiring r u j => Sys2Proof.Machine.execSteerNodeFiring r u j s
  | .mergeNodeFiring r u j => Sys2Proof.Machine.execMergeNodeFiring r u j s
  | .streamReadBeat r u p => Sys2Proof.Machine.execStreamReadBeat r u p s
  | .streamWriteBeat r u p => Sys2Proof.Machine.execStreamWriteBeat r u p s
  | .streamCommandComplete r u p => Sys2Proof.Machine.execStreamCommandComplete r u p s
  | .portCloseReached r u p => Sys2Proof.Machine.execPortCloseReached r u p s
  | .streamBarrierPass r cl id => Sys2Proof.Machine.execStreamBarrierPass r cl id s
  | .coatFiring r ch k => Sys2Proof.Machine.execCoatFiring r ch k s
  | .coatDrain r ch k => Sys2Proof.Machine.execCoatDrain r ch k s
  | .coatPassStart r ch => Sys2Proof.Machine.execCoatPassStart r ch s
  | .mxFiring r u sec => Sys2Proof.Machine.execMxFiring r u sec s
  | .panelLoadStart r u => Sys2Proof.Machine.execPanelLoadStart r u s
  | .panelUnitArrival r u => Sys2Proof.Machine.execPanelUnitArrival r u s
  | .panelLoadEnd r u => Sys2Proof.Machine.execPanelLoadEnd r u s
  | .input4EoiDrop r u => Sys2Proof.Machine.execInput4EoiDrop r u s
  | .garmCheck r u sec => Sys2Proof.Machine.execGarmCheck r u sec s
  | .copyStart r k => Sys2Proof.Machine.execCopyStart r k s
  | .copyUnitComplete r k => Sys2Proof.Machine.execCopyUnitComplete r k s
  | .budgetRefill asid => Sys2Proof.Machine.execBudgetRefill asid s
  | .ddeBatchEntry r n => Sys2Proof.Machine.execDdeBatchEntry r n s
  | .sealFill asid tile => Sys2Proof.Machine.execSealFill asid tile s
  | .sealWriteback tile => Sys2Proof.Machine.execSealWriteback tile s
  | .rekey asid => Sys2Proof.Machine.execRekey asid s
  | .tileMigrationStart tile => Sys2Proof.Machine.execTileMigrationStart tile s
  | .tileMigrationEnd tile ptn => Sys2Proof.Machine.execTileMigrationEnd tile ptn s
  | .doorbellWrite f q v => Sys2Proof.Machine.execDoorbellWrite f q v s
  | .launchRecordFetch f q rec => Sys2Proof.Machine.execLaunchRecordFetch f q rec s
  | .qcfgWrite f q v => Sys2Proof.Machine.execQcfgWrite f q v s
  | .qstatClear f q v => Sys2Proof.Machine.execQstatClear f q v s
  | .fcfgWrite f v => Sys2Proof.Machine.execFcfgWrite f v s
  | .fridxWrite f v => Sys2Proof.Machine.execFridxWrite f v s
  | .frespRetry f tag => Sys2Proof.Machine.execFrespRetry f tag s
  | .frespAbort f tag => Sys2Proof.Machine.execFrespAbort f tag s
  | .acfgWrite v => Sys2Proof.Machine.execAcfgWrite v s
  | .astatClear v => Sys2Proof.Machine.execAstatClear v s
  | .adminDoorbell v => Sys2Proof.Machine.execAdminDoorbell v s
  | .hostRegisterWrite f off v => Sys2Proof.Machine.execHostRegisterWrite f off v s
  | .createRegion x rg => Sys2Proof.Machine.execCreateRegion x rg s
  | .destroyRegion x r => Sys2Proof.Machine.execDestroyRegion x r s
  | .createContext x a => Sys2Proof.Machine.execCreateContext x a s
  | .removeContext x asid => Sys2Proof.Machine.execRemoveContext x asid s
  | .bindQueue x f q a => Sys2Proof.Machine.execBindQueue x f q a s
  | .setSecondStageRoot x f root => Sys2Proof.Machine.execSetSecondStageRoot x f root s
  | .secondStageInvalidate x f => Sys2Proof.Machine.execSecondStageInvalidate x f s
  | .stopContext x asid => Sys2Proof.Machine.execStopContext x asid s
  | .preemptContext x asid migrate => Sys2Proof.Machine.execPreemptContext x asid migrate s
  | .readCertificateChain x => Sys2Proof.Machine.execReadCertificateChain x s
  | .formGang x a => Sys2Proof.Machine.execFormGang x a s
  | .dissolveGang x a => Sys2Proof.Machine.execDissolveGang x a s
  | .schedulerSelect r => Sys2Proof.Machine.execSchedulerSelect r s
  | .fabricLoadStart r => Sys2Proof.Machine.execFabricLoadStart r s
  | .configFrame r => Sys2Proof.Machine.execConfigFrame r s
  | .endFrame r => Sys2Proof.Machine.execEndFrame r s
  | .graphNodeStart r n => Sys2Proof.Machine.execGraphNodeStart r n s
  | .successorLaunch r n => Sys2Proof.Machine.execSuccessorLaunch r n s
  | .blotterQuiescence r => Sys2Proof.Machine.execBlotterQuiescence r s
  | .checkRun2Start q => Sys2Proof.Machine.execCheckRun2Start q s
  | .graphComplete r => Sys2Proof.Machine.execGraphComplete r s
  | .watchdog r => Sys2Proof.Machine.execWatchdog r s
  | .stopRecordsWritten r => Sys2Proof.Machine.execStopRecordsWritten r s
  | .dumpWritten r ok => Sys2Proof.Machine.execDumpWritten r ok s
  | .whitewashLoad r => Sys2Proof.Machine.execWhitewashLoad r s
  | .regionRelease q => Sys2Proof.Machine.execRegionRelease q s
  | .whitewashTimeout r => Sys2Proof.Machine.execWhitewashTimeout r s
  | .liftMarkerSave r nd => Sys2Proof.Machine.execLiftMarkerSave r nd s
  | .forcedMarker r => Sys2Proof.Machine.execForcedMarker r s
  | .saveImageComplete r => Sys2Proof.Machine.execSaveImageComplete r s
  | .restore r => Sys2Proof.Machine.execRestore r s
  | .scrub r bad => Sys2Proof.Machine.execScrub r bad s
  | .colophonWritten r => Sys2Proof.Machine.execColophonWritten r s
  | .reset => Sys2Proof.Machine.execReset s
  | .lifecycleChange st => Sys2Proof.Machine.execLifecycleChange st s
  | .sliceRequest gid slice dl => Sys2Proof.Machine.execSliceRequest gid slice dl s
  | .vacatedMessage gid rank slice => Sys2Proof.Machine.execVacatedMessage gid rank slice s
  | .goMessage gid slice => Sys2Proof.Machine.execGoMessage gid slice s
  | .gangDeadline gid => Sys2Proof.Machine.execGangDeadline gid s
  | .abortMessage gid slice => Sys2Proof.Machine.execAbortMessage gid slice s
  | .peerStopMessage gid rank => Sys2Proof.Machine.execPeerStopMessage gid rank s
  | .collBeatArrival asid m => Sys2Proof.Machine.execCollBeatArrival asid m s
  | .liftFlitArrival asid rank => Sys2Proof.Machine.execLiftFlitArrival asid rank s
  | .linkDown port peers => Sys2Proof.Machine.execLinkDown port peers s
  | .thermalThrottle => Sys2Proof.Machine.execThermalThrottle s
  | .publishComplete r u k => Sys2Proof.Machine.execPublishComplete r u k s
  | .xformComplete r u k => Sys2Proof.Machine.execXformComplete r u k s
  | .tinvComplete r k => Sys2Proof.Machine.execTinvComplete r k s
  | .ddeCommandPerform r k => Sys2Proof.Machine.execDdeCommandPerform r k s
  | .softError site => Sys2Proof.Machine.execSoftError site s
  | .expanderLinkFailure port => Sys2Proof.Machine.execExpanderLinkFailure port s

end Sys2Proof.Machine
end

