-- ==== Sys2Proof/Machine/Step.lean ====
section
/-! DEFINITION. One step of the machine: the next word of the selected slot, the next firing of the selected stage, or the next move of
the agenda; and placing a word where the next step fetches it. -/

namespace Sys2Proof.Machine

/-- Time passes by a free amount (R46: TIME never decreases). [DESIGN CHOICE, log 7] -/
def tick (s : State) : State := { s with time := s.time + Config.freeTick s.fresh, fresh := s.fresh + 1 }

/-- The element operations, which stand in chain templates only (R42). -/
def isElemOp (w : IWord) : Bool := decide (0x80 ≤ w.toNat / 2 ^ 56) && decide (w.toNat / 2 ^ 56 < 0xC0)

/-- Run a fetched word: a word that decodes to no instruction, or an element operation in a slot, is ILLEGAL (R42 to R44). -/
def runWord (w : IWord) (s : State) : Host.Outcome State Fault Refusal :=
  match decode w with
  | none => nx (failIllegal w s)
  | some i => if isElemOp w then nx (failIllegal w s) else exec i s

/-- The word of the template stage under the cursor. -/
def stageWordAt (s : State) : Option IWord :=
  match Assoc.find s.cur.tmpl s.hereC.templates with
  | none => none
  | some t => (t.stages[s.cur.stage - 1]?).map (fun st => st.word)

/-- Run the element operation of the stage under the cursor. -/
def runStage (s : State) : Host.Outcome State Fault Refusal :=
  match stageWordAt s with
  | none => nx s
  | some w =>
    match decode w with
    | none => nx s
    | some i => if isElemOp w then exec i s else nx s

/-- Make a move: an event, or the start of a firing. A word form is no move, and only time passes. [DESIGN CHOICE, log 6] -/
def runMove (m : Move) (s : State) : Host.Outcome State Fault Refusal :=
  match m with
  | .event i => if i.isEvent then exec i s else nx s
  | .fire r u t j => nx { s with turn := .stage, cur := { region := r, unit := u, slot := 0, tmpl := t, stage := j } }

/-- Go on with what the last move selected: the next word of a slot, a stage's firing, or nothing. -/
def runTurn (s : State) : Host.Outcome State Fault Refusal :=
  match s.turn with
  | .issue =>
    match fetch { s with turn := .none } with
    | (some w, s1) => runWord w s1
    | (none, s1) => nx s1
  | .stage => runStage { s with turn := .none }
  | .none => nx s

/-! ### Causes of the cycle in which a region halts (R421) -/

/-- What a move, with the word or firing that it selects, would leave of a state. -/
def afterMove (m : Move) (s : State) : Option State :=
  match runMove m s with
  | .next s1 => match runTurn s1 with
                | .next s2 => some s2
                | .fault _ => none
                | .refused _ => none
  | .fault _ => none
  | .refused _ => none
/-- Region `r` as if its halt line had not risen in this cycle. -/
def lowered (r : Nat) (s : State) : State := s.modRegion r (fun R => { R with halt := false, raised := [], phase := .none })
/-- The records of one engine: those of a unit are told apart by what their sub field names - a slot, a template, a section, a port, a ticket, an
entry or a node - and the stages of a template, and the entries and nodes of a switch, by the whole record (R419 to R421). [DEDUCED, log 42] -/
def sameEngine (a b : StopRec) : Bool :=
  a.kind == b.kind && a.unit == b.unit && a.sub == b.sub && a.sk == b.sk
    && ((a.kind != 5 && (a.kind != 0 || a.sk != 1)) || { a with time := 0 } == { b with time := 0 })
/-- A region that halted in this cycle takes the record of the fatal cause that move `m` would raise in it, where that engine has raised none; of
what the engine does besides, nothing happens (R417, R421). [DEDUCED, log 42] -/
def coRaise (m : Move) (s : State) (r : Nat) : State :=
  let R := s.region r
  if R.halt && decide (R.phase = .halted) && decide (R.haltTime = s.time) then
    match (afterMove m (lowered r s)).bind (fun s1 => (s1.region r).raised.head?) with
    | some x => if R.raised.any (sameEngine x) then s else s.modRegion r (fun R => { R with raised := R.raised ++ [x] })
    | none => s
  else s
/-- Every region takes what move `m` raises in the cycle in which the region halted. [DEDUCED, log 42] -/
def coRaised (m : Move) (s : State) : State := (s.regions.map (fun q => q.1)).foldl (coRaise m) s

/-- One step. [DESIGN CHOICE, log 1; DESIGN CHOICE, log 6] -/
def step (s : State) : Host.Outcome State Fault Refusal :=
  let s1 := tick s
  match s1.turn with
  | .issue => runTurn s1
  | .stage => runTurn s1
  | .none =>
    match s1.agenda with
    | m :: ms => runMove m (coRaised m { s1 with agenda := ms })
    | [] =>
      let m := Config.freeMove s1.fresh
      runMove m (coRaised m { s1 with fresh := s1.fresh + 1 })

/-! ### Placing a word -/

/-- A region to place a word in: region `r` as it stands, not halted, or a new one of one cluster. [DESIGN CHOICE, log 1] -/
def loadRegion (R : Region) : Region :=
  if R.w = 0 ∨ R.h = 0 then Region.init 0 0 1 1 1 1 [0] else { R with halt := false }

/-- A context whose control segment is the first device tile, for a word of a control core. [DESIGN CHOICE, log 1] -/
def loadContext (r : Nat) : Context :=
  { attr := { asid := 0, keyId := 1, func := 0, region := r, csBase := 0, csSize := 1, ttBase := 0, ttCount := 1, root := 0,
              saveBase := 0, saveSize := 0, stopOff := 0, stopSize := 0, colOff := 0, det := false, dump := false, budget := 0,
              cap := 0, refill := 0 },
    gen := 0, keyId := 1, root := 0, lastLoad := 0xFFFFFFFF, st := .resident, seed := 0, budget := 0, dd := none, atoms := [], collSeq := 0,
    early := [], outbox := [], image := none, gang := none }

/-- Place a word in the slot under the cursor of a compute core. [DESIGN CHOICE, log 1] -/
def placeCompute (w : IWord) (s : State) : State :=
  let r := s.cur.region
  let u := if uKind s.cur.unit = 0 then s.cur.unit else 0
  let k := s.cur.slot % 8
  let R := loadRegion (s.region r)
  let c := R.core u
  let pc := if (c.slot k).pc.toNat < 2048 then (c.slot k).pc else 0
  let c1 := { c with istore := Assoc.put pc.toNat w c.istore }
  let c2 := c1.setSlot k { c1.slot k with pc := pc, st := .running, prog := .fresh }
  { s.setRegion r (R.setCore u c2) with
    turn := .issue, cur := { s.cur with unit := u, slot := k },
    errors := s.errors.filter (fun e => e.code ≠ 1) }

/-- Place a word in the control segment, at word index 0, for the control core of the first cluster. [DESIGN CHOICE, log 1] -/
def placeControl (w : IWord) (s : State) : State :=
  let r := s.cur.region
  let u := mkUnit 0 4 0
  let R := { loadRegion (s.region r) with resident := some 0 }
  let c := R.core u
  let c1 := { c.setSlot 0 { c.slot 0 with pc := 0, st := .running, prog := .fresh } with phase := [] }
  { s.setRegion r (R.setCore u c1) with
    turn := .issue, cur := { s.cur with unit := u, slot := 0 },
    contexts := Assoc.put 0 (loadContext r) s.contexts,
    places := Assoc.put 0 { ptn := 0, owner := 1, moving := false } (s.places.filter (fun q => q.2.ptn ≠ 0)),
    held := Assoc.put 0 { version := 0, dirty := false, rewrite := none, writer := r } s.held, errors := s.errors.filter (fun e => e.code ≠ 3 ∧ e.code ≠ 12),
    tmem := VMem.writes s.moment 0 (bytesLE 8 w.toNat) s.tmem, moment := s.moment + 1 }

/-- Place an element operation as the first stage of template 0. [DESIGN CHOICE, log 1] -/
def placeStage (w : IWord) (s : State) : State :=
  let r := s.cur.region
  let u := if uKind s.cur.unit = 0 then s.cur.unit else 0
  let R := loadRegion (s.region r)
  let c := R.core u
  let st : Stage := { word := w, pos := 0, carry := 0, served := [], firing := none }
  let t : Template := { base := 0, len := 1, res := true, stages := [st], arcs := [], flags := 0, mags := [0, 0, 0, 0] }
  { s.setRegion r (R.setCore u { c with templates := Assoc.put 0 t c.templates }) with
    turn := .stage, cur := { s.cur with unit := u, tmpl := 0, stage := 1 } }

/-- The words that only a control core runs: LDG, STG, ATG and ATGV (R42). -/
def isControlOp (w : IWord) : Bool := [0x4E, 0x4F, 0x52, 0x53].contains (w.toNat / 2 ^ 56)

/-- `s` with the instruction of these bits stored where `step` fetches its next instruction. [DESIGN CHOICE, log 1] -/
def State.withFetchWord (s : State) (nbits w : Nat) : State :=
  let x : IWord := BitVec.ofNat 64 (w % 2 ^ nbits)
  if isElemOp x then placeStage x s else if isControlOp x then placeControl x s else placeCompute x s

end Sys2Proof.Machine
end

