-- ==== Sys2Proof/Safety.lean ====
section
/-! DEFINITION. What counts as a safe run: steps that end in no fault and no refusal, through states that meet an invariant. -/

namespace Sys2Proof

open Machine

/-- `t` comes after `s` in one step. -/
def StepTo (s t : State) : Prop := step s = .next t

/-- `t` can be reached from `s` in any number of steps. -/
inductive Reaches : State → State → Prop where
  | refl (s : State) : Reaches s s
  | step {s t v : State} (h : Reaches s t) (n : StepTo t v) : Reaches s v

/-- Every step from `s` answers a next state. -/
def NeverStops (s : State) : Prop := ∀ t, Reaches s t → ∃ v, StepTo t v

/-- A property that every step keeps. -/
def Kept (Inv : State → Prop) : Prop := ∀ s t, Inv s → StepTo s t → Inv t

/-- A kept property holds in every state reached from one where it holds. -/
def SafeFrom (Inv : State → Prop) (s : State) : Prop := ∀ t, Reaches s t → Inv t

end Sys2Proof
end

