-- ==== Sys2Proof/Certificates/Slice0/Obligations.lean ====
section
/-! DEFINITION. The statements for the provers: what each instruction does where its conditions hold, what it leaves unchanged, and what every
step keeps. Each says in its docstring which rules of the spec it formalises. -/

namespace Sys2Proof.Claims

open Machine

/-- `exec i` answers `t`. -/
abbrev Gives (i : Instr) (s t : State) : Prop := exec i s = .next t

/-- The word under the cursor issues: its guard allows it, its sources are full, and none of its destinations is pending (R23, R28, R29). -/
abbrev Issues (g : Guard) (srcs : List Src) (dests : List Reg) (s : State) : Prop :=
  s.here.allows g = true ∧ (∀ x ∈ srcs, s.here.fill x.r = .full) ∧ ∀ d ∈ dests, s.here.fill d ≠ .pending

/-- The flags of an exact signed result (R57, R88): overflow and inexact where it is out of range. -/
def rangeFlags (v : Int) : Flg := if -(2 ^ 63) ≤ v ∧ v ≤ 2 ^ 63 - 1 then 0 else 0x14
/-- The nearest value in range (R88). -/
def clamped (v : Int) : Word :=
  if v < -(2 ^ 63) then 0x8000000000000000 else if 2 ^ 63 - 1 < v then 0x7FFFFFFFFFFFFFFF else BitVec.ofInt 64 v

/-- What a word reads and writes in scalar registers, its guard, and the kind of core it may stand on: any, compute cores only (`some true`), or control
cores only (`some false`). -/
structure Form where
  guard : Guard
  srcs : List Src
  dests : List Reg
  place : Option Bool

/-- Every word form with a guard (R23, R87 to R124 and the chapters of the units). -/
def formOf : Instr → Option Form
  | .add g d a b => some { guard := g, srcs := [a, b], dests := [d], place := none }
  | .addSat g d a b => some { guard := g, srcs := [a, b], dests := [d], place := none }
  | .sub g d a b => some { guard := g, srcs := [a, b], dests := [d], place := none }
  | .subSat g d a b => some { guard := g, srcs := [a, b], dests := [d], place := none }
  | .mul g d a b => some { guard := g, srcs := [a, b], dests := [d], place := none }
  | .mulSat g d a b => some { guard := g, srcs := [a, b], dests := [d], place := none }
  | .mulh g d a b => some { guard := g, srcs := [a, b], dests := [d], place := none }
  | .mulhu g d a b => some { guard := g, srcs := [a, b], dests := [d], place := none }
  | .div g d a b => some { guard := g, srcs := [a, b], dests := [d], place := none }
  | .divu g d a b => some { guard := g, srcs := [a, b], dests := [d], place := none }
  | .rem g d a b => some { guard := g, srcs := [a, b], dests := [d], place := none }
  | .remu g d a b => some { guard := g, srcs := [a, b], dests := [d], place := none }
  | .and g d a b => some { guard := g, srcs := [a, b], dests := [d], place := none }
  | .or g d a b => some { guard := g, srcs := [a, b], dests := [d], place := none }
  | .xor g d a b => some { guard := g, srcs := [a, b], dests := [d], place := none }
  | .andn g d a b => some { guard := g, srcs := [a, b], dests := [d], place := none }
  | .shl g d a b => some { guard := g, srcs := [a, b], dests := [d], place := none }
  | .shlSat g d a b => some { guard := g, srcs := [a, b], dests := [d], place := none }
  | .shr g d a b => some { guard := g, srcs := [a, b], dests := [d], place := none }
  | .sra g d a b => some { guard := g, srcs := [a, b], dests := [d], place := none }
  | .rotr g d a b => some { guard := g, srcs := [a, b], dests := [d], place := none }
  | .min g d a b => some { guard := g, srcs := [a, b], dests := [d], place := none }
  | .max g d a b => some { guard := g, srcs := [a, b], dests := [d], place := none }
  | .minu g d a b => some { guard := g, srcs := [a, b], dests := [d], place := none }
  | .maxu g d a b => some { guard := g, srcs := [a, b], dests := [d], place := none }
  | .clz g d a => some { guard := g, srcs := [a], dests := [d], place := none }
  | .ctz g d a => some { guard := g, srcs := [a], dests := [d], place := none }
  | .popc g d a => some { guard := g, srcs := [a], dests := [d], place := none }
  | .addi g d a _ => some { guard := g, srcs := [a], dests := [d], place := none }
  | .andi g d a _ => some { guard := g, srcs := [a], dests := [d], place := none }
  | .ori g d a _ => some { guard := g, srcs := [a], dests := [d], place := none }
  | .xori g d a _ => some { guard := g, srcs := [a], dests := [d], place := none }
  | .shli g d a _ => some { guard := g, srcs := [a], dests := [d], place := none }
  | .shri g d a _ => some { guard := g, srcs := [a], dests := [d], place := none }
  | .srai g d a _ => some { guard := g, srcs := [a], dests := [d], place := none }
  | .lui g d a _ => some { guard := g, srcs := [a], dests := [d], place := none }
  | .lea g d a b _ => some { guard := g, srcs := [a, b], dests := [d], place := none }
  | .sel g d a b _ => some { guard := g, srcs := [a, b], dests := [d], place := none }
  | .ceq g _ a b => some { guard := g, srcs := [a, b], dests := [], place := none }
  | .cne g _ a b => some { guard := g, srcs := [a, b], dests := [], place := none }
  | .clt g _ a b => some { guard := g, srcs := [a, b], dests := [], place := none }
  | .cle g _ a b => some { guard := g, srcs := [a, b], dests := [], place := none }
  | .cltu g _ a b => some { guard := g, srcs := [a, b], dests := [], place := none }
  | .cleu g _ a b => some { guard := g, srcs := [a, b], dests := [], place := none }
  | .ceqi g _ a _ => some { guard := g, srcs := [a], dests := [], place := none }
  | .clti g _ a _ => some { guard := g, srcs := [a], dests := [], place := none }
  | .pand g _ _ _ _ _ => some { guard := g, srcs := [], dests := [], place := none }
  | .por g _ _ _ _ _ => some { guard := g, srcs := [], dests := [], place := none }
  | .pxor g _ _ _ _ _ => some { guard := g, srcs := [], dests := [], place := none }
  | .fadd g d a b _ => some { guard := g, srcs := [a, b], dests := [d], place := none }
  | .fsub g d a b _ => some { guard := g, srcs := [a, b], dests := [d], place := none }
  | .fmul g d a b _ => some { guard := g, srcs := [a, b], dests := [d], place := none }
  | .ffma g d a b c _ => some { guard := g, srcs := [a, b, c], dests := [d], place := none }
  | .fdiv g d a b _ => some { guard := g, srcs := [a, b], dests := [d], place := none }
  | .fsqrt g d a _ => some { guard := g, srcs := [a], dests := [d], place := none }
  | .fmin g d a b _ => some { guard := g, srcs := [a, b], dests := [d], place := none }
  | .fmax g d a b _ => some { guard := g, srcs := [a, b], dests := [d], place := none }
  | .fcmp g _ a b _ _ => some { guard := g, srcs := [a, b], dests := [], place := none }
  | .fcvt g d a _ _ _ _ => some { guard := g, srcs := [a], dests := [d], place := none }
  | .fclass g d a _ => some { guard := g, srcs := [a], dests := [d], place := none }
  | .ldl g x base m => some { guard := g, srcs := loadSrcs base m, dests := [x], place := some true }
  | .stl g x base m => some { guard := g, srcs := storeSrcs x base m, dests := [], place := some true }
  | .ldr g x base m => some { guard := g, srcs := loadSrcs base m, dests := [x], place := none }
  | .str g x base m => some { guard := g, srcs := storeSrcs x base m, dests := [], place := none }
  | .lds g x base m => some { guard := g, srcs := loadSrcs base m, dests := [x], place := none }
  | .sts g x base m => some { guard := g, srcs := storeSrcs x base m, dests := [], place := none }
  | .ldg g x base m => some { guard := g, srcs := loadSrcs base m, dests := [x], place := some false }
  | .ldgAcq g x base m => some { guard := g, srcs := loadSrcs base m, dests := [x], place := some false }
  | .ldgSc g x base m => some { guard := g, srcs := loadSrcs base m, dests := [x], place := some false }
  | .stg g x base m => some { guard := g, srcs := storeSrcs x base m, dests := [], place := some false }
  | .stgRel g x base m => some { guard := g, srcs := storeSrcs x base m, dests := [], place := some false }
  | .stgSc g x base m => some { guard := g, srcs := storeSrcs x base m, dests := [], place := some false }
  | .ats g a b _ _ => some { guard := g, srcs := [a, b], dests := [], place := none }
  | .atsv g d a b c op _ => some { guard := g, srcs := atomVSrcs a b c op, dests := [d], place := none }
  | .atg g a b _ _ => some { guard := g, srcs := [a, b], dests := [], place := some false }
  | .atgv g d a b c op _ => some { guard := g, srcs := atomVSrcs a b c op, dests := [d], place := some false }
  | .recv g d _ => some { guard := g, srcs := [], dests := [d], place := none }
  | .send g a b => some { guard := g, srcs := [a, b], dests := [], place := none }
  | .sendRel g a b _ => some { guard := g, srcs := [a, b], dests := [], place := none }
  | .peek g d _ => some { guard := g, srcs := [], dests := [d], place := none }
  | .peekQ g _ _ => some { guard := g, srcs := [], dests := [], place := none }
  | .br g c _ => some { guard := g, srcs := [c], dests := [], place := none }
  | .jmp g _ => some { guard := g, srcs := [], dests := [], place := none }
  | .call g l _ => some { guard := g, srcs := [], dests := [l], place := none }
  | .loop g c _ => some { guard := g, srcs := [c], dests := [c.r], place := none }
  | .twait g d a => some { guard := g, srcs := [a], dests := [d], place := none }
  | .trun g d a b c => some { guard := g, srcs := [a, b, c], dests := [d], place := none }
  | .tend g => some { guard := g, srcs := [], dests := [], place := none }
  | .trap g _ => some { guard := g, srcs := [], dests := [], place := none }
  | .empty g d => some { guard := g, srcs := [], dests := [d], place := none }
  | .fullq g _ _ => some { guard := g, srcs := [], dests := [], place := none }
  | .yield g => some { guard := g, srcs := [], dests := [], place := none }
  | .halt g _ => some { guard := g, srcs := [], dests := [], place := none }
  | .mfsr g d _ => some { guard := g, srcs := [], dests := [d], place := none }
  | .mtsr g _ a => some { guard := g, srcs := [a], dests := [], place := none }
  | .fenceWait g => some { guard := g, srcs := [], dests := [], place := none }
  | .fenceRel g _ => some { guard := g, srcs := [], dests := [], place := none }
  | .fenceAcq g _ => some { guard := g, srcs := [], dests := [], place := none }
  | .fenceAcqrel g _ => some { guard := g, srcs := [], dests := [], place := none }
  | .rdtime g d => some { guard := g, srcs := [], dests := [d], place := none }
  | .rdtimeCyc g d => some { guard := g, srcs := [], dests := [d], place := none }
  | .digest g d a b => some { guard := g, srcs := [a, b], dests := [d], place := none }
  | .digestOut g a b c => some { guard := g, srcs := [a, b, c], dests := [], place := none }
  | .seed g a => some { guard := g, srcs := [a], dests := [], place := none }
  | .colchk g d => some { guard := g, srcs := [], dests := [d], place := none }
  | .chain g d a b _ _ => some { guard := g, srcs := [a, b], dests := [d], place := some true }
  | .cwait g d a => some { guard := g, srcs := [a], dests := [d], place := some true }
  | .cwaitFlags g d _ => some { guard := g, srcs := [], dests := [d], place := some true }
  | .cwaitMag g d _ _ => some { guard := g, srcs := [], dests := [d], place := some true }
  | .sbind g d a b _ _ _ _ => some { guard := g, srcs := [a, b], dests := [d], place := none }
  | .sclose g d _ _ => some { guard := g, srcs := [], dests := [d], place := none }
  | .scloseAbort g d _ _ => some { guard := g, srcs := [], dests := [d], place := none }
  | .sbar g _ => some { guard := g, srcs := [], dests := [], place := none }
  | .sbarWait g _ => some { guard := g, srcs := [], dests := [], place := none }
  | .cbar g d a _ => some { guard := g, srcs := [a], dests := [d], place := none }
  | .phase g d a _ _ => some { guard := g, srcs := [a], dests := [d], place := none }
  | .xformCvt g d a b _ _ _ _ => some { guard := g, srcs := [a, b], dests := [d], place := none }
  | .xformScale g d a b c _ _ _ => some { guard := g, srcs := [a, b, c], dests := [d], place := none }
  | .xformFill g d a b c _ _ => some { guard := g, srcs := [a, b, c], dests := [d], place := none }
  | .xformAdd g d a b c _ _ _ => some { guard := g, srcs := [a, b, c], dests := [d], place := none }
  | .xformAmax g d a b _ _ => some { guard := g, srcs := [a, b], dests := [d], place := none }
  | .mscale g d a b => some { guard := g, srcs := [a, b], dests := [d], place := none }
  | .mscaleMx g d a b => some { guard := g, srcs := [a, b], dests := [d], place := none }
  | .mwload g d a b c => some { guard := g, srcs := [a, b, c], dests := [d], place := none }
  | .mwloadP g d b c => some { guard := g, srcs := [b, c], dests := [d], place := none }
  | .marm g d a _ => some { guard := g, srcs := [a], dests := [d], place := none }
  | .marmQ g d _ => some { guard := g, srcs := [], dests := [d], place := none }
  | .marmWait g d _ => some { guard := g, srcs := [], dests := [d], place := none }
  | .marmFlags g d _ => some { guard := g, srcs := [], dests := [d], place := none }
  | .crun g d a _ => some { guard := g, srcs := [a], dests := [d], place := none }
  | .crunWait g d _ => some { guard := g, srcs := [], dests := [d], place := none }
  | .cedge g d a b _ => some { guard := g, srcs := [a, b], dests := [d], place := none }
  | .copy g d a => some { guard := g, srcs := [a], dests := [d], place := none }
  | .copyWait g d a => some { guard := g, srcs := [a], dests := [d], place := none }
  | .xexpect g d a _ => some { guard := g, srcs := [a], dests := [d], place := none }
  | .xwait g d _ => some { guard := g, srcs := [], dests := [d], place := none }
  | .tinv g d a b => some { guard := g, srcs := [a, b], dests := [d], place := none }
  | .tinvT g d a => some { guard := g, srcs := [a], dests := [d], place := none }
  | .tinvAll g d => some { guard := g, srcs := [], dests := [d], place := none }
  | .tinvWait g d => some { guard := g, srcs := [], dests := [d], place := none }
  | .xlook g d a b => some { guard := g, srcs := [a, b], dests := [d], place := none }
  | .xlookO g d a b => some { guard := g, srcs := [a, b], dests := [d], place := none }
  | .glaunch g d a => some { guard := g, srcs := [a], dests := [d], place := none }
  | .glaunchQ g d a => some { guard := g, srcs := [a], dests := [d], place := none }
  | .garm g d a b _ => some { guard := g, srcs := [a, b], dests := [d], place := none }
  | .garmQ g d a _ => some { guard := g, srcs := [a], dests := [d], place := none }
  | .collReduceRing g d a => some { guard := g, srcs := [a], dests := [d], place := none }
  | .collReduceTree g d a => some { guard := g, srcs := [a], dests := [d], place := none }
  | .collAllreduceRing g d a => some { guard := g, srcs := [a], dests := [d], place := none }
  | .collAllreduceTree g d a => some { guard := g, srcs := [a], dests := [d], place := none }
  | .collGather g d a => some { guard := g, srcs := [a], dests := [d], place := none }
  | .collScatter g d a => some { guard := g, srcs := [a], dests := [d], place := none }
  | .collRank g d => some { guard := g, srcs := [], dests := [d], place := none }
  | .ddcfg g d a => some { guard := g, srcs := [a], dests := [d], place := none }
  | .ddcfgGrow g d a => some { guard := g, srcs := [a], dests := [d], place := none }
  | .ddvar g d a => some { guard := g, srcs := [a], dests := [d], place := none }
  | .ddvarLvl g d a => some { guard := g, srcs := [a], dests := [d], place := none }
  | .ddvarVar g d a => some { guard := g, srcs := [a], dests := [d], place := none }
  | .ddite g d a b c => some { guard := g, srcs := [a, b, c], dests := [d], place := none }
  | .ddapply g d a b _ => some { guard := g, srcs := [a, b], dests := [d], place := none }
  | .ddrestrict g d a b => some { guard := g, srcs := [a, b], dests := [d], place := none }
  | .ddquantEx g d a b => some { guard := g, srcs := [a, b], dests := [d], place := none }
  | .ddquantAll g d a b => some { guard := g, srcs := [a, b], dests := [d], place := none }
  | .ddcompose g d a b c => some { guard := g, srcs := [a, b, c], dests := [d], place := none }
  | .ddwcount g d a b c => some { guard := g, srcs := [a, b, c], dests := [d], place := none }
  | .ddsat g d a => some { guard := g, srcs := [a], dests := [d], place := none }
  | .ddenum g d a b c => some { guard := g, srcs := [a, b, c], dests := [d], place := none }
  | .ddenumE g d a b c => some { guard := g, srcs := [a, b, c], dests := [d], place := none }
  | .ddref g d a => some { guard := g, srcs := [a], dests := [d], place := none }
  | .ddderef g d a => some { guard := g, srcs := [a], dests := [d], place := none }
  | .ddgc g d => some { guard := g, srcs := [], dests := [d], place := none }
  | .ddswap g d a => some { guard := g, srcs := [a], dests := [d], place := none }
  | .ddnode g d a => some { guard := g, srcs := [a], dests := [d, d + 1], place := none }
  | .ddstat g d _ => some { guard := g, srcs := [], dests := [d], place := none }
  | _ => none

/-- The word may stand on the core under the cursor (R42, R44). -/
abbrev Form.Stands (f : Form) (s : State) : Prop := f.place = none ∨ f.place = some (!isCtl s.cur.unit)

/-- A source is empty: cleared or pending. -/
abbrev Empty (s : State) (x : Src) : Prop := s.here.fill x.r ≠ .full

/-- The truncated quotient of R89. -/
def quotient (x y : Int) : Word := if y = 0 then BitVec.allOnes 64 else BitVec.ofInt 64 (x.tdiv y)
/-- The remainder of R89. -/
def remainder (x y : Int) (a : Word) : Word := if y = 0 then a else BitVec.ofInt 64 (x - y * x.tdiv y)

/-- The word completes as a long-latency producer of `v` with the flags `fl`; `fp` for FDIV and FSQRT (R27). -/
def started (d : Reg) (v : Word) (fl : Flg) (fp : Bool) (s : State) : State := retire id (launch [d] (.value [v] fl fp) s)

/-- The whole state but one slot is as before. -/
def OnlySlot (s t : State) : Prop := ∃ sl : Slot, t = s.modHere (fun _ => sl)

/-- The unit under the cursor is a compute core. -/
abbrev OnCompute (s : State) : Prop := isCtl s.cur.unit = false
/-- It is a control core. -/
abbrev OnControl (s : State) : Prop := isCtl s.cur.unit = true

/-- An address of `n` bytes is aligned and ends by `top`. -/
abbrev Fits (i : Int) (n top : Nat) : Prop := 0 ≤ i ∧ i + n ≤ top ∧ i % n = 0

/-- Every byte of the three memories outside the keys `lo` to `hi - 1` of one of them is as before. -/
def SameBytes (m m' : VMem) (lo hi : Nat) : Prop := ∀ a, ¬ (lo ≤ a ∧ a < hi) → m'.read a = m.read a

end Sys2Proof.Claims

open Sys2Proof Sys2Proof.Machine Sys2Proof.Claims

/-- Integer register forms: Where a word of R88 issues, it answers the state in which its destination holds the value of the table and the
slot goes on to the next word; ADD, SUB, MUL and SHL raise overflow and inexact where the exact value is out of range and clamp it with
.sat; no other form touches FPFLAGS. (05_scalar_instructions.md R88 to R90) -/
def Obligations.IntegerRegisterForms : Prop :=
  ∀ (g : Guard) (d : Reg) (a b : Src) (s : State),
    let x := rv s a
    let y := rv s b
    let n := y.toNat % 64
    (Issues g [a, b] [d] s →
      Gives (.add g d a b) s (doneFl d (x + y) (rangeFlags (x.toInt + y.toInt)) s) ∧
      Gives (.addSat g d a b) s (doneFl d (clamped (x.toInt + y.toInt)) (rangeFlags (x.toInt + y.toInt)) s) ∧
      Gives (.sub g d a b) s (doneFl d (x - y) (rangeFlags (x.toInt - y.toInt)) s) ∧
      Gives (.subSat g d a b) s (doneFl d (clamped (x.toInt - y.toInt)) (rangeFlags (x.toInt - y.toInt)) s) ∧
      Gives (.mul g d a b) s (doneFl d (x * y) (rangeFlags (x.toInt * y.toInt)) s) ∧
      Gives (.mulSat g d a b) s (doneFl d (clamped (x.toInt * y.toInt)) (rangeFlags (x.toInt * y.toInt)) s) ∧
      Gives (.shl g d a b) s (doneFl d (x <<< n) (rangeFlags (x.toInt * 2 ^ n)) s) ∧
      Gives (.shlSat g d a b) s (doneFl d (clamped (x.toInt * 2 ^ n)) (rangeFlags (x.toInt * 2 ^ n)) s) ∧
      Gives (.mulh g d a b) s (done d (BitVec.ofInt 64 (x.toInt * y.toInt / 2 ^ 64)) s) ∧
      Gives (.mulhu g d a b) s (done d (BitVec.ofNat 64 (x.toNat * y.toNat / 2 ^ 64)) s) ∧
      Gives (.and g d a b) s (done d (x &&& y) s) ∧
      Gives (.or g d a b) s (done d (x ||| y) s) ∧
      Gives (.xor g d a b) s (done d (x ^^^ y) s) ∧
      Gives (.andn g d a b) s (done d (x &&& ~~~y) s) ∧
      Gives (.shr g d a b) s (done d (BitVec.ofNat 64 (x.toNat / 2 ^ n)) s) ∧
      Gives (.sra g d a b) s (done d (BitVec.ofInt 64 (x.toInt / 2 ^ n)) s) ∧
      Gives (.rotr g d a b) s (done d ((x >>> n) ||| (x <<< (64 - n))) s) ∧
      Gives (.min g d a b) s (done d (BitVec.ofInt 64 (min x.toInt y.toInt)) s) ∧
      Gives (.max g d a b) s (done d (BitVec.ofInt 64 (max x.toInt y.toInt)) s) ∧
      Gives (.minu g d a b) s (done d (BitVec.ofNat 64 (min x.toNat y.toNat)) s) ∧
      Gives (.maxu g d a b) s (done d (BitVec.ofNat 64 (max x.toNat y.toNat)) s)) ∧
    (Issues g [a] [d] s →
      (∃ v : Word, Gives (.clz g d a) s (done d v s) ∧ (x = 0 → v = 64) ∧
        (x ≠ 0 → 2 ^ (63 - v.toNat) ≤ x.toNat ∧ x.toNat < 2 ^ (64 - v.toNat))) ∧
      (∃ v : Word, Gives (.ctz g d a) s (done d v s) ∧ (x = 0 → v = 64) ∧
        (x ≠ 0 → x.getLsbD v.toNat = true ∧ ∀ i, i < v.toNat → x.getLsbD i = false)) ∧
      Gives (.popc g d a) s (done d (BitVec.ofNat 64 ((List.range 64).countP (fun i => x.getLsbD i))) s))

/-- Division and remainder: Where the word issues, DIV, DIVU, REM and REMU start a long-latency producer of the truncated quotient or the
remainder; by zero the quotient is all ones and the remainder is the dividend; the quotient of the least number by -1 is the least number,
with remainder 0; and when a producer of a value completes, its register holds the value, so that dest gets q or rmd. (R89) -/
def Obligations.Division : Prop :=
  ∀ (g : Guard) (d : Reg) (a b : Src) (s : State),
    let x := rv s a
    let y := rv s b
    (Issues g [a, b] [d] s → Gives (.div g d a b) s (started d (quotient x.toInt y.toInt) 0 false s) ∧
      Gives (.divu g d a b) s (started d (quotient x.toNat y.toNat) 0 false s) ∧
      Gives (.rem g d a b) s (started d (remainder x.toInt y.toInt x) 0 false s) ∧
      Gives (.remu g d a b) s (started d (remainder x.toNat y.toNat x) 0 false s)) ∧
    (y = BitVec.allOnes 64 → quotient (-(2 ^ 63)) y.toInt = 0x8000000000000000 ∧ remainder (-(2 ^ 63)) y.toInt x = 0) ∧
    (∀ (r u k : Nat) (p : Producer) (v : Word), (s.region r).halt = false → (s.core r u).producers.find? (fun q => decide (q.id = k)) = some p →
      p.work = .value [v] 0 false → p.dests = [d] → d ≠ 0 →
      ∃ t, Gives (.producerCompletion r u k) s t ∧ (t.slot r u p.slot).rd d = v ∧ (t.slot r u p.slot).fill d = .full)

/-- Immediate forms, LEA and SEL: Where the word issues, ADDI and SHLI act as ADD and SHL, flags included; ANDI, ORI and XORI combine with
the sign-extended immediate; SHRI, SRAI and LUI as R91 says; LEA adds a shifted operand and touches no flag; SEL selects by its predicate.
(05_scalar_instructions.md R91 to R93) -/
def Obligations.ImmediateForms : Prop :=
  ∀ (g : Guard) (d : Reg) (a b : Src) (imm : Imm) (sh : Sh6) (k : Fin5) (p : PReg) (s : State),
    let x := rv s a
    let y := rv s b
    let i := imm.signExtend 64
    (Issues g [a] [d] s →
      Gives (.addi g d a imm) s (doneFl d (x + i) (rangeFlags (x.toInt + i.toInt)) s) ∧
      Gives (.andi g d a imm) s (done d (x &&& i) s) ∧
      Gives (.ori g d a imm) s (done d (x ||| i) s) ∧
      Gives (.xori g d a imm) s (done d (x ^^^ i) s) ∧
      Gives (.shli g d a sh) s (doneFl d (x <<< sh.toNat) (rangeFlags (x.toInt * 2 ^ sh.toNat)) s) ∧
      Gives (.shri g d a sh) s (done d (BitVec.ofNat 64 (x.toNat / 2 ^ sh.toNat)) s) ∧
      Gives (.srai g d a sh) s (done d (BitVec.ofInt 64 (x.toInt / 2 ^ sh.toNat)) s) ∧
      Gives (.lui g d a imm) s (done d (imm ++ x.extractLsb' 0 32) s)) ∧
    (Issues g [a, b] [d] s →
      Gives (.lea g d a b k) s (done d (x + (y <<< k.toNat)) s) ∧
      Gives (.sel g d a b p) s (done d (if s.here.rdP p = true then x else y) s))

/-- The word that compares registers (R87). -/
def Sys2Proof.Claims.compareWord (op : Nat) (g : Guard) (p : PReg) (a b : Src) : Option IWord :=
  some (packR { op := op, g := g, dest := 32 + p.toNat, a := a.r.toNat, ta := a.et, b := b.r.toNat, tb := b.et })
/-- The word that compares a register and an immediate (R91). -/
def Sys2Proof.Claims.compareImmWord (op : Nat) (g : Guard) (p : PReg) (a : Src) (imm : Imm) : Option IWord :=
  some (packI { op := op, g := g, dest := 32 + p.toNat, a := a.r.toNat, ta := a.et, imm := imm.toNat })
/-- The word of a predicate form (R95). -/
def Sys2Proof.Claims.predWord (op : Nat) (g : Guard) (p u v : PReg) (nu nv : Bool) : Option IWord :=
  some (packR { op := op, g := g, dest := 32 + p.toNat, a := 32 + u.toNat, b := 32 + v.toNat, fn := b2n nu + 2 * b2n nv })
/-- Integer compares and predicate logic: The words of the compares and of PAND, POR and PXOR are those of R94 and R95, and one of opcode
0x32 to 0x34 with a trap bit or another function value is illegal. Where the word issues, a compare writes its predicate and nothing else,
and PAND, POR and PXOR combine two predicates, each of which may be inverted; a write to p0 is discarded. (R94, R95) -/
def Obligations.ComparesAndPredicates : Prop :=
  (∀ (g : Guard) (p u v : PReg) (nu nv : Bool) (a b : Src) (imm : Imm),
    encode (.ceq g p a b) = compareWord 0x2A g p a b ∧ encode (.cne g p a b) = compareWord 0x2B g p a b ∧
    encode (.clt g p a b) = compareWord 0x2C g p a b ∧ encode (.cle g p a b) = compareWord 0x2D g p a b ∧
    encode (.cltu g p a b) = compareWord 0x2E g p a b ∧ encode (.cleu g p a b) = compareWord 0x2F g p a b ∧
    encode (.ceqi g p a imm) = compareImmWord 0x30 g p a imm ∧ encode (.clti g p a imm) = compareImmWord 0x31 g p a imm ∧
    encode (.pand g p u v nu nv) = predWord 0x32 g p u v nu nv ∧ encode (.por g p u v nu nv) = predWord 0x33 g p u v nu nv ∧
    encode (.pxor g p u v nu nv) = predWord 0x34 g p u v nu nv) ∧
  (∀ w : IWord, 0x32 ≤ w.toNat / 2 ^ 56 → w.toNat / 2 ^ 56 ≤ 0x34 →
    w.getLsbD 27 = true ∨ w.getLsbD 26 = true ∨ 4 ≤ w.toNat / 2 ^ 16 % 2 ^ 9 → decode w = none) ∧
  (∀ (x : Slot) (b : Bool), x.wrP 0 b = x) ∧
  ∀ (g : Guard) (p u v : PReg) (nu nv : Bool) (a b : Src) (imm : Imm) (s : State),
    let x := rv s a
    let y := rv s b
    (Issues g [a, b] [] s →
      Gives (.ceq g p a b) s (doneP p (decide (x = y)) s) ∧
      Gives (.cne g p a b) s (doneP p (decide (x ≠ y)) s) ∧
      Gives (.clt g p a b) s (doneP p (decide (x.toInt < y.toInt)) s) ∧
      Gives (.cle g p a b) s (doneP p (decide (x.toInt ≤ y.toInt)) s) ∧
      Gives (.cltu g p a b) s (doneP p (decide (x.toNat < y.toNat)) s) ∧
      Gives (.cleu g p a b) s (doneP p (decide (x.toNat ≤ y.toNat)) s)) ∧
    (Issues g [a] [] s →
      Gives (.ceqi g p a imm) s (doneP p (decide (x.toInt = imm.toInt)) s) ∧
      Gives (.clti g p a imm) s (doneP p (decide (x.toInt < imm.toInt)) s)) ∧
    (Issues g [] [] s →
      Gives (.pand g p u v nu nv) s (doneP p ((s.here.rdP u ^^ nu) && (s.here.rdP v ^^ nv)) s) ∧
      Gives (.por g p u v nu nv) s (doneP p ((s.here.rdP u ^^ nu) || (s.here.rdP v ^^ nv)) s) ∧
      Gives (.pxor g p u v nu nv) s (doneP p ((s.here.rdP u ^^ nu) ^^ (s.here.rdP v ^^ nv)) s))

/-- A rounded scalar result: the code of an exact value, widened with zeros, and its flags (R97, R98). -/
def Sys2Proof.Claims.rounded (f : FMode) (v : XNum × Flg) (s : State) : Word × Flg :=
  let r := encodeNum (precFmt f.prec) false (effMode f.rm s) f.sat (slotMix s) v.1
  (toWord r.1, v.2 ||| r.2)
/-- The state after a scalar word that rounds. -/
def Sys2Proof.Claims.fpDone (d : Reg) (f : FMode) (v : XNum × Flg) (s : State) : State :=
  retire (fun sl => ((sl.wr d (rounded f v s).1).flag (rounded f v s).2).drew (effMode f.rm s)) s
/-- The state after a scalar word that starts a producer of a rounded result. -/
def Sys2Proof.Claims.fpStarted (d : Reg) (f : FMode) (v : XNum × Flg) (s : State) : State :=
  retire (Slot.drew (effMode f.rm s)) (launch [d] (.value [(rounded f v s).1] (rounded f v s).2 true) s)
/-- Scalar floating point: Where the word issues, FADD, FSUB, FMUL and FFMA write the once-rounded exact result of their operands in the
effective mode, with its flags, and a word whose mode is stochastic advances the slot's count; FDIV and FSQRT start a producer of theirs;
FMIN, FMAX, FCMP, FCVT and FCLASS complete likewise. (03_number_formats.md R57 to R65, 05_scalar_instructions.md R97 to R101) -/
def Obligations.FloatingPoint : Prop :=
  ∀ (g : Guard) (d : Reg) (p : PReg) (a b c : Src) (f : FMode) (pr : Prec) (cond : FCond) (sk dk : FKind) (rm : RMode) (sat : Bool) (s : State),
    let x := fpVal f.prec (rv s a)
    let y := fpVal f.prec (rv s b)
    (Issues g [a, b] [d] s →
      Gives (.fadd g d a b f) s (fpDone d f (numSum [x, y]) s) ∧
      Gives (.fsub g d a b f) s (fpDone d f (numSum [x, y.negate]) s) ∧
      Gives (.fmul g d a b f) s (fpDone d f (numMul x y) s) ∧
      Gives (.fdiv g d a b f) s (fpStarted d f (numDiv x y) s) ∧
      (let r := minMaxCode (precFmt pr) false true (precBits pr (rv s a)) (precBits pr (rv s b))
       Gives (.fmin g d a b pr) s (doneFl d (toWord r.1) r.2 s)) ∧
      (let r := minMaxCode (precFmt pr) true true (precBits pr (rv s a)) (precBits pr (rv s b))
       Gives (.fmax g d a b pr) s (doneFl d (toWord r.1) r.2 s))) ∧
    (Issues g [a, b, c] [d] s → Gives (.ffma g d a b c f) s (fpDone d f (numFma x y (fpVal f.prec (rv s c))) s)) ∧
    (Issues g [a] [d] s →
      Gives (.fsqrt g d a f) s (fpStarted d f (numSqrt x) s) ∧
      Gives (.fclass g d a pr) s (done d (toWord (fpClass pr (precBits pr (rv s a)))) s) ∧
      (let r := fcvtCode dk (effMode rm s) sat (slotMix s) (fcvtVal sk (rv s a))
       Gives (.fcvt g d a sk dk rm sat) s (retire (fun sl => ((sl.wr d (toWord r.1)).flag r.2).drew (effMode rm s)) s))) ∧
    (Issues g [a, b] [] s →
      Gives (.fcmp g p a b pr cond) s
        (donePFl p (fpCompare cond (fpVal pr (rv s a)) (fpVal pr (rv s b))).1 (fpCompare cond (fpVal pr (rv s a)) (fpVal pr (rv s b))).2 s))

/-- The slot goes on at word index `i`, after `f`. -/
def Sys2Proof.Claims.wentTo (i : Int) (f : Slot → Slot) (s : State) : State := s.modHere (fun sl => (f sl).goto (BitVec.ofInt 64 i))
/-- A word index that the core under the cursor can go on at (R45, R104). -/
abbrev Sys2Proof.Claims.Reachable (i : Int) (s : State) : Prop := OnControl s ∨ (0 ≤ i ∧ i ≤ 2047)
/-- Branches: Where the word issues and the index it goes to lies in the instruction store (on a control core, at any index), BR, JMP, CALL
and LOOP go where R103 says; CALL links to the following word, and LOOP counts its register down and falls through at zero.
(05_scalar_instructions.md R103 R104) -/
def Obligations.Branches : Prop :=
  ∀ (g : Guard) (c : Src) (l : Reg) (disp : Imm) (s : State),
    let i := (s.here.pc.toNat : Int) + disp.toInt
    (Issues g [c] [] s →
      (rv s c = 0 → Gives (.br g c disp) s (retire id s)) ∧
      (rv s c ≠ 0 → Reachable i s → Gives (.br g c disp) s (wentTo i id s))) ∧
    (Issues g [] [] s → Reachable i s → Gives (.jmp g disp) s (wentTo i id s)) ∧
    (Issues g [] [l] s → Reachable i s → Reachable ((s.here.pc + 1).toNat : Int) s →
      Gives (.call g l disp) s (wentTo i (fun sl => sl.wr l (s.here.pc + 1)) s)) ∧
    (Issues g [c] [c.r] s →
      (rv s c = 1 → Gives (.loop g c disp) s (done c.r 0 s)) ∧
      (rv s c ≠ 1 → Reachable i s → Gives (.loop g c disp) s (wentTo i (fun sl => sl.wr c.r (rv s c - 1)) s)))

/-- A branch outside the instruction store: On a compute core, a taken branch to an index outside the instruction store is ILLEGAL with that
index, and a CALL at word 2,047 is ILLEGAL with its return index 2,048, whatever its target (which of the two indices a CALL shows where
both lie outside is the model's choice, log 65): the halt line of the region rises with a record of cause 0x01 for the slot at its pc whose
detail word 0 is the index. (02_instruction_word.md R45, 05_scalar_instructions.md R104) -/
def Obligations.BranchOutsideTheStore : Prop :=
  ∀ (g : Guard) (c : Src) (l : Reg) (disp : Imm) (s : State),
    let i := (s.here.pc.toNat : Int) + disp.toInt
    OnCompute s →
    ((i < 0 ∨ 2047 < i) →
      (Issues g [c] [] s → rv s c ≠ 0 → Gives (.br g c disp) s (failIllegal (BitVec.ofInt 64 i) s)) ∧
      (Issues g [] [] s → Gives (.jmp g disp) s (failIllegal (BitVec.ofInt 64 i) s)) ∧
      (Issues g [] [l] s → s.here.pc.toNat < 2047 → Gives (.call g l disp) s (failIllegal (BitVec.ofInt 64 i) s)) ∧
      (Issues g [c] [c.r] s → rv s c ≠ 1 → Gives (.loop g c disp) s (failIllegal (BitVec.ofInt 64 i) s))) ∧
    (Issues g [] [l] s → s.here.pc.toNat = 2047 → Gives (.call g l disp) s (failIllegal 2048 s)) ∧
    (∀ w : Word, s.hereR.halt = false → (failIllegal w s).hereR.halt = true ∧
      (failIllegal w s).hereR.raised.map (fun x => (x.cause, x.unit, x.sub, x.position, x.d0)) = [(0x01, s.cur.unit, s.cur.slot, s.here.pc, w)])

/-- The channels that TWAIT looks at (R105). -/
def Sys2Proof.Claims.twaitMask (a : Src) (s : State) : BitVec 16 := (if a.r = 0 then 0xFFFF#16 else (rv s a).setWidth 16) &&& s.here.chbind
/-- Channel `j` of the core under the cursor holds a word. -/
abbrev Sys2Proof.Claims.Holds (s : State) (j : Nat) : Prop := (s.hereC.chan j).words ≠ []
/-- Task control: Where the word issues, TWAIT answers the smallest channel of its mask that holds a word, or waits for a word on any
channel bound to the slot; TRUN starts an idle slot, resumes a trapped one, or changes nothing; TEND makes the slot idle once no register is
pending; EMPTY clears, FULLQ tests, YIELD goes on; and HALT raises HALT_INSTRUCTION with its immediate. (04_task_and_firing.md R71 to R73,
05_scalar_instructions.md R105 to R111) -/
def Obligations.TaskWords : Prop :=
  ∀ (g : Guard) (d : Reg) (a b c : Src) (p : PReg) (x : Reg) (imm : Imm) (s : State),
    (Issues g [a] [d] s → twaitMask a s ≠ 0 →
      (∀ j, j < 16 → (twaitMask a s).getLsbD j = true → Holds s j → (∀ i, i < j → (twaitMask a s).getLsbD i = true → ¬ Holds s i) →
        Gives (.twait g d a) s (done d (BitVec.ofNat 64 j) s)) ∧
      ((∀ i, i < 16 → (twaitMask a s).getLsbD i = true → ¬ Holds s i) → Gives (.twait g d a) s (park (.word s.here.chbind) s))) ∧
    (Issues g [a, b, c] [d] s →
      let k := (rv s a).toNat
      let m := (rv s c).setWidth 16
      k < slotCount s.cur.unit → (OnControl s ∨ (rv s b).toNat ≤ 2047) →
      (∀ j, j < slotCount s.cur.unit → j ≠ k → j ≠ s.cur.slot → (s.hereC.slot j).chbind &&& m = 0) → k ≠ s.cur.slot →
      ((s.hereC.slot k).st = .idle →
        ∃ t, Gives (.trun g d a b c) s t ∧ (t.hereC.slot k).st = .runnable ∧ (t.hereC.slot k).pc = rv s b ∧ (t.hereC.slot k).count = 0 ∧
          (t.hereC.slot k).chbind = (s.hereC.slot k).chbind ||| m ∧ (t.hereC.slot k).regs = (s.hereC.slot k).regs ∧
          t.here.pc = s.here.pc + 1 ∧ (d ≠ 0 → t.here.rd d = 0)) ∧
      ((s.hereC.slot k).st = .waiting .trapped →
        Gives (.trun g d a b c) s (done d 1 (s.modSlot s.cur.region s.cur.unit k (fun sl => { sl with st := .runnable })))) ∧
      ((s.hereC.slot k).st ≠ .idle → (s.hereC.slot k).st ≠ .waiting .trapped → Gives (.trun g d a b c) s (done d 2 s))) ∧
    (Issues g [] [] s →
      (s.here.anyPending = false → (handlerSlot s.hereC ≠ s.cur.slot ∨ OnControl s) →
        Gives (.tend g) s (s.modHere (fun sl => { sl with pc := sl.pc + 1, st := .idle, prog := .fresh, roster := false }))) ∧
      Gives (.fullq g p x) s (doneP p (decide (s.here.fill x = .full)) s) ∧
      Gives (.yield g) s (retire id s) ∧
      Gives (.halt g imm) s (raise s.cur.region (slotRec 0x1A (BitVec.ofNat 64 imm.toNat) 0 0 s) s)) ∧
    (Issues g [] [d] s → Gives (.empty g d) s (retire (Slot.setFill d .cleared) s))

/-- Recoverable traps: A recoverable trap of a compute core's slot, taken while TRAPVEC bit 31 is 1 and the slot is not the handler slot,
does not raise the halt line and leaves the slot waiting for delivery or trapped; while TRAPVEC bit 31 is 0, in the handler slot, or on a
control core it is fatal with its own cause. TRAP takes it so, to go on at the following word; and so does every word form at its first
empty source whose trap bit is set, even if an earlier empty source's bit is clear, to be executed again (R84 orders a, b, c and desc, b, c;
which of the base and the data of a store form is first where both are empty and trap is the model's choice, log 65).
(02_instruction_word.md R28, 04_task_and_firing.md R82 to R84, 05_scalar_instructions.md R108) -/
def Obligations.RecoverableTraps : Prop :=
  (∀ (r u k : Nat) (q : TrapReq) (pc w : Word) (s : State),
    ((s.core r u).trapvec.getLsbD 31 = true → handlerSlot (s.core r u) ≠ k → isCtl u = false → k < 8 →
      ((takeTrap r u k q pc w s).region r).halt = (s.region r).halt ∧
      ((takeTrap r u k q pc w s).slot r u k).pc = pc ∧
      (((takeTrap r u k q pc w s).slot r u k).st = .waiting .trapDelivery ∨ ((takeTrap r u k q pc w s).slot r u k).st = .waiting .trapped)) ∧
    (((s.core r u).trapvec.getLsbD 31 = false ∨ handlerSlot (s.core r u) = k ∨ isCtl u = true) → (s.region r).halt = false →
      ((takeTrap r u k q pc w s).region r).halt = true ∧
      ((takeTrap r u k q pc w s).region r).raised.map (fun x => x.cause) = [q.cause])) ∧
  (∀ (g : Guard) (imm : Imm) (s : State), Issues g [] [] s →
    Gives (.trap g imm) s (takeTrap s.cur.region s.cur.unit s.cur.slot
      { cause := 0x05, operand := 0, detail := imm, pc := s.here.pc } (s.here.pc + 1) (curWord s) s)) ∧
  (∀ (i : Instr) (f : Form) (pre post : List Src) (x : Src) (s : State), formOf i = some f → f.Stands s → s.here.allows f.guard = true →
    f.srcs = pre ++ x :: post → (∀ y ∈ pre, ¬ (y.et = true ∧ Empty s y)) → x.et = true → Empty s x →
    Gives i s (takeTrap s.cur.region s.cur.unit s.cur.slot
      { cause := 0x02, operand := x.r.toNat, detail := if s.here.fill x.r = .pending then 1 else 0, pc := s.here.pc } s.here.pc (curWord s) s))

/-- Trap delivery: Where the handler slot is idle and no lower-numbered slot waits for delivery, a recoverable trap is delivered at once:
the handler slot gets TRAPINFO with the fields of R84, starts at TRAPVEC's entry word and is runnable; the trapping slot is trapped. TRUN by
the handler then makes it runnable at the pc of R83. (04_task_and_firing.md R83 R84) -/
def Obligations.TrapDelivery : Prop :=
  ∀ (r u k : Nat) (q : TrapReq) (pc w : Word) (s : State),
    let c := s.core r u
    let h := handlerSlot c
    c.trapvec.getLsbD 31 = true → h ≠ k → isCtl u = false → k < 8 → (c.slot h).st = .idle → (∀ j, j < k → c.awaits j = false) →
    let t := takeTrap r u k q pc w s
    (t.slot r u k).st = .waiting .trapped ∧ (t.slot r u k).pc = pc ∧ (t.slot r u k).regs = (c.slot k).regs ∧
    (t.slot r u h).st = .runnable ∧ (t.slot r u h).pc = BitVec.ofNat 64 (c.trapvec.toNat % 2048) ∧
    (t.slot r u h).trapinfo = BitVec.ofNat 64
      (q.detail.toNat * 2 ^ 32 + q.operand % 64 * 2 ^ 24 + q.pc.toNat % 2048 * 2 ^ 12 + k * 2 ^ 8 + q.cause % 256) ∧
    (∀ j, j ≠ k → j ≠ h → t.slot r u j = c.slot j) ∧ (∀ v, v ≠ u → t.core r v = s.core r v) ∧
    (∀ (g : Guard) (d : Reg) (x y z : Src) (v : State), v.cur.region = r → v.cur.unit = u → v.cur.slot = h → v.slot r u k = t.slot r u k →
      Issues g [x, y, z] [d] v → (rv v x).toNat = k → (rv v y).toNat ≤ 2047 →
      (∀ j, j < 8 → j ≠ k → j ≠ h → (v.hereC.slot j).chbind &&& (rv v z).setWidth 16 = 0) →
      ∃ w, Gives (.trun g d x y z) v w ∧ (w.slot r u k).st = .runnable ∧ (w.slot r u k).pc = pc ∧ (w.slot r u k).regs = (c.slot k).regs)

/-- The destination register of SEND names a channel of a core of the region, within scope, and in deterministic mode the slot is its declared
sender (R115, R117). -/
abbrev Sys2Proof.Claims.MaySend (dst : Word) (s : State) : Prop :=
  dst.toNat < 2 ^ 20 ∧ isCoreUnit s.hereR (dst.toNat % 2 ^ 16) = true ∧
  (detOn s s.hereR = true → ((s.hereR.core (dst.toNat % 2 ^ 16)).chan (dst.toNat / 2 ^ 16)).sender = some (s.cur.unit, s.cur.slot))
/-- The word that SEND puts on its way. -/
def Sys2Proof.Claims.sentWord (dst v : Word) (ord : Bool) (s : State) : Flying :=
  { u := dst.toNat % 2 ^ 16, c := dst.toNat / 2 ^ 16, data := v, ord := ord, su := s.cur.unit, ss := s.cur.slot }
/-- Channels: Where the word issues, RECV pops the oldest word of a bound channel, refreshing the core where its ord bit is set, and waits,
for a word on any bound channel, at an empty one; PEEK reads it without popping; SEND and SEND.rel send a word to a channel of a core of the
region that has a free place, .rel once its publish has completed; a word that no earlier word of its sender to its channel precedes arrives
at the channel's end; and a publish of a slot ends. (05_scalar_instructions.md R113 to R118 R120) -/
def Obligations.ChannelWords : Prop :=
  ∀ (g : Guard) (d : Reg) (p : PReg) (j : CReg) (a b : Src) (sc : Scope) (s : State),
    (Issues g [] [d] s → s.here.chbind.getLsbD j.toNat = true →
      (∀ v ord rest, (s.hereC.chan j.toNat).words = (v, ord) :: rest →
        Gives (.peek g d j) s (done d v s) ∧
        ∃ t, Gives (.recv g d j) s t ∧ (t.hereC.chan j.toNat).words = rest ∧ (d ≠ 0 → t.here.rd d = v) ∧ t.here.pc = s.here.pc + 1 ∧
          t.hereC.refresh = (if ord then s.moment else s.hereC.refresh) ∧ (∀ i, i ≠ j.toNat → t.hereC.chan i = s.hereC.chan i)) ∧
      ((s.hereC.chan j.toNat).words = [] →
        Gives (.recv g d j) s (park (.word s.here.chbind) s) ∧ Gives (.peek g d j) s (park (.word s.here.chbind) s))) ∧
    (Issues g [] [] s → s.here.chbind.getLsbD j.toNat = true →
      Gives (.peekQ g p j) s (doneP p (decide (Holds s j.toNat)) s)) ∧
    (Issues g [a, b] [] s →
      let dst := rv s b
      MaySend dst s → chanLoad s.hereR (dst.toNat % 2 ^ 16) (dst.toNat / 2 ^ 16) < 4 →
      Gives (.send g a b) s (retire id (s.modHereR (fun R => { R with flying := R.flying ++ [sentWord dst (rv s a) false s] }))) ∧
      (inScope sc s.cur.unit (dst.toNat % 2 ^ 16) = true → s.here.prog = .published →
        Gives (.sendRel g a b sc) s (retire id (s.modHereR (fun R => { R with flying := R.flying ++ [sentWord dst (rv s a) true s] }))))) ∧
    (∀ (r k : Nat) (f : Flying), (s.region r).halt = false → (s.region r).flying[k]? = some f →
      (∀ e ∈ (s.region r).flying.take k, ¬ (e.u = f.u ∧ e.c = f.c ∧ e.su = f.su ∧ e.ss = f.ss)) →
      ∃ t, Gives (.channelWordArrival r k) s t ∧ ((t.core r f.u).chan f.c).words = ((s.core r f.u).chan f.c).words ++ [(f.data, f.ord)] ∧
        (t.region r).flying = (s.region r).flying.eraseIdx k ∧ (∀ v, v ≠ f.u → t.core r v = s.core r v)) ∧
    (∀ r u k : Nat, (s.region r).halt = false →
      ∃ t, Gives (.publishComplete r u k) s t ∧ (t.region r).publishes = (s.region r).publishes.filter (fun q => ¬ (q.unit = u ∧ q.slot = k)))

/-- No FDIV or FSQRT of the slot is in flight, which an access to FPFLAGS awaits (R102). -/
abbrev Sys2Proof.Claims.FpIdle (s : State) : Prop := waitDone s.hereR s.cur.unit s.cur.slot .fpDone = true
/-- System instructions: Where the word issues, MFSR and RDTIME read; MTSR writes FPFLAGS, FPMODE or TRAPVEC; a fence whose condition holds
completes, .acq and .acqrel refreshing the core, and .wait putting the slot's earlier atomics before its next words; RDTIME.cyc never reads
less than before; DIGEST continues the CRC, DIGEST.out does nothing outside checking mode; SEED records a pending seed; COLCHK reads the
colophon word. (02_instruction_word.md R46 R47, 05_scalar_instructions.md R119 to R124) -/
def Obligations.SystemWords : Prop :=
  ∀ (g : Guard) (d : Reg) (a b c : Src) (y : SysReg) (sc : Scope) (s : State),
    (Issues g [] [d] s →
      ((y = .fpflags → FpIdle s) → Gives (.mfsr g d y) s (done d (sysRead y s) s)) ∧
      Gives (.rdtime g d) s (done d (BitVec.ofNat 64 s.time) s) ∧
      (∃ t n, Gives (.rdtimeCyc g d) s t ∧ s.hereC.cyc ≤ n ∧ t.hereC.cyc = n ∧ (d ≠ 0 → t.here.rd d = BitVec.ofNat 64 n)) ∧
      Gives (.colchk g d) s (done d (BitVec.ofNat 64 (s.hereR.col.seq % 2 ^ 32 * 2 ^ 32 + s.hereR.col.mask % 2 ^ 16 * 2 ^ 16
        + 4 * b2n s.hereR.col.required + 2 * b2n s.hereR.col.nonce + b2n s.hereR.col.written)) s)) ∧
    (Issues g [a] [] s →
      (FpIdle s → Gives (.mtsr g .fpflags a) s (retire (fun sl => { sl with fpflags := (rv s a).setWidth 5 }) s)) ∧
      ((rv s a).toNat % 8 < 6 → Gives (.mtsr g .fpmode a) s (retire (fun sl => { sl with fpmode := (rv s a).setWidth 3 }) s)) ∧
      (6 ≤ (rv s a).toNat % 8 → Gives (.mtsr g .fpmode a) s (failSpace 0 s)) ∧
      Gives (.mtsr g .trapvec a) s (retire id (s.modHereC (fun c => { c with trapvec := (rv s a).setWidth 32 &&& 0x800707FF#32 }))) ∧
      (∃ t, Gives (.seed g a) s t ∧ t.here.pc = s.here.pc + 1 ∧
        (s.hereC.seed = none → t.hereC.seed = some (s.cur.slot, rv s a)) ∧
        (∀ j w, s.hereC.seed = some (j, w) → t.hereC.seed = if j < s.cur.slot then some (j, w) else some (s.cur.slot, rv s a)))) ∧
    (Issues g [] [] s →
      (waitDone s.hereR s.cur.unit s.cur.slot .earlier = true → Gives (.fenceWait g) s (retire id (s.modHereC (Core.fence s.cur.slot)))) ∧
      (s.here.prog = .published →
        Gives (.fenceRel g sc) s (retire id s) ∧
        Gives (.fenceAcqrel g sc) s (retire id (s.modHereC (fun c => { c with refresh := s.moment })))) ∧
      Gives (.fenceAcq g sc) s (retire id (s.modHereC (fun c => { c with refresh := s.moment })))) ∧
    (Issues g [a, b] [d] s → Gives (.digest g d a b) s (done d (crc (rv s a) (rv s b)) s)) ∧
    (Issues g [a, b, c] [] s → chkOn s s.hereR = false → Gives (.digestOut g a b c) s (retire id s))

/-- Which slot issues: Where core u of a running region has a slot whose next word may issue, once the waits that are over have ended and a
waiting trap has been delivered, ISSUE_SELECT takes the first such slot in the order L + 1 to L + 7, L modulo 8, makes it run and records it
as L, and the next step's turn is the issue of its word; where it has none, nothing issues. That the ended waits wake and a waiting trap is
delivered at the selection (R83 says when the slot is idle), and that the selected slot is L at once, are the model's choices (logs 8 and
67). After a fabric load takes effect, outside the second run of checking mode, which R312 has start otherwise, L is 7 on every core.
(04_task_and_firing.md R75 R83, 15_die_scheduling_quiescence.md R312) -/
def Obligations.SlotSelection : Prop :=
  (∀ (r u : Nat) (s : State),
    let v := deliver r u (wake r u s)
    isCoreUnit (s.region r) u = true → isCtl u = false → (s.region r).halt = false → (s.region r).frozen (.unit u) = false →
    (∀ n, 1 ≤ n → n ≤ 8 →
      let k := ((v.core r u).last + n) % 8
      (v.slot r u k).mayIssue = true → (∀ i, 1 ≤ i → i < n → (v.slot r u (((v.core r u).last + i) % 8)).mayIssue = false) →
      ∃ t, Gives (.issueSelect r u) s t ∧ t.turn = .issue ∧ t.cur.region = r ∧ t.cur.unit = u ∧ t.cur.slot = k ∧
        (t.core r u).last = k ∧ (t.slot r u k).st = .running ∧ (t.slot r u k).pc = (v.slot r u k).pc) ∧
    ((∀ k, k < 8 → (v.slot r u k).mayIssue = false) → Gives (.issueSelect r u) s v)) ∧
  (∀ (sl : Slot), sl.mayIssue = true ↔ (sl.st = .runnable ∨ sl.st = .running)) ∧
  (∀ (r x : Nat) (g : Graph) (c : Context) (l : Load) (s s1 : State), (s.region r).graph = some g → s.ctxOf (s.region r) = some c → (s.region r).halt = false →
    g.load = some l → frameAt c r l l.frames.length s = .ok (some x) s1 → s1.regions = s.regions → bits x 255 252 = 15 →
    firstBad (s.region r) (imageOf l.frames) (bits g.bits 319 256) (bits g.bits 351 320) = none →
    endReason { pos := l.frames.length, x := x, k := 0 } = none →
    (∀ y, g.nodes[l.node]? = some y → ∀ v ∈ y.arms, armMissing (install (imageOf l.frames) (s.region r)) v = false) → g.run ≠ 2 →
    ∃ t, Gives (.endFrame r) s t ∧ ∀ u, (t.core r u).last = 7)

/-- A word whose guard does not allow it, or whose registers are not ready: Every word form of a scalar core, on a core where it may stand:
where its guard does not allow it, whatever its operands hold, it reads no register, does not wait, and only takes the slot to the next
word; where its guard allows it and a source is empty, but none with its trap bit set, it waits for the empty sources; and where its sources
are full and a destination is pending, it waits for the pending destinations. It does nothing else. (02_instruction_word.md R23 R28 R29) -/
def Obligations.GuardedOff : Prop :=
  ∀ (i : Instr) (f : Form) (s : State), formOf i = some f → f.Stands s →
    (s.here.allows f.guard = false → Gives i s (retire id s)) ∧
    (s.here.allows f.guard = true → (∀ x ∈ f.srcs, x.et = true → ¬ Empty s x) →
      ((∃ x ∈ f.srcs, Empty s x) →
        Gives i s (park (.regs ((f.srcs.filter (fun x => decide (Empty s x))).map (fun x => x.r.toNat)) []) s)) ∧
      ((∀ x ∈ f.srcs, ¬ Empty s x) → (∃ d ∈ f.dests, s.here.fill d = .pending) →
        Gives i s (park (.regs [] ((f.dests.filter (fun d => decide (s.here.fill d = .pending))).map (fun d => d.toNat))) s)))

/-- Local stores: Where the word issues on a compute core and its address is aligned and inside the store, LDL reads the bytes of the core's
own store and completes with them extended, no soft error being present, and STL writes them; every byte of memory but those that STL stores
to reads as before. That what is ordered before the slot's words is ordered before every slot's once it stores is the model's reading of
R494 (log 11). (07_core_accumulators_and_local_memory.md R165 to R168 R175) -/
def Obligations.LocalStores : Prop :=
  ∀ (g : Guard) (x base : Reg) (l : LoadOp) (m : StoreOp) (s : State), OnCompute s →
    (Issues g (loadSrcs base l) [x] s → s.errors = [] →
      let i := effAddr (s.here.rd base) l.off
      Fits i (sizeBytes l.size) 0x10000 →
      Gives (.ldl g x base l) s
        (done x (extend l.sx (s.lmem.reads (lKey s.cur.region s.cur.unit i.toNat) (sizeBytes l.size))) s)) ∧
    (Issues g (storeSrcs x base m) [] s →
      let i := effAddr (s.here.rd base) m.off
      let n := sizeBytes m.size
      Fits i n 0x10000 →
      ∃ t, Gives (.stl g x base m) s t ∧ t.here = s.here.next ∧
        t.lmem.reads (lKey s.cur.region s.cur.unit i.toNat) n = bytesLE n (s.here.rd x).toNat ∧
        (∀ a, (a < lKey s.cur.region s.cur.unit i.toNat ∨ lKey s.cur.region s.cur.unit i.toNat + n ≤ a) → t.lmem.read a = s.lmem.read a) ∧
        t.smem = s.smem ∧ t.tmem = s.tmem ∧ t.moment = s.moment + 1 ∧
        { t with lmem := s.lmem, moment := s.moment, errors := s.errors } = (s.modHereC (Core.storedLocal s.cur.slot)).modHere Slot.next)

/-- The state after `n` bytes of `v` have entered the core's phase buffer at `a` of space `sp`. -/
def Sys2Proof.Claims.Buffered (sp : Space) (a n : Nat) (v : Word) (s t : State) : Prop :=
  ∃ l es, t = retire id { s.modHereC (fun c => { c.stored s.cur.slot with phase := l }) with errors := es } ∧
    (∀ e ∈ s.errors, ¬ (e.r = s.cur.region ∧ e.code = 3 ∧ e.unit = s.cur.unit) → e.wrote ≠ 0xFF → e ∈ es) ∧
    (∀ bs : List Byte, bs.length = n → layOver (phaseWord sp (a / 8 * 8) l) a bs = bytesLE n v.toNat) ∧
    (∀ q b, (q ≠ sp ∨ b ≠ a / 8 * 8) → phaseWord q b l = phaseWord q b s.hereC.phase) ∧
    t.smem = s.smem ∧ t.lmem = s.lmem ∧ t.tmem = s.tmem
/-- The buffer of the core holds the 8-byte word at `a` of space `sp`, or has room for it (R170, R171). -/
def Sys2Proof.Claims.Room (sp : Space) (a : Nat) (s : State) : Prop :=
  s.hereC.phase.length < 2048 ∨ ∃ w ∈ s.hereC.phase, w.sp = sp ∧ w.addr = a / 8 * 8
/-- A store's answer: its bytes enter the buffer, or PHASE_OVERFLOW with the number of its space. -/
def Sys2Proof.Claims.StoreDone (i : Instr) (sp : Space) (code a n : Nat) (v : Word) (s : State) : Prop :=
  (Room sp a s → ∃ t, Gives i s t ∧ Buffered sp a n v s t) ∧
  (¬ Room sp a s → Gives i s (fail 0x0A (BitVec.ofNat 64 a) (BitVec.ofNat 64 code) s))
/-- Stores through the phase buffer: Where the word issues, its address is aligned and lies in its space (STR names no store of the issuing
compute core, STS touches nothing borrowed, STG lies in the control segment), and the core's phase buffer holds its 8-byte word already,
full or not, or fewer than 2,048 words, the bytes enter the buffer, where a load of the core sees them, and the slot goes on; no byte of
memory changes. Where the buffer holds 2,048 words and not that one, the store raises PHASE_OVERFLOW with its address and space, and is not
entered. That what is ordered before the slot's words is ordered before the loads of every slot once it stores is the model's reading of
R494 (log 11). (07_core_accumulators_and_local_memory.md R167 to R171, 09_cluster_memory_streams_barriers.md R212 R213) -/
def Obligations.BufferedStores : Prop :=
  ∀ (g : Guard) (x base : Reg) (m : StoreOp) (s : State), Issues g (storeSrcs x base m) [] s →
    let i := effAddr (s.here.rd base) m.off
    let n := sizeBytes m.size
    (Fits i n 0x40000 → (OnCompute s → i.toNat / 2 ^ 16 ≠ uIdx s.cur.unit) → StoreDone (.str g x base m) .r 1 i.toNat n (s.here.rd x) s) ∧
    (Fits i n 0x400000 → borrowed s.hereR s.hereCl i.toNat n = false → StoreDone (.sts g x base m) .s 0 i.toNat n (s.here.rd x) s) ∧
    (OnControl s → Fits i n (hereSeg s) → StoreDone (.stg g x base m) .g 2 i.toNat n (s.here.rd x) s)

/-- A value of `n` bytes at `key` of memory `mem` that stood at some moment from `lo` to now, under a buffered word. -/
def Sys2Proof.Claims.SomeValue (mem : VMem) (key a n lo now : Nat) (w : PWord) (sx : Bool) (v : Word) : Prop :=
  ∃ m, lo ≤ m ∧ m ≤ now ∧ v = extend sx (layOver w a (mem.readsAt m key n))
/-- Loads of S, R and G space: Where the word issues, its address is aligned and in its space and no soft error is present, LDS completes
with a value that the bytes held at some moment from the core's floor to now, under the core's own buffered bytes; LDR and LDG become
producers of a load; LDG.acq and LDG.sc wait for theirs and then complete. A load of R space that performs, no earlier load of the core to
some of the same bytes being in flight, likewise returns a value of some moment from the latest of its own floor and the values that the
core has already seen there, to now; such a load waits for the earlier one. No byte of memory changes. That a load's bytes come from one
moment, that a later LDR or LDG waits for an earlier load of some of the same bytes, and what a load is taken to be ordered behind are the
model's choices (log 11). (07_core_accumulators_and_local_memory.md R167 R168, 09_cluster_memory_streams_barriers.md R212 to R215) -/
def Obligations.Loads : Prop :=
  (∀ (g : Guard) (x base : Reg) (l : LoadOp) (s : State), Issues g (loadSrcs base l) [x] s →
    let i := effAddr (s.here.rd base) l.off
    let n := sizeBytes l.size
    let a := i.toNat
    (Fits i n 0x400000 → borrowed s.hereR s.hereCl a n = false → s.errors = [] →
      let key := sKey s.cur.region s.hereCl a
      floorOf s.hereC s.cur.slot .s key n ≤ s.moment →
      ∃ t v, Gives (.lds g x base l) s t ∧ SomeValue s.smem key a n (floorOf s.hereC s.cur.slot .s key n) s.moment (phaseWord .s (a / 8 * 8) s.hereC.phase) l.sx v ∧
        t.here = (s.here.wr x v).next ∧ t.smem = s.smem ∧ t.lmem = s.lmem ∧ t.tmem = s.tmem) ∧
    (Fits i n 0x40000 → (OnCompute s → a / 2 ^ 16 ≠ uIdx s.cur.unit) → s.errors = [] →
      Gives (.ldr g x base l) s (produce [x] (.load (loadReq .r a n l.sx s)) (s.modHereC (fun c => c.did s.cur.slot c.behind)))) ∧
    (OnControl s → Fits i n (hereSeg s) → s.errors = [] →
      Gives (.ldg g x base l) s (produce [x] (.load (loadReq .g a n l.sx s)) (s.modHereC (fun c => c.did s.cur.slot c.behind))) ∧
      (s.here.prog ≠ .accepted →
        (∃ t, Gives (.ldgAcq g x base l) s t ∧ t.here.st = .waiting (.ordered s.hereR.nextId) ∧ t.here.prog = .accepted ∧
          t.hereC.producers.length = s.hereC.producers.length + 1) ∧
        (∃ t, Gives (.ldgSc g x base l) s t ∧ t.here.st = .waiting (.ordered s.hereR.nextId) ∧ t.here.prog = .accepted ∧
          t.hereC.producers.length = s.hereC.producers.length + 1)) ∧
      (s.here.prog = .accepted →
        Gives (.ldgAcq g x base l) s (retire id s) ∧ Gives (.ldgSc g x base l) s (retire id s)))) ∧
  (∀ (r u k : Nat) (p : Producer) (l : LoadReq) (d : Reg) (s : State), (s.region r).halt = false → s.errors = [] →
    (s.core r u).producers.find? (fun q => decide (q.id = k)) = some p → p.work = .load l → l.sp = .r → p.dests = [d] → d ≠ 0 →
    (olderLoad (s.core r u) k l = true → Gives (.producerCompletion r u k) s s) ∧
    (olderLoad (s.core r u) k l = false →
    let key := lKey r (mkUnit (uCl u) 0 (l.addr / 2 ^ 16)) (l.addr % 2 ^ 16)
    let lo := max l.floor ((s.core r u).seenOf .r key l.n)
    lo ≤ s.moment →
    ∃ t v, Gives (.producerCompletion r u k) s t ∧ SomeValue s.lmem key l.addr l.n lo s.moment l.lay l.sx v ∧
      (t.slot r u p.slot).rd d = v ∧ (t.slot r u p.slot).fill d = .full ∧ t.smem = s.smem ∧ t.lmem = s.lmem ∧ t.tmem = s.tmem))

/-- STG.rel and STG.sc: Where the word issues on a control core, its address is aligned and in the control segment and its publish has
completed, STG.rel and STG.sc store directly at memory and complete once the write is accepted, so that no later load of the core returns an
older value of the bytes; in deterministic mode they wait while another node of the graph holds their tile back (R300, as log 27 reads it);
in run 1 of checking mode the store is discarded. What is ordered behind the store is the model's reading of R494 (log 11).
(09_cluster_memory_streams_barriers.md R215, 15_die_scheduling_quiescence.md R300 R312) -/
def Obligations.OrderedStores : Prop :=
  ∀ (g : Guard) (x base : Reg) (m : StoreOp) (s : State), OnControl s → Issues g (storeSrcs x base m) [] s → s.here.prog = .published →
    let i := effAddr (s.here.rd base) m.off
    let n := sizeBytes m.size
    Fits i n (hereSeg s) →
    (run1 s s.hereR = true → Gives (.stgRel g x base m) s (retire id s) ∧ Gives (.stgSc g x base m) s (retire id s)) ∧
    (∀ (c : Context) (t : State), run1 s s.hereR = false → s.ctxOf s.hereR = some c →
      (loadWaits c s.cur.region (segMid c i.toNat) s = true → Gives (.stgRel g x base m) s s ∧ Gives (.stgSc g x base m) s s) ∧
      (loadWaits c s.cur.region (segMid c i.toNat) s = false → gWrite c s.cur.region i.toNat (bytesLE n (s.here.rd x).toNat) s = .ok () t →
        let key := gKey c s.cur.region i.toNat
        let u := retire id (t.modHereC (fun k => ((k.saw .g key n t.moment).stored s.cur.slot).after s.cur.slot (byteOrder .g key n t.moment)))
        Gives (.stgRel g x base m) s u ∧ Gives (.stgSc g x base m) s u))

/-- The atomic that a word sends. -/
def Sys2Proof.Claims.atomOf (glob : Bool) (a b c : Src) (op : AtomKind) (dbl : Bool) (s : State) : Atomic :=
  { id := s.hereR.nextId, unit := s.cur.unit, slot := s.cur.slot, glob := glob, addr := (rv s a).toNat, mem := atomUnit glob (rv s a).toNat s, n := if dbl then 8 else 4, op := op,
    x := (rv s b).toNat % 2 ^ (if dbl then 64 else 32), cmp := (rv s c).toNat % 2 ^ (if dbl then 64 else 32),
    key := { interval := s.here.interval, issuer := s.cur.unit * 8 + s.cur.slot, seq := s.here.aseq }, pc := s.here.pc, view := s.hereC.viewOf s.cur.slot }
/-- The state after an atomic has left. -/
def Sys2Proof.Claims.AtomicSent (x : Atomic) (ds : List Reg) (s t : State) : Prop :=
  t.hereR.atomics = s.hereR.atomics ++ [x] ∧ t.here.pc = s.here.pc + 1 ∧ t.here.aseq = s.here.aseq + 1 ∧
  (∀ d ∈ ds, d ≠ 0 → t.here.fill d = .pending) ∧ t.hereC.producers.length = s.hereC.producers.length + ds.length ∧
  t.smem = s.smem ∧ t.lmem = s.lmem ∧ t.tmem = s.tmem
/-- Deterministic mode lets the atomic leave (R221 to R223). -/
abbrev Sys2Proof.Claims.AtomFree (val glob : Bool) (a : Src) (s : State) : Prop :=
  atomBarred val s = false ∧
    ((detOn s s.hereR = false ∧ hasBudget s.cur.region s = true) ∨ atomRoom s.hereR (atomUnit glob (rv s a).toNat s) (issuerOf s.cur.unit s.cur.slot) = true)
/-- Atomics leave for their unit: Where the word issues, its address is aligned and in its space, deterministic mode does not bar it and its
unit has room (or, outside deterministic mode, the context has budget, so that the unit holds nothing back), an atomic is sent to its
memory-side unit with the operands of R218, in the slot's next place of the deterministic order; a value-returning one is a producer; memory
does not change yet. What is ordered before an atomic is the model's reading of R494 (log 11). (09_cluster_memory_streams_barriers.md R218
to R223, 21_package_partitions_host.md R448) -/
def Obligations.AtomicsLeave : Prop :=
  ∀ (g : Guard) (d : Reg) (a b c : Src) (op : AtomOp) (vop : AtomVOp) (dbl : Bool) (s : State),
    let i : Int := (rv s a).toNat
    let n := if dbl then 8 else 4
    (Fits i n 0x400000 → borrowed s.hereR s.hereCl i.toNat n = false →
      (Issues g [a, b] [] s → AtomFree false false a s →
        ∃ t, Gives (.ats g a b op dbl) s t ∧ AtomicSent (atomOf false a b { r := 0, et := false } (.upd op) dbl s) [] s t) ∧
      (Issues g (atomVSrcs a b c vop) [d] s → AtomFree true false a s →
        ∃ t, Gives (.atsv g d a b c vop dbl) s t ∧ AtomicSent (atomOf false a b c (.val vop) dbl s) [d] s t)) ∧
    (OnControl s → Fits i n (hereSeg s) →
      (Issues g [a, b] [] s → AtomFree false true a s →
        ∃ t, Gives (.atg g a b op dbl) s t ∧ AtomicSent (atomOf true a b { r := 0, et := false } (.upd op) dbl s) [] s t) ∧
      (Issues g (atomVSrcs a b c vop) [d] s → AtomFree true true a s →
        ∃ t, Gives (.atgv g d a b c vop dbl) s t ∧ AtomicSent (atomOf true a b c (.val vop) dbl s) [d] s t))

/-- An atomic performs: An atomic on S space that may perform, its context having budget and no soft error being present, replaces its bytes
by the new value of R219 as one step and changes no other byte, and its producer, if it has one, receives the old value; outside
deterministic mode any such atomic may perform. (09_cluster_memory_streams_barriers.md R219 to R222) -/
def Obligations.AtomicPerforms : Prop :=
  ∀ (r k : Nat) (a : Atomic) (s : State), (s.region r).halt = false → s.errors = [] →
    (s.region r).atomics.find? (fun x => decide (x.id = k)) = some a → a.glob = false → 0 < a.n → hasBudget r s = true →
    (detOn s (s.region r) = false ∨ atomReady s (s.region r) a = true) →
    let key := sKey r (uCl a.unit) a.addr
    let old := ofBytesLE (s.smem.reads key a.n)
    ∃ t, Gives (.atomicPerform r k) s t ∧ t.smem.reads key a.n = bytesLE a.n (atomNew a old) ∧
      (∀ i, (i < key ∨ key + a.n ≤ i) → t.smem.read i = s.smem.read i) ∧ t.lmem = s.lmem ∧ t.tmem = s.tmem ∧
      (t.region r).atomics = (s.region r).atomics.filter (fun x => x.id ≠ a.id) ∧
      (∀ p d, (s.core r a.unit).producers.find? (fun q => decide (q.id = a.id)) = some p → p.dests = [d] → d ≠ 0 →
        (t.slot r a.unit p.slot).rd d = BitVec.ofNat 64 old ∧ (t.slot r a.unit p.slot).fill d = .full)

/-- The state after an arrival that is not the last. -/
def Sys2Proof.Claims.Arrived (n : BarName) (e : Nat) (s t : State) : Prop :=
  (barAt n t.hereR).count = (barAt n s.hereR).count + 1 ∧ (barAt n t.hereR).e = e ∧ (barAt n t.hereR).inst = (barAt n s.hereR).inst ∧
  t.here.st = .waiting .barrier ∧ t.here.pc = s.here.pc ∧ t.here.interval = s.here.interval + 1
/-- The state after the last arrival. -/
def Sys2Proof.Claims.Completed (n : BarName) (s t : State) : Prop :=
  (barAt n t.hereR).count = 0 ∧ (barAt n t.hereR).inst = (barAt n s.hereR).inst + 1 ∧
  ∀ p ∈ (barAt n s.hereR).arrived ++ [(s.cur.unit, s.cur.slot)],
    (t.slot s.cur.region p.1 p.2).st = .runnable ∧ (t.slot s.cur.region p.1 p.2).prog = .released (barAt n s.hereR).inst
/-- The arrival count may be used, and the slot's own atomics have performed (R217). -/
abbrev Sys2Proof.Claims.MayArrive (n : BarName) (e : Nat) (s : State) : Prop :=
  s.here.prog = .fresh ∧ 1 ≤ e ∧ e ≤ parties n s.hereR ∧ (0 < (barAt n s.hereR).count → (barAt n s.hereR).e = e) ∧
  waitDone s.hereR s.cur.unit s.cur.slot .ownAtomics = true
/-- The bytes that cores publish to scratchpads (`r` false) or local stores, each at its key, in the order in which they perform. -/
def Sys2Proof.Claims.publishedBytes (r : Bool) (l : List Nat) (s : State) : List (Nat × Byte) :=
  l.flatMap (fun u => ((s.core s.cur.region u).phase.filter (fun w => w.sp == if r then .r else .s)).flatMap (fun w => w.bytes.map (fun p =>
    (if r then lKey s.cur.region (mkUnit (uCl u) 0 (w.addr / 2 ^ 16)) (p.1 % 2 ^ 16) else sKey s.cur.region (uCl u) p.1, p.2))))
/-- The last byte written at a key, or what stood there. -/
def Sys2Proof.Claims.lastByte (l : List (Nat × Byte)) (key : Nat) (b : Byte) : Byte := l.foldl (fun b p => if p.1 = key then p.2 else b) b
/-- What the last arrival answers where the instance's publishes succeed, leaving `m`: the memories of `m`, its arrivers released. -/
def Sys2Proof.Claims.LastArrival (i : Instr) (n : BarName) (e : Nat) (s : State) : Prop :=
  let l := (barAt n s.hereR).arrived ++ [(s.cur.unit, s.cur.slot)]
  let cores := arrivingCores l
  let b := { barAt n s.hereR with e := e, count := (barAt n s.hereR).count + 1, arrived := l }
  let a := (s.modHere (fun sl => { sl with interval := sl.interval + 1, aseq := 0, dseq := 0, st := .waiting .barrier, prog := .arrived })).modRegion s.cur.region (setBar n b)
  (∀ m, publishCores s.cur.region cores a = .ok () m →
    ∃ t, Gives i s t ∧ Completed n s t ∧ t.smem = m.smem ∧ t.lmem = m.lmem ∧ t.tmem = m.tmem ∧ ∀ p ∈ l, (t.core s.cur.region p.1).phase = []) ∧
  (s.errors = [] → (∀ p ∈ l, ∀ w ∈ (s.core s.cur.region p.1).phase, w.sp ≠ .g) →
    ∃ t, Gives i s t ∧ Completed n s t ∧ t.tmem = s.tmem ∧ (∀ p ∈ l, (t.core s.cur.region p.1).phase = []) ∧
      ∀ k, t.smem.read k = lastByte (publishedBytes false cores s) k (s.smem.read k) ∧ t.lmem.read k = lastByte (publishedBytes true cores s) k (s.lmem.read k))
/-- CBAR and PHASE: Where the word issues with a legal arrival count and the slot's atomics have performed, an arrival that is not the last
is counted and the slot waits; the last arrival, no soft error being present, completes the instance - the arriving cores publish their
phase buffers in increasing unit number, which leaves them empty, the count returns to 0, the instance number rises by 1 and every arriving
slot may go on; where no buffer holds a word of G space each byte of a scratchpad or a local store that the buffers name holds the last of
their bytes and every other byte of memory is as before; and a released slot's register receives the number of its instance. That a core's
words perform one after another in the order in which the buffer took them is the model's choice (log 9).
(09_cluster_memory_streams_barriers.md R216 R217) -/
def Obligations.PhaseBoundaries : Prop :=
  ∀ (g : Guard) (d : Reg) (a : Src) (sc : Scope) (id : Tmpl) (s : State), Issues g [a] [d] s →
    let e := (rv s a).toNat
    let n : BarName := { cl := some s.hereCl, id := id.toNat }
    let m : BarName := { cl := none, id := id.toNat }
    (∀ inst, s.here.prog = .released inst →
      Gives (.cbar g d a id) s (done d (inst.setWidth 64) s) ∧ Gives (.phase g d a sc id) s (done d (inst.setWidth 64) s)) ∧
    (MayArrive n e s →
      ((barAt n s.hereR).count + 1 ≠ e → ∃ t, Gives (.cbar g d a id) s t ∧ Arrived n e s t) ∧
      ((barAt n s.hereR).count + 1 = e → s.hereR.halt = false → LastArrival (.cbar g d a id) n e s)) ∧
    (MayArrive m e s →
      ((barAt m s.hereR).count + 1 ≠ e → ∃ t, Gives (.phase g d a sc id) s t ∧ Arrived m e s t) ∧
      ((barAt m s.hereR).count + 1 = e → s.hereR.halt = false → LastArrival (.phase g d a sc id) m e s))

/-- The stage under the cursor, where it may fire, starts a firing of this word that computes `f`; otherwise nothing happens (R77, R78). -/
abbrev Sys2Proof.Claims.Starts (i : Instr) (op : Nat) (v : VWord) (f : FireIn → FireOut) (s : State) : Prop :=
  (canFire (packV op v) s = true → Gives i s (recordFiring (packV op v) f s)) ∧ (canFire (packV op v) s = false → Gives i s s)
/-- An exact number rounded into the stage's type as element `i`, beside flags already raised. -/
def Sys2Proof.Claims.laneOf (x : FireIn) (i : Nat) (n : XNum) (fl : Flg) : Nat × Flg :=
  let q := encodeNum x.v.ty (fmtInt x.v.ty) x.v.rnd x.v.sat (x.mix i) n
  (q.1, fl ||| q.2)
/-- One beat of elements, and the flags of all of them. -/
def Sys2Proof.Claims.beatOf (f : Fmt) (l : List (Nat × Flg)) : FireOut :=
  { outs := [lineOf f (l.map Prod.fst)], flags := l.foldl (fun g e => g ||| e.2) 0 }
/-- Elements cut into beats. -/
def Sys2Proof.Claims.beatsOf (f : Fmt) (l : List (Nat × Flg)) : FireOut :=
  { outs := (cutBeats (beatElems f) 64 (l.map Prod.fst)).1.map (lineOf f), flags := l.foldl (fun g e => g ||| e.2) 0 }
/-- An operation on two operands, element by element. -/
def Sys2Proof.Claims.pairwise (f : XNum → XNum → XNum × Flg) (x : FireIn) : FireOut :=
  beatOf x.v.ty (((elemsOf x.v.ty x.a0).zip (elemsOf x.v.ty x.b)).zipIdx.map (fun e =>
    let r := f (decodeNum x.v.ty e.1.1) (decodeNum x.v.ty e.1.2)
    laneOf x e.2 r.1 r.2))
/-- Element arithmetic: A stage that may fire starts a firing whose result elements are those of its operation, each from the exact result
rounded once into the stage's type: sum, difference, product, fused product and sum, sign operations, minimum and maximum, clamp,
conversion, scaling, special functions, sum of all, prefix sums, and VNRW's stream mode; a stage that may not fire changes nothing. That
VSCAN without .c adds no carry term is the model's choice (log 66), as are the series that VSF sums (log 17), the inexact flag of an integer
rounding in VSCALE and VNRW (log 18), and what rounding into DF8 does above 16,384 and the width at which a constant is read as VCVT's or
VNRW's source (log 73). (06_core_pipeline_and_element_ops.md R137 R140 R142 R143 R146 R147 R149 R150 R154) -/
def Obligations.VectorArithmetic : Prop :=
  ∀ (v : VWord) (s : State),
    let es : FireIn → List Nat := fun x => elemsOf x.v.ty x.a0
    let fs : FireIn → List Nat := fun x => elemsOf x.v.ty x.b
    let gs : FireIn → List Nat := fun x => elemsOf x.v.ty x.c
    Starts (.vadd v) 0x80 v (pairwise (fun a b => numSum [a, b])) s ∧
    Starts (.vsub v) 0x81 v (pairwise (fun a b => numSum [a, b.negate])) s ∧
    Starts (.vmul v) 0x82 v (pairwise numMul) s ∧
    Starts (.vfma v) 0x83 v (fun x => beatOf x.v.ty (((es x).zip ((fs x).zip (gs x))).zipIdx.map (fun e =>
      let r := numFma (decodeNum x.v.ty e.1.1) (decodeNum x.v.ty e.1.2.1) (decodeNum x.v.ty e.1.2.2)
      laneOf x e.2 r.1 r.2))) s ∧
    Starts (.vabs v) 0x86 v (fun x => beatOf x.v.ty ((es x).map (signCode x.v.ty false x.v.sat))) s ∧
    Starts (.vneg v) 0x87 v (fun x => beatOf x.v.ty ((es x).map (signCode x.v.ty true x.v.sat))) s ∧
    Starts (.vmin v) 0x88 v (fun x => beatOf x.v.ty (((es x).zip (fs x)).map (fun e => minMaxCode x.v.ty false true e.1 e.2))) s ∧
    Starts (.vmax v) 0x89 v (fun x => beatOf x.v.ty (((es x).zip (fs x)).map (fun e => minMaxCode x.v.ty true true e.1 e.2))) s ∧
    Starts (.vminp v) 0x8A v (fun x => beatOf x.v.ty (((es x).zip (fs x)).map (fun e => minMaxCode x.v.ty false false e.1 e.2))) s ∧
    Starts (.vmaxp v) 0x8B v (fun x => beatOf x.v.ty (((es x).zip (fs x)).map (fun e => minMaxCode x.v.ty true false e.1 e.2))) s ∧
    Starts (.vclamp v) 0x8C v (fun x => beatOf x.v.ty (((es x).zip ((fs x).zip (gs x))).map (fun e =>
      let m := minMaxCode x.v.ty true true e.1 e.2.1
      let n := minMaxCode x.v.ty false true m.1 e.2.2
      (n.1, m.2 ||| n.2)))) s ∧
    Starts (.vcvt v) 0x95 v (fun x =>
      let f := fmtOf x.v.fn.toNat
      beatsOf x.v.ty ((x.a.flatMap (elemsOf f)).zipIdx.map (fun e => convert x.v.ty f x.v.rnd x.v.sat (x.mix e.2) e.1))) s ∧
    Starts (.vscale v) 0x96 v (fun x => beatOf x.v.ty (((es x).zip (fs x)).zipIdx.map (fun e =>
      laneOf x e.2 (scaleNum (scaleExp (fmtBits x.v.ty) e.1.2) (decodeNum x.v.ty e.1.1)) 0))) s ∧
    Starts (.vsf v) 0x98 v (fun x => beatOf x.v.ty ((es x).zipIdx.map (fun e =>
      let r := numVsf x.v.fn.toNat (decodeNum x.v.ty e.1)
      laneOf x e.2 r.1 r.2))) s ∧
    Starts (.vsum v) 0x99 v (fun x =>
      let r := numSum ((es x).map (decodeNum x.v.ty))
      beatOf x.v.ty (laneOf x 0 r.1 r.2 :: List.replicate ((es x).length - 1) (0, 0))) s ∧
    Starts (.vscan v) 0x9A v (fun x =>
      let lead := if x.v.fn.getLsbD 0 then [decodeNum x.v.ty x.carry.toNat] else []
      let l := (prefixes ((es x).map (decodeNum x.v.ty))).zipIdx.map (fun e =>
        let r := numSum (lead ++ e.1)
        laneOf x e.2 r.1 r.2)
      { beatOf x.v.ty l with carry := if x.v.fn.getLsbD 0 then some (BitVec.ofNat 64 (l.getLastD (0, 0)).1) else none }) s ∧
    Starts (.vnrwStream v) 0xA3 v (fun x =>
      let t : XNum := if x.v.fn.getLsbD 4 then .fin false 1 1 else decodeNum .fp32 x.scale.toNat
      beatsOf x.v.ty ((x.a.flatMap (elemsOf .fp32)).zipIdx.map (fun e =>
        let p := numMul (decodeNum .fp32 e.1) t
        let q := encodeNum x.v.ty false x.v.rnd x.v.sat (x.mix e.2) p.1
        (q.1, p.2 ||| q.2)))) s

/-- One beat of codes moved as they are. -/
def Sys2Proof.Claims.movedBeat (f : Fmt) (l : List Nat) : FireOut := { outs := [lineOf f l], flags := 0 }
/-- Bits, selections and moves of elements: A stage that may fire starts a firing whose result is that of its operation: bitwise operations
and shifts, compare and select, permutations, broadcast, slide, tap, expand and compress, steering and merging, and moves; VAMAX passes its
operand on and proposes its greatest magnitude; the operations that work on an accumulator deliver at their commit. A stage that may not
fire changes nothing. (06_core_pipeline_and_element_ops.md R144 R145 R148 R151 to R155) -/
def Obligations.VectorMoves : Prop :=
  ∀ (v : VWord) (s : State),
    let es : FireIn → List Nat := fun x => elemsOf x.v.ty x.a0
    let fs : FireIn → List Nat := fun x => elemsOf x.v.ty x.b
    let gs : FireIn → List Nat := fun x => elemsOf x.v.ty x.c
    let keep : FireIn → Nat → Bool := fun x i => if x.v.fn.getLsbD 0 then x.b.getLsbD i else (fs x).getD i 0 != 0
    Starts (.vand v) 0x8D v (fun x => { outs := [x.a0 &&& x.b], flags := 0 }) s ∧
    Starts (.vor v) 0x8E v (fun x => { outs := [x.a0 ||| x.b], flags := 0 }) s ∧
    Starts (.vxor v) 0x8F v (fun x => { outs := [x.a0 ^^^ x.b], flags := 0 }) s ∧
    Starts (.vshl v) 0x90 v (fun x => beatOf x.v.ty (((es x).zip (fs x)).map (fun e => shiftCode x.v.ty true false x.v.sat e.1 e.2))) s ∧
    Starts (.vshr v) 0x91 v (fun x => beatOf x.v.ty (((es x).zip (fs x)).map (fun e => shiftCode x.v.ty false false false e.1 e.2))) s ∧
    Starts (.vsra v) 0x92 v (fun x => beatOf x.v.ty (((es x).zip (fs x)).map (fun e => shiftCode x.v.ty false true false e.1 e.2))) s ∧
    Starts (.vcmp v) 0x93 v (fun x => beatOf x.v.ty (((es x).zip (fs x)).map (fun e => cmpCode x.v.ty x.v.fn.toNat e.1 e.2))) s ∧
    Starts (.vsel v) 0x94 v (fun x => movedBeat x.v.ty (((es x).zip ((fs x).zip (gs x))).map (fun e => if e.2.2 = 0 then e.2.1 else e.1))) s ∧
    Starts (.vperm v) 0x9B v (fun x => movedBeat x.v.ty ((fs x).map (fun i => (es x).getD (i % (es x).length) 0))) s ∧
    Starts (.vperm2 v) 0x9B v (fun x => movedBeat x.v.ty ((fs x).map (fun i => (es x ++ gs x).getD (i % (2 * (es x).length)) 0))) s ∧
    Starts (.vbcast v) 0x9C v (fun x => movedBeat x.v.ty (List.replicate (es x).length ((es x).getD x.v.fn.toNat 0))) s ∧
    Starts (.vslide v) 0x9D v (fun x => movedBeat x.v.ty (((es x ++ fs x).drop x.v.fn.toNat).take (es x).length)) s ∧
    Starts (.vtap v) 0x9E v (fun x => movedBeat x.v.ty ((fs x).zipIdx.map (fun e =>
      let i : Int := ((x.v.selA.toNat - 64 : Nat) : Int) + sextN (fmtBits x.v.ty) e.1
      (elemsOf x.v.ty (Assoc.get 0 (max 0 (min 63 i)).toNat x.taps)).getD e.2 0))) s ∧
    Starts (.vexpand v) 0x9F v (fun x => movedBeat x.v.ty (expandGo (keep x) (es x).length 0 (es x))) s ∧
    Starts (.vcompress v) 0xA0 v (fun x => movedBeat x.v.ty (((es x).zipIdx.filter (fun e => keep x e.2)).map Prod.fst)) s ∧
    Starts (.vsteer v) 0xA1 v (fun x => { outs := [x.a0], flags := 0, steer := some (if x.b.getLsbD 0 then 1 else 0) }) s ∧
    Starts (.vmerge v) 0xA2 v (fun x => { outs := [if x.c.getLsbD 0 then x.b else x.a0], flags := 0 }) s ∧
    Starts (.vmov v) 0xA4 v (fun x => { outs := [x.a0], flags := 0 }) s ∧
    Starts (.vamax v) 0x97 v (fun x => { outs := [x.a0], flags := 0, mag := some (x.v.fn.toNat % 4, (es x).foldl (fun m e => magUpdate m (decodeNum x.v.ty e)) 0) }) s ∧
    Starts (.vmac v) 0x84 v (fun _ => { outs := [], flags := 0 }) s ∧
    Starts (.vdot4 v) 0x85 v (fun _ => { outs := [], flags := 0 }) s ∧
    Starts (.vnrw v) 0xA3 v (fun _ => { outs := [], flags := 0 }) s

/-- The word of an element operation that `exec` runs at the stage under the cursor. -/
def Sys2Proof.Claims.vectorOf : Instr → Option VWord
  | .vadd v | .vsub v | .vmul v | .vfma v | .vmac v | .vdot4 v | .vabs v | .vneg v | .vmin v | .vmax v | .vminp v | .vmaxp v | .vclamp v
  | .vand v | .vor v | .vxor v | .vshl v | .vshr v | .vsra v | .vcmp v | .vsel v | .vcvt v | .vscale v | .vamax v | .vsf v | .vsum v | .vscan v
  | .vperm v | .vperm2 v | .vbcast v | .vslide v | .vtap v | .vexpand v | .vcompress v | .vsteer v | .vmerge v | .vnrw v | .vnrwStream v
  | .vmov v => some v
  | _ => none
/-- A firing's start shows nothing: The start of a firing of any element operation changes no byte of memory, no register, flag or other
part of any task slot, no accumulator, no other region and no context; the values it takes from other units are read, not removed.
(04_task_and_firing.md R77 R78) -/
def Obligations.FiringStartFrame : Prop :=
  ∀ (i : Instr) (v : VWord) (s t : State), vectorOf i = some v → Gives i s t → s.errors = [] →
    t.smem = s.smem ∧ t.lmem = s.lmem ∧ t.tmem = s.tmem ∧ t.contexts = s.contexts ∧ (∀ r, r ≠ s.cur.region → t.region r = s.region r) ∧
    (t.region s.cur.region).arcs = (s.region s.cur.region).arcs ∧
    ∀ u, (t.core s.cur.region u).slots = (s.core s.cur.region u).slots ∧ (t.core s.cur.region u).accs = (s.core s.cur.region u).accs ∧
      (t.core s.cur.region u).phase = (s.core s.cur.region u).phase

/-- The range of an integer format. -/
def Sys2Proof.Claims.fmtLo (f : Fmt) : Int := if fmtKind f = .int true then -((2 ^ (fmtBits f - 1) : Nat) : Int) else 0
/-- Its upper end. -/
def Sys2Proof.Claims.fmtHi (f : Fmt) : Int := if fmtKind f = .int true then ((2 ^ (fmtBits f - 1) : Nat) : Int) - 1 else ((2 ^ fmtBits f : Nat) : Int) - 1
/-- The integer a code stands for. -/
def Sys2Proof.Claims.codeInt (f : Fmt) (x : Nat) : Int := if fmtKind f = .int true then sextN (fmtBits f) x else (x % 2 ^ fmtBits f : Nat)
/-- The element of an exact integer result (R57). -/
def Sys2Proof.Claims.intElem (f : Fmt) (sat : Bool) (n : Int) : Nat × Flg :=
  if fmtLo f ≤ n ∧ n ≤ fmtHi f then (wrapN (fmtBits f) n, 0)
  else (wrapN (fmtBits f) (if sat then (if n < fmtLo f then fmtLo f else fmtHi f) else n), 0x14)
/-- Integer elements: In an integer format of w bits an element of VADD, VSUB and VMUL is the exact result wrapped to w bits, or with
saturation clamped to the format's range; a result out of range raises overflow and inexact, one in range raises nothing.
(03_number_formats.md R57, 06_core_pipeline_and_element_ops.md R140) -/
def Obligations.IntegerElements : Prop :=
  ∀ (x : FireIn) (i a b : Nat), (∃ sg, fmtKind x.v.ty = .int sg) → a < 2 ^ fmtBits x.v.ty → b < 2 ^ fmtBits x.v.ty →
    let m := codeInt x.v.ty a
    let n := codeInt x.v.ty b
    let el : XNum × Flg → Nat × Flg := fun r => laneOf x i r.1 r.2
    el (numSum [decodeNum x.v.ty a, decodeNum x.v.ty b]) = intElem x.v.ty x.v.sat (m + n) ∧
    el (numSum [decodeNum x.v.ty a, (decodeNum x.v.ty b).negate]) = intElem x.v.ty x.v.sat (m - n) ∧
    el (numMul (decodeNum x.v.ty a) (decodeNum x.v.ty b)) = intElem x.v.ty x.v.sat (m * n)

/-- Stage `j` of template `t` of core `u` has started `f`. -/
abbrev Sys2Proof.Claims.HasFiring (r u t j : Nat) (T : Template) (st : Stage) (f : Firing) (s : State) : Prop :=
  (s.region r).halt = false ∧ Assoc.find t (s.core r u).templates = some T ∧ T.stage j = some st ∧ st.firing = some f
/-- The stage after a commit that raised `fl`. -/
def Sys2Proof.Claims.StageCommitted (r u t j : Nat) (T : Template) (st : Stage) (f : Firing) (fl : Flg) (t' : State) : Prop :=
  ∃ T' st', Assoc.find t (t'.core r u).templates = some T' ∧ T'.stage j = some st' ∧ st'.firing = none ∧ st'.pos = st.pos + 1 ∧ st'.word = st.word ∧
    st'.carry = f.carry.getD st.carry ∧ T'.flags = T.flags ||| fl ∧ (∀ i, i ≠ j → T'.stage i = T.stage i) ∧
    (∀ i v, f.mag = some (i, v) → i < T.mags.length → T'.mags[i]? = some (magMerge (T.mags.getD i 0) (BitVec.ofNat 32 v))) ∧
    (f.mag = none → T'.mags = T.mags)
/-- Every arc of the output port `p` of unit `u` has taken these beats, in this order. -/
def Sys2Proof.Claims.Pushed (r u p : Nat) (ls : List Line) (s t : State) : Prop :=
  ∀ k a, Assoc.find k (s.region r).arcs = some a → arcFrom u p k a.route = true →
    ∃ a', Assoc.find k (t.region r).arcs = some a' ∧ a'.route = a.route ∧
      a'.inbox = a.inbox ++ ls.map (fun l => { beat := { data := l, ctl := 0, side := oneSide }, scale := (s.region r).emitScale u })
/-- The stages that read stage `j` have its beats behind those that they had. -/
def Sys2Proof.Claims.PushedInner (r u t j : Nat) (T : Template) (ls : List Line) (t' : State) : Prop :=
  ∀ i ∈ T.readers j, i ≠ j → (Assoc.get default t (t'.core r u).templates).inner j i = T.inner j i ++ ls.map (fun l => { data := l, ctl := 0, side := 0 })
/-- What a commit leaves alone: the slots of every core, the scratchpads and tier memory. -/
def Sys2Proof.Claims.SlotsKept (r : Nat) (s t : State) : Prop :=
  (∀ v, (t.core r v).slots = (s.core r v).slots) ∧ t.smem = s.smem ∧ t.tmem = s.tmem
/-- The commit of a firing: In a running region the firing that a stage has started commits: the stage's stream position rises by 1 and it
has no firing, the template's flags gather the firing's flags, its beats are pushed on every arc of its output port and on the arcs to the
stages that read it, and the taken beats are popped; an accumulator's new contents, and the beats that VNRW reads from one and pushes so,
are formed at the commit; an accumulate that finds another mode is SPACE. (04_task_and_firing.md R78, 06_core_pipeline_and_element_ops.md
R135 R138 R141 R154 R155) -/
def Obligations.FiringCommits : Prop :=
  ∀ (r u t j : Nat) (T : Template) (st : Stage) (f : Firing) (s : State), HasFiring r u t j T st f s →
    (f.late = none →
      ∃ t', Gives (.nodeFiringCommit r u t j) s t' ∧ StageCommitted r u t j T st f f.flags t' ∧ SlotsKept r s t' ∧
        (∀ v, (t'.core r v).accs = (s.core r v).accs) ∧
        ((s.core r u).chainOf t = none → Assoc.sorted (s.region r).arcs = true → t'.lmem = s.lmem ∧
          (∀ p, firePorts st.word f.steer = [p] → Pushed r u p f.outs s t') ∧
          (wordOp st.word ≠ 0xA1 → f.takes = [] → PushedInner r u t j T f.outs t') ∧
          (∀ q n k a, q < 4 → f.takes = [(16 * q, n)] → (s.region r).inArc u q = some (k, a) →
            ∃ a', Assoc.find k (t'.region r).arcs = some a' ∧ a'.fifo = a.fifo.drop n))) ∧
    (∀ L n, f.late = some L → accWritten L.word = some n → s.errors = [] →
      let x := commitIn r u t j st L s
      (∀ e fl, lateWrite x L (Assoc.get AccEntry.init n (s.core r u).accs) = some (e, fl) →
        ∃ t', Gives (.nodeFiringCommit r u t j) s t' ∧ StageCommitted r u t j T st f fl t' ∧ SlotsKept r s t' ∧
          Assoc.get AccEntry.init n (t'.core r u).accs = e ∧
          ∀ m, m ≠ n → Assoc.get AccEntry.init m (t'.core r u).accs = Assoc.get AccEntry.init m (s.core r u).accs) ∧
      (lateWrite x L (Assoc.get AccEntry.init n (s.core r u).accs) = none →
        Gives (.nodeFiringCommit r u t j) s (raise r (firingRec 0x03 u t st) s))) ∧
    (∀ L n, f.late = some L → accWritten L.word = none → accRead L.word = some n → s.errors = [] →
      let c := s.core r u
      outReady (s.region r) u c T (c.chainOf t) j st.word (outPorts st.word) = true →
        let y := lateRead (commitIn r u t j st L s) L (Assoc.get AccEntry.init n c.accs)
        ∃ t', Gives (.nodeFiringCommit r u t j) s t' ∧ SlotsKept r s t' ∧ (t'.core r u).accs = c.accs ∧ StageCommitted r u t j T st f y.2 t' ∧
          (c.chainOf t = none → Assoc.sorted (s.region r).arcs = true → t'.lmem = s.lmem ∧
            (∀ p, firePorts st.word f.steer = [p] → Pushed r u p y.1 s t') ∧
            (wordOp st.word ≠ 0xA1 → f.takes = [] → PushedInner r u t j T y.1 t')))

/-- Ends of invocation and headers: No soft error being present: a resident stage without a firing, at each of whose inputs an eoi marker
stands and whose outputs have room, handles the end of invocation as one action: its stream position and carry return to 0, the header scale
of each of its inputs is 2^0 again, and its word, its template's flags and the slots stay. A header that stands between a resident token and
the marker is taken with them, and one of a wrong layout there is SPACE. A header of the right layout before the data at an input of a
stage, which is resident or a running chain's and reads a stream there, is taken off and its scale latched; one of another layout is SPACE.
What becomes of a sticky token and its headers is the model's reading (log 15). (03_number_formats.md R67, 04_task_and_firing.md R80,
06_core_pipeline_and_element_ops.md R134) -/
def Obligations.EndsOfInvocation : Prop :=
  ∀ (r u t j : Nat) (T : Template) (st : Stage) (s : State),
    (s.region r).halt = false → (s.region r).preempt = none → s.errors = [] → Assoc.find t (s.core r u).templates = some T → T.stage j = some st →
    (T.res = true → st.firing = none → eoiReady (s.region r) u t T j st = true → (∀ p ∈ outPorts st.word, (s.region r).roomOutMark u p = true) →
      T.roomInner (s.core r u).modes j 1 = true →
      (markHeadersOk (s.region r) u st (uniq (inPorts st.word)) = false → Gives (.eoiHandling r (.stage u t j)) s (raise r (firingRec 0x03 u t st) s)) ∧
      (markHeadersOk (s.region r) u st (uniq (inPorts st.word)) = true → ∃ t' T' st', Gives (.eoiHandling r (.stage u t j)) s t' ∧ Assoc.find t (t'.core r u).templates = some T' ∧ T'.stage j = some st' ∧
        st'.pos = 0 ∧ st'.carry = 0 ∧ st'.word = st.word ∧ st'.firing = none ∧ T'.flags = T.flags ∧ (∀ i, i ≠ j → T'.stage i = T.stage i) ∧
        (wordOp st.word ≠ 0x97 → T'.mags = T.mags) ∧ SlotsKept r s t' ∧ t'.lmem = s.lmem ∧
        (Assoc.sorted (s.region r).arcs = true → ∀ p k a, (inPorts st.word).contains p = true → (t'.region r).inArc u p = some (k, a) → a.held = 127))) ∧
    (∀ p k a i b, (T.res = true ∨ ∃ q, (s.core r u).chainOf t = some q ∧ q.short = false) → memField ((s.core r u).chainOf t) p = none → (inPorts st.word).contains p = true → (s.region r).inArc u p = some (k, a) → headerPlace 0 (stageRate st.word p) a.fifo = some i →
      a.fifo[i]? = some b →
      (headerOk b = true → ∃ t', Gives (.headerLatch r (.stage u t j) p) s t' ∧ SlotsKept r s t' ∧
        Assoc.find k (t'.region r).arcs = some { a with fifo := listDrop i a.fifo, out := a.out + 1, held := b.data.toNat % 256 }) ∧
      (headerOk b = false → Gives (.headerLatch r (.stage u t j) p) s (raise r (firingRec 0x03 u t st) s)))

/-- Node `j` of switch `u` has the head beat `b` at input `i`, and room at output `o`. -/
abbrev Sys2Proof.Claims.NodeMay (R : Region) (u i o : Nat) (b : Beat) : Prop :=
  R.headIn u i = some b ∧ b.isData = true ∧ R.roomOut u o 1 = true
/-- The region after the move. -/
def Sys2Proof.Claims.movedBy (R : Region) (u j i o : Nat) (b : Beat) : Region := ((R.popIn u i 1).popIn u (8 * j + 4) 1).pushOut u o [b]
/-- Steer and merge nodes: In a running region, no soft error being present, a steer node moves the data beat at its input to the output
that its select chooses, and a merge node the beat of the chosen input to its output, each taking its select; a select beyond the node's
paths is SPACE. (08_cluster_fabric_load.md R202 R203) -/
def Obligations.SwitchNodes : Prop :=
  ∀ (r u j q : Nat) (x : SwitchNode) (b : Beat) (s : State),
    (s.region r).halt = false → (s.region r).preempt = none → s.errors = [] → (s.region r).node u j = some x → nodeSelect (s.region r) u j = some q →
    (x.merge = false →
      (q ≤ x.n → NodeMay (s.region r) u (8 * j) (8 * j + q) b →
        Gives (.steerNodeFiring r u j) s (s.setRegion r (movedBy (s.region r) u j (8 * j) (8 * j + q) b))) ∧
      (x.n < q → 0 < (s.region r).tokensIn u (8 * j) → Gives (.steerNodeFiring r u j) s (raise r (nodeRec u j (BitVec.ofNat 64 q)) s))) ∧
    (x.merge = true →
      (q ≤ x.n → NodeMay (s.region r) u (8 * j + q) (8 * j) b →
        Gives (.mergeNodeFiring r u j) s (s.setRegion r (movedBy (s.region r) u j (8 * j + q) (8 * j) b))) ∧
      (x.n < q → Gives (.mergeNodeFiring r u j) s (raise r (nodeRec u j (BitVec.ofNat 64 q)) s)))

/-- The G offset of beat `i` of the ring of arc `k`, counted from its oldest. -/
def Sys2Proof.Claims.ringSlot (R : Region) (k : Nat) (a : Arc) (i : Nat) : Nat := ringBase R k + 64 * ((a.rpos + i) % (64 * 2 ^ a.route.ring))
/-- The record of a failing access to the ring of arc `k`. -/
def Sys2Proof.Claims.arcFault (x : StopRec) (k n : Nat) : StopRec :=
  { x with kind := 5, unit := arcUnit k, sub := arcEntry k, sk := 3, position := BitVec.ofNat 64 n }
/-- Arcs carry beats: In a running region, no soft error being present, a data beat of an arc without a conversion goes unchanged from the
producer's side to the end of the arc's FIFO, or of its spill ring where the FIFO is full; the arc counts it; an eoi marker starts the count
anew; and the oldest beat of a ring returns to a FIFO with room. A beat that goes to a ring is written at its place in the sealed memory of
the spill area, one that comes back is read there, and a failing access raises its cause at the arc. Where in the ring a beat lies, that the
beat itself stays with the arc, so that no other access alters it, and that such an access finds free values there are the model's choices
(log 26). (03_number_formats.md R67, 08_cluster_fabric_load.md R195 to R201) -/
def Obligations.ArcsCarryBeats : Prop :=
  ∀ (r u e : Nat) (a : Arc) (s : State), (s.region r).halt = false → s.errors = [] → Assoc.find (arcKey u e) (s.region r).arcs = some a →
    (∀ b rest, a.inbox = b :: rest → a.part = [] →
      (b.beat.isData = true → a.route.converts = false →
        ((a.route.spill = false ∨ (a.ring = [] ∧ a.fifo.length < a.route.depth)) →
          Gives (.arcBeat r u e) s (s.modRegion r (fun R => R.setArc (arcKey u e) { a with inbox := rest, fifo := a.fifo ++ [b.beat], count := a.count + 1 }))) ∧
        (∀ c, s.ctxOf (s.region r) = some c → a.route.spill = true → a.route.depth ≤ a.fifo.length → (ringBeats a.ring).length < 64 * 2 ^ a.route.ring →
          let w := gWrite c r (ringSlot (s.region r) (arcKey u e) a (ringBeats a.ring).length) (ringBytes s.fresh) { s with fresh := s.fresh + 64 }
          (∀ s1, w = .ok () s1 → Gives (.arcBeat r u e) s (s1.modRegion r (fun R =>
            R.setArc (arcKey u e) { a with inbox := rest, ring := a.ring ++ [b.beat], count := a.count + 1 }))) ∧
          (∀ x s1, w = .fail x s1 → Gives (.arcBeat r u e) s (raise r (arcFault x (arcKey u e) a.count) s1))) ∧
        (a.route.spill = true → a.route.depth ≤ a.fifo.length → 64 * 2 ^ a.route.ring ≤ (ringBeats a.ring).length →
          Gives (.arcBeat r u e) s (raise r (switchRec 0x16 (arcKey u e) (BitVec.ofNat 64 a.count) (BitVec.ofNat 64 e)) s))) ∧
      (b.beat.eoi = true → b.beat.lift = false → b.beat.hdr = false → a.route.spill = false →
        ∃ a', Gives (.arcBeat r u e) s (s.modRegion r (fun R => R.setArc (arcKey u e) a')) ∧ a'.count = 0 ∧ a'.latch = 127 ∧ a'.inbox = rest ∧
          a'.fifo = a.fifo ++ [b.beat])) ∧
    (∀ c b rest, s.ctxOf (s.region r) = some c → a.ring = b :: rest → b.lift = false → a.fifo.length < a.route.depth →
      let w := gRead c r (ringSlot (s.region r) (arcKey u e) a 0) 64 s
      (∀ bs s1, w = .ok bs s1 → Gives (.spillReturn r u e) s (s1.modRegion r (fun R => R.setArc (arcKey u e)
        { a with ring := rest, rpos := (a.rpos + 1) % (64 * 2 ^ a.route.ring), fifo := a.fifo ++ [b] }))) ∧
      (∀ x s1, w = .fail x s1 → Gives (.spillReturn r u e) s (raise r (arcFault x (arcKey u e) a.count) s1)))

/-- The chain that CHAIN queues. -/
def Sys2Proof.Claims.queuedChain (t : Nat) (fields : List Nat) (n : Nat) (eoi : Bool) (s : State) : Chain :=
  { tmpl := t, fields := fields, n := n, eoi := eoi, ticket := s.hereC.nextTicket % 2 ^ 16, running := false, since := s.moment, rd := [], wr := [],
    held := [], kept := [], short := false, flags := 0 }
/-- CHAIN and CWAIT: Where the word issues on a compute core, CHAIN checks its template, descriptor and count and queues the chain with the
next ticket, waits while four chains are queued, of which the running ones are counted by the model's choice (log 71), or is SPACE, a
template that is absent and a descriptor or count that breaks R156 included (of which R156's beats of a stream at a VMERGE or VSTEER and its
rate of a VNRW are the model's reading, log 71); CWAIT returns the status word of an ended chain whose predecessors have ended too, raising
its flags, 0 for an old ticket, or waits, and is SPACE for a ticket never given, every ticket outside the window being an old one once 2^16
have been given, by the model's choice (log 73); functions 1 and 2 read and clear a template's flags and read a magnitude register.
(03_number_formats.md R69, 06_core_pipeline_and_element_ops.md R156 R158) -/
def Obligations.ChainWords : Prop :=
  ∀ (g : Guard) (d : Reg) (a b : Src) (t : Tmpl) (eoi : Bool) (m : Two) (s : State), OnCompute s →
    (Issues g [a, b] [d] s → s.errors = [] →
      ∀ T, Assoc.find t.toNat s.hereC.templates = some T →
      let p := (rv s a).toNat
      let n := (rv s b).toNat
      let desc := ofBytesLE (s.lmem.reads (lKey s.cur.region s.cur.unit p) 16)
      (T.res = false → p % 16 = 0 → p + 16 ≤ 2 ^ 16 → chainBad s.hereC T desc n = false →
        (s.hereC.chains.length < 4 →
          ∃ s', Gives (.chain g d a b t eoi) s s' ∧ s'.hereC.nextTicket = s.hereC.nextTicket + 1 ∧ s'.here.pc = s.here.pc + 1 ∧
            (d ≠ 0 → s'.here.rd d = BitVec.ofNat 64 (s.hereC.nextTicket % 2 ^ 16)) ∧
            s'.hereC.chains = s.hereC.chains ++ [queuedChain t.toNat ((List.range 6).map (fun i => desc / 2 ^ (16 * i) % 2 ^ 16)) n eoi s]) ∧
        (4 ≤ s.hereC.chains.length → Gives (.chain g d a b t eoi) s (park .chainQueue s))) ∧
      (T.res = false → p % 16 = 0 → p + 16 ≤ 2 ^ 16 → chainBad s.hereC T desc n = true → Gives (.chain g d a b t eoi) s (failSpace (rv s a) s)) ∧
      (T.res = true ∨ p % 16 ≠ 0 ∨ 2 ^ 16 < p + 16 → Gives (.chain g d a b t eoi) s (failSpace (rv s a) s))) ∧
    (Issues g [a, b] [d] s → Assoc.find t.toNat s.hereC.templates = none → Gives (.chain g d a b t eoi) s (failSpace (rv s a) s)) ∧
    (∀ (c : Core) (T : Template) (x n : Nat), x / 2 ^ 96 ≠ 0 ∨ n = 0 ∨ 2 ^ 20 < n ∨ n % rateProduct c.modes T ≠ 0 → chainBad c T x n = true) ∧
    (Issues g [a] [d] s →
      let n := (rv s a).toNat
      let back := age (s.hereC.nextTicket + 2 ^ 16 - 1) n
      (2 ^ 16 ≤ n → Gives (.cwait g d a) s (failSpace 0 s)) ∧
      (n < 2 ^ 16 → s.hereC.nextTicket ≤ back → Gives (.cwait g d a) s (failSpace 0 s)) ∧
      (n < 2 ^ 16 → back < s.hereC.nextTicket →
        (2 ^ 15 ≤ back → Gives (.cwait g d a) s (done d 0 s)) ∧
        (back < 2 ^ 15 →
          ((∀ q ∈ s.hereC.chains, 2 ^ 15 ≤ age n q.ticket) →
            Gives (.cwait g d a) s (doneFl d (Assoc.get 0 n s.hereC.ended) ((Assoc.get 0 n s.hereC.ended).setWidth 5) s)) ∧
          ((∃ q ∈ s.hereC.chains, age n q.ticket < 2 ^ 15) → Gives (.cwait g d a) s (park (.chain n) s))))) ∧
    (Issues g [] [d] s → ∀ T, Assoc.find t.toNat s.hereC.templates = some T →
      (∃ s', Gives (.cwaitFlags g d t) s s' ∧ (d ≠ 0 → s'.here.rd d = T.flags.setWidth 64) ∧ s'.here.pc = s.here.pc + 1 ∧
        Assoc.find t.toNat s'.hereC.templates = some { T with flags := 0 }) ∧
      Gives (.cwaitMag g d t m) s (done d ((T.mags.getD m.toNat 0).setWidth 64) s))

/-- The arcs of the output ports have taken these beats. -/
def Sys2Proof.Claims.PortsTook (r u : Nat) (bs : Nat → List Beat) (s t : State) : Prop :=
  ∀ p e a, Assoc.find e (s.region r).arcs = some a → arcFrom u p e a.route = true →
    ∃ a', Assoc.find e (t.region r).arcs = some a' ∧ a'.inbox = a.inbox ++ (bs p).map (fun b => { beat := b, scale := (s.region r).emitScale u })
/-- The output ports that carry a chain's eoi marker. -/
def Sys2Proof.Claims.eoiOuts (T : Template) (q : Chain) : List Nat :=
  if q.eoi then ((q.ports T).filter (fun f => decide (4 ≤ f))).map (fun f => f - 4) else []
/-- The chain has left the queue, with its status; its markers stand on its output ports' arcs. -/
def Sys2Proof.Claims.ChainEnded (r u k : Nat) (T : Template) (q : Chain) (st : Stage) (s t : State) : Prop :=
  (t.core r u).chains = listDrop k (s.core r u).chains ∧ SlotsKept r s t ∧
  Assoc.get 0 q.ticket (t.core r u).ended = BitVec.ofNat 64 (st.pos * 2 ^ 32 + (if q.short then 2 ^ 8 else 0) + q.flags.toNat) ∧
  PortsTook r u (fun p => if p ∈ eoiOuts T q then [eoiBeat] else []) s t
/-- A kept-back beat has left. -/
def Sys2Proof.Claims.BeatLeft (r u k : Nat) (q : Chain) (x : Nat × Beat) (s t : State) : Prop :=
  (t.core r u).chains = listSet k { q with kept := List.erase q.kept x } (s.core r u).chains ∧ SlotsKept r s t ∧
  PortsTook r u (fun p => if p = x.1 then [if q.short then x.2 else { x.2 with ctl := x.2.ctl ||| 2 }] else []) s t
/-- The marker at place `n` of input port `p` has been popped, and every other resident token. -/
def Sys2Proof.Claims.CutShort (r u k : Nat) (T : Template) (q : Chain) (p n : Nat) (s t : State) : Prop :=
  (t.core r u).chains = listSet k { q with short := true, held := [] } (s.core r u).chains ∧ SlotsKept r s t ∧
  (∀ e a, (s.region r).inArc u p = some (e, a) → ∃ a', Assoc.find e (t.region r).arcs = some a' ∧ a'.fifo = a.fifo.drop (n + 1)) ∧
  ∀ f ∈ q.ports T, f < 4 → f ≠ p → (∃ st ∈ T.stages, st.resident f = true) →
    ∀ e a, (s.region r).inArc u f = some (e, a) → ∃ a', Assoc.find e (t.region r).arcs = some a' ∧ a'.fifo = a.fifo.drop 1
/-- The course of a chain: In a running region, no soft error being present, a queued chain before which every chain has started, and which
shares no stage, port stream or accumulator with a running one, starts: its template's stages are at their start values. A running chain
each of whose stages has made its firings ends. One at whose input an eoi marker stands, because no stage can move any more with what stands
before it, ends short: the marker is popped with the token resident before it and the headers between, one of which that has a wrong layout
is SPACE, and every other resident token of the chain is dropped. A chain that ends sends first the beats that it has kept back, each as its
port has room, with eor where it has reached its count (R286) and without it where it ended short; then, as one action, each of its output
ports carries one eoi marker where the chain has eoi, it leaves the queue, and its status word holds the firings of its first stage, its
flags, and in bit 8 whether it ended short. That such a beat is kept back until the end is known, and that the marker is popped before the
beats leave, is the model's choice (log 71). (06_core_pipeline_and_element_ops.md R157 R158, 13_program_winograd.md R286) -/
def Obligations.ChainCourse : Prop :=
  ∀ (r u k : Nat) (q : Chain) (s : State), (s.region r).halt = false → (s.region r).preempt = none → s.errors = [] → (s.core r u).chains[k]? = some q →
    let c := s.core r u
    let T := Assoc.get default q.tmpl c.templates
    (q.running = false → (∀ p ∈ c.chains.take k, p.running = true) → (∀ p ∈ c.chains, p.running = true → chainsMeet c q p = false) →
      ∃ t, Gives (.chainStart r u k) s t ∧ (t.core r u).chains[k]? = some { q with running := true } ∧
        (∀ i, i ≠ k → (t.core r u).chains[i]? = c.chains[i]?) ∧ (t.core r u).slots = c.slots ∧
        ∃ T', Assoc.find q.tmpl (t.core r u).templates = some T' ∧ T'.arcs = [] ∧ T'.mags = [0, 0, 0, 0] ∧
          T'.stages = T.stages.map (fun st => { st with pos := 0, carry := 0, served := [], firing := none })) ∧
    (q.running = true → (∀ st ∈ T.stages, st.firing = none) → Assoc.sorted (s.region r).arcs = true →
      ((q.short = true ∨ ∀ j x, T.stage j = some x → stageTotal c.modes T j q.n ≤ x.pos) →
        (∀ x, q.kept.find? (fun x => (s.region r).roomOut u x.1 1) = some x → ∃ t, Gives (.chainEnd r u k) s t ∧ BeatLeft r u k q x s t) ∧
        (∀ st, T.stage 1 = some st → q.kept = [] → (∀ p ∈ eoiOuts T q, (s.region r).roomOutMark u p = true) →
          ∃ t, Gives (.chainEnd r u k) s t ∧ ChainEnded r u k T q st s t)) ∧
      (∀ p n, q.short = false → (∃ j x, T.stage j = some x ∧ x.pos < stageTotal c.modes T j q.n) → eoiPort (s.region r) u T q = some (p, n) →
        chainAlive r u T q s = false →
        ((∀ x ∈ T.stages, markHeadersOk (s.region r) u x [p] = true) → ∃ t, Gives (.chainEnd r u k) s t ∧ CutShort r u k T q p n s t) ∧
        ((∀ x ∈ T.stages, (inPorts x.word).contains p = true → markHeadersOk (s.region r) u x [p] = false) →
          ∃ x ∈ T.stages, Gives (.chainEnd r u k) s (raise r (firingRec 0x03 u q.tmpl x) s))))

/-- Entry `e` stands at the end of port `k` of AG `u`, whose ticket has gone on by `n`; every other port is as before. -/
def Sys2Proof.Claims.Appended (u k : Nat) (e : PortEntry) (n : Nat) (s t : State) : Prop :=
  (t.hereR.port u k).queue = (s.hereR.port u k).queue ++ [e] ∧ (t.hereR.port u k).ticket = ((s.hereR.port u k).ticket + n) % 2 ^ 16 ∧
  ∀ v j, (v, j) ≠ (u, k) → t.hereR.port v j = s.hereR.port v j
/-- SBIND, SCLOSE and SBAR: Where the word issues, SBIND appends a command to a port that is open and has room, with the port's next ticket;
SCLOSE appends a close entry, after which the port is closing; SCLOSE.abort closes the port at once and returns the beats transferred; SBAR
appends one barrier entry to every masked port; SBAR.wait waits for it, and refreshes the core when it passes; a full queue makes the slot
wait; and a bad command, a zero mask and a port that is closed or closing - for SCLOSE.abort one that is closed - are SPACE, as is a port
that a coat owns. (09_cluster_memory_streams_barriers.md R228 R230 R231) -/
def Obligations.StreamWords : Prop :=
  ∀ (g : Guard) (d : Reg) (a b : Src) (eoi : Bool) (port : Three) (ag : Bool) (pat : Tmpl) (mask : Mask16) (s : State),
    let u := agUnit s ag
    let k := port.toNat
    let P := s.hereR.port u k
    (Issues g [a, b] [d] s →
      (bindBad s.hereR u k (rv s b).toNat (s.hereR.pattern u pat.toNat) = true → Gives (.sbind g d a b eoi port ag pat) s (failSpace 0 s)) ∧
      (bindBad s.hereR u k (rv s b).toNat (s.hereR.pattern u pat.toNat) = false →
        (8 ≤ P.queue.length → Gives (.sbind g d a b eoi port ag pat) s (park (.portQueues [(u, k)]) s)) ∧
        (P.queue.length < 8 →
          ∃ t, Gives (.sbind g d a b eoi port ag pat) s t ∧ Appended u k (.cmd pat.toNat (rv s a) (rv s b).toNat eoi P.ticket) 1 s t ∧
            t.here.pc = s.here.pc + 1 ∧ (d ≠ 0 → t.here.rd d = BitVec.ofNat 64 P.ticket)))) ∧
    (Issues g [] [d] s →
      (s.hereR.portShut u k = true → Gives (.sclose g d port ag) s (failSpace 0 s)) ∧
      (P.closed = true ∨ s.hereR.chainOwns u k = true → Gives (.scloseAbort g d port ag) s (failSpace 0 s)) ∧
      (s.hereR.portShut u k = false →
        (8 ≤ P.queue.length → Gives (.sclose g d port ag) s (park (.portQueues [(u, k)]) s)) ∧
        (P.queue.length < 8 →
          ∃ t, Gives (.sclose g d port ag) s t ∧ Appended u k (.close P.ticket) 1 s t ∧ (t.hereR.port u k).closing = true ∧
            (d ≠ 0 → t.here.rd d = BitVec.ofNat 64 P.ticket))) ∧
      (P.closed = false → s.hereR.chainOwns u k = false →
        ∃ t, Gives (.scloseAbort g d port ag) s t ∧ (t.hereR.port u k).queue = [] ∧ (t.hereR.port u k).closed = true ∧
          (d ≠ 0 → t.here.rd d = BitVec.ofNat 64 P.transferred))) ∧
    (Issues g [] [] s →
      let ps := maskPorts s.hereCl mask
      let bar := s.hereR.nextId
      (s.here.prog = .accepted → Gives (.sbarWait g mask) s (retire id (refresh s.cur.region s.cur.unit s))) ∧
      (ps = [] ∨ (∃ p ∈ ps, s.hereR.portShut p.1 p.2 = true) →
        Gives (.sbar g mask) s (failSpace 0 s) ∧ (s.here.prog ≠ .accepted → Gives (.sbarWait g mask) s (failSpace 0 s))) ∧
      (ps ≠ [] → (∀ p ∈ ps, s.hereR.portShut p.1 p.2 = false) → (∃ p ∈ ps, 8 ≤ (s.hereR.port p.1 p.2).queue.length) →
        Gives (.sbar g mask) s (park (.portQueues ps) s) ∧ (s.here.prog ≠ .accepted → Gives (.sbarWait g mask) s (park (.portQueues ps) s))) ∧
      (ps ≠ [] → (∀ p ∈ ps, s.hereR.portShut p.1 p.2 = false) → (∀ p ∈ ps, (s.hereR.port p.1 p.2).queue.length < 8) →
        (∃ t, Gives (.sbar g mask) s t ∧ t.here.pc = s.here.pc + 1 ∧
          ∀ p ∈ ps, (t.hereR.port p.1 p.2).queue = (s.hereR.port p.1 p.2).queue ++ [.barrier bar]) ∧
        (s.here.prog ≠ .accepted →
          ∃ t, Gives (.sbarWait g mask) s t ∧ t.here.st = .waiting (.streamBarrier bar) ∧ t.here.prog = .accepted ∧ t.here.pc = s.here.pc ∧
            ∀ p ∈ ps, (t.hereR.port p.1 p.2).queue = (s.hereR.port p.1 p.2).queue ++ [.barrier bar])))

/-- Beats, ends and barriers of a stream port: In a running region without soft errors, a read port with room pushes the 64 bytes at its
next beat's place on every arc of the port and counts the beat, the last one of a command that ends with eoi carrying eor; then it pushes
the eoi. A write port stores its head data beat at its place. A command whose beats are done leaves the queue, a close entry closes the
port, and a stream barrier passes once every port that holds it has reached it. A place outside the scratchpads is SPACE. The eor mark is
R286's; that the 64 bytes of a beat are read or written in one step is the model's choice (log 10). (09_cluster_memory_streams_barriers.md
R227 R229 to R232, 13_program_winograd.md R286) -/
def Obligations.StreamBeats : Prop :=
  ∀ (r u p : Nat) (s : State), portRuns (s.region r) u p = true → s.errors = [] →
    let R := s.region r
    let P := R.port u p
    (R.preempt = none → R.isSource u p = true →
      (P.tail = true → R.roomOutMark u p = true →
        ∃ t, Gives (.streamReadBeat r u p) s t ∧ ((t.region r).port u p).tail = false ∧
          ∀ k a, Assoc.find k R.arcs = some a → arcFrom u p k a.route = true →
            Assoc.find k (t.region r).arcs = some { a with inbox := a.inbox ++ [{ beat := eoiBeat, scale := R.emitScale u }] }) ∧
      (∀ c, P.tail = false → commandAt R u p = some c → c.write = false → P.done < c.total → R.roomOut u p 1 = true →
        (∀ i l, c.place P.done = .scratch i (some l) →
          let line : Line := BitVec.ofNat 512 (ofBytesLE (l.flatMap (fun q => s.smem.reads (sKey r (uCl u) q.1) q.2)))
          let last := c.eoi && decide (P.done + 1 = c.total)
          ∃ t, Gives (.streamReadBeat r u p) s t ∧ ((t.region r).port u p).done = P.done + 1 ∧ ((t.region r).port u p).tail = last ∧
            t.smem = s.smem ∧ t.lmem = s.lmem ∧ t.tmem = s.tmem ∧
            ∀ k a, Assoc.find k R.arcs = some a → arcFrom u p k a.route = true →
              Assoc.find k (t.region r).arcs =
                some { a with inbox := a.inbox ++ [{ beat := { data := line, ctl := if last then 2 else 0, side := oneSide }, scale := R.emitScale u }] }) ∧
        (∀ i, c.place P.done = .scratch i none → Gives (.streamReadBeat r u p) s (raise r (portRec 0x03 u p c P.done (BitVec.ofInt 64 i)) s)))) ∧
    (∀ c b, R.headIn u p = some b → b.isData = true → commandAt R u p = some c → c.write = true → P.done < c.total →
      (∀ i l, c.place P.done = .scratch i (some l) →
        ∃ t, Gives (.streamWriteBeat r u p) s t ∧
          t.smem = VMem.writeEach s.moment ((spread l (bytesLE 64 b.data.toNat)).map (fun q => (sKey r (uCl u) q.1, q.2))) s.smem ∧
          t.lmem = s.lmem ∧ t.tmem = s.tmem ∧ ((t.region r).port u p).done = P.done + 1) ∧
      (∀ i, c.place P.done = .scratch i none → Gives (.streamWriteBeat r u p) s (raise r (portRec 0x03 u p c P.done (BitVec.ofInt 64 i)) s))) ∧
    (∀ c, commandAt R u p = some c → c.total ≤ P.done → P.tail = false →
      ∃ t, Gives (.streamCommandComplete r u p) s t ∧ ((t.region r).port u p).queue = P.queue.tail ∧ ((t.region r).port u p).done = 0) ∧
    (∀ n rest, P.queue = .close n :: rest → (R.isSource u p = true → R.roomOutMark u p = true ∧ R.preempt = none) →
      ∃ t, Gives (.portCloseReached r u p) s t ∧ ((t.region r).port u p).queue = [] ∧ ((t.region r).port u p).closed = true ∧ ((t.region r).port u p).closing = false) ∧
    (∀ cl id, R.halt = false →
      let ps := (maskPorts cl 0xFFFF).filter (fun q => (R.port q.1 q.2).holdsBar id)
      ps ≠ [] → (∀ q ∈ ps, (R.port q.1 q.2).atBar id = true ∧ portRuns R q.1 q.2 = true) →
      ∃ t, Gives (.streamBarrierPass r cl id) s t ∧ ∀ q ∈ ps, ((t.region r).port q.1 q.2).queue = (R.port q.1 q.2).queue.tail)

/-- The transform of a word. -/
def Sys2Proof.Claims.transformOf (cmd : XCmd) (f : Fmt) (rnd : Rnd) (sat : Bool) (a b c : Src) (s : State) : Xform :=
  { id := s.hereR.nextId, unit := s.cur.unit, slot := s.cur.slot, cmd := cmd, fmt := f, rnd := rnd, sat := sat, addr := (rv s a).toNat,
    n := (rv s b).toNat, v := rv s c }
/-- A word of this kind waits for its transform, fails its check, or completes. -/
def Sys2Proof.Claims.TransformWord (i : Instr) (d : Reg) (x : Xform) (a : Src) (s : State) : Prop :=
  (∀ v fl, s.here.prog = .answered v fl → Gives i s (doneFl d v fl s)) ∧
  (s.here.prog = .fresh →
    (xformBad x.cmd x.fmt x.addr x.n s = true → Gives i s (failSpace (rv s a) s)) ∧
    (xformBad x.cmd x.fmt x.addr x.n s = false →
      ∃ t, Gives i s t ∧ t.hereR.xforms = s.hereR.xforms ++ [x] ∧ t.here.st = .waiting (.xform x.id) ∧ t.here.prog = .accepted ∧
        t.here.pc = s.here.pc ∧ t.smem = s.smem))
/-- XFORM: Where the word issues with operands in range, an XFORM of each kind puts its transform under way and the slot waits; operands out
of range are SPACE; when it completes, no soft error being present, every element of the range holds its operation's result and no other
scratchpad byte changes (amax changes none), and the slot receives its status - 0, or the magnitude word of amax - and the flags, which
complete the word. That the whole range is transformed at its completion, in one step from the bytes that stand there then, is the model's
choice (log 10), and so is that the sat bit of fill and amax is accepted and has no effect (log 72). (09_cluster_memory_streams_barriers.md
R224 R225) -/
def Obligations.Transforms : Prop :=
  (∀ (g : Guard) (d : Reg) (a b c : Src) (f df : Fmt) (rnd : Rnd) (sat : Bool) (s : State),
    let z : Src := { r := 0, et := false }
    (Issues g [a, b] [d] s →
      TransformWord (.xformCvt g d a b f df rnd sat) d (transformOf (.cvt df) f rnd sat a b z s) a s ∧
      TransformWord (.xformAmax g d a b f sat) d (transformOf .amax f .rne sat a b z s) a s) ∧
    (Issues g [a, b, c] [d] s →
      TransformWord (.xformScale g d a b c f rnd sat) d (transformOf .scale f rnd sat a b c s) a s ∧
      TransformWord (.xformFill g d a b c f sat) d (transformOf .fill f .rne sat a b c s) a s ∧
      TransformWord (.xformAdd g d a b c f rnd sat) d (transformOf .add f rnd sat a b c s) a s)) ∧
  (∀ (r u k : Nat) (x : Xform) (s : State), (s.region r).halt = false → s.errors = [] →
    (s.region r).xforms.find? (fun y => decide (y.unit = u) && decide (y.slot = k)) = some x →
    let w := fmtBits x.fmt / 8
    let key := sKey r (uCl u) x.addr
    let old := chunks w x.n (s.smem.reads key (x.n * w))
    let new := old.zipIdx.map (fun p => xformElem x (xformMix (regionSeed r s) x p.2) p.1)
    ∃ t, Gives (.xformComplete r u k) s t ∧ t.lmem = s.lmem ∧ t.tmem = s.tmem ∧
      (t.slot r u k).pc = (s.slot r u k).pc ∧ (t.slot r u k).regs = (s.slot r u k).regs ∧
      (x.cmd = .amax → t.smem = s.smem ∧
        (t.slot r u k).prog = .answered (BitVec.ofNat 64 (old.foldl (fun m e => magUpdate m (decodeNum x.fmt e)) 0)) (new.foldl (fun f e => f ||| e.2) 0)) ∧
      (x.cmd ≠ .amax → (t.slot r u k).prog = .answered 0 (new.foldl (fun f e => f ||| e.2) 0) ∧
        t.smem.reads key (x.n * w) = (new.map Prod.fst).flatMap (bytesLE w) ∧ SameBytes s.smem t.smem key (key + x.n * w)))

/-- A load has been queued: its slot is invalid from now on, and nothing has been written. -/
def Sys2Proof.Claims.LoadQueued (slot off : Nat) (src : Option Nat) (len : Nat) (s t : State) : Prop :=
  let m := s.hereR.mx (mxUnit s)
  let m' := t.hereR.mx (mxUnit s)
  m'.loads = m.loads ++ [{ slot := slot, off := off, src := src, started := false, len := len, got := 0, id := m.loadId }] ∧
  m'.loadId = m.loadId + 1 ∧ m'.buffer = m.buffer ∧ m'.sections = m.sections ∧ (∀ p, Assoc.find slot m'.panels = some p → p.valid = false) ∧
  (∀ k, k ≠ slot → Assoc.find k m'.panels = Assoc.find k m.panels) ∧ t.here.pc = s.here.pc + 1
/-- The bytes at an S address may be a panel image, read as the header `h`. -/
abbrev Sys2Proof.Claims.GoodImage (addr off h : Nat) (s : State) : Prop :=
  addr % 64 = 0 ∧ addr + 64 * hdrUnits h ≤ 2 ^ 22 ∧ borrowed s.hereR s.hereCl addr 64 = false ∧ borrowed s.hereR s.hereCl addr (64 * hdrUnits h) = false ∧
  hdrBad h = false ∧ off + hdrUnits h ≤ 24576 ∧ (s.hereR.mx (mxUnit s)).armedUnits off (hdrUnits h) = false
/-- MSCALE, MWLOAD, MARM and GARM: Where the word issues with good operands: MSCALE sets the core's tensor scale to the rounded product of
two FP32 values once the chains accepted before have ended, MSCALE.mx that of the matrix unit; MWLOAD and MWLOAD.p queue a panel load and
make its slot invalid, or wait for a place; MARM and GARM add to a section's count, MARM once the loads accepted before have ended; the
other functions read a count, wait for it to be 0, or read and clear the flags word. A section that does not exist is SPACE.
(11_cluster_matrix_unit.md R275 to R277, 15_die_scheduling_quiescence.md R304) -/
def Obligations.MatrixWords : Prop :=
  ∀ (g : Guard) (d : Reg) (a b c : Src) (sec : Two) (s : State),
    let u := mxUnit s
    let m := s.hereR.mx u
    (Issues g [a, b] [d] s →
      let p := scaleProduct (rv s a) (rv s b)
      Gives (.mscaleMx g d a b) s (doneFl d (BitVec.ofNat 64 p.1) p.2 (s.modHereR (fun R => R.modMx u (fun m => { m with scale := BitVec.ofNat 32 p.1 })))) ∧
      (OnCompute s → (s.hereC.chains = [] ∨ s.here.prog = .accepted) →
        Gives (.mscale g d a b) s (doneFl d (BitVec.ofNat 64 p.1) p.2 (s.modHereC (fun c => { c with scale := BitVec.ofNat 32 p.1 })))) ∧
      (OnControl s → Gives (.mscale g d a b) s (failSpace 0 s))) ∧
    (Issues g [a, b, c] [d] s → s.errors = [] →
      let addr := (rv s a).toNat
      let h := ofBytesLE (s.smem.reads (sKey s.cur.region s.hereCl addr) 64)
      (rv s b).toNat ≤ 63 → (rv s c).toNat ≤ 24575 → m.armedSlot (rv s b).toNat = false → GoodImage addr (rv s c).toNat h s →
        (m.loads.length < 4 → ∃ t, Gives (.mwload g d a b c) s t ∧ LoadQueued (rv s b).toNat (rv s c).toNat (some addr) (hdrUnits h) s t) ∧
        (4 ≤ m.loads.length → Gives (.mwload g d a b c) s (park (.mxQueue u) s))) ∧
    (Issues g [b, c] [d] s → (rv s b).toNat ≤ 63 → (rv s c).toNat ≤ 24575 → m.armedSlot (rv s b).toNat = false →
        (m.loads.length < 4 → ∃ t, Gives (.mwloadP g d b c) s t ∧ LoadQueued (rv s b).toNat (rv s c).toNat none 0 s t) ∧
        (4 ≤ m.loads.length → Gives (.mwloadP g d b c) s (park (.mxQueue u) s))) ∧
    (Issues g [a] [d] s →
      (s.hereR.section u sec.toNat = none → Gives (.marm g d a sec) s (failSpace 0 s)) ∧
      (∀ x, s.hereR.section u sec.toNat = some x → armBad x (rv s a).toNat = false →
        ((∀ l ∈ m.loads, x.names l.slot = false) → m.mismatch x = none →
          Gives (.marm g d a sec) s (done d (BitVec.ofNat 64 (x.count + (rv s a).toNat))
            (s.modHereR (fun R => R.setSection u sec.toNat { x with count := x.count + (rv s a).toNat })))) ∧
        ((∃ l ∈ m.loads, x.names l.slot = true) → s.here.prog ≠ .accepted →
          Gives (.marm g d a sec) s (parkAt (.panels u x.pfirst (x.pfirst + x.kp - 1) m.loadId) .accepted s)))) ∧
    (Issues g [] [d] s → ∀ x, s.hereR.section u sec.toNat = some x →
      Gives (.marmQ g d sec) s (done d (BitVec.ofNat 64 x.count) s) ∧
      (x.count = 0 → Gives (.marmWait g d sec) s (done d (BitVec.ofNat 64 x.tiles) s)) ∧
      (x.count ≠ 0 → Gives (.marmWait g d sec) s (park (.mxIdle u sec.toNat) s)) ∧
      Gives (.marmFlags g d sec) s (done d (x.flags.setWidth 64) (s.modHereR (fun R => R.setSection u sec.toNat { x with flags := 0 })))) ∧
    (∀ v x, (rv s a).toNat = v → v < 2 ^ 16 → unitOk s.hereR v = true → uKind v = 2 → s.hereR.section v sec.toNat = some x →
      (Issues g [a] [d] s → Gives (.garmQ g d a sec) s (done d (BitVec.ofNat 64 x.count) s)) ∧
      (Issues g [a, b] [d] s → armBad x (rv s b).toNat = false →
        Gives (.garm g d a b sec) s (done d (BitVec.ofNat 64 (x.count + (rv s b).toNat))
          (s.modHereR (fun R => R.setSection v sec.toNat { x with count := x.count + (rv s b).toNat, check := true })))))

/-- MX `u` of region `r` may move, no soft error being present. -/
abbrev Sys2Proof.Claims.MxRuns (r : Nat) (s : State) : Prop := (s.region r).halt = false ∧ (s.region r).preempt = none ∧ s.errors = []
/-- One block of 32 products taken into an accumulator, under the factor `sc`, beside the flags raised so far (R270, R271). -/
def Sys2Proof.Claims.blockInto (x : Section) (acc : Nat × Flg) (as bs : List Nat) (sc : XNum × Flg) : Nat × Flg :=
  if x.isInt then
    let v := sextN 32 acc.1 + ((as.zip bs).map (fun e => intVal x.afmt e.1 * intVal x.bfmt e.2)).sum
    (wrapN 32 (max (-(2 ^ 31)) (min (2 ^ 31 - 1) v)), acc.2 ||| (if -(2 ^ 31) ≤ v ∧ v ≤ 2 ^ 31 - 1 then 0 else 0x14))
  else
    let ps := (as.zip bs).map (fun e => numMul (decodeNum x.afmt e.1) (decodeNum x.bfmt e.2))
    let sum := numSum (ps.map Prod.fst)
    let scaled := numMul sum.1 sc.1
    let blk := toFp32 scaled.1
    let both := numSum [decodeNum .fp32 acc.1, decodeNum .fp32 blk.1]
    let out := toFp32 both.1
    (out.1, acc.2 ||| ps.foldl (fun f p => f ||| p.2) 0 ||| sum.2 ||| sc.2 ||| scaled.2 ||| blk.2 ||| both.2 ||| out.2)
/-- Element `n` of the node's row after a firing on the beats `l`, and the flags that it raises: from `acc`, 4 blocks for each panel of the
firing (R270). -/
def Sys2Proof.Claims.rowAfter (x : Section) (m : Mx) (l : List (Beat × Nat)) (n acc : Nat) : Nat × Flg :=
  (List.range (4 * x.q)).foldl (fun a i =>
    let p := (x.steps m).getD (i / 4) (0, [])
    blockInto x a (((aElems x l).drop (32 * i)).take 32) ((p.2.drop (128 * n + 32 * (i % 4))).take 32)
      (if x.smod = 0 then (.fin false 1 1, 0) else numMul (aScale x l (32 * i)) (m.panelScale p.1 n (i % 4)))) (acc, 0)
/-- Panel loads and firings of the matrix unit: In a running region without soft errors, the load at the head of the queue starts, which
makes the valid slots it overlaps invalid, receives its units one by one from the scratchpad or from input 4, and ends with its slot valid;
an eoi at input 4 outside a load is dropped; an armed section that has its A beats, and room for a row it releases, fires: each element of
its node's row takes in, block by block in increasing K order, the products of its A elements and its panels' - in the integer set the exact
sum clamped to INT32, in the float set the sum rounded once, scaled and added, each to FP32 -, the row goes out on the section's port and
the node is zero where the firing releases it, the firing counts towards its work tile and tile count, the flags that its products, sums and
roundings raise, or the clamps of the integer set, are added to the section's flags word, and no slot and no memory byte changes; a section
whose check is pending is checked once its slots are valid; an eoi inside a work tile is SPACE with reason 5. (11_cluster_matrix_unit.md
R270 to R273 R275 R279, 15_die_scheduling_quiescence.md R304) -/
def Obligations.MatrixEvents : Prop :=
  ∀ (r u : Nat) (s : State), MxRuns r s →
    let R := s.region r
    let m := R.mx u
    (∀ l rest, m.loads = l :: rest →
      (l.started = false → ∀ i, l.src = some i →
        (m.armedUnits l.off l.len = true → Gives (.panelLoadStart r u) s (raise r (loadRec u l) s)) ∧
        (m.armedUnits l.off l.len = false →
          ∃ t, Gives (.panelLoadStart r u) s t ∧ ((t.region r).mx u).loads = { l with started := true } :: rest ∧ SlotsKept r s t ∧
            ∀ k p, Assoc.find k m.panels = some p →
              Assoc.find k ((t.region r).mx u).panels = some (if unitsMeet l.off l.len p.off p.len then { p with valid := false } else p))) ∧
      (l.started = true → l.got < l.len →
        (∀ i, l.src = some i →
          ∃ t, Gives (.panelUnitArrival r u) s t ∧ ((t.region r).mx u).loads = { l with got := l.got + 1 } :: rest ∧ SlotsKept r s t ∧
            ((t.region r).mx u).unit (l.off + l.got) = BitVec.ofNat 512 (ofBytesLE (s.smem.reads (sKey r (uCl u) (i + 64 * l.got)) 64)) ∧
            (∀ j, j ≠ l.off + l.got → ((t.region r).mx u).unit j = m.unit j)) ∧
        (∀ b, l.src = none → R.headIn u 4 = some b →
          (b.isData = true → ∃ t, Gives (.panelUnitArrival r u) s t ∧ ((t.region r).mx u).unit (l.off + l.got) = b.data ∧
            ((t.region r).mx u).loads = { l with got := l.got + 1 } :: rest) ∧
          (b.eoi = true → Gives (.panelUnitArrival r u) s (raise r (loadRec u l) s)))) ∧
      (l.started = true → l.len ≤ l.got →
        let h := (m.unit l.off).toNat
        hdrBad h = false → hdrUnits h = l.len → (hdrDense h = true ∨ ((m.bitmap l.off).filter (fun x => x)).length = hdrNnz h) →
          ∃ t, Gives (.panelLoadEnd r u) s t ∧ ((t.region r).mx u).loads = rest ∧ ((t.region r).mx u).buffer = m.buffer ∧
            ∃ p, Assoc.find l.slot ((t.region r).mx u).panels = some p ∧ p.valid = true ∧ p.off = l.off ∧ p.len = l.len ∧ p.fmt = hdrFmt h ∧ p.smod = hdrSmod h)) ∧
    (R.eoiIn u 4 0 = true → (∀ l ∈ m.loads, l.started = true → l.src ≠ none) →
      Gives (.input4EoiDrop r u) s (s.setRegion r (R.popIn u 4 1))) ∧
    (∀ sec x, R.section u sec = some x →
      (∀ k a l y n, R.inArc u sec = some (k, a) → x.count ≠ 0 → x.check = false → collectAll x a.fifo = .ok l y n →
        (releases m x l = true → R.roomOut u sec 8 = true) →
        ∃ t y', Gives (.mxFiring r u sec) s t ∧ t.smem = s.smem ∧ t.lmem = s.lmem ∧ t.tmem = s.tmem ∧ SlotsKept r s t ∧
          (t.region r).section u sec = some y' ∧ y'.j = (if y.tile ≤ y.j + 1 then 0 else y.j + 1) ∧
          y'.count = (if y.tile ≤ y.j + 1 then y.count - 1 else y.count) ∧
          (∀ w, (w < 128 * y.node ∨ 128 * y.node + 128 ≤ w) →
            Assoc.get 0 w ((t.region r).mx u).bank = Assoc.get 0 w m.bank) ∧
          let out := y.ecnt ≤ Assoc.get 0 y.node m.eors + (if l.any (fun b => b.1.eor) then 1 else 0)
          let v := fun e => rowAfter y m l e (Assoc.get 0 (128 * y.node + e) m.bank).toNat
          y'.flags = (List.range 128).foldl (fun f e => f ||| (v e).2) y.flags ∧
          (∀ e, e < 128 → Assoc.get 0 (128 * y.node + e) ((t.region r).mx u).bank = if out then 0 else BitVec.ofNat 32 (v e).1) ∧
          (out → Assoc.sorted R.arcs = true → ∀ k b, Assoc.find k R.arcs = some b → arcFrom u sec k b.route = true →
            ∃ b' l', Assoc.find k (t.region r).arcs = some b' ∧ b'.inbox = b.inbox ++ l' ∧ l'.length = 8 ∧
              ∀ e, e < 128 → (l'.getD (e / 16) default).beat.data.toNat / 2 ^ (32 * (e % 16)) % 2 ^ 32 = (v e).1 % 2 ^ 32)) ∧
      (x.check = true → (∀ k, x.pfirst ≤ k → k < x.pfirst + x.kp → ∃ p, Assoc.find k m.panels = some p ∧ p.valid = true) →
        (m.mismatch x = none → Gives (.garmCheck r u sec) s (s.setRegion r (R.setSection u sec { x with check := false }))) ∧
        (∀ k, m.mismatch x = some k → Gives (.garmCheck r u sec) s (raise r (sectionRec u sec x 1 k) s))) ∧
      (R.eoiIn u sec 0 = true → x.check = false → x.j ≠ 0 → Gives (.eoiHandling r (.mx u sec)) s (raise r (sectionRec u sec x 5 0) s)))

/-- A record of `n` words at an S address of the cursor's cluster may be read. -/
abbrev Sys2Proof.Claims.SRecord (addr n : Nat) (s : State) : Prop := s.errors = [] ∧ borrowed s.hereR s.hereCl addr (8 * n) = false
/-- CRUN and CEDGE: Where the word issues and its record may be read, CRUN starts a chain that is not running with the descriptor it read,
where it stands the checks and its buffers hold the lattice (as the tensor table says, where they are tensors), at pass 0, its source and
sink ports holding the pass's commands; CRUN.wait waits while the chain runs and then returns its status word and refreshes the core; CEDGE
enters the edge values of a step, answers 1 for a step that is past, and waits for a place in the table. (10_cluster_coat_chains.md R250 to
R255) -/
def Obligations.CoatWords : Prop :=
  ∀ (g : Guard) (d : Reg) (a b : Src) (ch : Two) (s : State),
    (Issues g [a] [d] s → ∀ C, Assoc.find ch.toNat s.hereR.coats = some C → C.running = false →
      let addr := (rv s a).toNat
      let p := loadSWords s.cur.region s.cur.unit addr 8 s
      let desc := ofBytesLE p.1
      addr % 64 = 0 → addr ≤ 0x3FFFC0 → SRecord addr 8 s →
      (crunBad p.2.hereR C desc = true → Gives (.crun g d a ch) s (failSpace (rv p.2 a) p.2)) ∧
      (crunBad p.2.hereR C desc = false →
        (∀ s2, (∀ k, withBuffers desc k p.2 = k false s2) → Gives (.crun g d a ch) s (failSpace (rv s2 a) s2)) ∧
        (∀ s2, (∀ k, withBuffers desc k p.2 = k true s2) → Gives (.crun g d a ch) s (done d 0 (s2.modHereR (fun R => startPass ch.toNat 0
          { R with coats := Assoc.put ch.toNat { C with running := true, ran := true, desc := BitVec.ofNat 512 desc, steps := 0, passes := 0 } R.coats }))))) ∧
      (crunBad p.2.hereR C desc = false → latTensor desc = false → (C.sunit, C.sport) ≠ (C.kunit, C.kport) →
        ∃ t C', Gives (.crun g d a ch) s t ∧ t.here.pc = s.here.pc + 1 ∧ (d ≠ 0 → t.here.rd d = 0) ∧ Assoc.find ch.toNat t.hereR.coats = some C' ∧
          C'.running = true ∧ C'.desc = BitVec.ofNat 512 desc ∧ C'.pass = 0 ∧ C'.steps = 0 ∧ C'.passes = 0 ∧
          (let n := latticeBlocks (BitVec.ofNat 512 desc).toNat
           (t.hereR.port C.sunit C.sport).queue = (p.2.hereR.port C.sunit C.sport).queue ++
             [.coat ch.toNat (BitVec.ofNat 64 (latBuf (BitVec.ofNat 512 desc).toNat 0)) n] ∧
           (t.hereR.port C.kunit C.kport).queue = (p.2.hereR.port C.kunit C.kport).queue ++
             [.coat ch.toNat (BitVec.ofNat 64 (latBuf (BitVec.ofNat 512 desc).toNat 1)) n]))) ∧
    (Issues g [] [d] s → ∀ C, Assoc.find ch.toNat s.hereR.coats = some C →
      (C.running = true → Gives (.crunWait g d ch) s (park (.coats ch.toNat) s)) ∧
      (C.running = false → Gives (.crunWait g d ch) s (done d (chainWord C) (refresh s.cur.region s.cur.unit s)))) ∧
    (Issues g [a, b] [d] s → ∀ C, Assoc.find ch.toNat s.hereR.coats = some C →
      let addr := (rv s a).toNat
      let st := (rv s b).toNat
      let p := loadSWords s.cur.region s.cur.unit addr 12 s
      addr % 32 = 0 → addr ≤ 0x3FFFA0 → st ≤ 2 ^ 24 - 2 → SRecord addr 12 s →
      (C.running = true → st < chainLow C → Gives (.cedge g d a b ch) s (done d 1 p.2)) ∧
      ((C.running = false ∨ chainLow C ≤ st) →
        (edgeFree C st = false → Gives (.cedge g d a b ch) s (park (.edge ch.toNat st) p.2)) ∧
        (edgeFree C st = true →
          ∃ t C', Gives (.cedge g d a b ch) s t ∧ t.here.pc = s.here.pc + 1 ∧ (d ≠ 0 → t.here.rd d = 0) ∧ Assoc.find ch.toNat t.hereR.coats = some C' ∧
            C'.running = C.running ∧ C'.pass = C.pass ∧
            Assoc.find (st % 64) C'.edge = some (st, (List.range 24).map (fun i => BitVec.ofNat 32 (ofBytesLE p.1 / 2 ^ (32 * i)))) ∧
            (∀ k, k ≠ st % 64 → Assoc.find k C'.edge = Assoc.find k C.edge))))

/-- The moves of a coat: In a running region without soft errors, a computing coat of a running chain admits its next block once its taps
find their cells, else takes the data beat at its head into its cells, one beyond the lattice being SPACE; a coat past the last step passes
beats on; the pass's eoi begins its drain; and once both ports are through and every coat is over (it has sent the eoi on, and where it
computes every stage of its cores' templates to which the eoi comes has met it), the next pass starts or the run ends.
(10_cluster_coat_chains.md R247 to R249 R252) -/
def Obligations.CoatEvents : Prop :=
  ∀ (r ch k : Nat) (c o : CoatCore) (s : State), s.errors = [] →
    let R := s.region r
    let C := Assoc.get default ch R.coats
    let K := R.coat ch k
    (K.headCore = some c → K.lastCore = some o → coatLive R ch k = true →
      (C.computes k = true →
        (∀ e, admits R C k K c = some e →
          Gives (.coatFiring r ch k) s (s.modRegion r (fun R => R.modCoat ch k (fun K => { K with next := K.next + 1, edgeNow := e })))) ∧
        (∀ b, admits R C k K c = none → R.headIn c.unit c.iport = some b → b.isData = true →
          (K.cells.length < latticeBlocks C.desc.toNat →
            Gives (.coatFiring r ch k) s
              (s.modRegion r (fun R => (R.popIn c.unit c.iport 1).modCoat ch k (fun K => { K with cells := K.cells ++ [b.data] })))) ∧
          (latticeBlocks C.desc.toNat ≤ K.cells.length → Gives (.coatFiring r ch k) s (raise r (coatRec C ch k K c) s))) ∧
        (K.drain = false → R.eoiIn c.unit c.iport 0 = true → latticeBlocks C.desc.toNat ≤ K.cells.length →
          Gives (.coatDrain r ch k) s (s.setRegion r (((R.popIn c.unit c.iport 1).unlatch c.unit c.iport).modCoat ch k (fun K => { K with drain := true })))) ∧
        (K.drain = false → R.eoiIn c.unit c.iport 0 = true → K.cells.length < latticeBlocks C.desc.toNat →
          Gives (.coatDrain r ch k) s (raise r (coatRec C ch k K c) s))) ∧
      (C.computes k = false → ∀ b, R.headIn c.unit c.iport = some b → b.isData = true → R.roomOut o.unit o.oport 1 = true →
        Gives (.coatFiring r ch k) s
          (s.setRegion r (((R.popIn c.unit c.iport 1).pushOut o.unit o.oport [b]).modCoat ch k (fun K => { K with fin := K.fin || b.eoi }))))) ∧
    (R.halt = false → R.preempt = none → C.running = true → holdsCoat ch (R.port C.sunit C.sport) = false → holdsCoat ch (R.port C.kunit C.kport) = false →
      (∀ q ∈ C.coats, coatOver R C q.1 q.2 = true) →
      ∃ t C', Gives (.coatPassStart r ch) s t ∧ Assoc.find ch (t.region r).coats = some C' ∧ C'.passes = C.passes + 1 ∧
        C'.steps = min (latSteps C.desc.toNat) ((C.pass + 1) * C.depth) ∧
        (latSteps C.desc.toNat ≤ (C.pass + 1) * C.depth → C'.running = false ∧ C'.pass = C.pass) ∧
        ((C.pass + 1) * C.depth < latSteps C.desc.toNat → C'.running = true ∧ C'.pass = C.pass + 1))

/-- The invalidation is queued and the word completes with status 0. -/
def Sys2Proof.Claims.TinvQueued (all whole : Bool) (tid lo hi : Nat) (d : Reg) (s t : State) : Prop :=
  t.here.pc = s.here.pc + 1 ∧ (d ≠ 0 → t.here.rd d = 0) ∧
  t.hereR.tinvs = s.hereR.tinvs ++ [{ id := s.hereR.nextId, unit := s.cur.unit, num := s.hereR.nextId, all := all, whole := whole, tid := tid, lo := lo, hi := hi }]
/-- COPY, transfer barriers, TINV and XLOOK: Where the word issues: COPY hands the copy that its descriptor in the control segment describes
to an engine under the next ticket, and .wait waits for a copy in flight whose ticket is less than 32,768 behind, and returns the status of
any other - 0 for one that far behind - and refreshes the core; XEXPECT arms a barrier, which completes at once where its bytes are there,
and XWAIT waits for it; the forms of TINV queue an invalidation of a tid that names a tensor and .wait waits for the core's; XLOOK reports
what a lookup finds. (16_die_copy_translation.md R335 to R343) -/
def Obligations.TransferWords : Prop :=
  ∀ (g : Guard) (d : Reg) (a b : Src) (id : Tmpl) (s : State),
    (Issues g [a] [d] s →
      (∀ c bs s1, s.errors = [] → s.ctxOf s.hereR = some c → (rv s a).toNat % 64 = 0 → (rv s a).toNat + 64 ≤ hereSeg s →
        loadGWords c s.cur.region s.cur.unit (rv s a).toNat 8 s = .ok bs s1 → s1.cur = s.cur →
        (s1.hereR.copies.filter (fun x => x.unit == s.cur.unit && x.node == none)).length < 8 →
        ∃ t x, Gives (.copy g d a) s t ∧ t.hereR.copies = s1.hereR.copies ++ [x] ∧ x.desc = BitVec.ofNat 512 (ofBytesLE bs) ∧ x.started = false ∧
          x.ticket = s1.hereC.copyTicket ∧ x.unit = s.cur.unit ∧ t.hereC.copyTicket = s1.hereC.copyTicket + 1 ∧
          t.here.pc = s1.here.pc + 1 ∧ (d ≠ 0 → t.here.rd d = BitVec.ofNat 64 (s1.hereC.copyTicket % 2 ^ 16))) ∧
      ((rv s a).toNat % 64 ≠ 0 → Gives (.copy g d a) s (failSpace (rv s a) s)) ∧
      (let n := (rv s a).toNat
       let back := age (s.hereC.copyTicket + 2 ^ 16 - 1) n
       let k := s.hereC.copyTicket - 1 - back
       n < 2 ^ 16 → back < s.hereC.copyTicket →
        (back < 2 ^ 15 → (∃ x ∈ s.hereR.copies, x.unit = s.cur.unit ∧ x.node = none ∧ x.ticket = k) → Gives (.copyWait g d a) s (park (.copy k) s)) ∧
        ((2 ^ 15 ≤ back ∨ ∀ x ∈ s.hereR.copies, ¬ (x.unit = s.cur.unit ∧ x.node = none ∧ x.ticket = k)) →
        let v := if 2 ^ 15 ≤ back then 0 else Assoc.get 0 k s.hereC.copyDone
        Gives (.copyWait g d a) s (doneFl d v (v.setWidth 5) (refresh s.cur.region s.cur.unit s)))) ∧
      (let e := (rv s a).toNat
       let x := s.hereR.tbar s.hereCl id.toNat
       e ≠ 0 → e ≤ 2 ^ 40 → x.armed = false →
        (x.c < e → Gives (.xexpect g d a id) s (done d (BitVec.ofNat 64 x.c) (s.modHereR (Region.setTbar s.hereCl id.toNat { x with armed := true, e := e })))) ∧
        (x.c = e → Gives (.xexpect g d a id) s (done d (BitVec.ofNat 64 x.c)
          (s.modHereR (Region.setTbar s.hereCl id.toNat { x with armed := false, e := e, c := 0, inst := x.inst + 1 }))))) ∧
      (∀ c n s1, s.ctxOf s.hereR = some c → (rv s a).toNat < 2 ^ 16 → tensorName c s.cur.region (rv s a).toNat s = .ok n s1 → s1.cur = s.cur →
        (n ≠ .absent → ∃ t, Gives (.tinvT g d a) s t ∧ TinvQueued false true (rv s a).toNat 0 (2 ^ 27 - 1) d s1 t) ∧
        (n = .absent → Gives (.tinvT g d a) s (failSpace 0 s1)))) ∧
    (Issues g [a, b] [d] s →
      (∀ c n s1, s.ctxOf s.hereR = some c → (rv s a).toNat < 2 ^ 16 → tensorName c s.cur.region (rv s a).toNat s = .ok n s1 → s1.cur = s.cur → n ≠ .absent →
        let lo := (rv s b).toNat % 2 ^ 27
        let hi := (rv s b).toNat / 2 ^ 27
        hi < 2 ^ 27 → lo ≤ hi → ∃ t, Gives (.tinv g d a b) s t ∧ TinvQueued false false (rv s a).toNat lo hi d s1 t) ∧
      (∀ c n s1, s.ctxOf s.hereR = some c → (rv s b).toNat < 2 ^ 48 → tensorName c s.cur.region ((rv s a).toNat / 2 ^ 48) s = .ok n s1 →
        let j := lookCoords (rv s a) (rv s b)
        ((n = .absent ∨ n = .malformed) →
          Gives (.xlook g d a b) s (done d (BitVec.ofNat 64 (3 * 2 ^ 61)) s1) ∧ Gives (.xlookO g d a b) s (done d (BitVec.ofNat 64 (3 * 2 ^ 61)) s1)) ∧
        (∀ tn, n = .tensor tn →
          (tn.outside j = true →
            Gives (.xlook g d a b) s (done d (BitVec.ofNat 64 (2 * 2 ^ 61)) s1) ∧ Gives (.xlookO g d a b) s (done d (BitVec.ofNat 64 (2 * 2 ^ 61)) s1)) ∧
          (∀ out w x s2, tn.outside j = false → stage1 c s.cur.region ((rv s a).toNat / 2 ^ 48) tn (tn.tile j) s1 = .ok (out, x, w) s2 →
            Gives (.xlook g d a b) s (done d (BitVec.ofNat 64 (tn.offset j * 2 ^ 27 + tn.tile j)) s2) ∧
            Gives (.xlookO g d a b) s (done d (BitVec.ofNat 64 (b2n w * 2 ^ 35 + b2n x * 2 ^ 34 + out)) s2))))) ∧
    (Issues g [] [d] s →
      (let x := s.hereR.tbar s.hereCl id.toNat
       (x.armed = true → Gives (.xwait g d id) s (park (.transfer s.hereCl id.toNat) s)) ∧
       (x.armed = false → Gives (.xwait g d id) s (done d (x.inst.setWidth 64) (refresh s.cur.region s.cur.unit s)))) ∧
      (∃ t, Gives (.tinvAll g d) s t ∧ TinvQueued true true 0 0 (2 ^ 27 - 1) d s t) ∧
      ((s.here.prog = .accepted ∨ ∀ x ∈ s.hereR.tinvs, x.unit ≠ s.cur.unit) → Gives (.tinvWait g d) s (done d 0 s)) ∧
      (s.here.prog ≠ .accepted → (∃ x ∈ s.hereR.tinvs, x.unit = s.cur.unit) → Gives (.tinvWait g d) s (parkAt (.tinv s.hereR.nextId) .accepted s)))

/-- Copy `x` of number `k` may go on for the context `c`. -/
abbrev Sys2Proof.Claims.CopyLive (r k : Nat) (x : Copy) (c : Context) (s : State) : Prop :=
  (s.region r).halt = false ∧ (s.region r).preempt = none ∧ (s.region r).copies.find? (fun y => decide (y.id = k)) = some x ∧
  s.ctxOf (s.region r) = some c ∧ x.fault = none
/-- Both sides are scratchpads, and keep R332. -/
abbrev Sys2Proof.Claims.ScratchCopy (R : Region) (d : Nat) : Prop :=
  sideScratch (copySrc d) = true ∧ sideScratch (copyDst d) = true ∧ sidesMeet d = false ∧
  scratchSideBad R (copySrc d) (fmtBits (copySfmt d)) (copyBox d) = false ∧
  scratchSideBad R (copyDst d) (fmtBits (copyDfmt d)) (swapIx (copyTr d) (copyBox d)) = false
/-- The bytes that an element writes in a unit's block, at their keys. -/
def Sys2Proof.Claims.unitBytes (r d unit : Nat) (seed : Word) (s : State) (e : BoxIx) : List (Nat × Byte) :=
  let w := fmtBits (copyDfmt d)
  let v := fmtBits (copySfmt d)
  let b := sideBit (copySrc d) v (swapIx (copyTr d) e)
  let x := elemAt v (b / 8) (s.smem.reads (sKey r (sideCl (copySrc d)) (b / 8)) ((b % 8 + v + 7) / 8)) b
  ((withAddrs (sideBit (copyDst d) w e / 8) (bytesLE (w / 8) (copyElem seed d none e x).1)).filter
    (fun p => decide (sideCl (copyDst d) * 1024 + p.1 / 4096 = unit))).map (fun p => (sKey r (sideCl (copyDst d)) p.1, p.2))
/-- The course of a copy between scratchpads: In a running region with a resident context, a copy whose descriptor breaks the rules is
SPACE; one between scratchpads that keeps them starts, its units in order; each unit, the context having budget and no soft error being
present, writes the converted elements of the bytes in its 4 KiB block, and the last one gives the core its status word. That a unit is
read, converted and written in one step, with the source bytes of its completion, and that an element across two blocks is converted for
each, are the model's choices (logs 10 and 28). An invalidation completes in every cache, of translations, of walks and of tensor-table
entries; a context's budget is refilled up to its cap. (16_die_copy_translation.md R332 to R338 R341 R342, 21_package_partitions_host.md
R448) -/
def Obligations.CopyEvents : Prop :=
  (∀ (r k : Nat) (x : Copy) (c : Context) (s : State), CopyLive r k x c s →
    let d := x.desc.toNat
    (x.started = false →
      (copyBad (s.region r) d = true → Gives (.copyStart r k) s (raise r (copyRec x) s)) ∧
      (copyBad (s.region r) d = false → ScratchCopy (s.region r) d →
        ∃ t, Gives (.copyStart r k) s t ∧ t.smem = s.smem ∧ t.lmem = s.lmem ∧ t.tmem = s.tmem ∧
          (t.region r).copies = (s.region r).copies.map (fun y => if y.id = k then
            { y with started := true, units := firsts ((boxAll (swapIx (copyTr d) (copyBox d))).flatMap (unitsOf d none)) } else y))) ∧
    (∀ unit, x.started = true → x.units[x.next]? = some unit → hasBudget r s = true → (detOn s (s.region r) = true → unitHeld c r x unit s = false) →
      s.errors = [] → sideScratch (copySrc d) = true → sideScratch (copyDst d) = true → fmtBits (copyDfmt d) % 8 = 0 → bit d 16 = false →
      let es := (boxAll (swapIx (copyTr d) (copyBox d))).filter (fun e => (unitsOf d none e).contains unit)
      ∃ t, Gives (.copyUnitComplete r k) s t ∧ t.lmem = s.lmem ∧ t.tmem = s.tmem ∧
        t.smem = VMem.writeEach s.moment (es.flatMap (unitBytes r d unit (regionSeed r s) s)) s.smem ∧
        (x.next + 1 < x.units.length → ∀ y ∈ (t.region r).copies, y.id = k → y.next = x.next + 1) ∧
        (x.units.length ≤ x.next + 1 → (∀ y ∈ (t.region r).copies, y.id ≠ k) ∧
          (x.node = none → ∃ fl : Flg, Assoc.get 0 x.ticket (t.core r x.unit).copyDone = BitVec.ofNat 64 (x.units.length * 2 ^ 32 + (x.flags ||| fl).toNat))))) ∧
  (∀ (r k asid : Nat) (q : Tinv) (s : State), (s.region r).halt = false → (s.region r).resident = some asid →
    (s.region r).tinvs.find? (fun t => decide (t.id = k)) = some q →
    ∃ t, Gives (.tinvComplete r k) s t ∧ (∀ y ∈ (t.region r).tinvs, y.id ≠ k) ∧
      (∀ e ∈ t.tlb, e.asid = asid → q.all = false ∧ ¬ (e.tid = q.tid ∧ q.lo ≤ e.tile ∧ e.tile ≤ q.hi)) ∧
      (∀ e ∈ s.tlb, e.asid ≠ asid → e ∈ t.tlb) ∧
      (∀ e ∈ t.walks, e.asid = asid → q.all = false ∧ ¬ (e.tid = q.tid ∧ q.lo ≤ e.hi ∧ e.lo ≤ q.hi)) ∧
      (∀ e ∈ t.tnames, e.asid = asid → q.all = false ∧ (e.tid = q.tid → q.whole = false ∧ tensorOf e.bits.toNat ≠ .malformed))) ∧
  (∀ (asid : Nat) (c : Context) (s : State), Assoc.find asid s.contexts = some c →
    ∃ t, Gives (.budgetRefill asid) s t ∧ t.regions = s.regions ∧
      Assoc.find asid t.contexts = some { c with budget := min c.attr.cap (c.budget + c.attr.refill) })

/-- The engine takes a command of the slot. -/
abbrev Sys2Proof.Claims.MayDd (s : State) : Prop :=
  s.here.prog ≠ .accepted ∧ chkOn s s.hereR = false ∧ (detOn s s.hereR = true → s.here.roster = true)
/-- A command has been accepted. -/
def Sys2Proof.Claims.DdAccepted (classA : Bool) (ds : List Reg) (op fn : Nat) (a b c : Word) (s t : State) : Prop :=
  ∃ x, t.hereR.ddq = s.hereR.ddq ++ [x] ∧ x.op = op ∧ x.fn = fn ∧ x.a = a ∧ x.b = b ∧ x.c = c ∧ x.unit = s.cur.unit ∧ x.slot = s.cur.slot ∧
    x.key.interval = s.here.interval ∧ x.key.seq = s.here.dseq ∧ x.result = none ∧ t.here.dseq = s.here.dseq + 1 ∧
    (∀ d ∈ ds, d ≠ 0 → t.here.fill d = .pending) ∧ t.contexts = s.contexts ∧ t.smem = s.smem ∧ t.lmem = s.lmem ∧
    (classA = true → t.here.st = .waiting (.dde x.id) ∧ t.here.prog = .accepted ∧ t.here.pc = s.here.pc) ∧ (classA = false → t.here.pc = s.here.pc + 1)
/-- A word that only sends: it is accepted, and a class A word completes when it issues again after its command. -/
def Sys2Proof.Claims.DdWord (i : Instr) (classA : Bool) (srcs : List Src) (ds : List Reg) (g : Guard) (op fn : Nat) (a b c : Word) (s : State) : Prop :=
  Issues g srcs ds s → (MayDd s → ∃ t, Gives i s t ∧ DdAccepted classA ds op fn a b c s t) ∧ (s.here.prog = .accepted → Gives i s (retire id s)) ∧
    (s.here.prog ≠ .accepted → (chkOn s s.hereR = true ∨ (detOn s s.hereR = true ∧ s.here.roster = false)) → Gives i s (fail 0x06 0 0 s))
/-- Words of the decision-diagram engine: Where the word issues, with its operands good and the engine open to it, every DDE word puts a
command with its operands into the engine's queue, in the slot's next place of the deterministic order, its destinations pending; a class A
word's slot waits for the command and completes once it is over, the others go on at once. In checking mode, and for a slot off the roster
in deterministic mode, it is DETERMINISM. (17_die_decision_diagram_engine.md R358 to R375) -/
def Obligations.DiagramWords : Prop :=
  ∀ (g : Guard) (d : Reg) (a b c : Src) (op : Tmpl) (k : Fin5) (s : State),
    let x := rv s a
    let y := rv s b
    let z := rv s c
    DdWord (.ddvar g d a) true [a] [d] g 0xE1 0 x 0 0 s ∧ DdWord (.ddvarLvl g d a) false [a] [d] g 0xE1 1 x 0 0 s ∧
    DdWord (.ddvarVar g d a) false [a] [d] g 0xE1 2 x 0 0 s ∧ DdWord (.ddite g d a b c) true [a, b, c] [d] g 0xE2 0 x y z s ∧
    DdWord (.ddapply g d a b op) true [a, b] [d] g 0xE3 op.toNat x y 0 s ∧ DdWord (.ddrestrict g d a b) true [a, b] [d] g 0xE4 0 x y 0 s ∧
    DdWord (.ddquantEx g d a b) true [a, b] [d] g 0xE5 0 x y 0 s ∧ DdWord (.ddquantAll g d a b) true [a, b] [d] g 0xE5 1 x y 0 s ∧
    DdWord (.ddcompose g d a b c) true [a, b, c] [d] g 0xE6 0 x y z s ∧ DdWord (.ddsat g d a) true [a] [d] g 0xE8 0 x 0 0 s ∧
    DdWord (.ddref g d a) false [a] [d] g 0xEA 0 x 0 0 s ∧ DdWord (.ddderef g d a) false [a] [d] g 0xEB 0 x 0 0 s ∧
    DdWord (.ddgc g d) false [] [d] g 0xEC 0 0 0 0 s ∧ DdWord (.ddswap g d a) true [a] [d] g 0xED 0 x 0 0 s ∧
    DdWord (.ddnode g d a) false [a] [d, d + 1] g 0xEE 0 x 0 0 s ∧ DdWord (.ddstat g d k) false [] [d] g 0xEF k.toNat 0 0 0 s ∧
    (y.toNat % 16 = 0 → DdWord (.ddwcount g d a b c) false [a, b, c] [d] g 0xE7 0 x y z s) ∧
    (y.toNat % 16 ≠ 0 → Issues g [a, b, c] [d] s → Gives (.ddwcount g d a b c) s (failSpace 0 s)) ∧
    (enumBad s.hereR s.cur.unit z.toNat = false →
      DdWord (.ddenum g d a b c) true [a, b, c] [d] g 0xE9 0 x y z s ∧ DdWord (.ddenumE g d a b c) true [a, b, c] [d] g 0xE9 1 x y z s) ∧
    (∀ e bs s1, Issues g [a] [d] s → s.errors = [] → s.ctxOf s.hereR = some e → x.toNat % 32 = 0 → x.toNat + 32 ≤ hereSeg s →
      loadGWords e s.cur.region s.cur.unit x.toNat 4 s = .ok bs s1 → s1.cur = s.cur → s1.here = s.here → MayDd s1 →
      (∃ t, Gives (.ddcfg g d a) s t ∧ DdAccepted false [d] 0xE0 0 x 0 0 s1 t ∧ (t.hereR.ddq.getLast?.map (fun q => q.rcd)) = some (BitVec.ofNat 512 (ofBytesLE bs))) ∧
      (∃ t, Gives (.ddcfgGrow g d a) s t ∧ DdAccepted false [d] 0xE0 1 x 0 0 s1 t ∧ (t.hereR.ddq.getLast?.map (fun q => q.rcd)) = some (BitVec.ofNat 512 (ofBytesLE bs))))

/-- Command `x` is number `i` of the queue of region `r` and may be performed for the context `c`. -/
abbrev Sys2Proof.Claims.DdTurn (r k i : Nat) (x : DdCmd) (c : Context) (s : State) : Prop :=
  (s.region r).halt = false ∧ (s.region r).preempt = none ∧ s.errors = [] ∧ s.ctxOf (s.region r) = some c ∧
  (s.region r).ddq.findIdx? (fun y => decide (y.id = k)) = some i ∧ (s.region r).ddq[i]? = some x
/-- What stands once command `x` has reached the engine: it is behind those accepted before it. -/
def Sys2Proof.Claims.reached (r : Nat) (x : DdCmd) (s : State) : State :=
  s.setRegion r { s.region r with
    ddq := ((s.region r).ddq.filter (fun y => y.id ≠ x.id)).filter (fun y => y.taken)
      ++ { x with taken := true } :: ((s.region r).ddq.filter (fun y => y.id ≠ x.id)).filter (fun y => !y.taken) }
/-- The table that stands once the engine has left a command: its insertions stay, and in deterministic mode the cache of the command's
beginning is kept for its next one. -/
def Sys2Proof.Claims.leftAt (r : Nat) (c : Context) (T : DdTable) (s : State) : State :=
  s.modCtx c.attr.asid (fun y => { y with
    dd := some { T with quota := none, kept := if detOn s (s.region r) = true then c.dd.map (fun U => U.kept.getD U.cache) else none } })
/-- The engine reads what it needs of the table's tiles, and the weights of a DDWCOUNT, and makes `o` of the operands, in the state `s2`. -/
def Sys2Proof.Claims.DdMade (c : Context) (r op fn a b cc rcd : Nat) (s : State) (o : DdOut) (s2 : State) : Prop :=
  ∃ s1, ddFetch c r s = .ok () s1 ∧
    (if op = 0xE7 then ddWeighted c r a b cc s1 = .ok o s2
     else s2 = (ddQuota op s1).2 ∧ o = ddRun op fn a b cc rcd (c.inHand (ddQuota op s1).1))
/-- The decision-diagram engine performs commands: In a running region whose context has budget, no soft error being present, a command that
arrives is accepted behind those accepted before it (log 61), and one that has its turn has its tiles and weights read and is performed on
the context's table, to its end or as far as the engine takes it now: its results land, it is charged one unit, its table is kept - or
written back first where that succeeds -, a full table traps its slot, a command left keeps its insertions and has its turn again, in
deterministic mode from the cache with which it began, an error is DD_ERROR, and a DDENUM has its beats to push, which leave one by one; a
batch's entry that has its turn does the same, writes its result at memory, the last one finishing the node, and a full table, an error or a
DDWCOUNT with a misaligned table of it stops. How far a command goes before it is left, and when an entry has its turn beside commands and
other batches (log 64), which node an error names where several qualify (log 34), and which tiles are read and whether they are written back
(log 35) are the model's choices. (17_die_decision_diagram_engine.md R351 R355 R359 to R363 R369 R370 R377 to R381) -/
def Obligations.DiagramEvents : Prop :=
  (∀ (r k i : Nat) (x : DdCmd) (c : Context) (s : State), DdTurn r k i x c s →
    (x.taken = false → detOn s (s.region r) = false → ddBehind (s.region r) i x = false →
      ∀ t, Gives (.ddeCommandPerform r k) (reached r x s) t → Gives (.ddeCommandPerform r k) s t) ∧
    (x.taken = true ∨ detOn s (s.region r) = true → x.result = none → hasBudget r s = true → ddReady s (s.region r) i x = true →
      ∀ o s2, DdMade c r x.op x.fn x.a.toNat x.b.toNat x.c.toNat x.rcd.toNat s o s2 →
      (∀ vals fl T s3, o = .ok vals fl T → ddStore c r x.op x.fn T s2 = .ok () s3 →
        Gives (.ddeCommandPerform r k) s (endDd r x vals fl (charge r 1 (putTable c.attr.asid T s3)))) ∧
      (∀ ones l T, o = .stream ones l T →
        ∃ t, Gives (.ddeCommandPerform r k) s t ∧ (t.region r).ddq = (s2.region r).ddq.map (fun y => if y.id = x.id then { y with beats := l, result := some ones } else y)) ∧
      (∀ T, o = .full T →
        Gives (.ddeCommandPerform r k) s (if T.left then leftAt r c T s2 else trapFull r x (putTable c.attr.asid T (charge r 1 s2)))) ∧
      (∀ sub field node, o = .err sub field node → Gives (.ddeCommandPerform r k) s
        (raise r { ddRec 0x09 x with address := BitVec.ofNat 64 node, d1 := BitVec.ofNat 64 (sub + field * 2 ^ 8) } s2)) ∧
      (∀ sub l, o = .errAny sub l → l ≠ [] → ∃ node ∈ l, Gives (.ddeCommandPerform r k) s
        (raise r { ddRec 0x09 x with address := BitVec.ofNat 64 node, d1 := BitVec.ofNat 64 sub } s2.draw.2))) ∧
    (∀ ones b b' rest, x.taken = true ∨ detOn s (s.region r) = true → x.result = some ones → x.beats = b :: b' :: rest → b.isData = true → (s.region r).roomOut (switchOf x.unit) 31 1 = true →
      ∃ t, Gives (.ddeCommandPerform r k) s t ∧ (t.region r).arcs = ((s.region r).pushOut (switchOf x.unit) 31 [b]).arcs ∧
        (t.region r).ddq = (s.region r).ddq.map (fun y => if y.id = x.id then { y with beats := b' :: rest } else y))) ∧
  (∀ (r n : Nat) (g : Graph) (nd : GNode) (c : Context) (e : BitVec 256) (s : State), (s.region r).halt = false → (s.region r).preempt = none →
    s.errors = [] → (s.region r).graph = some g → g.nodes[n]? = some nd → s.ctxOf (s.region r) = some c → nd.batch[nd.entered]? = some e → nd.st = .running →
    hasBudget r s = true → entryWaits s (s.region r) c n (bits e.toNat 7 0) nd = false → (detOn s (s.region r) = true → entryHeld c r n nd s = false) →
    let op := e.toNat % 256
    let v := fun lo => batchVal nd.results (e.toNat / 2 ^ lo % 2 ^ 64)
    (op = 0xE7 → v 128 % 16 ≠ 0 → Gives (.ddeBatchEntry r n) s (raise r { batchRec nd e with cause := 0x03 } s)) ∧
    ∀ o s2, (op = 0xE7 → v 128 % 16 = 0) → DdMade c r op (bits e.toNat 16 8) (v 64) (v 128) (v 192) 0 s o s2 →
      (∀ vals fl T s3 s4, o = .ok vals fl T → ddStore c r op (bits e.toNat 16 8) T s2 = .ok () s3 →
        gWrite c r (nd.arg0 + 32 * nd.aux + 8 * nd.entered) (bytesLE 8 (vals.headD 0)) (putTable c.attr.asid T s3) = .ok () s4 →
        Gives (.ddeBatchEntry r n) s ((charge r 1 s4).modGraph r (fun g =>
          let g1 := { g with nodes := listSet n { nd with entered := nd.entered + 1, midway := false, results := nd.results ++ [vals.headD 0] } g.nodes }
          if nd.batch.length ≤ nd.entered + 1 then Graph.finish n g1 else g1))) ∧
      (∀ T, o = .full T → Gives (.ddeBatchEntry r n) s
        (if T.left then (leftAt r c T s2).modGraph r (fun g => { g with nodes := listSet n { nd with midway := true } g.nodes })
         else raise r { batchRec nd e with cause := 0x08, d1 := BitVec.ofNat 64 nd.entered } (putTable c.attr.asid T s2))) ∧
      (∀ sub field node, o = .err sub field node → Gives (.ddeBatchEntry r n) s
        (raise r { batchRec nd e with cause := 0x09, address := BitVec.ofNat 64 node, d1 := BitVec.ofNat 64 (sub + field * 2 ^ 8) } s2)))

/-- The descriptor of a COLL that issues is `bs`; its context stands as `c`; its sides are `st` and `dt`, nothing of it breaks R463, and `s2` is the
state after the checks. -/
def Sys2Proof.Claims.CollGood (op : CollOp) (a : Src) (bs : List Byte) (c : Context) (s s2 : State) : Prop :=
  ∃ (e : Context) (st dt : Option Tensor) (s0 s1 : State),
    s.ctxOf s.hereR = some e ∧ (rv s a).toNat % 64 = 0 ∧ (rv s a).toNat + 64 ≤ hereSeg s ∧
    loadGWords e s.cur.region s.cur.unit (rv s a).toNat 8 s = .ok bs s0 ∧ c = Assoc.get e e.attr.asid s0.contexts ∧ chkOn s0 s0.hereR = false ∧
    collBad op (teamOf s0 c) (ofBytesLE bs) = false ∧
    collTensor c s0.cur.region (collSrc (ofBytesLE bs)) (srcCount op (teamOf s0 c) (ofBytesLE bs)) s0 = .ok st s1 ∧
    collTensor c s0.cur.region (collDst (ofBytesLE bs)) (dstCount op (teamOf s0 c) (ofBytesLE bs)) s1 = .ok dt s2 ∧
    (srcCount op (teamOf s0 c) (ofBytesLE bs) ≠ 0 →
      collSideBad s0.hereR (collFmt (ofBytesLE bs)) (collSrc (ofBytesLE bs)) (srcCount op (teamOf s0 c) (ofBytesLE bs)) st = false) ∧
    (dstCount op (teamOf s0 c) (ofBytesLE bs) ≠ 0 →
      collSideBad s0.hereR (collFmt (ofBytesLE bs)) (collDst (ofBytesLE bs)) (dstCount op (teamOf s0 c) (ofBytesLE bs)) dt = false) ∧
    collMeet (collFmt (ofBytesLE bs)) (collSrc (ofBytesLE bs)) (srcCount op (teamOf s0 c) (ofBytesLE bs)) (collDst (ofBytesLE bs))
      (dstCount op (teamOf s0 c) (ofBytesLE bs)) = false
/-- A collective has been accepted behind those before it. -/
def Sys2Proof.Claims.CollQueued (op : CollOp) (tree : Bool) (d : Reg) (bs : List Byte) (c : Context) (s t : State) : Prop :=
  ∃ x, t.hereR.colls = s.hereR.colls ++ [x] ∧ x.op = op ∧ x.tree = tree ∧ x.desc = BitVec.ofNat 512 (ofBytesLE bs) ∧ x.seq = c.collSeq ∧
    x.unit = s.cur.unit ∧ x.slot = s.cur.slot ∧ x.started = false ∧ x.inbox = c.early.filter (fun b => decide (b.seq = c.collSeq)) ∧ (d ≠ 0 → t.here.fill d = .pending) ∧ t.here.pc = s.here.pc + 1 ∧
    t.smem = s.smem ∧ t.lmem = s.lmem ∧ t.tmem = s.tmem ∧
    (∀ c3, Assoc.find c.attr.asid s.contexts = some c3 → Assoc.find c.attr.asid t.contexts = some
      { c3 with collSeq := c3.collSeq + 1, early := c3.early.filter (fun b => decide (b.seq ≠ c3.collSeq)) })
/-- What a COLL word with a descriptor does. -/
def Sys2Proof.Claims.CollWord (i : Instr) (op : CollOp) (tree : Bool) (d : Reg) (a : Src) (s : State) : Prop :=
  (s.errors = [] →
    (∀ bs c s2 y l, CollGood op a bs c s s2 → s2.hereR.colls = y :: l → y.started = true → y.inbox = [] → l.length < 3 →
      ∃ t, Gives i s t ∧ CollQueued op tree d bs c s2 t) ∧
    (∀ bs c s2, CollGood op a bs c s s2 → s2.hereR.colls = [] → ∃ t0, CollQueued op tree d bs c s2 t0 ∧
      Gives i s (goColls s2.cur.region c 9 t0) ∧
      (∀ x l s3, t0.hereR.colls = [x] → t0.hereR.halt = false → t0.hereR.preempt = none → cutOff t0 c x = none → (∀ b ∈ x.inbox, b.terms = collTerms x) →
        readElems c s2.cur.region (collFmt (ofBytesLE bs)) (collSrc (ofBytesLE bs)) (srcCount op (teamOf t0 c) (ofBytesLE bs)) 0 t0 = .ok l s3 →
        goColls s2.cur.region c 9 t0 = goColls s2.cur.region c 8 (commitColl s2.cur.region c (teamOf t0 c)
          (x.inbox.foldl (collTake (teamOf t0 c) (regionSeed s2.cur.region s3)) (collBegin (teamOf t0 c)
            (regionSeed s2.cur.region s3) (CollWork.tell (teamOf t0 c) { x := { x with started := true, src := l, inbox := [] }, writes := [], out := [] }))) s3)))) ∧
  (∀ bs c s2, s.errors = [] → CollGood op a bs c s s2 → 4 ≤ s2.hereR.colls.length → Gives i s (park .colls s2)) ∧
  ((rv s a).toNat % 64 ≠ 0 → Gives i s (raise s.cur.region (collIssueRec 0x03 (rv s a) (curWord s) 0 s) s)) ∧
  ((rv s a).toNat % 64 = 0 → hereSeg s < (rv s a).toNat + 64 →
    Gives i s (raise s.cur.region (collIssueRec 0x04 (rv s a) (curWord s) (BitVec.ofNat 64 (hereSeg s)) s) s)) ∧
  (∀ c bs s1, s.errors = [] → s.ctxOf s.hereR = some c → (rv s a).toNat % 64 = 0 → (rv s a).toNat + 64 ≤ hereSeg s →
    loadGWords c s.cur.region s.cur.unit (rv s a).toNat 8 s = .ok bs s1 → chkOn s1 s1.hereR = true →
    Gives i s (raise s1.cur.region (collIssueRec 0x06 0 (curWord s1) 0 s1) s1))
/-- COLL is accepted, waits, or is rejected at issue: Where a COLL word issues, its descriptor in the control segment is good and no soft
error being present: where the engine holds fewer than four of the context's collectives, it takes the context's next sequence number and a
place in the engine, its destination pending, and the slot goes on; into an engine that holds none the collective begins at once, its source
being read, its first beats sent and the beats that came before it taken; with four it waits. That it begins in the step that accepts it,
and reads its source there (R463 asks only that each element be read before it is written), is the model's choice (log 55). A misaligned
descriptor is SPACE, one beyond the segment SEGMENT, checking mode DETERMINISM. COLL.rank is a producer of the gang's size and the member's
rank: its destination is pending until that value lands. (23_fabric_links_collectives.md R461 to R463 R471) -/
def Obligations.CollectiveWords : Prop :=
  ∀ (g : Guard) (d : Reg) (a : Src) (s : State),
    (Issues g [a] [d] s →
      CollWord (.collReduceRing g d a) .reduce false d a s ∧ CollWord (.collReduceTree g d a) .reduce true d a s ∧
      CollWord (.collAllreduceRing g d a) .allReduce false d a s ∧ CollWord (.collAllreduceTree g d a) .allReduce true d a s ∧
      CollWord (.collGather g d a) .gather false d a s ∧ CollWord (.collScatter g d a) .scatter false d a s) ∧
    (Issues g [] [d] s →
      (∀ c, s.ctxOf s.hereR = some c → ∃ t p, Gives (.collRank g d) s t ∧ t.here.pc = s.here.pc + 1 ∧ (d ≠ 0 → t.here.fill d = .pending) ∧
        t.hereC.producers = s.hereC.producers ++ [p] ∧ p.slot = s.cur.slot ∧ p.dests = [d] ∧
        p.work = .value [BitVec.ofNat 64 ((teamOf s c).size * 2 ^ 16 + (teamOf s c).rank)] 0 false))

/-- The context `asid` is resident on region `r`, which runs, and `x` is the first of its collectives. -/
abbrev Sys2Proof.Claims.CollAt (asid r : Nat) (c : Context) (x : Coll) (l : List Coll) (s : State) : Prop :=
  Assoc.find asid s.contexts = some c ∧ c.attr.asid = asid ∧ c.attr.region = r ∧ c.st ≠ .preempted ∧ (s.region r).resident = some asid ∧ (s.region r).halt = false ∧
  (s.region r).graph.isSome = true ∧ (s.region r).colls = x :: l
/-- The element that a beat of a gather or scatter is for. -/
def Sys2Proof.Claims.blockElem (x : Coll) (b : CollMsg) : Nat := if x.op = .gather then b.src * collN x.desc.toNat + b.elem else b.elem
/-- The state in which `y` has received `b`. -/
def Sys2Proof.Claims.received (r : Nat) (y : Coll) (b : CollMsg) (s : State) : State :=
  s.modRegion r (fun R => { R with colls := R.colls.map (fun z => if z.id = y.id then { y with inbox := y.inbox ++ [b] } else z) })
/-- The packages of domain ranks `peers` are unreachable since the link at `port` went down. -/
def Sys2Proof.Claims.lost (port : Nat) (peers : RankList) (s : State) : State :=
  { s with linksDown := if s.linksDown.contains port then s.linksDown else port :: s.linksDown,
           unreach := s.unreach ++ (peers.filter (fun k => !s.unreach.any (fun q => decide (q.1 = k)))).map (fun k => (k, port)) }
/-- Beats, lift flits and link failures of collectives: A beat for a collective that waits for an earlier one, or of a context being
pre-empted, is kept, and so is one for a collective that this member has not issued yet, one that comes before this member's launch has
begun, and one that comes while the member's context is saved; one whose descriptor differs is SPACE; one that only tells its sender's
terms, which agree, counts its sender; a block's beat at the root of a gather, or at a member of a scatter, is written into the destination,
and the last one ends the collective, every member's terms being known, with its count and flags. A lift flit is noted by rank, before the
member's own pre-emption too, and has no effect once that is over. Of the 18 links one that goes down leaves the packages unreachable to
which no path is left; where no collective connects this member with one of those it changes that alone, and otherwise it is LINK. That
members tell one another their terms in a beat of its own, and that a collective ends only once every member's are known, are the model's
choices (log 55), as is that beats before a launch and of a saved context are kept; so is what a link's loss does here (log 56).
(01_zhevman_at_a_glance.md R14, 23_fabric_links_collectives.md R463 to R471) -/
def Obligations.CollectiveEvents : Prop :=
  (∀ (asid r : Nat) (c : Context) (x : Coll) (l : List Coll) (b : CollMsg) (s : State), CollAt asid r c x l s →
    (∀ y, (x :: l).find? (fun z => decide (z.seq = b.seq)) = some y →
      ((s.region r).preempt.isSome = true ∨ (y.id ≠ x.id ∧ x.started = true ∧ x.inbox = []) → Gives (.collBeatArrival asid b) s (received r y b s))) ∧
    (x.seq = b.seq → x.started = true → x.inbox = [] → (s.region r).preempt = none →
      (b.terms ≠ collTerms x → Gives (.collBeatArrival asid b) s (raise r (collRec 0x03 x 1) (received r x b s))) ∧
      (b.terms = collTerms x → b.head = true → (x.done.length < collParts (teamOf s c) x ∨ x.heads.length + 2 < (teamOf s c).size) →
        ∃ t h, Gives (.collBeatArrival asid b) s t ∧ t.smem = s.smem ∧ t.lmem = s.lmem ∧ t.tmem = s.tmem ∧ (∀ k, k ∈ h ↔ k = b.src ∨ k ∈ x.heads) ∧
          (t.region r).colls = (x :: l).map (fun z => if z.id = x.id then { x with heads := h } else z)) ∧
      (b.terms = collTerms x → b.head = false → x.op.moves = true →
        let i := blockElem x b
        let n := collParts (teamOf s c) x
        let s0 := received r x b s
        ∀ s1, writeElems c r (collFmt x.desc.toNat) (collDst x.desc.toNat) [(i, b.val.toNat)] s0 = .ok () s1 → s1.regions = s0.regions →
          Assoc.find asid s1.contexts = some c →
          (x.done.length + 1 < n ∨ x.heads.length + 1 < (teamOf s c).size →
            ∃ t, Gives (.collBeatArrival asid b) s t ∧ t.smem = s1.smem ∧ t.lmem = s1.lmem ∧ t.tmem = s1.tmem ∧
            (t.region r).colls = (x :: l).map (fun z => if z.id = x.id then { x with written := x.written + 1, done := i :: x.done } else z)) ∧
          (n ≤ x.done.length + 1 → (teamOf s c).size ≤ x.heads.length + 1 → l = [] →
            ∀ p d, (s.core r x.unit).producers.find? (fun q => decide (q.id = x.id)) = some p → p.dests = [d] → d ≠ 0 →
            ∃ t, Gives (.collBeatArrival asid b) s t ∧ t.smem = s1.smem ∧ t.tmem = s1.tmem ∧ (t.region r).colls = [] ∧
              (t.slot r x.unit p.slot).rd d = BitVec.ofNat 64 ((x.written + 1) * 2 ^ 32 + x.flags.toNat) ∧ (t.slot r x.unit p.slot).fill d = .full)))) ∧
  (∀ (asid rank r : Nat) (c : Context) (s : State), Assoc.find asid s.contexts = some c → c.attr.region = r →
    (c.st = .preempted → Gives (.liftFlitArrival asid rank) s s ∧
      ∀ b, Gives (.collBeatArrival asid b) s (s.modCtx asid (fun c => { c with early := c.early ++ [b] }))) ∧
    (c.st ≠ .preempted → (s.region r).resident = some asid → (s.region r).halt = false →
    (∀ b, (s.region r).graph = none → Gives (.collBeatArrival asid b) s (s.modCtx asid (fun c => { c with early := c.early ++ [b] }))) ∧
    (∀ b, (s.region r).graph.isSome = true → (∀ y ∈ (s.region r).colls, y.seq ≠ b.seq) → c.collSeq ≤ b.seq →
      ((s.region r).preempt.isSome = true ∨ ∀ y, (s.region r).colls.head? = some y → y.started = true ∧ y.inbox = []) →
      Gives (.collBeatArrival asid b) s (s.modCtx asid (fun c => { c with early := c.early ++ [b] }))) ∧
    (∀ p, (s.region r).preempt = some p → p.flits.contains rank = false →
      ∃ t, Gives (.liftFlitArrival asid rank) s t ∧ (t.region r).preempt = some { p with flits := rank :: p.flits } ∧ t.contexts = s.contexts) ∧
    (∀ gid G, (s.region r).preempt = none → c.gang = some gid → Assoc.find gid s.gangs = some G → G.lifts.contains rank = false →
      ∃ t, Gives (.liftFlitArrival asid rank) s t ∧ Assoc.find gid t.gangs = some { G with lifts := rank :: G.lifts } ∧ t.regions = s.regions))) ∧
  (∀ (port : Nat) (peers : RankList) (s : State), (18 ≤ port → Gives (.linkDown port peers) s s) ∧
    (port < 18 →
      let s1 := lost port peers s
      ((∀ q ∈ s.regions, ∀ c, s.ctxOf (s.region q.1) = some c → ∀ x ∈ (s.region q.1).colls, cutOff s1 c x = none) → Gives (.linkDown port peers) s s1) ∧
      (∀ r R x l c rank p, s.regions = [(r, R)] → R.colls = x :: l → s.ctxOf R = some c → cutOff s1 c x = some (rank, p) →
        Gives (.linkDown port peers) s
          (raise r { collRec 0x20 x (BitVec.ofNat 64 p) with address := 0, d0 := BitVec.ofNat 64 rank } s1))))

/-- What both forms do with the record `bs` once the publish is over. -/
def Sys2Proof.Claims.Submits (i : Instr) (q : Bool) (d : Reg) (c : Context) (bs : List Byte) (s s1 : State) : Prop :=
  let y : Record := { data := BitVec.ofNat 512 (ofBytesLE bs), asid := c.attr.asid, st := .queued }
  let l := bits (ofBytesLE bs % 2 ^ 512) 66 64
  (detOn s1 s1.hereR = false → chkOn s1 s1.hereR = false →
    ((s1.hereR.level l).length < 32 → ∃ t, Gives i s t ∧ t.hereR.level l = s1.hereR.level l ++ [y] ∧
      (∀ m, m ≠ l → t.hereR.level m = s1.hereR.level m) ∧ t.here.pc = s1.here.pc + 1 ∧ (d ≠ 0 → t.here.rd d = 0)) ∧
    (32 ≤ (s1.hereR.level l).length → (q = false → Gives i s (park (.level l) s1)) ∧ (q = true → Gives i s (done d 1 s1)))) ∧
  (∀ g, detOn s1 s1.hereR = true ∨ chkOn s1 s1.hereR = true → s1.hereR.graph = some g →
    (g.heldNodes.length + g.heldTasks.length < 32 → ∃ t, Gives i s t ∧ t.here.pc = s1.here.pc + 1 ∧ (d ≠ 0 → t.here.rd d = 0) ∧
      t.hereR.graph = some { g with heldTasks := g.heldTasks ++ [(issuerOf s1.cur.unit (if isCtl s1.cur.unit then 0 else s1.cur.slot), y)] }) ∧
    (32 ≤ g.heldNodes.length + g.heldTasks.length → Gives i s (failSpace 0 s1)))
/-- What one form of GLAUNCH does. -/
def Sys2Proof.Claims.LaunchWord (i : Instr) (q : Bool) (d : Reg) (a : Src) (s : State) : Prop :=
  let off := (rv s a).toNat
  ((off % 64 ≠ 0 ∨ hereSeg s < off + 64) → Gives i s (failSpace (rv s a) s)) ∧
  (off % 64 = 0 → off + 64 ≤ hereSeg s →
    (s.here.prog ≠ .published → Gives i s (beginPublish .region .publish s)) ∧
    (∀ c bs s1, s.here.prog = .published → s.ctxOf s.hereR = some c → gRead c s.cur.region off 64 s = .ok bs s1 → s1.cur = s.cur → Submits i q d c bs s s1))
/-- GLAUNCH submits a launch record: Where the word issues on an aligned record within the segment, it first publishes the core's buffer at
region scope; then, outside deterministic and checking mode, the record joins its level, tagged with the context, and the word completes
with 0; a full level lets GLAUNCH wait and GLAUNCH.q complete with 1. In those modes the graph holds the record, up to 32 of them. A
misaligned or too high offset is SPACE. (15_die_scheduling_quiescence.md R302 R303) -/
def Obligations.GraphWords : Prop :=
  ∀ (g : Guard) (d : Reg) (a : Src) (s : State), Issues g [a] [d] s → LaunchWord (.glaunch g d a) false d a s ∧ LaunchWord (.glaunchQ g d a) true d a s

/-- A region with nothing under way. -/
abbrev Sys2Proof.Claims.IdleRegion (R : Region) : Prop :=
  R.w ≠ 0 ∧ R.inService = true ∧ R.graph = none ∧ R.halt = false ∧ R.phase = .none ∧ R.preempt = none
/-- Level `l` is the one that R293 names. -/
abbrev Sys2Proof.Claims.NamedLevel (s : State) (R : Region) (l : Nat) : Prop :=
  l < 8 ∧ ((16 ≤ R.starved l ∧ ∀ m < 8, l < m → (levelHead s R m).isSome = true → R.starved m < 16) ∨
    (∀ m < 8, (levelHead s R m).isSome = true → R.starved m < 16 ∧ m ≤ l))
/-- The state in which the sequencer checks record `x`, whose context is in no gang. -/
def Sys2Proof.Claims.takenRecord (r : Nat) (x : Record) (s : State) : State :=
  (s.modCtx x.asid (fun c => { c with st := .resident, seed := BitVec.ofNat 64 (recSeed x.data.toNat), collSeq := 0 })).modRegion r (fun R =>
    { R with col := { R.col with required := recColreq x.data.toNat, nonce := recColreq x.data.toNat } })
/-- The record is rejected at node `pos` (0xFFFF: none) for `sub`, in the state `s1` of the checks. -/
def Sys2Proof.Claims.Rejected (r : Nat) (x : Record) (pos sub : Nat) (s s1 : State) : Prop :=
  Gives (.schedulerSelect r) s (raise r (rejectGraph pos sub) (setGraph r (some (Graph.begin .selected x [] [] s.time)) s1))
/-- Node `n` of graph `g` on region `r`, running for the context `c`. -/
abbrev Sys2Proof.Claims.NodeOf (r n : Nat) (g : Graph) (x : GNode) (c : Context) (s : State) : Prop :=
  (s.region r).graph = some g ∧ s.ctxOf (s.region r) = some c ∧ g.nodes[n]? = some x ∧ seqRuns (s.region r) = true
/-- Selecting a record, and the course of a graph: An idle region takes the first selectable record of the level that R293 names; once
nothing is due for it, a record that passes the checks of R296 begins its graph, in colophon wait where it requires a colophon that is not
yet written, and one that does not is rejected. A ready copy node takes an engine and its descriptor, a successor launch appends its record
or has it held; a finished graph appends what it held and writes its completion record; one whose watchdog has expired stops with WATCHDOG,
cause 0x19, kind 7, unit 0, its position the configuration sequence number, its details the budget and the lowest-numbered node that has not
finished (R424); run 2 of checking mode follows run 1. The order of the checks of the record, its list, its nodes and the whole graph, of
which R296 names none, is the model's choice (log 22). (15_die_scheduling_quiescence.md R293 R299 to R303 R305 R312,
20_package_contexts_faults_preemption.md R424) -/
def Obligations.Scheduling : Prop :=
  (∀ (r : Nat) (s : State), IdleRegion (s.region r) →
    (∀ l x, (s.region r).pending = none → gangRecord s r (s.region r) = none → NamedLevel s (s.region r) l → levelHead s (s.region r) l = some x →
      ∃ t, Gives (.schedulerSelect r) s t ∧ (t.region r).level l = ((s.region r).level l).erase x ∧
        (t.region r).pending = some (if x.st = .preempted then x else { x with st := .selected }) ∧ t.contexts = s.contexts ∧
        (∀ m < 8, m < l → (levelHead s (s.region r) m).isSome = true → (t.region r).starved m = (s.region r).starved m + 1) ∧
        (16 ≤ (s.region r).starved l → (t.region r).starved l = 0) ∧ (levelHead s (t.region r) l = none → (t.region r).starved l = 0)) ∧
    (∀ x c, (s.region r).pending = some x → Assoc.find x.asid s.contexts = some c → (s.region r).scrubDue = false →
      x.st = .selected → (s.region r).resident = some x.asid → c.gang = none →
      let d := x.data.toNat
      let s0 := takenRecord r x s
      (∀ sub, recordBad c d = some sub → Rejected r x 0xFFFF sub s s0) ∧
      (recordBad c d = none →
        (∀ sub s1, readList c r d s0 = .ok (.inl sub) s1 → Rejected r x 0xFFFF sub s s1) ∧
        (∀ outs s1, readList c r d s0 = .ok (.inr outs) s1 →
          (∀ e s2, readNodes c r d 0 (recNodes d) s1 = .ok (.inl e) s2 → Rejected r x e.1 e.2 s s2) ∧
          (∀ nodes s2, readNodes c r d 0 (recNodes d) s1 = .ok (.inr nodes) s2 →
            (∀ e, wholeBad nodes = some e → Rejected r x e.1 e.2 s s2) ∧
            (wholeBad nodes = none → ∃ t, Gives (.schedulerSelect r) s t ∧ t.contexts = s2.contexts ∧ (t.region r).pending = none ∧
              (t.region r).graph = some (Graph.begin (if recColreq d && (s2.region r).colJob.isSome then .colophonWait else .running) x nodes outs s2.time) ∧
              (recSpSize d ≠ 0 → (recSpBase d, recSpSize d) ∈ (t.region r).spills))))))) ∧
  (∀ (r n : Nat) (g : Graph) (x : GNode) (c : Context) (s : State), NodeOf r n g x c s →
    (g.mayStart (detOn s (s.region r)) n = true →
      (∀ bs s1, x.kind = 1 → gRead c r x.arg0 64 s = .ok bs s1 → s1.regions = s.regions →
        ∃ t y, Gives (.graphNodeStart r n) s t ∧ (t.region r).copies = (s.region r).copies ++ [y] ∧ y.desc = BitVec.ofNat 512 (ofBytesLE bs) ∧
          y.node = some n ∧ y.started = false ∧ (t.region r).graph = some (g.start n)) ∧
      (x.kind = 3 → ∃ t, Gives (.graphNodeStart r n) s t ∧ (t.region r).graph = some (g.start n) ∧ t.contexts = s.contexts)) ∧
    (∀ bs s1, x.kind = 3 → x.st = .running → gRead c r x.arg0 64 s = .ok bs s1 → s1.regions = s.regions →
      let y : Record := { data := BitVec.ofNat 512 (ofBytesLE bs), asid := c.attr.asid, st := .queued }
      let l := bits (ofBytesLE bs % 2 ^ 512) 66 64
      (detOn s (s.region r) = true ∨ chkOn s (s.region r) = true →
        ∃ t, Gives (.successorLaunch r n) s t ∧ (t.region r).graph = some (Graph.finish n { g with heldNodes := g.heldNodes ++ [(n, y)] }) ∧
          (t.region r).levels = (s.region r).levels) ∧
      (detOn s (s.region r) = false → chkOn s (s.region r) = false →
        (((s.region r).level l).length < 32 → ∃ t, Gives (.successorLaunch r n) s t ∧ (t.region r).graph = some (g.finish n) ∧
          (t.region r).level l = (s.region r).level l ++ [y]) ∧
        (32 ≤ ((s.region r).level l).length → Gives (.successorLaunch r n) s s1)))) ∧
  (∀ (r : Nat) (g : Graph) (c : Context) (s : State), (s.region r).graph = some g → s.ctxOf (s.region r) = some c →
    ((s.region r).halt = false → g.expired s.time = true → ∃ t k, Gives (.watchdog r) s t ∧ (t.region r).halt = true ∧
      (t.region r).raised.map (fun x => (x.cause, x.kind, x.unit, x.position, x.d0, x.d1)) =
        [(0x19, 7, 0, BitVec.ofNat 64 (g.loads - 1), BitVec.ofNat 64 (recWdog g.rcd.data.toNat), BitVec.ofNat 64 k)] ∧
      ∀ n x, g.nodes[n]? = some x → x.st ≠ .finished → (∀ m < n, ∀ y, g.nodes[m]? = some y → y.st = .finished) → k = n) ∧
    (seqRuns (s.region r) = true → (∀ x ∈ g.nodes, x.st = .finished) → g.load = none → g.expired s.time = false →
      (g.run = 0 → g.digests1 = [] → g.digests = [] →
        (∀ n x, g.heldNodes = [] → g.heldTasks = [(n, x)] →
          (((s.region r).level (bits x.data.toNat 66 64)).length < 32 →
            ∃ t, Gives (.graphComplete r) s t ∧ (t.region r).level (bits x.data.toNat 66 64) = (s.region r).level (bits x.data.toNat 66 64) ++ [x] ∧
              (t.region r).graph = some { g with heldTasks := [], closing := true }) ∧
          (32 ≤ ((s.region r).level (bits x.data.toNat 66 64)).length → Gives (.graphComplete r) s s)) ∧
        (∀ s2, g.heldNodes = [] → g.heldTasks = [] → recChk g.rcd.data.toNat = false →
          gWrite c r (recDone g.rcd.data.toNat) (bytesLE 32 (g.flags.toNat * 2 ^ 16 + recTag g.rcd.data.toNat * 2 ^ 32 + g.loads % 2 ^ 64 * 2 ^ 64
            + s.time % 2 ^ 64 * 2 ^ 128)) (writeThrough r s) = .ok () s2 →
          ∃ t, Gives (.graphComplete r) s t ∧ (t.region r).graph = none ∧ (t.region r).doneRec = some { g.rcd with st := .done } ∧ t.tmem = s2.tmem ∧ Assoc.get 0 0 (t.func c.attr.func).msix =
            Assoc.get 0 0 ((writebackKey c.keyId s2).func c.attr.func).msix + 1)) ∧
      (∀ a, g.run = 1 → (s.region r).resident = some a → c.dd = none → (s.region r).spills = [] → ∃ t g2, Gives (.checkRun2Start ⟨r, none⟩) s t ∧ (t.region r).graph = some g2 ∧ g2.run = 2 ∧ g2.loads = 0 ∧
        g2.digests1 = g.digests ∧ g2.digests = [] ∧ g2.heldNodes = [] ∧ g2.heldTasks = [] ∧ g2.nodes.length = g.nodes.length ∧
        (∀ x ∈ g2.nodes, x.st = .waiting ∧ x.remaining = x.pred))))

/-- The course of a fabric load: A ready fabric load begins to read its image; its frames arrive one by one; at the end frame an image that
breaks no rule takes effect as a whole - each route entry with its initial beats, the plain state of the cores as loaded - and one that
breaks a rule is CONFIG_LOAD for its first failing frame. A quiescent region whose units are all empty passes its token, after which no load
is resident; one with a unit that is not empty is DEADLOCK where no copy or batch node runs or is about to start and none has overtaken a
write of the load. What counts as quiescent, that a load completes while copies of the graph run, and that DEADLOCK is withheld while copies
or batches run or are about to start (logs 24 and 25) or have overtaken the load (log 27), are the model's choices; so are which of an
image's failing frames is named and with which reason, where several qualify (log 20). (08_cluster_fabric_load.md R189 R190 R192 R204,
15_die_scheduling_quiescence.md R300 R308 to R310) -/
def Obligations.FabricLoads : Prop :=
  ∀ (r : Nat) (g : Graph) (c : Context) (s : State), (s.region r).graph = some g → s.ctxOf (s.region r) = some c → (s.region r).halt = false →
    (∀ n x, seqRuns (s.region r) = true → g.nodes[n]? = some x → x.kind = 0 → g.mayStart (detOn s (s.region r)) n = true →
      (∀ m ∈ g.ready, (g.nodes[m]?.map (fun y => y.kind)) = some 0 → g.mayStart (detOn s (s.region r)) m = true → m = n) →
      ∃ t, Gives (.fabricLoadStart r) s t ∧ t.contexts = (s.modCtx g.rcd.asid (fun c => { c with lastLoad := g.loads })).contexts ∧
        (t.region r).graph = some { g.start n with loads := g.loads + 1, load := some { node := n, base := x.arg0, frames := [] } }) ∧
    (∀ l x s1, g.load = some l → frameAt c r l l.frames.length s = .ok (some x) s1 → s1.regions = s.regions →
      (bits x 255 252 ≠ 15 → ∃ t, Gives (.configFrame r) s t ∧
        (t.region r).graph = some { g with load := some { l with frames := l.frames ++ [BitVec.ofNat 256 x] } }) ∧
      (bits x 255 252 = 15 →
        let I := imageOf l.frames
        let f : Machine.Frm := { pos := l.frames.length, x := x, k := 0 }
        let bad := firstBad (s.region r) I (bits g.bits 319 256) (bits g.bits 351 320)
        (bad = none → endReason f = none → (∀ y, g.nodes[l.node]? = some y → ∀ v ∈ y.arms, armMissing (install I (s.region r)) v = false) →
          ∃ t g2, Gives (.endFrame r) s t ∧ (t.region r).graph = some g2 ∧ g2.load = none ∧ g2.resident = some l.node ∧ g2.nodes = g.nodes ∧
            (t.region r).arcs = (install I (s.region r)).arcs ∧ t.smem = s1.smem ∧ t.lmem = s1.lmem ∧ (t.region r).bars = [] ∧ (t.region r).phases = []) ∧
        (∀ q k, bad = some (q, k) → Gives (.endFrame r) s (raise r (rejectFrame I q k) s1)) ∧
        (∀ k, bad = none → endReason f = some k → Gives (.endFrame r) s (raise r (rejectFrame I f k) s1)))) ∧
    (∀ n, g.resident = some n → (s.region r).preempt = none → quiescent r s = true →
      (∀ s1, blockedUnits (s.region r) = [] → c.dd = none → ringRanges (s.region r) g = [] → pendingSeed (s.region r) = none →
        publishCores r (coreUnits (s.region r)) s = .ok () s1 → (s1.region r).graph = some g → Assoc.find c.attr.asid s1.contexts = some c →
        ∃ t, Gives (.blotterQuiescence r) s t ∧ (t.region r).tbars = [] ∧
          (t.region r).graph = some (Graph.finish n { g with resident := none, ahead := [], flags := g.flags ||| loadFlags (s.region r), spared := g.spared || g.justInTime s.time n })) ∧
      (blockedUnits (s.region r) ≠ [] → (∀ x ∈ (s.region r).copies, x.node = none) → g.nodes.any batchRuns = false → g.startsMore (detOn s (s.region r)) = false →
        loadOvertaken r n s = false →
        Gives (.blotterQuiescence r) s (raise r { recOf 0x18 11 0 with
          position := BitVec.ofNat 64 (g.loads - 1), d0 := BitVec.ofNat 64 (blockedUnits (s.region r)).length } s)))

/-- Region `r` has halted with the context `c` on it. -/
abbrev Sys2Proof.Claims.StopAt (r : Nat) (c : Context) (ph : StopPhase) (s : State) : Prop :=
  (s.region r).halt = true ∧ s.ctxOf (s.region r) = some c ∧ (s.region r).phase = ph
/-- Region `r` and its clusters are out of service in `t`, after `s`. -/
def Sys2Proof.Claims.OutOfService (r : Nat) (s t : State) : Prop :=
  let R := s.region r
  t.region r = { R with inService := false } ∧ (∀ i j, i < R.pw → j < R.ph → 16 * (R.x + i) + (R.y + j) ∈ t.retired) ∧ (∀ q ∈ s.retired, q ∈ t.retired) ∧
  t.contexts = s.contexts
/-- From a fatal stop to the release of the region: Once a halted region's records and header are written at memory, the stop is recorded,
and without a dump the context is stopped; a dump that is written, or breaks off, stops it too; the whitewash load then discards all that is
left in the region, the completion record, with the flags of the resident load too, and the number of streams where the stop is a checking
mismatch, being written where there is a place for it; an empty region is scrubbed and released, its context created again, or leaves
service where a class cannot be cleared; after 200 microseconds without that report it and its clusters leave service.
(15_die_scheduling_quiescence.md R305, 19_package_sealed_memory_scrub.md R407, 20_package_contexts_faults_preemption.md R415 to R427) -/
def Obligations.Stops : Prop :=
  ∀ (r : Nat) (c : Context) (s : State),
    (StopAt r c .halted s → c.dd = none → (∀ i, c.image = some i → i.st ≠ 2) →
      let R := s.region r
      let n := (stopRecords R).length
      let report := if primaryCause R = 0x18 then 64 + 64 * n else 0
      ∀ s0 s1 c1, gWriteLines c r (c.attr.stopOff + 64) (stopLines R c) s = .ok () s0 →
        gWriteLines c r c.attr.stopOff [bytesLE 64 (n + primaryCause R * 2 ^ 64 + c.lastLoad % 2 ^ 32 * 2 ^ 96 + R.haltTime % 2 ^ 64 * 2 ^ 128 + report * 2 ^ 192)] s0 = .ok () s1 →
        Assoc.find c.attr.asid s1.contexts = some c1 →
        ∃ t, Gives (.stopRecordsWritten r) s t ∧ t.tmem = s1.tmem ∧ (t.region r).phase = .recorded ∧
          Assoc.find c.attr.asid t.contexts = some (if c1.attr.dump then c1 else { c1 with st := .stopped })) ∧
    (StopAt r c .recorded s → c.attr.dump = true → Assoc.find c.attr.asid s.contexts = some c →
      let l := sectionsOf r (s.region r) c s ++ [stopSect (s.region r) c]
      let i := makeImage r 3 (s.region r) c l s
      (∀ s1 c1, writeHeader c r { i with st := 0 } s = .ok () s1 → Assoc.find c.attr.asid s1.contexts = some c1 → ∃ t, Gives (.dumpWritten r false) s t ∧
        (t.region r).phase = .dumped ∧ t.tmem = s1.tmem ∧ Assoc.find c.attr.asid t.contexts = some { c1 with st := .stopped, image := some { i with st := 0 } }) ∧
      (∀ s1 c1 x, writeImage c r (s.region r) i s = .fail x s1 → Assoc.find c.attr.asid s1.contexts = some c1 → ∃ t, Gives (.dumpWritten r true) s t ∧
        (t.region r).phase = .dumped ∧ t.tmem = s1.tmem ∧ Assoc.find c.attr.asid t.contexts = some { c1 with st := .stopped, image := some { i with st := 0 } }) ∧
      (∀ s1 c1, writeImage c r (s.region r) i s = .ok () s1 → Assoc.find c.attr.asid s1.contexts = some c1 → ∃ t, Gives (.dumpWritten r true) s t ∧
        (t.region r).phase = .dumped ∧ t.tmem = s1.tmem ∧ Assoc.find c.attr.asid t.contexts = some { c1 with st := .stopped, image := some i })) ∧
    ((StopAt r c .dumped s ∨ (StopAt r c .recorded s ∧ c.attr.dump = false)) →
      (∀ g s1, (s.region r).graph = some g → doneValid c g.rcd.data.toNat = true →
        let k := primaryCause (s.region r)
        gWrite c r (recDone g.rcd.data.toNat) (completionBytes (g.flagged (s.region r)) (if k = 0x07 then 2 else 1) k
          (if k = 0x07 then (streamKeys g).length else 0) s.time) s = .ok () s1 →
        ∃ t, Gives (.whitewashLoad r) s t ∧ t.tmem = s1.tmem ∧ (t.region r).phase = .whitewash s.time ∧ (t.region r).graph = none ∧
          (t.region r).arcs = [] ∧ (t.region r).flying = [] ∧ (t.region r).copies = [] ∧ (t.region r).atomics = [] ∧ (t.region r).ddq = [] ∧ (t.region r).colls = [] ∧
          (t.region r).publishes = [] ∧ (t.region r).ags = [] ∧ (t.region r).mxs = [] ∧ (t.region r).coats = [] ∧ (t.region r).cores = [] ∧
          (∀ e ∈ t.faults, e.asid ≠ c.attr.asid)) ∧
      ((s.region r).graph = none → ∃ t, Gives (.whitewashLoad r) s t ∧ t.tmem = s.tmem ∧ (t.region r).phase = .whitewash s.time ∧ (t.region r).copies = [])) ∧
    (∀ t0, (s.region r).phase = .whitewash t0 → (s.region r).inService = true →
      (∀ a, (s.region r).resident = some a → Assoc.find a s.contexts = some c → c.st = .stopped → c.dd = none → (s.region r).spills = [] →
        ∃ t c1, Gives (.regionRelease ⟨r, none⟩) s t ∧ (t.region r).resident = none ∧ (t.region r).halt = false ∧ (t.region r).phase = .none ∧
          (t.region r).levels = (s.region r).levels ∧ (∀ x, r * 2 ^ 40 ≤ x → x < (r + 1) * 2 ^ 40 → t.smem.read x = 0 ∧ t.lmem.read x = 0) ∧
          Assoc.find a t.contexts = some c1 ∧ c1.st = .created) ∧
      (∀ k, ∃ t, Gives (.regionRelease ⟨r, some k⟩) s t ∧ OutOfService r s t ∧ t.notices = s.notices ++ [.outOfService r, .scrubFailed r k]) ∧
      (t0 + 200000 ≤ s.time → ∃ t, Gives (.whitewashTimeout r) s t ∧ OutOfService r s t ∧ t.notices = s.notices ++ [.outOfService r]) ∧
      (s.time < t0 + 200000 → Gives (.whitewashTimeout r) s s))

/-- The parts of the sections of an image with the header `h` that stands in memory as `bs`, each with its offset. -/
def Sys2Proof.Claims.imageParts (i : SaveImage) (h : Nat) (bs : List Byte) : List (Nat × Part) :=
  (((List.range (bits h 159 128)).map (fun k => bits (entryAt bs k) 95 64)).zip i.sects).flatMap (fun q => partsFrom (q.1 + 16) q.2.items)
/-- The image's first tile reads as `front` in `s0`, and the header that stands there is `h`. -/
def Sys2Proof.Claims.HeaderRead (r : Nat) (c : Context) (front : List Byte) (h : Nat) (s s0 : State) : Prop :=
  readArea c r 1 0 s = .ok front s0 ∧ h = ofBytesLE (front.take 64)
/-- The image of a pre-empted context, whose header is `h`, stands in memory as `bs`, nothing of it is damaged, the configuration image that its header
names is `I`, and all is read in `s2`. -/
def Sys2Proof.Claims.Verified (r : Nat) (x : Record) (c : Context) (i : SaveImage) (h : Nat) (bs : List Byte) (I : Image) (s s2 : State) : Prop :=
  ∃ front s0 s1, HeaderRead r c front h s s0 ∧ headDamage (s0.region r) c h = none ∧ readArea c r ((bits h 127 64 + 4095) / 4096) 0 s0 = .ok bs s1 ∧
    let n := bits h 159 128
    let es := (List.range n).map (entryAt bs)
    64 + 16 * n ≤ bits h 127 64 ∧ tableDamage (bits h 127 64) es = none ∧
    placeDamage (i.sects.map Sect.key) (es.map entryKey) = none ∧
    (∀ q ∈ (es.zip i.sects).zipIdx, sectionDamage bs q.2 (bits q.1.1 95 64) (bits q.1.1 127 96) q.1.2 = none) ∧
    ((bits h 287 256 = 0xFFFFFFFF ∧ I = imageOf [] ∧ s2 = s1) ∨
     (bits h 287 256 ≠ 0xFFFFFFFF ∧ ∃ fs e, readFrames c r (bits h 383 320) (segSize c / 32) 0 s1 = .ok (some (fs, e)) s2 ∧
        configDamage (s2.region r) x.data.toNat (some (fs, e)) = none ∧ I = imageOf fs)) ∧
    panelDamage i (es.map (fun e => bits e 95 64)) (imageParts i h bs) bs = none
/-- Gate-and-mark pre-emption and restore: A unit with a lift marker at every input saves, and a stream source also injects a marker; where
nothing can move, the units that hold a marker save without the rest, once an atomic with a destination that is still held for its key order
has been performed; once all have saved, nothing is in flight and its collectives are lifted, no soft error being present, the image is
written, the record goes back to the head of its level and the context is pre-empted. A selected pre-empted record whose image is intact has
its configuration image take effect again and its saved state laid over it, memory first; one that cannot be read, or whose header is
damaged, stops as R439 says. That all units save where none of them holds a marker, and that the held atomics are then performed in key
order, is the model's choice (log 51); so is the reading of the header's tile before the rest (log 53). (11_cluster_matrix_unit.md R283,
20_package_contexts_faults_preemption.md R428 to R432 R437 to R439) -/
def Obligations.Preemption : Prop :=
  (∀ (r : Nat) (nd : NodeRef) (p : Preempt) (s : State), (s.region r).preempt = some p → marking (s.region r) = true → (unsaved (s.region r)).contains nd = true →
    liftReady r s nd = true → s.errors = [] → ∃ t, Gives (.liftMarkerSave r nd) s t ∧ (t.region r).preempt = some { p with saved := nd :: p.saved } ∧ t.contexts = s.contexts ∧
      (∀ u q, nd = .port u q → (t.region r).arcs = ((s.region r).pushOut u q [liftBeat]).arcs)) ∧
  (∀ (r : Nat) (s : State), marking (s.region r) = true → unsaved (s.region r) ≠ [] → settled r s = true → unitsStill r s = true →
    (unsaved (s.region r)).any (liftReady r s) = false →
    (∀ a, forcedAtomic (s.region r) = some a → hasBudget r s = true → Gives (.forcedMarker r) s (atomPerform r a s)) ∧
    (forcedAtomic (s.region r) = none → s.errors = [] → ∃ t p, Gives (.forcedMarker r) s t ∧ (t.region r).preempt = some p ∧
      ∀ nd ∈ unsaved (s.region r), (holdsLift (s.region r) nd = true ∨ ∀ m ∈ unsaved (s.region r), holdsLift (s.region r) m = false) → nd ∈ p.saved)) ∧
  (∀ (r : Nat) (g : Graph) (c : Context) (p : Preempt) (s : State), (s.region r).preempt = some p → (s.region r).graph = some g → s.ctxOf (s.region r) = some c →
    marking (s.region r) = true → unsaved (s.region r) = [] → settled r s = true → collsParked s (s.region r) c p = true → c.dd = none → s.errors = [] →
    let B := (s.region r).parked s.time
    let l := sectionsOf r B c s
    let i := makeImage r (if p.migrate then 2 else 1) B c l s
    ∀ s2 c2, writeImage c r B i s = .ok () s2 → Assoc.find c.attr.asid s2.contexts = some c2 → ∃ t, Gives (.saveImageComplete r) s t ∧
      (t.region r).graph = none ∧ (t.region r).preempt = none ∧ t.tmem = s2.tmem ∧ (∀ e ∈ t.faults, e.asid ≠ c.attr.asid) ∧
      (t.region r).level (recLevel g.rcd.data.toNat) = { g.rcd with st := .preempted } :: (s2.region r).level (recLevel g.rcd.data.toNat) ∧
      Assoc.find c.attr.asid t.contexts = some { c2 with st := .preempted, image := some i }) ∧
  (∀ (r : Nat) (x : Record) (c : Context) (i : SaveImage) (s : State), (s.region r).pending = some x → Assoc.find x.asid s.contexts = some c → c.image = some i →
    x.st = .preempted → c.st = .preempted → c.attr.asid = x.asid → (s.region r).scrubDue = false → (s.region r).colJob = none → (s.region r).inService = true → (s.region r).halt = false →
    (s.region r).graph = none → (s.region r).resident = some x.asid → c.gang = none →
    (∀ k s1, readArea c r 1 0 s = .miss k s1 → Gives (.restore r) s (damage r x c (damageAt i (k * 4096) 6) s1)) ∧
    (∀ front h s0, HeaderRead r c front h s s0 →
      (∀ e, headDamage (s0.region r) c h = some e → Gives (.restore r) s (damage r x c e s0)) ∧
      (∀ k s1, headDamage (s0.region r) c h = none → readArea c r ((bits h 127 64 + 4095) / 4096) 0 s0 = .miss k s1 →
        Gives (.restore r) s (damage r x c (damageAt i (k * 4096) 6) s1))) ∧
    (∀ h bs I s2, Verified r x c i h bs I s s2 →
      Gives (.restore r) s (resume r x c i I (imageParts i h bs) bs s2) ∧
      (i.waits = [] → i.body.colls = [] → ∀ c2, Assoc.find x.asid s2.contexts = some c2 →
        ∃ t, Gives (.restore r) s t ∧ t.smem = (layMemories r i (imageParts i h bs) bs s2).smem ∧ t.lmem = (layMemories r i (imageParts i h bs) bs s2).lmem ∧
          (t.region r).cores = mergeAssoc true Core.overlay (install I (s2.region r)).cores i.body.cores ∧
          (t.region r).arcs = mergeAssoc false (fun a b => { b with route := a.route }) (install I (s2.region r)).arcs i.body.arcs ∧
          (t.region r).nodes = (install I (s2.region r)).nodes ∧ (t.region r).copies = i.body.copies ∧ (t.region r).atomics = i.body.atomics ∧
          (t.region r).ddq = i.body.ddq ∧ (t.region r).bars = i.body.bars ∧ (t.region r).tbars = i.body.tbars ∧ (t.region r).pending = none ∧
          (t.region r).resident = some x.asid ∧ (t.region r).levels = (s2.region r).levels ∧
          (t.region r).graph = i.body.graph.map (fun g => { g with rcd := { g.rcd with st := .running }, wdogAt := s2.time }) ∧
          Assoc.find x.asid t.contexts = some { c2 with st := .resident, image := none, early := c2.early.filter (fun b => decide (c2.collSeq ≤ b.seq)) })))

/-- The entry of the tile at `ptn` describes sealed contents of this version. -/
abbrev Sys2Proof.Claims.SealedAt (s : State) (ptn version : Nat) : Prop :=
  (metaOf s ptn).p = false ∧ (metaOf s ptn).z = false ∧ (metaOf s ptn).version = version
/-- Seal caches, re-keying and migration: A tile that can be opened is held after a fill, its bytes as they were where nothing outside has
changed what is stored of it; a dirty tile that is written back has its entry's version raised by one, its P and Z cleared, its bytes as
they were, and may leave the cache, unless a word of it fails its check twice over, where it is poisoned (R396); a tenant a write of whose
has raised VERSION_EXHAUSTED moves to a new key, every tile's version restarting at 0; a tile being moved is out of the cache until its move
ends at its new place, which is not one whose last version is used up, sealed at that place's next version, or poisoned there where it could
not be read back. Which version a moved tile is sealed at, and that a re-keying waits for a tile of the tenant that is being moved, is the
model's choice (log 40); so is the free choice of eviction (log 39). (16_die_copy_translation.md R329, 19_package_sealed_memory_scrub.md
R387 R390 to R400) -/
def Obligations.Tiles : Prop :=
  (∀ (asid tile ptn : Nat) (c : Context) (s s1 : State), Assoc.find asid s.contexts = some c → openTile c.keyId tile c.attr.region false false s = .ok ptn s1 →
    Gives (.sealFill asid tile) s s1 ∧ (Assoc.find ptn s1.held).isSome = true ∧ (s.spoilt = [] → s1.tmem = s.tmem)) ∧
  (∀ (tile : Nat) (p : Place) (s : State), Assoc.find tile s.places = some p →
    (∀ h, Assoc.find p.ptn s.held = some h → h.rewrite = none → h.dirty = true → (heldErrors s p.ptn 0 4096).any (fun e => e.double) = true →
      ∃ t, Gives (.sealWriteback tile) s t ∧ t.tmem = s.tmem ∧ (metaOf t p.ptn).p = true ∧ Assoc.find p.ptn t.held = none) ∧
    (∀ h, Assoc.find p.ptn s.held = some h → h.rewrite = none → (heldErrors s p.ptn 0 4096).any (fun e => e.double) = false → ∃ t, Gives (.sealWriteback tile) s t ∧ t.tmem = s.tmem ∧ t.places = s.places ∧
      (h.dirty = true → SealedAt t p.ptn (h.version + 1)) ∧
      (Assoc.find p.ptn t.held = none ∨ Assoc.find p.ptn t.held = some { h with version := if h.dirty then h.version + 1 else h.version, dirty := false })) ∧
    (p.moving = false →
      ∃ t, Gives (.tileMigrationStart tile) s t ∧ Assoc.find tile t.places = some { p with moving := true } ∧ Assoc.find p.ptn t.held = none ∧ t.tmem = s.tmem ∧
        (∀ h, Assoc.find p.ptn s.held = some h → h.rewrite = none → h.dirty = true →
          (heldErrors s p.ptn 0 4096).any (fun e => e.double) = false → SealedAt t p.ptn (h.version + 1))) ∧
    (∀ n, p.moving = true → (n < 2 ^ 29 ∨ (2 ^ 33 ≤ n ∧ n < 2 ^ 33 + 2 ^ 32)) → (∀ q ∈ s.places, q.2.ptn ≠ n) → lastVersion s n = false →
      let s0 := (fetchMeta n (fetchMeta p.ptn s).2).2
      ∃ t, Gives (.tileMigrationEnd tile n) s t ∧ Assoc.find tile t.places = some { p with ptn := n, moving := false } ∧ t.tmem = s.tmem ∧
        (lostTile s0 p.owner p.ptn tile = false → (metaOf s0 p.ptn).z = false → SealedAt t n ((metaOf s0 n).version + 1)) ∧
        (lostTile s0 p.owner p.ptn tile = true → (metaOf t n).p = true) ∧ (metaOf t p.ptn).z = true)) ∧
  (∀ (asid dev ptn k : Nat) (c : Context) (s : State), Assoc.find asid s.contexts = some c → s.rekeys.contains c.keyId = true → tilesOf s c.keyId = [(dev, ptn)] →
    freeKey s = some k → k ≠ c.keyId → (∀ q ∈ s.places, q.2.owner = c.keyId → q.2.moving = false) →
    ∃ t, Gives (.rekey asid) s t ∧ Assoc.find dev t.places = some { ptn := ptn, owner := k, moving := false } ∧ (metaOf t ptn).version = 0 ∧
      (keySlot t k).st = .active ∧ (keySlot t c.keyId).st = .free ∧ t.tmem = s.tmem ∧
      (∀ a x, Assoc.find a t.contexts = some x → ∃ y, Assoc.find a s.contexts = some y ∧ x = if y.keyId = c.keyId then { y with keyId := k } else y))

/-- Queue `q` of function `f` exists. -/
abbrev Sys2Proof.Claims.Interface (f q : Nat) : Prop := f ≤ 512 ∧ q < 8
/-- The queue stops with an error, and the function's vector 1 is raised. -/
def Sys2Proof.Claims.QueueStops (i : Instr) (f q code : Nat) (s : State) : Prop :=
  ∃ t, Gives i s t ∧ (t.func f).queue q = { (s.func f).queue q with code := code, err := true } ∧ t.regions = s.regions ∧
    Assoc.get 0 1 (t.func f).msix = Assoc.get 0 1 (s.func f).msix + 1
/-- The queue becomes `Q`, and nothing else changes. -/
def Sys2Proof.Claims.QueueIs (i : Instr) (f q : Nat) (Q : Queue) (s : State) : Prop :=
  Gives i s (s.setFunc f { s.func f with queues := Assoc.put q Q (s.func f).queues })
/-- Doorbells, queue registers and fetched records: A doorbell on a disabled or unbound queue sets dead; on one in error it does nothing; a
ring that leaves the aperture, a bad size and an index out of range are errors 1, 2 and 3, which stop the queue and raise vector 1; a
backwards or overfull index sets back; any other becomes the write index. A fetched record joins its level and the read index passes it, a
failed fetch is error 4. While a queue is enabled its base and size stand and a write sets cfgw; disabling it clears its indices, code and
error; QBASE, QCFG, QRIDX, QSTAT and QCTX read what the queue holds. That cfgw is set only by a size that differs, or by a write of QBASE,
and that disabling a queue clears its error, is the model's choice (log 48). (21_package_partitions_host.md R443 to R446) -/
def Obligations.LaunchQueues : Prop :=
  ∀ (f q : Nat) (s : State), Interface f q →
    let Q := (s.func f).queue q
    let sz := 2 ^ Q.lsz
    let out := hostRingBad (apertureOf s f) Q.base.toNat (64 * sz)
    (∀ v, let new := v % 2 ^ 17
      let occ := (new + 2 * sz - Q.ridx % (2 * sz)) % (2 * sz)
      (Q.en = false ∨ Q.ctx = none → QueueIs (.doorbellWrite f q v) f q { Q with dead := true } s) ∧
      (Q.en = true → Q.ctx ≠ none →
        (Q.err = true → Gives (.doorbellWrite f q v) s s) ∧
        (Q.err = false →
          (out = true → QueueStops (.doorbellWrite f q v) f q 1 s) ∧
          (out = false → (Q.lsz < 4 ∨ 16 < Q.lsz) → QueueStops (.doorbellWrite f q v) f q 2 s) ∧
          (out = false → 4 ≤ Q.lsz → Q.lsz ≤ 16 →
            (2 * sz ≤ new → QueueStops (.doorbellWrite f q v) f q 3 s) ∧
            (new < 2 * sz → sz < occ → QueueIs (.doorbellWrite f q v) f q { Q with back := true } s) ∧
            (new < 2 * sz → occ ≤ sz → QueueIs (.doorbellWrite f q v) f q { Q with widx := new } s))))) ∧
    (∀ a n c (rec : Fetched), Q.ctx = some (a, n) → Assoc.find a s.contexts = some c → c.gen = n → Q.en = true → Q.err = false → Q.ridx ≠ Q.widx →
      (rec.ok = false → QueueStops (.launchRecordFetch f q rec) f q 4 s) ∧
      (rec.ok = true → (s.region c.attr.region).w ≠ 0 →
        let l := bits rec.data.toNat 66 64
        (((s.region c.attr.region).level l).length < 32 → ∃ t, Gives (.launchRecordFetch f q rec) s t ∧
          (t.region c.attr.region).level l = (s.region c.attr.region).level l ++ [{ data := rec.data, asid := c.attr.asid, st := .queued }] ∧
          (t.func f).queue q = { Q with ridx := (Q.ridx + 1) % (2 * sz) } ∧ t.contexts = s.contexts) ∧
        (32 ≤ ((s.region c.attr.region).level l).length → Gives (.launchRecordFetch f q rec) s s))) ∧
    (∀ v : Word,
      (v.getLsbD 8 = false → ∃ t, Gives (.qcfgWrite f q v) s t ∧ (t.func f).queue q =
        { Q with lsz := if Q.en then Q.lsz else bits v.toNat 4 0, cfgw := if Q.en then Q.cfgw || decide (bits v.toNat 4 0 ≠ Q.lsz) else Q.cfgw,
                 en := false, ridx := 0, widx := 0, code := 0, err := false }) ∧
      (v.getLsbD 8 = true → Q.en = false → QueueIs (.qcfgWrite f q v) f q { Q with lsz := bits v.toNat 4 0, en := true } s) ∧
      (v.getLsbD 8 = true → Q.en = true → QueueIs (.qcfgWrite f q v) f q { Q with cfgw := Q.cfgw || decide (bits v.toNat 4 0 ≠ Q.lsz) } s) ∧
      QueueIs (.qstatClear f q v) f q { Q with
        back := if v.getLsbD 8 then false else Q.back, cfgw := if v.getLsbD 9 then false else Q.cfgw, dead := if v.getLsbD 10 then false else Q.dead } s ∧
      (Q.en = true → QueueIs (.hostRegisterWrite f (64 * q) v) f q { Q with cfgw := true } s) ∧
      (Q.en = false → QueueIs (.hostRegisterWrite f (64 * q) v) f q { Q with base := v } s)) ∧
    hostRegister f (64 * q) s = Q.base ∧ hostRegister f (64 * q + 8) s = BitVec.ofNat 64 (Q.lsz + (if Q.en then 256 else 0)) ∧
    hostRegister f (64 * q + 16) s = BitVec.ofNat 64 Q.ridx ∧
    hostRegister f (64 * q + 24) s = BitVec.ofNat 64 (Q.code + (if Q.back then 2 ^ 8 else 0) + (if Q.cfgw then 2 ^ 9 else 0) + (if Q.dead then 2 ^ 10 else 0)
      + (if Q.err then 2 ^ 15 else 0)) ∧
    hostRegister f (64 * q + 32) s = (match Q.ctx with
                                      | some (a, n) => BitVec.ofNat 64 (a + n * 2 ^ 16 + 2 ^ 24)
                                      | none => 0)

/-- Fault rings and the admin ring: FCFG and ACFG set a ring's size only while it is disabled, and disabling one clears its indices; FRIDX
moves only forwards and not past FWIDX; an answer to an outstanding tag withdraws the entry, and its access walks again or takes
COPY_TRANSLATION_UNRESOLVED; one that names no outstanding tag is ignored. The admin doorbell is validated as a launch queue's. FBASE and
ABASE are kept while enabled and written while disabled; a plain register write to any place but these and a queue's QBASE changes nothing,
below 0x200 too. What disabling the admin ring keeps and clears is the model's choice (log 48), and so are the fields of the record that an
abort answer raises and of a fault entry (log 49). (16_die_copy_translation.md R327, 21_package_partitions_host.md R446 R447 R449) -/
def Obligations.HostRegisters : Prop :=
  (∀ (f : Nat) (s : State), f ≤ 512 →
    let F := s.func f
    (∀ v : Word,
      (v.getLsbD 8 = true → Gives (.fcfgWrite f v) s (s.setFunc f { F with flsz := if F.fen then F.flsz else bits v.toNat 3 0, fen := true })) ∧
      (v.getLsbD 8 = false → Gives (.fcfgWrite f v) s (s.setFunc f { F with flsz := if F.fen then F.flsz else bits v.toNat 3 0, fen := false, fwidx := 0, fridx := 0 })) ∧
      (F.fen = false → Gives (.hostRegisterWrite f 0x200 v) s (s.setFunc f { F with fbase := v })) ∧
      (F.fen = true → Gives (.hostRegisterWrite f 0x200 v) s s) ∧
      (∀ off, off ≠ 0x200 → off ≠ 0x240 → (∀ q < 8, off ≠ 64 * q) → Gives (.hostRegisterWrite f off v) s s)) ∧
    (∀ v, let m := 2 ^ (F.flsz + 1)
      let new := v % 2 ^ 13
      let fwd := (new + m - F.fridx) % m
      (new < m → fwd ≤ (F.fwidx + m - F.fridx) % m → Gives (.fridxWrite f v) s (s.setFunc f { F with fridx := new })) ∧
      (m ≤ new ∨ (F.fwidx + m - F.fridx) % m < fwd → Gives (.fridxWrite f v) s s)) ∧
    (∀ tag, (∀ e ∈ s.faults, ¬ (e.func = f ∧ e.tag = tag)) → Gives (.frespRetry f tag) s s ∧ Gives (.frespAbort f tag) s s) ∧
    (∀ tag e, s.faults.find? (fun e => decide (e.func = f) && decide (e.tag = tag)) = some e →
      (∃ t, Gives (.frespRetry f tag) s t ∧ (∀ x ∈ t.faults, ¬ (x.func = f ∧ x.tag = tag)) ∧ (t.region e.region).halt = (s.region e.region).halt ∧
        (∀ x ∈ (t.region e.region).copies, x.fault ≠ some e.tag) ∧ t.tmem = s.tmem) ∧
      ((s.region e.region).halt = false → ∃ t, Gives (.frespAbort f tag) s t ∧ (t.region e.region).halt = true ∧ (∀ x ∈ t.faults, ¬ (x.func = f ∧ x.tag = tag)) ∧
        (t.region e.region).raised.map (fun x => x.cause) = [0x11]))) ∧
  (∀ (s : State),
    let A := s.admin
    let sz := 2 ^ A.lsz
    let out := hostRingBad (0, 2 ^ 64) A.base.toNat (64 * sz)
    (∀ v : Word,
      (v.getLsbD 8 = true → Gives (.acfgWrite v) s { s with admin := { A with lsz := if A.en then A.lsz else bits v.toNat 3 0, en := true } }) ∧
      (v.getLsbD 8 = false → Gives (.acfgWrite v) s
        { s with admin := { A with lsz := if A.en then A.lsz else bits v.toNat 3 0, en := false, ridx := 0, widx := 0, code := 0, err := false } }) ∧
      Gives (.astatClear v) s { s with admin := { A with back := if v.getLsbD 8 then false else A.back } } ∧
      (A.en = false → Gives (.hostRegisterWrite 0 0x240 v) s { s with admin := { A with base := v } }) ∧
      (A.en = true → Gives (.hostRegisterWrite 0 0x240 v) s s) ∧
      (∀ f, 0 < f → Gives (.hostRegisterWrite f 0x240 v) s s)) ∧
    (∀ v, let new := v % 2 ^ 13
      let occ := (new + 2 * sz - A.ridx % (2 * sz)) % (2 * sz)
      (A.en = false ∨ A.err = true → Gives (.adminDoorbell v) s s) ∧
      (A.en = true → A.err = false →
        (out = true → ∃ t, Gives (.adminDoorbell v) s t ∧ t.admin = { A with code := 1, err := true }) ∧
        (out = false → (A.lsz < 4 ∨ 12 < A.lsz) → ∃ t, Gives (.adminDoorbell v) s t ∧ t.admin = { A with code := 2, err := true }) ∧
        (out = false → 4 ≤ A.lsz → A.lsz ≤ 12 →
          (2 * sz ≤ new → ∃ t, Gives (.adminDoorbell v) s t ∧ t.admin = { A with code := 3, err := true }) ∧
          (new < 2 * sz → sz < occ → Gives (.adminDoorbell v) s { s with admin := { A with back := true } }) ∧
          (new < 2 * sz → occ ≤ sz → Gives (.adminDoorbell v) s { s with admin := { A with widx := new } })))))

/-- The request is carried out, leading to `u`, and answered; an entry that the host's memory does not give is error 4. -/
abbrev Sys2Proof.Claims.Carried (i : Instr) (x : AdminSrc) (s u : State) : Prop :=
  Gives i s (if x = .unread then adminError 4 s else adminDone x false u)
/-- It is refused, likewise. -/
abbrev Sys2Proof.Claims.Refused (i : Instr) (x : AdminSrc) (s : State) : Prop :=
  Gives i s (if x = .unread then adminError 4 s else adminDone x true s)
/-- What a context is created as. -/
def Sys2Proof.Claims.newContext (a : ContextArgs) (g : Nat) : Context :=
  { attr := a, gen := g, keyId := a.keyId, st := .created, seed := 0, budget := min a.budget a.cap, dd := none, atoms := [],
    root := a.root, lastLoad := 0xFFFFFFFF, collSeq := 0, outbox := [], early := [], image := none, gang := none }
/-- A record of the context stands in a region, or is held by its graph. -/
def Sys2Proof.Claims.keeps (asid : Nat) (R : Region) : Prop :=
  (∃ l, ∃ x ∈ R.level l, x.asid = asid) ∨ (∃ x, R.pending = some x ∧ x.asid = asid) ∨
  (∃ g, R.graph = some g ∧ ((∃ q ∈ g.heldNodes, q.2.asid = asid) ∨ ∃ q ∈ g.heldTasks, q.2.asid = asid))
/-- What the root controller does on request: A ring's entry that host memory does not give is error 4. A request that is there is carried
out, or refused for the reason its opcode has, and its entry answered: a region takes the healthy clusters of its rectangle in row-major
order; a destroyed one is gone; a context is created with its attributes, and removed with its records, bindings, fault entries and, if it
was its tenant's last, its key; queues are bound; second-stage roots are set and their cached entries dropped; a context is stopped or
pre-empted; the attestation key's certificate chain is returned. That firmware's own second-stage roots are refused and the chain is a
notice (log 46), that a binding carries the function's aperture (log 47), and that the tiles of a key that is destroyed belong to nobody
(log 45), is the model's choice. (16_die_copy_translation.md R322 R342, 20_package_contexts_faults_preemption.md R413 to R416 R428,
21_package_partitions_host.md R440 R441 R449 R450) -/
def Obligations.AdminRequests : Prop :=
  ∀ (x : AdminSrc) (s : State), adminReady x s = true →
    Carried (.readCertificateChain x) x s { s with notices := s.notices ++ [.certificates (publicKey s) (Config.certificateChain (publicPoint s.attest))] } ∧
    (∀ a : RegionArgs,
      (regionRefused s a = true → Refused (.createRegion x a) x s) ∧
      (regionRefused s a = false → Carried (.createRegion x a) x s (s.setRegion a.id (Region.init a.x a.y a.pw a.ph a.w a.h
        (((healthy (s.fuse ++ s.retired) a).take (a.w * a.h)).map (fun q => q.1 * 2 ^ 11 + q.2 * 2 ^ 7 + 1)))))) ∧
    (∀ r, ((s.region r).w = 0 ∨ (s.region r).resident ≠ none ∨ (s.region r).hasRecord = true → Refused (.destroyRegion x r) x s) ∧
      ((s.region r).w ≠ 0 → (s.region r).resident = none → (s.region r).hasRecord = false →
        ∃ u, Carried (.destroyRegion x r) x s u ∧ Assoc.find r u.regions = none ∧ u.contexts = s.contexts)) ∧
    (∀ a : ContextArgs,
      (contextRefused s a = true → Refused (.createContext x a) x s) ∧
      (contextRefused s a = false → ∃ u g, Carried (.createContext x a) x s u ∧ Assoc.find a.asid u.contexts = some (newContext a g) ∧
        (∀ n, Assoc.find a.asid s.gens = some n → g = (n + 1) % 256) ∧ Assoc.find a.asid u.gens = some g ∧ (keySlot u a.keyId).st = .active ∧
        u.regions = s.regions ∧ (g = 0 → Assoc.find a.asid s.gens ≠ none → u.tlb = [] ∧ u.tlb2 = [] ∧ u.walks = [] ∧ u.tnames = []))) ∧
    (∀ asid, ((∀ c, Assoc.find asid s.contexts = some c → c.st = .resident ∨ c.st = .preempting ∨ c.st = .stopping) → Refused (.removeContext x asid) x s) ∧
      (∀ c, Assoc.find asid s.contexts = some c → c.attr.asid = asid → (c.st = .created ∨ c.st = .preempted ∨ c.st = .stopped ∨ c.st = .damaged) →
        ∃ u, Carried (.removeContext x asid) x s u ∧ Assoc.find asid u.contexts = none ∧ (∀ r, ¬ keeps asid (u.region r)) ∧ (∀ e ∈ u.faults, e.asid ≠ asid) ∧
          u.gens = s.gens ∧ (∀ f q, f ≤ 512 → ∀ p, ((u.func f).queue q).ctx = some p → p.1 ≠ asid) ∧
          ((∀ a y, Assoc.find a s.contexts = some y → y.keyId = c.keyId → a = asid) → Assoc.sorted s.contexts = true →
            (keySlot u c.keyId).st = .free ∧ (∀ d p, Assoc.find d u.places = some p → p.owner ≠ c.keyId)))) ∧
    (∀ f q asid, (f ≤ 512 → q < 8 → ∀ c, Assoc.find asid s.contexts = some c → c.attr.func = f →
        Carried (.bindQueue x f q ⟨asid, none⟩) x s (s.modQueue f q (fun Q => { Q with ctx := some (asid, c.gen) })) ∧
        (∀ p, Carried (.bindQueue x f q ⟨asid, some p⟩) x s
          ((s.setFunc f { s.func f with aperture := some p }).modQueue f q (fun Q => { Q with ctx := some (asid, c.gen) })))) ∧
      (∀ ap, (∀ c, Assoc.find asid s.contexts = some c → c.attr.func ≠ f) → Refused (.bindQueue x f q ⟨asid, ap⟩) x s)) ∧
    (∀ f root, (x ≠ .firmware → 0 < f → f ≤ 512 → root < 2 ^ 34 → Carried (.setSecondStageRoot x f root) x s
        { s with contexts := s.contexts.map (fun (q : Nat × Context) => (q.1, if q.2.attr.func = f then { q.2 with root := root } else q.2)) }) ∧
      (x = .firmware → Refused (.setSecondStageRoot x f root) x s)) ∧
    (∀ f, ∃ u, Carried (.secondStageInvalidate x f) x s u ∧ u.regions = s.regions ∧ u.contexts = s.contexts ∧ u.tlb = s.tlb ∧
      (∀ e ∈ u.tlb2, ∀ c, Assoc.find e.asid s.contexts = some c → c.attr.func ≠ f)) ∧
    (∀ asid c, Assoc.find asid s.contexts = some c →
      ((c.st = .resident ∨ c.st = .preempting) → Carried (.stopContext x asid) x s (raise c.attr.region (recOf 0x1B 12 0) s)) ∧
      (¬ (c.st = .resident ∨ c.st = .preempting) → Refused (.stopContext x asid) x s) ∧
      (∀ m, c.st ≠ .resident → Refused (.preemptContext x asid m) x s) ∧
      (∀ m g, c.st = .resident → (s.region c.attr.region).resident = some asid → (s.region c.attr.region).graph = some g → g.rcd.st = .running →
        (s.region c.attr.region).colJob = none → (s.region c.attr.region).preempt = none →
        (s.region c.attr.region).halt = false → c.attr.asid = asid → ∃ u, Carried (.preemptContext x asid m) x s u ∧
          (u.region c.attr.region).preempt = some { migrate := m, saved := [], flits := ((gangOf s c).map (fun G => G.lifts)).getD [] } ∧ (Assoc.find asid u.contexts).map (fun y => y.st) = some .preempting))

/-- Gang `gid` is `G`, its member here the context `c`. -/
abbrev Sys2Proof.Claims.GangAt (gid : Nat) (G : Gang) (c : Context) (s : State) : Prop :=
  Assoc.find gid s.gangs = some G ∧ Assoc.find G.asid s.contexts = some c
/-- The gang without the slice `n` that was named, the timeout noted. -/
def Sys2Proof.Claims.gaveUp (G : Gang) (n : Nat) : Gang :=
  { G with slice := none, reports := G.reports.filter (fun q => q.1 ≠ n), timeouts := G.timeouts ++ [n] }
/-- The gang after a message of this code for slice `n` to every other member. -/
def Sys2Proof.Claims.told (code n : Nat) (G : Gang) : Gang :=
  { G with sent := G.sent ++ ((List.range G.size).filter (fun j => j ≠ G.rank)).map (fun j => (j, code, n)) }
/-- Gangs and their slices: A gang is formed from members that exist and belong to none, where every member's root controller agrees, each
learning its rank, and dissolved while no member holds a region. A slice that is named finds the member's region idle or vacates it; the
coordinator notes reports and, holding all of them in time, sends go to every member; a member that has reported takes go; past the deadline
and grace the coordinator sends abort, a late member that receives it stops with GANG_TIMEOUT, between launches too and where the slice was
not named to it, and the slice is over; a gang that is cut off from its coordinator starts no slice; a peer's stop is PEER_HALT, of a member
that waits for go too, and is kept for one whose record awaits its scrub. That a member waiting for go stops like a running one, what the
other root controllers answer, whether a slice that is named vacates at once, the grace of a gang formed with 0 and the stop kept over a
scrub are the model's choices (log 54). (23_fabric_links_collectives.md R457 to R460) -/
def Obligations.Gangs : Prop :=
  (∀ (x : AdminSrc) (s : State), adminReady x s = true →
    (∀ a : GangArgs, (gangRefused s a = true ∨ a.agreed = false → Refused (.formGang x a) x s) ∧
      (∀ k asid c, a.agreed = true → gangRefused s a = false → localMember s a = some (k, asid) → Assoc.find asid s.contexts = some c → (s.region c.attr.region).pending = none →
        ∃ u, Carried (.formGang x a) x s u ∧ Assoc.find asid u.contexts = some { c with gang := some a.gid } ∧
          Assoc.find a.gid u.gangs = some { size := a.size, grace := if a.grace = 0 then 20 else a.grace, members := a.members, rank := k, asid := asid,
                                            slice := none, reports := [], sent := [], timeouts := [], lifts := [], stopBy := none })) ∧
    (∀ gid G c, GangAt gid G c s →
      (∀ b, (c.st = .resident ∨ c.st = .preempting ∨ c.st = .stopping) ∨ b = false → Refused (.dissolveGang x ⟨gid, b⟩) x s) ∧
      (¬ (c.st = .resident ∨ c.st = .preempting ∨ c.st = .stopping) → ∃ u, Carried (.dissolveGang x ⟨gid, true⟩) x s u ∧ Assoc.find gid u.gangs = none ∧
        Assoc.find G.asid u.contexts = some { c with gang := none }))) ∧
  (∀ (gid : Nat) (G : Gang) (c : Context) (s : State), GangAt gid G c s →
    (∀ n dl, G.slice = none → G.timeouts.contains n = false → ((s.region c.attr.region).graph = none ∨ (s.region c.attr.region).halt = true) →
      ∃ t, Gives (.sliceRequest gid n dl) s t ∧ t.regions = s.regions ∧
        Assoc.find gid t.gangs = some { G with slice := some { num := n, deadline := dl, vacated := false, go := false }, lifts := [] }) ∧
    (∀ n dl, G.slice = none → G.timeouts.contains n = true → Gives (.sliceRequest gid n dl) s s) ∧
    (∀ n dl, G.slice = none → G.timeouts.contains n = false → (s.region c.attr.region).graph ≠ none → (s.region c.attr.region).halt = false →
      ∃ t G2, Gives (.sliceRequest gid n dl) s t ∧ Assoc.find gid t.gangs = some G2 ∧
        G2.slice = some { num := n, deadline := dl, vacated := false, go := false } ∧
        ((∃ l, (t.region c.attr.region).preempt = some { migrate := false, saved := [], flits := l }) ∨ t.regions = s.regions)) ∧
    (∀ k n, G.rank = 0 → 0 < k → k < G.size →
      (∀ sl, G.split s = true → G.slice = some sl → ∃ t G2, Gives (.vacatedMessage gid k n) s t ∧ Assoc.find gid t.gangs = some G2 ∧ G2.slice = some sl) ∧
      (G.slice = none → G.reports.contains (n, k) = false → cutFrom s G k = false →
        ∃ t, Gives (.vacatedMessage gid k n) s t ∧ Assoc.find gid t.gangs = some { G with reports := G.reports ++ [(n, k)] }) ∧
      (∀ sl, G.slice = some sl → sl.num = n → sl.go = false → G.split s = false → G.reports.contains (n, k) = false →
        (∀ j < G.size, j ≠ k → G.reports.contains (n, j) = true) → s.time ≤ sl.deadline + 1000 * G.grace →
        ∃ t, Gives (.vacatedMessage gid k n) s t ∧ t.regions = s.regions ∧
          Assoc.find gid t.gangs = some (told 2 n { G with reports := G.reports ++ [(n, k)], slice := some { sl with go := true } }))) ∧
    (∀ sl, G.slice = some sl →
      (G.rank ≠ 0 → sl.vacated = true → ∃ t, Gives (.goMessage gid sl.num) s t ∧
        Assoc.find gid t.gangs = some (if G.split s then G else { G with slice := some { sl with go := true } })) ∧
      (G.rank = 0 → sl.go = false → sl.vacated = true → sl.deadline + 1000 * G.grace < s.time → (s.region c.attr.region).pending = none →
        ∃ t, Gives (.gangDeadline gid) s t ∧ t.regions = s.regions ∧ Assoc.find gid t.gangs = some (told 3 sl.num (gaveUp G sl.num))) ∧
      (∀ o, G.rank ≠ 0 → sl.go = false → (s.region c.attr.region).pending = none →
        (sl.vacated = true → ∃ t, Gives (.abortMessage gid sl.num) s t ∧ t.regions = s.regions ∧ Assoc.find gid t.gangs = some (gaveUp G sl.num)) ∧
        (sl.vacated = false → (s.region c.attr.region).halt = false → s.ctxOf (s.region c.attr.region) = some o →
          ∃ t, Gives (.abortMessage gid sl.num) s t ∧ (t.region c.attr.region).halt = true ∧
          (t.region c.attr.region).raised = [{ recOf 0x21 12 0 with d0 := BitVec.ofNat 64 gid, d1 := BitVec.ofNat 64 sl.num, time := s.time }] ∧
          Assoc.find gid t.gangs = some (gaveUp G sl.num)))) ∧
    (∀ n o, G.rank ≠ 0 → G.slice = none → G.timeouts.contains n = false → (s.region c.attr.region).pending = none → (s.region c.attr.region).halt = false →
      s.ctxOf (s.region c.attr.region) = some o →
      ∃ t, Gives (.abortMessage gid n) s t ∧ (t.region c.attr.region).halt = true ∧
        (t.region c.attr.region).raised = [{ recOf 0x21 12 0 with d0 := BitVec.ofNat 64 gid, d1 := BitVec.ofNat 64 n, time := s.time }] ∧
        Assoc.find gid t.gangs = some { G with timeouts := G.timeouts ++ [n] }) ∧
    (∀ k x, (s.region c.attr.region).pending = some x → (s.region c.attr.region).scrubDue = true → x.asid = G.asid →
      ∃ t, Gives (.peerStopMessage gid k) s t ∧ t.regions = s.regions ∧ Assoc.find gid t.gangs = some { G with stopBy := G.stopBy.or (some k) }) ∧
    (∀ k, (s.region c.attr.region).pending = none → (c.st = .resident ∨ c.st = .preempting) → (s.region c.attr.region).resident = some G.asid →
      Gives (.peerStopMessage gid k) s (raise c.attr.region { recOf 0x1B 12 0 with d1 := BitVec.ofNat 64 (1 + k * 2 ^ 32) } s)) ∧
    (∀ k x, (s.region c.attr.region).pending = some x → (s.region c.attr.region).scrubDue = false → (s.region c.attr.region).graph = none →
      (s.region c.attr.region).halt = false → (s.region c.attr.region).resident = some G.asid →
      ∃ t g, Gives (.peerStopMessage gid k) s t ∧ (t.region c.attr.region).pending = none ∧ (t.region c.attr.region).halt = true ∧
        (t.region c.attr.region).graph = some g ∧ g.rcd = x ∧
        (t.region c.attr.region).raised = [{ recOf 0x1B 12 0 with d1 := BitVec.ofNat 64 (1 + k * 2 ^ 32), time := s.time }]))

/-- Scrubs, colophons, the life cycle, and what befalls the module: A scrub that clears every class empties the region's units and memories,
gives the region to the incoming context and takes the next sequence number; one that cannot takes the region out of service, and the class
is reported. The colophon is written at memory, signed with the attestation key, and COLCHK reads it. A change of the life cycle goes to the
next state alone and wipes the package, as does a reset, with a new device sealing key and attestation key. Throttling, a bit error, a
change of what is stored and a failed expander link change what stands for them alone; a bit error strikes only a word that is there: a
buffered word, a held tile, a beat in a FIFO. That the life cycle outlives a reset and TIME a change of it, and which rank of its domain a
package is given when it is provisioned (log 3), what the codes and units of a bit error name (log 41), and the mask and the record that
waits after a scrub that failed (log 43), are the model's choices. (07_core_accumulators_and_local_memory.md R175,
19_package_sealed_memory_scrub.md R386 R390 R396 R398 R402 to R411, 21_package_partitions_host.md R451) -/
def Obligations.Package : Prop :=
  (∀ (r : Nat) (x : Record) (c : Context) (s : State), (s.region r).pending = some x → (s.region r).scrubDue = true → (s.region r).inService = true →
    (s.region r).graph = none → (s.region r).halt = false → (s.region r).preempt = none → Assoc.find x.asid s.contexts = some c → c.gang = none →
    (∀ k, ∃ t, Gives (.scrub r (some k)) s t ∧ (t.region r).inService = false ∧ (t.region r).colJob = (s.region r).colJob ∧
      (t.region r).pending = some (if x.st = .preempted then x else { x with st := .colophonWait }) ∧
      t.notices = s.notices ++ [.outOfService r, .scrubFailed r k] ∧ t.contexts = s.contexts) ∧
    (∀ s1, scrubAll r s = some s1 → ∃ t j, Gives (.scrub r none) s t ∧ (t.region r).resident = some x.asid ∧ (t.region r).scrubDue = false ∧
      (t.region r).colJob = some j ∧ (t.region r).pending = some x ∧
      j.seq = s.scrubSeq + 1 ∧ t.scrubSeq = s.scrubSeq + 1 ∧ j.mask = 0x3FFF ∧ j.iasid = x.asid ∧ j.time = s.time ∧ (t.region r).cores = [] ∧
      (t.region r).arcs = [] ∧ (t.region r).mxs = [] ∧ (t.region r).ags = [] ∧ (t.region r).coats = [] ∧ (t.region r).copies = [] ∧
      (t.region r).levels = (s1.region r).levels ∧ (∀ e ∈ t.errors, e.r = r → 12 ≤ e.code) ∧
      (∀ a, r * 2 ^ 40 ≤ a → a < (r + 1) * 2 ^ 40 → t.smem.read a = 0 ∧ t.lmem.read a = 0))) ∧
  (∀ (r : Nat) (j : ColJob) (c : Context) (s s1 : State), (s.region r).colJob = some j → Assoc.find j.iasid s.contexts = some c → (s.region r).halt = false →
    let m := colMessage (s.region r) j c.gen (Config.deviceId (publicPoint s.attest))
    let q := ecdsaSign s.attest (m.map (fun b => b.toNat))
    gWrite c r c.attr.colOff (m ++ (bytesBE 48 q.1 ++ bytesBE 48 q.2).map (BitVec.ofNat 8) ++ rep 96 0) s = .ok () s1 →
    ∃ t, Gives (.colophonWritten r) s t ∧ (t.region r).colJob = none ∧ t.tmem = s1.tmem ∧
      (t.region r).col = { seq := j.seq, mask := j.mask, required := j.req, nonce := j.req, written := true }) ∧
  (∀ s : State, ∃ t, Gives .reset s t ∧ t.contexts = [] ∧ t.regions = State.reset.regions ∧ t.keys = [(0, newKey 0 s.fresh)] ∧ t.attest = newAttest s.fresh ∧
    t.gens = [] ∧ t.scrubSeq = 0 ∧ t.places = [] ∧ t.held = [] ∧ t.metas = [] ∧ t.metaHeld = [] ∧ t.roots = [] ∧ t.spoilt = [] ∧ t.smem.cur = [] ∧
    t.lmem.cur = [] ∧ t.tmem.cur = [] ∧ t.life = s.life ∧ t.hostMem = s.hostMem ∧ t.time = 0) ∧
  (∀ (a b : LifeCycle) (s : State), s.life = a →
    ((a, b) ∈ [(LifeCycle.manufacturing, LifeCycle.provisioned), (.provisioned, .deployed), (.deployed, .returned), (.returned, .decommissioned)] →
      ∃ t, Gives (.lifecycleChange b) s t ∧ t.life = b ∧ t.contexts = [] ∧ t.places = [] ∧ t.metas = [] ∧ t.roots = [] ∧ t.attest = newAttest s.fresh ∧
        t.keys = [(0, newKey 0 s.fresh)] ∧ t.tmem.cur = [] ∧ t.time = s.time ∧ (b ≠ .provisioned → t.domainRank = s.domainRank) ∧ (b = .provisioned → t.domainRank < 4096)) ∧
    ((a, b) ∉ [(LifeCycle.manufacturing, LifeCycle.provisioned), (.provisioned, .deployed), (.deployed, .returned), (.returned, .decommissioned)] →
      Gives (.lifecycleChange b) s s)) ∧
  (∀ s : State, Gives .thermalThrottle s { s with throttled := true } ∧
    (∀ e : ErrorSite, e.code ≠ 13 ∨ e.unit = 0 → (e.code = 3 → ∃ w ∈ (s.core e.r e.unit).phase, phaseKey w.sp w.addr = e.key) →
      (e.code = 12 → (Assoc.find (e.key / 512) s.held).isSome = true) → e.code ≠ 4 →
      (∀ x ∈ s.errors, x.toErrorSite ≠ e) → Gives (.softError e) s { s with errors := { toErrorSite := e, wrote := 0 } :: s.errors }) ∧
    (∀ e : ErrorSite, e.code = 3 → (∀ w ∈ (s.core e.r e.unit).phase, phaseKey w.sp w.addr ≠ e.key) → Gives (.softError e) s s) ∧
    (∀ e : ErrorSite, e.code = 12 → Assoc.find (e.key / 512) s.held = none → Gives (.softError e) s s) ∧
    (∀ (e : ErrorSite) (a : Arc), e.code = 4 → Assoc.find (arcKey e.unit (e.key / 2 ^ 48)) (s.region e.r).arcs = some a →
      (a.fifo.length ≤ e.key % 2 ^ 48 → Gives (.softError e) s s) ∧
      (e.key % 2 ^ 48 < a.fifo.length → (∀ x ∈ s.errors, x.toErrorSite ≠ { e with key := e.key + a.out }) →
        Gives (.softError e) s { s with errors := { toErrorSite := { e with key := e.key + a.out }, wrote := 0 } :: s.errors })) ∧
    (∀ e : ErrorSite, e.code = 13 → e.unit = 1 → (metaOf s (e.key / 512)).z = false → ∃ t, Gives (.softError e) s t ∧ t.tmem = s.tmem ∧ t.metas = s.metas ∧
      ∀ i, i < 8 → ∃ b : Byte, b ≠ 0 ∧ Assoc.get 0 (8 * e.key + i) t.spoilt = Assoc.get 0 (8 * e.key + i) s.spoilt ^^^ b) ∧
    (∀ (e : ErrorSite) (m : MetaTile), e.code = 13 → 2 ≤ e.unit → e.unit ≤ 4 → Assoc.find (metaKey (e.unit - 2) e.key) s.metas = some m →
      ∃ t m1 j, Gives (.softError e) s t ∧ t.tmem = s.tmem ∧ Assoc.find (metaKey (e.unit - 2) e.key) t.metas = some m1 ∧ m1.entry j ≠ m.entry j ∧
        ∀ k, k ≠ j → m1.entry k = m.entry k) ∧
    (∀ p, p < 8 → p ∉ s.expandersDown → Gives (.expanderLinkFailure p) s { s with expandersDown := p :: s.expandersDown }))

/-- `s` once time has passed by a free amount, with nothing chosen to come next. -/
def Sys2Proof.Claims.ticked (s : State) : State :=
  { s with time := s.time + Config.freeTick s.fresh, fresh := s.fresh + 1, turn := .none }
/-- A word of a slot runs in the state `u`: as its instruction, or ILLEGAL. -/
def Sys2Proof.Claims.RunsWord (w : IWord) (s u : State) : Prop :=
  (∀ i, decode w = some i → isElemOp w = false → step s = exec i u) ∧ (decode w = none ∨ isElemOp w = true → step s = .next (failIllegal w u))
/-- A step runs the instruction that its bytes decode to: Once a slot has been selected, the next step runs the word at its program counter:
for a compute core the word in its instruction store, for a control core the eight bytes of its segment under its own phase buffer. Where
the word decodes to an instruction of a slot the step is exec of it at that state, time having passed; a word that decodes to none, or to an
element operation, is ILLEGAL. A stage that fires runs its element operation, and an event that comes - the next of the agenda, or a free
one - is exec of it, once a region that halted in this very cycle has taken the record that the event would raise there (R417, R421); where
none did, that changes nothing. That the agenda, or a free move past its end, says which agent acts next (log 6), that TIME grows by a free
amount at each step (log 7), and that the record of the same cycle is the one the chosen move would raise (log 42), are the model's choices.
(02_instruction_word.md R42 to R45, 04_task_and_firing.md R75, 05_scalar_instructions.md R104, 09_cluster_memory_streams_barriers.md R214,
20_package_contexts_faults_preemption.md R417 R421) -/
def Obligations.StepRunsDecoded : Prop :=
  ∀ s : State,
    (s.turn = .issue → s.hereR.halt = false →
      (∀ w, isCtl s.cur.unit = false → s.here.pc.toNat < 2048 → Assoc.find s.here.pc.toNat s.hereC.istore = some w → (∀ e ∈ s.errors, e.code ≠ 1) →
        RunsWord w s (ticked s)) ∧
      (∀ c bs s1, isCtl s.cur.unit = true → s.ctxOf s.hereR = some c → 8 * s.here.pc.toNat + 8 ≤ segSize c → (∀ e ∈ s.errors, e.code ≠ 3) →
        gRead c s.cur.region (8 * s.here.pc.toNat) 8 (ticked s) = .ok bs s1 →
        let w := BitVec.ofNat 64 (ofBytesLE (layOver (phaseWord .g (8 * s.here.pc.toNat) (s1.core s.cur.region s.cur.unit).phase) (8 * s.here.pc.toNat) bs))
        RunsWord w s (keepWord w s1))) ∧
    (s.turn = .stage → ∀ T st i, Assoc.find s.cur.tmpl s.hereC.templates = some T → T.stages[s.cur.stage - 1]? = some st → decode st.word = some i →
      isElemOp st.word = true → step s = exec i (ticked s)) ∧
    (s.turn = .none →
      (∀ l, (∀ i, s.agenda = .event i :: l → i.isEvent = true → step s = exec i (coRaised (.event i) { ticked s with agenda := l })) ∧
        (∀ r u t j, s.agenda = .fire r u t j :: l → step s = .next { coRaised (.fire r u t j) { ticked s with agenda := l } with
          turn := .stage, cur := { region := r, unit := u, slot := 0, tmpl := t, stage := j } })) ∧
      (∀ i, s.agenda = [] → Config.freeMove (s.fresh + 1) = .event i → i.isEvent = true →
        step s = exec i (coRaised (.event i) { ticked s with fresh := s.fresh + 2 }))) ∧
    (∀ m : Move, (∀ q ∈ s.regions, (s.region q.1).halt = false ∨ (s.region q.1).phase ≠ .halted ∨ (s.region q.1).haltTime ≠ s.time) → coRaised m s = s)

/-- A source register without its trap bit. -/
def Sys2Proof.Claims.rg (r : Reg) : Src := { r := r, et := false }
/-- No guard. -/
def Sys2Proof.Claims.plain : Guard := { neg := false, pred := 0 }
/-- Words written out in the spec decode to the instructions they stand for: Words that the spec writes out decode to the instruction,
operands and options that the spec gives beside them: float arithmetic, LOOP, loads of two spaces, an ordered store, PHASE, SEND, an atomic,
CHAIN, element operations, coat, matrix, graph, copy, barrier, translation, decision-diagram and collective words.
(05_scalar_instructions.md R96 R103 R115, 06_core_pipeline_and_element_ops.md R160, 07_core_accumulators_and_local_memory.md R166,
09_cluster_memory_streams_barriers.md R212 R216 R218 R228, 10_cluster_coat_chains.md R250 R254, 11_cluster_matrix_unit.md R274,
13_program_winograd.md R287, 15_die_scheduling_quiescence.md R302 R304, 16_die_copy_translation.md R335 R339 R341 R343,
17_die_decision_diagram_engine.md R358 R364, 23_fabric_links_collectives.md R461) -/
def Obligations.DecodesSpecWords : Prop :=
  decode 0x3800C10800030000 = some (.fadd plain 3 (rg 1) (rg 2) { prec := .d, rm := .fixed .rz, sat := false }) ∧
  decode 0x63000600FFFFFFFD = some (.loop plain (rg 6) 0xFFFFFFFD) ∧
  decode 0x4C01028000000100 = some (.lds plain 4 2 { size := .w, t := false, sx := false, off := 0x100 }) ∧
  decode 0x4801025000000040 = some (.ldl plain 4 2 { size := .h, t := false, sx := true, off := 0x40 }) ∧
  decode 0x4F00C7C400000000 = some (.stgRel plain 3 7 { size := .d, t := false, off := 0 }) ∧
  decode 0xC602440000020002 = some (.phase plain 9 (rg 4) .region 2) ∧
  decode 0x5500051800030000 = some (.sendRel plain (rg 5) (rg 6) .cluster) ∧
  decode 0x5000051800300000 = some (.ats plain (rg 5) (rg 6) .fadd false) ∧
  decode 0xC002472000000005 = some (.chain plain 9 (rg 7) (rg 8) 5 false) ∧
  decode 0x830B000020044000 = some (.vfma { ty := .fp16, dest := 0, selA := 0, kA := 0, selB := 16, kB := 0, selC := 17, kC := 0, fn := 0, rnd := .rne, sat := false }) ∧
  decode 0x800B089010000000 = some (.vadd { ty := .fp16, dest := 1, selA := 9, kA := 0, selB := 8, kB := 0, selC := 0, kC := 0, fn := 0, rnd := .rne, sat := false }) ∧
  decode 0xCB02440000000000 = some (.crun plain 9 (rg 4) 0) ∧
  decode 0xCC00C51800000001 = some (.cedge plain 3 (rg 5) (rg 6) 1) ∧
  decode 0xC800C51800010000 = some (.mscaleMx plain 3 (rg 5) (rg 6)) ∧
  decode 0xC902441460000000 = some (.mwload plain 9 (rg 4) (rg 5) (rg 6)) ∧
  decode 0xCA02440000000001 = some (.marm plain 9 (rg 4) 1) ∧
  decode 0xD502440000000000 = some (.glaunch plain 9 (rg 4)) ∧
  decode 0xD602441400000001 = some (.garm plain 9 (rg 4) (rg 5) 1) ∧
  decode 0xD002440000000000 = some (.copy plain 9 (rg 4)) ∧
  decode 0xD100060000000003 = some (.xexpect plain 0 (rg 6) 3) ∧
  decode 0xD300041400000000 = some (.tinv plain 0 (rg 4) (rg 5)) ∧
  decode 0xD402041400000000 = some (.xlook plain 8 (rg 4) (rg 5)) ∧
  decode 0xE301841400080000 = some (.ddapply plain 6 (rg 4) (rg 5) 8) ∧
  decode 0xE101020000000000 = some (.ddvar plain 4 (rg 2)) ∧
  decode 0xD702440000010000 = some (.collAllreduceRing plain 9 (rg 4)) ∧
  decode 0xD702400000040000 = some (.collRank plain 9)

/-- Decoding an encoded instruction gives it back: Every well-formed instruction word has an encoding, and the decoder reads that word as
the instruction it encodes, with every operand at every value; and whatever a word decodes to is well-formed and encodes to that word, so
that no two words stand for one instruction. (02_instruction_word.md R22 to R44, 06_core_pipeline_and_element_ops.md R139) -/
def Obligations.EncodeDecodeRoundTrip : Prop :=
  (∀ i : Instr, i.isEvent = false → i.wf = true → ∃ w, encode i = some w ∧ decode w = some i) ∧
  (∀ (w : IWord) (i : Instr), decode w = some i → i.isEvent = false ∧ i.wf = true ∧ encode i = some w)

/-- Every memory stands in canonical form. -/
abbrev Sys2Proof.Claims.MemoryForm (s : State) : Prop := s.smem.wf = true ∧ s.lmem.wf = true ∧ s.tmem.wf = true ∧ Assoc.sorted s.hostMem = true
/-- Every step keeps the canonical form of the memories: Where the scratchpads, the local stores, device memory and host memory stand in
canonical form - rising addresses, no byte listed that an unlisted address would read as - every step that answers a next state leaves them
so. (The form is the model's own, log entry 2.) (00_scope.md R2, 09_cluster_memory_streams_barriers.md R214,
19_package_sealed_memory_scrub.md R392, 25_ordering_summary.md R496) -/
def Obligations.StepKeepsMemoryForm : Prop := ∀ s t : State, MemoryForm s → step s = .next t → MemoryForm t

/-- The machine right after reset: After reset every memory reads zero and stands in canonical form, no region, context, generation,
translation or gang is there, every tile is fresh, only the device sealing key is active, and every seal cache is empty. (TIME 0, the
manufacturing state and the zeros of host registers are the model's choices, log entries 3 and 4.) (19_package_sealed_memory_scrub.md R386
R392 R411, 21_package_partitions_host.md R440) -/
def Obligations.ResetState : Prop :=
  MemoryForm State.reset ∧ (∀ a, State.reset.smem.read a = 0 ∧ State.reset.lmem.read a = 0 ∧ State.reset.tmem.read a = 0) ∧ State.reset.regions = [] ∧
  State.reset.contexts = [] ∧ State.reset.gens = [] ∧ State.reset.tlb = [] ∧ State.reset.tlb2 = [] ∧ State.reset.tnames = [] ∧ State.reset.gangs = [] ∧
  (∀ n, metaOf State.reset n = { p := false, z := true, version := 0, tag := 0 }) ∧ (∀ k, k ≠ 0 → (keySlot State.reset k).st = .free) ∧
  (keySlot State.reset 0).st = .active ∧ State.reset.metaHeld = [] ∧ State.reset.walks = [] ∧ State.reset.spoilt = [] ∧
  State.reset.held = [] ∧ State.reset.places = [] ∧ State.reset.scrubSeq = 0 ∧ (∀ f q, ((State.reset.func f).queue q).en = false) ∧ State.reset.admin.en = false
end

