-- ==== Sys2Proof/Laws/Assoc.lean ====
section
/-! SUPPORT. The laws of association lists: reading after writing and erasing, and the canonical form. Those of reading hold for every list. -/

namespace Sys2Proof

variable {α : Type}

@[simp] theorem Assoc.get_nil (d : α) (k : Nat) : Assoc.get d k [] = d := rfl
@[simp] theorem Assoc.find_nil (k : Nat) : Assoc.find (α := α) k [] = none := rfl

@[simp] theorem Assoc.find_put_same (k : Nat) (v : α) (l : Assoc α) : Assoc.find k (Assoc.put k v l) = some v := by
  induction l with
  | nil => simp [Assoc.put, Assoc.find]
  | cons p t ih =>
    obtain ⟨k', v'⟩ := p
    simp only [Assoc.put]
    split
    · simp [Assoc.find]
    · split
      · simp [Assoc.find]
      · next h => simp [Assoc.find, h, ih]

theorem Assoc.find_put_other {j k : Nat} (h : j ≠ k) (v : α) (l : Assoc α) : Assoc.find j (Assoc.put k v l) = Assoc.find j l := by
  induction l with
  | nil => simp [Assoc.put, Assoc.find, Ne.symm h]
  | cons p t ih =>
    obtain ⟨k', v'⟩ := p
    simp only [Assoc.put]
    split
    · simp [Assoc.find, Ne.symm h]
    · split
      · next h2 => subst h2; simp [Assoc.find, Ne.symm h]
      · simp [Assoc.find, ih]

@[simp] theorem Assoc.find_erase_same (k : Nat) (l : Assoc α) : Assoc.find k (Assoc.erase k l) = none := by
  induction l with
  | nil => rfl
  | cons p t ih =>
    simp only [Assoc.erase]
    split
    · exact ih
    · next h => simp [Assoc.find, h, ih]

theorem Assoc.find_erase_other {j k : Nat} (h : j ≠ k) (l : Assoc α) : Assoc.find j (Assoc.erase k l) = Assoc.find j l := by
  induction l with
  | nil => rfl
  | cons p t ih =>
    simp only [Assoc.erase]
    split
    · next h2 => simp [Assoc.find, ih, h2, Ne.symm h]
    · simp [Assoc.find, ih]

/-- A read with a default is the listed value or the default. -/
theorem Assoc.get_eq_find (d : α) (k : Nat) (l : Assoc α) : Assoc.get d k l = (Assoc.find k l).getD d := by
  induction l with
  | nil => rfl
  | cons p t ih => simp only [Assoc.get, Assoc.find]; split <;> simp [ih]

@[simp] theorem Assoc.get_put_same (d : α) (k : Nat) (v : α) (l : Assoc α) : Assoc.get d k (Assoc.put k v l) = v := by
  simp [Assoc.get_eq_find]
theorem Assoc.get_put_other (d : α) {j k : Nat} (h : j ≠ k) (v : α) (l : Assoc α) : Assoc.get d j (Assoc.put k v l) = Assoc.get d j l := by
  simp [Assoc.get_eq_find, Assoc.find_put_other h]
@[simp] theorem Assoc.get_erase_same (d : α) (k : Nat) (l : Assoc α) : Assoc.get d k (Assoc.erase k l) = d := by
  simp [Assoc.get_eq_find]
theorem Assoc.get_erase_other (d : α) {j k : Nat} (h : j ≠ k) (l : Assoc α) : Assoc.get d j (Assoc.erase k l) = Assoc.get d j l := by
  simp [Assoc.get_eq_find, Assoc.find_erase_other h]

/-- Reading after a write, whichever the key. -/
theorem Assoc.get_put (d : α) (j k : Nat) (v : α) (l : Assoc α) : Assoc.get d j (Assoc.put k v l) = if j = k then v else Assoc.get d j l := by
  by_cases h : j = k
  · subst h; simp
  · simp [h, Assoc.get_put_other d h]

theorem Assoc.get_set [DecidableEq α] (d : α) (j k : Nat) (v : α) (l : Assoc α) :
    Assoc.get d j (Assoc.set d k v l) = if j = k then v else Assoc.get d j l := by
  simp only [Assoc.set]
  split
  · next h =>
    by_cases e : j = k
    · subst e; simp [h]
    · simp [e, Assoc.get_erase_other d e]
  · exact Assoc.get_put d j k v l
@[simp] theorem Assoc.get_set_same [DecidableEq α] (d : α) (k : Nat) (v : α) (l : Assoc α) : Assoc.get d k (Assoc.set d k v l) = v := by
  simp [Assoc.get_set]
theorem Assoc.get_set_other [DecidableEq α] (d : α) {j k : Nat} (h : j ≠ k) (v : α) (l : Assoc α) :
    Assoc.get d j (Assoc.set d k v l) = Assoc.get d j l := by
  simp [Assoc.get_set, h]

/-! ### The canonical form -/

/-- Every key is above `k`. -/
def Assoc.above (k : Nat) (l : Assoc α) : Prop := ∀ p ∈ l, k < p.1

theorem Assoc.sorted_cons {p : Nat × α} {t : Assoc α} : Assoc.sorted (p :: t) = true ↔ Assoc.above p.1 t ∧ Assoc.sorted t = true := by
  induction t generalizing p with
  | nil => simp [Assoc.sorted, Assoc.above]
  | cons q t ih =>
    simp only [Assoc.sorted, Bool.and_eq_true, decide_eq_true_eq]
    constructor
    · rintro ⟨h1, h2⟩
      refine ⟨fun x hx => ?_, h2⟩
      rcases List.mem_cons.mp hx with rfl | hx
      · exact h1
      · exact Nat.lt_trans h1 ((ih.mp h2).1 x hx)
    · rintro ⟨h1, h2⟩
      exact ⟨h1 q (by simp), h2⟩

theorem Assoc.mem_put {k : Nat} {v : α} {l : Assoc α} {p : Nat × α} (h : p ∈ Assoc.put k v l) : p = (k, v) ∨ p ∈ l := by
  induction l with
  | nil => simpa [Assoc.put] using h
  | cons q t ih =>
    simp only [Assoc.put] at h
    split at h
    · simpa using h
    · split at h
      · simp only [List.mem_cons] at h ⊢; tauto
      · simp only [List.mem_cons] at h ⊢
        rcases h with rfl | h
        · simp
        · rcases ih h with h | h <;> simp [h]

theorem Assoc.mem_erase {k : Nat} {l : Assoc α} {p : Nat × α} (h : p ∈ Assoc.erase k l) : p ∈ l := by
  induction l with
  | nil => simp [Assoc.erase] at h
  | cons q t ih =>
    simp only [Assoc.erase] at h
    split at h
    · exact List.mem_cons_of_mem _ (ih h)
    · rcases List.mem_cons.mp h with rfl | h
      · simp
      · exact List.mem_cons_of_mem _ (ih h)

theorem Assoc.sorted_put {k : Nat} {v : α} {l : Assoc α} (h : Assoc.sorted l = true) : Assoc.sorted (Assoc.put k v l) = true := by
  induction l with
  | nil => rfl
  | cons q t ih =>
    obtain ⟨k', v'⟩ := q
    have h' := Assoc.sorted_cons.mp h
    simp only [Assoc.put]
    split
    · next hlt =>
      refine Assoc.sorted_cons.mpr ⟨fun p hp => ?_, h⟩
      rcases List.mem_cons.mp hp with rfl | hp
      · exact hlt
      · exact Nat.lt_trans hlt (h'.1 p hp)
    · split
      · next e => subst e; exact Assoc.sorted_cons.mpr ⟨h'.1, h'.2⟩
      · next h1 h2 =>
        refine Assoc.sorted_cons.mpr ⟨fun p hp => ?_, ih h'.2⟩
        rcases Assoc.mem_put hp with rfl | hp
        · show k' < k; omega
        · exact h'.1 p hp

theorem Assoc.sorted_erase {k : Nat} {l : Assoc α} (h : Assoc.sorted l = true) : Assoc.sorted (Assoc.erase k l) = true := by
  induction l with
  | nil => rfl
  | cons q t ih =>
    have h' := Assoc.sorted_cons.mp h
    simp only [Assoc.erase]
    split
    · exact ih h'.2
    · exact Assoc.sorted_cons.mpr ⟨fun p hp => h'.1 p (Assoc.mem_erase hp), ih h'.2⟩

theorem Assoc.sorted_filter {f : Nat × α → Bool} {l : Assoc α} (h : Assoc.sorted l = true) : Assoc.sorted (l.filter f) = true := by
  induction l with
  | nil => rfl
  | cons q t ih =>
    have h' := Assoc.sorted_cons.mp h
    simp only [List.filter]
    split
    · exact Assoc.sorted_cons.mpr ⟨fun p hp => h'.1 p (List.mem_of_mem_filter hp), ih h'.2⟩
    · exact ih h'.2

theorem Assoc.wf_iff [DecidableEq α] {d : α} {l : Assoc α} : Assoc.wf d l = true ↔ Assoc.sorted l = true ∧ ∀ p ∈ l, p.2 ≠ d := by
  simp [Assoc.wf]

/-- Writing a value keeps the canonical form. -/
theorem Assoc.wf_set [DecidableEq α] {d : α} {k : Nat} {v : α} {l : Assoc α} (h : Assoc.wf d l = true) : Assoc.wf d (Assoc.set d k v l) = true := by
  rw [Assoc.wf_iff] at h ⊢
  simp only [Assoc.set]
  split
  · exact ⟨Assoc.sorted_erase h.1, fun p hp => h.2 p (Assoc.mem_erase hp)⟩
  · next e =>
    refine ⟨Assoc.sorted_put h.1, fun p hp => ?_⟩
    rcases Assoc.mem_put hp with rfl | hp
    · exact e
    · exact h.2 p hp

/-- Dropping entries keeps it. -/
theorem Assoc.wf_filter [DecidableEq α] {d : α} {f : Nat × α → Bool} {l : Assoc α} (h : Assoc.wf d l = true) : Assoc.wf d (l.filter f) = true := by
  rw [Assoc.wf_iff] at h ⊢
  exact ⟨Assoc.sorted_filter h.1, fun p hp => h.2 p (List.mem_of_mem_filter hp)⟩

/-- In a sorted list, the entry listed at a key is the one that is found. -/
theorem Assoc.find_of_mem {l : Assoc α} (h : Assoc.sorted l = true) {p : Nat × α} (hp : p ∈ l) : Assoc.find p.1 l = some p.2 := by
  induction l with
  | nil => simp at hp
  | cons q t ih =>
    have h' := Assoc.sorted_cons.mp h
    rcases List.mem_cons.mp hp with rfl | hq
    · simp [Assoc.find]
    · have := h'.1 p hq
      have e : q.1 ≠ p.1 := by omega
      obtain ⟨k', v'⟩ := q
      simp only [Assoc.find]
      rw [if_neg e]
      exact ih h'.2 hq

/-- Reading after a filter that keeps the key's entries. -/
theorem Assoc.find_filter {k : Nat} {f : Nat × α → Bool} {l : Assoc α} (h : ∀ v, f (k, v) = true) : Assoc.find k (l.filter f) = Assoc.find k l := by
  induction l with
  | nil => rfl
  | cons q t ih =>
    obtain ⟨k', v'⟩ := q
    by_cases e : k' = k
    · subst e; simp [List.filter, h, Assoc.find]
    · simp only [List.filter]; split <;> simp [Assoc.find, e, ih]

/-- Reading after a filter that drops the key's entries. -/
theorem Assoc.find_filter_none {k : Nat} {f : Nat × α → Bool} {l : Assoc α} (h : ∀ v, f (k, v) = false) : Assoc.find k (l.filter f) = none := by
  induction l with
  | nil => rfl
  | cons q t ih =>
    obtain ⟨k', v'⟩ := q
    by_cases e : k' = k
    · subst e; simp [List.filter, h, ih]
    · simp only [List.filter]; split <;> simp [Assoc.find, e, ih]

end Sys2Proof
end

