-- ==== Sys2Proof/Laws/State.lean ====
section
/-! SUPPORT. One lemma for each field under each update of the state, of a region, of a core and of a slot, and reading after each update. -/

namespace Sys2Proof.Machine

/-! ### Fields of the state that an update leaves -/

@[simp] theorem State.setRegion_turn (r : Nat) (R : Region) (s : State) : (s.setRegion r R).turn = s.turn := rfl
@[simp] theorem State.setRegion_cur (r : Nat) (R : Region) (s : State) : (s.setRegion r R).cur = s.cur := rfl
@[simp] theorem State.setRegion_agenda (r : Nat) (R : Region) (s : State) : (s.setRegion r R).agenda = s.agenda := rfl
@[simp] theorem State.setRegion_fresh (r : Nat) (R : Region) (s : State) : (s.setRegion r R).fresh = s.fresh := rfl
@[simp] theorem State.setRegion_time (r : Nat) (R : Region) (s : State) : (s.setRegion r R).time = s.time := rfl
@[simp] theorem State.setRegion_moment (r : Nat) (R : Region) (s : State) : (s.setRegion r R).moment = s.moment := rfl
@[simp] theorem State.setRegion_smem (r : Nat) (R : Region) (s : State) : (s.setRegion r R).smem = s.smem := rfl
@[simp] theorem State.setRegion_lmem (r : Nat) (R : Region) (s : State) : (s.setRegion r R).lmem = s.lmem := rfl
@[simp] theorem State.setRegion_tmem (r : Nat) (R : Region) (s : State) : (s.setRegion r R).tmem = s.tmem := rfl
@[simp] theorem State.setRegion_contexts (r : Nat) (R : Region) (s : State) : (s.setRegion r R).contexts = s.contexts := rfl
@[simp] theorem State.setRegion_gens (r : Nat) (R : Region) (s : State) : (s.setRegion r R).gens = s.gens := rfl
@[simp] theorem State.setRegion_places (r : Nat) (R : Region) (s : State) : (s.setRegion r R).places = s.places := rfl
@[simp] theorem State.setRegion_metas (r : Nat) (R : Region) (s : State) : (s.setRegion r R).metas = s.metas := rfl
@[simp] theorem State.setRegion_metaHeld (r : Nat) (R : Region) (s : State) : (s.setRegion r R).metaHeld = s.metaHeld := rfl
@[simp] theorem State.setRegion_roots (r : Nat) (R : Region) (s : State) : (s.setRegion r R).roots = s.roots := rfl
@[simp] theorem State.setRegion_spoilt (r : Nat) (R : Region) (s : State) : (s.setRegion r R).spoilt = s.spoilt := rfl
@[simp] theorem State.setRegion_leaving (r : Nat) (R : Region) (s : State) : (s.setRegion r R).leaving = s.leaving := rfl
@[simp] theorem State.setRegion_rekeys (r : Nat) (R : Region) (s : State) : (s.setRegion r R).rekeys = s.rekeys := rfl
@[simp] theorem State.setRegion_held (r : Nat) (R : Region) (s : State) : (s.setRegion r R).held = s.held := rfl
@[simp] theorem State.setRegion_keys (r : Nat) (R : Region) (s : State) : (s.setRegion r R).keys = s.keys := rfl
@[simp] theorem State.setRegion_attest (r : Nat) (R : Region) (s : State) : (s.setRegion r R).attest = s.attest := rfl
@[simp] theorem State.setRegion_tlb (r : Nat) (R : Region) (s : State) : (s.setRegion r R).tlb = s.tlb := rfl
@[simp] theorem State.setRegion_tlb2 (r : Nat) (R : Region) (s : State) : (s.setRegion r R).tlb2 = s.tlb2 := rfl
@[simp] theorem State.setRegion_walks (r : Nat) (R : Region) (s : State) : (s.setRegion r R).walks = s.walks := rfl
@[simp] theorem State.setRegion_tnames (r : Nat) (R : Region) (s : State) : (s.setRegion r R).tnames = s.tnames := rfl
@[simp] theorem State.setRegion_scrubSeq (r : Nat) (R : Region) (s : State) : (s.setRegion r R).scrubSeq = s.scrubSeq := rfl
@[simp] theorem State.setRegion_life (r : Nat) (R : Region) (s : State) : (s.setRegion r R).life = s.life := rfl
@[simp] theorem State.setRegion_fuse (r : Nat) (R : Region) (s : State) : (s.setRegion r R).fuse = s.fuse := rfl
@[simp] theorem State.setRegion_funcs (r : Nat) (R : Region) (s : State) : (s.setRegion r R).funcs = s.funcs := rfl
@[simp] theorem State.setRegion_faults (r : Nat) (R : Region) (s : State) : (s.setRegion r R).faults = s.faults := rfl
@[simp] theorem State.setRegion_nextTag (r : Nat) (R : Region) (s : State) : (s.setRegion r R).nextTag = s.nextTag := rfl
@[simp] theorem State.setRegion_admin (r : Nat) (R : Region) (s : State) : (s.setRegion r R).admin = s.admin := rfl
@[simp] theorem State.setRegion_hostMem (r : Nat) (R : Region) (s : State) : (s.setRegion r R).hostMem = s.hostMem := rfl
@[simp] theorem State.setRegion_gangs (r : Nat) (R : Region) (s : State) : (s.setRegion r R).gangs = s.gangs := rfl
@[simp] theorem State.setRegion_domainRank (r : Nat) (R : Region) (s : State) : (s.setRegion r R).domainRank = s.domainRank := rfl
@[simp] theorem State.setRegion_linksDown (r : Nat) (R : Region) (s : State) : (s.setRegion r R).linksDown = s.linksDown := rfl
@[simp] theorem State.setRegion_unreach (r : Nat) (R : Region) (s : State) : (s.setRegion r R).unreach = s.unreach := rfl
@[simp] theorem State.setRegion_expandersDown (r : Nat) (R : Region) (s : State) : (s.setRegion r R).expandersDown = s.expandersDown := rfl
@[simp] theorem State.setRegion_retired (r : Nat) (R : Region) (s : State) : (s.setRegion r R).retired = s.retired := rfl
@[simp] theorem State.setRegion_notices (r : Nat) (R : Region) (s : State) : (s.setRegion r R).notices = s.notices := rfl
@[simp] theorem State.setRegion_errors (r : Nat) (R : Region) (s : State) : (s.setRegion r R).errors = s.errors := rfl
@[simp] theorem State.setRegion_corrected (r : Nat) (R : Region) (s : State) : (s.setRegion r R).corrected = s.corrected := rfl
@[simp] theorem State.setRegion_throttled (r : Nat) (R : Region) (s : State) : (s.setRegion r R).throttled = s.throttled := rfl
@[simp] theorem State.modRegion_turn (r : Nat) (f : Region → Region) (s : State) : (s.modRegion r f).turn = s.turn := rfl
@[simp] theorem State.modRegion_cur (r : Nat) (f : Region → Region) (s : State) : (s.modRegion r f).cur = s.cur := rfl
@[simp] theorem State.modRegion_agenda (r : Nat) (f : Region → Region) (s : State) : (s.modRegion r f).agenda = s.agenda := rfl
@[simp] theorem State.modRegion_fresh (r : Nat) (f : Region → Region) (s : State) : (s.modRegion r f).fresh = s.fresh := rfl
@[simp] theorem State.modRegion_time (r : Nat) (f : Region → Region) (s : State) : (s.modRegion r f).time = s.time := rfl
@[simp] theorem State.modRegion_moment (r : Nat) (f : Region → Region) (s : State) : (s.modRegion r f).moment = s.moment := rfl
@[simp] theorem State.modRegion_smem (r : Nat) (f : Region → Region) (s : State) : (s.modRegion r f).smem = s.smem := rfl
@[simp] theorem State.modRegion_lmem (r : Nat) (f : Region → Region) (s : State) : (s.modRegion r f).lmem = s.lmem := rfl
@[simp] theorem State.modRegion_tmem (r : Nat) (f : Region → Region) (s : State) : (s.modRegion r f).tmem = s.tmem := rfl
@[simp] theorem State.modRegion_contexts (r : Nat) (f : Region → Region) (s : State) : (s.modRegion r f).contexts = s.contexts := rfl
@[simp] theorem State.modRegion_gens (r : Nat) (f : Region → Region) (s : State) : (s.modRegion r f).gens = s.gens := rfl
@[simp] theorem State.modRegion_places (r : Nat) (f : Region → Region) (s : State) : (s.modRegion r f).places = s.places := rfl
@[simp] theorem State.modRegion_metas (r : Nat) (f : Region → Region) (s : State) : (s.modRegion r f).metas = s.metas := rfl
@[simp] theorem State.modRegion_metaHeld (r : Nat) (f : Region → Region) (s : State) : (s.modRegion r f).metaHeld = s.metaHeld := rfl
@[simp] theorem State.modRegion_roots (r : Nat) (f : Region → Region) (s : State) : (s.modRegion r f).roots = s.roots := rfl
@[simp] theorem State.modRegion_spoilt (r : Nat) (f : Region → Region) (s : State) : (s.modRegion r f).spoilt = s.spoilt := rfl
@[simp] theorem State.modRegion_leaving (r : Nat) (f : Region → Region) (s : State) : (s.modRegion r f).leaving = s.leaving := rfl
@[simp] theorem State.modRegion_rekeys (r : Nat) (f : Region → Region) (s : State) : (s.modRegion r f).rekeys = s.rekeys := rfl
@[simp] theorem State.modRegion_held (r : Nat) (f : Region → Region) (s : State) : (s.modRegion r f).held = s.held := rfl
@[simp] theorem State.modRegion_keys (r : Nat) (f : Region → Region) (s : State) : (s.modRegion r f).keys = s.keys := rfl
@[simp] theorem State.modRegion_attest (r : Nat) (f : Region → Region) (s : State) : (s.modRegion r f).attest = s.attest := rfl
@[simp] theorem State.modRegion_tlb (r : Nat) (f : Region → Region) (s : State) : (s.modRegion r f).tlb = s.tlb := rfl
@[simp] theorem State.modRegion_tlb2 (r : Nat) (f : Region → Region) (s : State) : (s.modRegion r f).tlb2 = s.tlb2 := rfl
@[simp] theorem State.modRegion_walks (r : Nat) (f : Region → Region) (s : State) : (s.modRegion r f).walks = s.walks := rfl
@[simp] theorem State.modRegion_tnames (r : Nat) (f : Region → Region) (s : State) : (s.modRegion r f).tnames = s.tnames := rfl
@[simp] theorem State.modRegion_scrubSeq (r : Nat) (f : Region → Region) (s : State) : (s.modRegion r f).scrubSeq = s.scrubSeq := rfl
@[simp] theorem State.modRegion_life (r : Nat) (f : Region → Region) (s : State) : (s.modRegion r f).life = s.life := rfl
@[simp] theorem State.modRegion_fuse (r : Nat) (f : Region → Region) (s : State) : (s.modRegion r f).fuse = s.fuse := rfl
@[simp] theorem State.modRegion_funcs (r : Nat) (f : Region → Region) (s : State) : (s.modRegion r f).funcs = s.funcs := rfl
@[simp] theorem State.modRegion_faults (r : Nat) (f : Region → Region) (s : State) : (s.modRegion r f).faults = s.faults := rfl
@[simp] theorem State.modRegion_nextTag (r : Nat) (f : Region → Region) (s : State) : (s.modRegion r f).nextTag = s.nextTag := rfl
@[simp] theorem State.modRegion_admin (r : Nat) (f : Region → Region) (s : State) : (s.modRegion r f).admin = s.admin := rfl
@[simp] theorem State.modRegion_hostMem (r : Nat) (f : Region → Region) (s : State) : (s.modRegion r f).hostMem = s.hostMem := rfl
@[simp] theorem State.modRegion_gangs (r : Nat) (f : Region → Region) (s : State) : (s.modRegion r f).gangs = s.gangs := rfl
@[simp] theorem State.modRegion_domainRank (r : Nat) (f : Region → Region) (s : State) : (s.modRegion r f).domainRank = s.domainRank := rfl
@[simp] theorem State.modRegion_linksDown (r : Nat) (f : Region → Region) (s : State) : (s.modRegion r f).linksDown = s.linksDown := rfl
@[simp] theorem State.modRegion_unreach (r : Nat) (f : Region → Region) (s : State) : (s.modRegion r f).unreach = s.unreach := rfl
@[simp] theorem State.modRegion_expandersDown (r : Nat) (f : Region → Region) (s : State) : (s.modRegion r f).expandersDown = s.expandersDown := rfl
@[simp] theorem State.modRegion_retired (r : Nat) (f : Region → Region) (s : State) : (s.modRegion r f).retired = s.retired := rfl
@[simp] theorem State.modRegion_notices (r : Nat) (f : Region → Region) (s : State) : (s.modRegion r f).notices = s.notices := rfl
@[simp] theorem State.modRegion_errors (r : Nat) (f : Region → Region) (s : State) : (s.modRegion r f).errors = s.errors := rfl
@[simp] theorem State.modRegion_corrected (r : Nat) (f : Region → Region) (s : State) : (s.modRegion r f).corrected = s.corrected := rfl
@[simp] theorem State.modRegion_throttled (r : Nat) (f : Region → Region) (s : State) : (s.modRegion r f).throttled = s.throttled := rfl
@[simp] theorem State.modCore_turn (r u : Nat) (f : Core → Core) (s : State) : (s.modCore r u f).turn = s.turn := rfl
@[simp] theorem State.modCore_cur (r u : Nat) (f : Core → Core) (s : State) : (s.modCore r u f).cur = s.cur := rfl
@[simp] theorem State.modCore_agenda (r u : Nat) (f : Core → Core) (s : State) : (s.modCore r u f).agenda = s.agenda := rfl
@[simp] theorem State.modCore_fresh (r u : Nat) (f : Core → Core) (s : State) : (s.modCore r u f).fresh = s.fresh := rfl
@[simp] theorem State.modCore_time (r u : Nat) (f : Core → Core) (s : State) : (s.modCore r u f).time = s.time := rfl
@[simp] theorem State.modCore_moment (r u : Nat) (f : Core → Core) (s : State) : (s.modCore r u f).moment = s.moment := rfl
@[simp] theorem State.modCore_smem (r u : Nat) (f : Core → Core) (s : State) : (s.modCore r u f).smem = s.smem := rfl
@[simp] theorem State.modCore_lmem (r u : Nat) (f : Core → Core) (s : State) : (s.modCore r u f).lmem = s.lmem := rfl
@[simp] theorem State.modCore_tmem (r u : Nat) (f : Core → Core) (s : State) : (s.modCore r u f).tmem = s.tmem := rfl
@[simp] theorem State.modCore_contexts (r u : Nat) (f : Core → Core) (s : State) : (s.modCore r u f).contexts = s.contexts := rfl
@[simp] theorem State.modCore_gens (r u : Nat) (f : Core → Core) (s : State) : (s.modCore r u f).gens = s.gens := rfl
@[simp] theorem State.modCore_places (r u : Nat) (f : Core → Core) (s : State) : (s.modCore r u f).places = s.places := rfl
@[simp] theorem State.modCore_metas (r u : Nat) (f : Core → Core) (s : State) : (s.modCore r u f).metas = s.metas := rfl
@[simp] theorem State.modCore_metaHeld (r u : Nat) (f : Core → Core) (s : State) : (s.modCore r u f).metaHeld = s.metaHeld := rfl
@[simp] theorem State.modCore_roots (r u : Nat) (f : Core → Core) (s : State) : (s.modCore r u f).roots = s.roots := rfl
@[simp] theorem State.modCore_spoilt (r u : Nat) (f : Core → Core) (s : State) : (s.modCore r u f).spoilt = s.spoilt := rfl
@[simp] theorem State.modCore_leaving (r u : Nat) (f : Core → Core) (s : State) : (s.modCore r u f).leaving = s.leaving := rfl
@[simp] theorem State.modCore_rekeys (r u : Nat) (f : Core → Core) (s : State) : (s.modCore r u f).rekeys = s.rekeys := rfl
@[simp] theorem State.modCore_held (r u : Nat) (f : Core → Core) (s : State) : (s.modCore r u f).held = s.held := rfl
@[simp] theorem State.modCore_keys (r u : Nat) (f : Core → Core) (s : State) : (s.modCore r u f).keys = s.keys := rfl
@[simp] theorem State.modCore_attest (r u : Nat) (f : Core → Core) (s : State) : (s.modCore r u f).attest = s.attest := rfl
@[simp] theorem State.modCore_tlb (r u : Nat) (f : Core → Core) (s : State) : (s.modCore r u f).tlb = s.tlb := rfl
@[simp] theorem State.modCore_tlb2 (r u : Nat) (f : Core → Core) (s : State) : (s.modCore r u f).tlb2 = s.tlb2 := rfl
@[simp] theorem State.modCore_walks (r u : Nat) (f : Core → Core) (s : State) : (s.modCore r u f).walks = s.walks := rfl
@[simp] theorem State.modCore_tnames (r u : Nat) (f : Core → Core) (s : State) : (s.modCore r u f).tnames = s.tnames := rfl
@[simp] theorem State.modCore_scrubSeq (r u : Nat) (f : Core → Core) (s : State) : (s.modCore r u f).scrubSeq = s.scrubSeq := rfl
@[simp] theorem State.modCore_life (r u : Nat) (f : Core → Core) (s : State) : (s.modCore r u f).life = s.life := rfl
@[simp] theorem State.modCore_fuse (r u : Nat) (f : Core → Core) (s : State) : (s.modCore r u f).fuse = s.fuse := rfl
@[simp] theorem State.modCore_funcs (r u : Nat) (f : Core → Core) (s : State) : (s.modCore r u f).funcs = s.funcs := rfl
@[simp] theorem State.modCore_faults (r u : Nat) (f : Core → Core) (s : State) : (s.modCore r u f).faults = s.faults := rfl
@[simp] theorem State.modCore_nextTag (r u : Nat) (f : Core → Core) (s : State) : (s.modCore r u f).nextTag = s.nextTag := rfl
@[simp] theorem State.modCore_admin (r u : Nat) (f : Core → Core) (s : State) : (s.modCore r u f).admin = s.admin := rfl
@[simp] theorem State.modCore_hostMem (r u : Nat) (f : Core → Core) (s : State) : (s.modCore r u f).hostMem = s.hostMem := rfl
@[simp] theorem State.modCore_gangs (r u : Nat) (f : Core → Core) (s : State) : (s.modCore r u f).gangs = s.gangs := rfl
@[simp] theorem State.modCore_domainRank (r u : Nat) (f : Core → Core) (s : State) : (s.modCore r u f).domainRank = s.domainRank := rfl
@[simp] theorem State.modCore_linksDown (r u : Nat) (f : Core → Core) (s : State) : (s.modCore r u f).linksDown = s.linksDown := rfl
@[simp] theorem State.modCore_unreach (r u : Nat) (f : Core → Core) (s : State) : (s.modCore r u f).unreach = s.unreach := rfl
@[simp] theorem State.modCore_expandersDown (r u : Nat) (f : Core → Core) (s : State) : (s.modCore r u f).expandersDown = s.expandersDown := rfl
@[simp] theorem State.modCore_retired (r u : Nat) (f : Core → Core) (s : State) : (s.modCore r u f).retired = s.retired := rfl
@[simp] theorem State.modCore_notices (r u : Nat) (f : Core → Core) (s : State) : (s.modCore r u f).notices = s.notices := rfl
@[simp] theorem State.modCore_errors (r u : Nat) (f : Core → Core) (s : State) : (s.modCore r u f).errors = s.errors := rfl
@[simp] theorem State.modCore_corrected (r u : Nat) (f : Core → Core) (s : State) : (s.modCore r u f).corrected = s.corrected := rfl
@[simp] theorem State.modCore_throttled (r u : Nat) (f : Core → Core) (s : State) : (s.modCore r u f).throttled = s.throttled := rfl
@[simp] theorem State.modSlot_turn (r u k : Nat) (f : Slot → Slot) (s : State) : (s.modSlot r u k f).turn = s.turn := rfl
@[simp] theorem State.modSlot_cur (r u k : Nat) (f : Slot → Slot) (s : State) : (s.modSlot r u k f).cur = s.cur := rfl
@[simp] theorem State.modSlot_agenda (r u k : Nat) (f : Slot → Slot) (s : State) : (s.modSlot r u k f).agenda = s.agenda := rfl
@[simp] theorem State.modSlot_fresh (r u k : Nat) (f : Slot → Slot) (s : State) : (s.modSlot r u k f).fresh = s.fresh := rfl
@[simp] theorem State.modSlot_time (r u k : Nat) (f : Slot → Slot) (s : State) : (s.modSlot r u k f).time = s.time := rfl
@[simp] theorem State.modSlot_moment (r u k : Nat) (f : Slot → Slot) (s : State) : (s.modSlot r u k f).moment = s.moment := rfl
@[simp] theorem State.modSlot_smem (r u k : Nat) (f : Slot → Slot) (s : State) : (s.modSlot r u k f).smem = s.smem := rfl
@[simp] theorem State.modSlot_lmem (r u k : Nat) (f : Slot → Slot) (s : State) : (s.modSlot r u k f).lmem = s.lmem := rfl
@[simp] theorem State.modSlot_tmem (r u k : Nat) (f : Slot → Slot) (s : State) : (s.modSlot r u k f).tmem = s.tmem := rfl
@[simp] theorem State.modSlot_contexts (r u k : Nat) (f : Slot → Slot) (s : State) : (s.modSlot r u k f).contexts = s.contexts := rfl
@[simp] theorem State.modSlot_gens (r u k : Nat) (f : Slot → Slot) (s : State) : (s.modSlot r u k f).gens = s.gens := rfl
@[simp] theorem State.modSlot_places (r u k : Nat) (f : Slot → Slot) (s : State) : (s.modSlot r u k f).places = s.places := rfl
@[simp] theorem State.modSlot_metas (r u k : Nat) (f : Slot → Slot) (s : State) : (s.modSlot r u k f).metas = s.metas := rfl
@[simp] theorem State.modSlot_metaHeld (r u k : Nat) (f : Slot → Slot) (s : State) : (s.modSlot r u k f).metaHeld = s.metaHeld := rfl
@[simp] theorem State.modSlot_roots (r u k : Nat) (f : Slot → Slot) (s : State) : (s.modSlot r u k f).roots = s.roots := rfl
@[simp] theorem State.modSlot_spoilt (r u k : Nat) (f : Slot → Slot) (s : State) : (s.modSlot r u k f).spoilt = s.spoilt := rfl
@[simp] theorem State.modSlot_leaving (r u k : Nat) (f : Slot → Slot) (s : State) : (s.modSlot r u k f).leaving = s.leaving := rfl
@[simp] theorem State.modSlot_rekeys (r u k : Nat) (f : Slot → Slot) (s : State) : (s.modSlot r u k f).rekeys = s.rekeys := rfl
@[simp] theorem State.modSlot_held (r u k : Nat) (f : Slot → Slot) (s : State) : (s.modSlot r u k f).held = s.held := rfl
@[simp] theorem State.modSlot_keys (r u k : Nat) (f : Slot → Slot) (s : State) : (s.modSlot r u k f).keys = s.keys := rfl
@[simp] theorem State.modSlot_attest (r u k : Nat) (f : Slot → Slot) (s : State) : (s.modSlot r u k f).attest = s.attest := rfl
@[simp] theorem State.modSlot_tlb (r u k : Nat) (f : Slot → Slot) (s : State) : (s.modSlot r u k f).tlb = s.tlb := rfl
@[simp] theorem State.modSlot_tlb2 (r u k : Nat) (f : Slot → Slot) (s : State) : (s.modSlot r u k f).tlb2 = s.tlb2 := rfl
@[simp] theorem State.modSlot_walks (r u k : Nat) (f : Slot → Slot) (s : State) : (s.modSlot r u k f).walks = s.walks := rfl
@[simp] theorem State.modSlot_tnames (r u k : Nat) (f : Slot → Slot) (s : State) : (s.modSlot r u k f).tnames = s.tnames := rfl
@[simp] theorem State.modSlot_scrubSeq (r u k : Nat) (f : Slot → Slot) (s : State) : (s.modSlot r u k f).scrubSeq = s.scrubSeq := rfl
@[simp] theorem State.modSlot_life (r u k : Nat) (f : Slot → Slot) (s : State) : (s.modSlot r u k f).life = s.life := rfl
@[simp] theorem State.modSlot_fuse (r u k : Nat) (f : Slot → Slot) (s : State) : (s.modSlot r u k f).fuse = s.fuse := rfl
@[simp] theorem State.modSlot_funcs (r u k : Nat) (f : Slot → Slot) (s : State) : (s.modSlot r u k f).funcs = s.funcs := rfl
@[simp] theorem State.modSlot_faults (r u k : Nat) (f : Slot → Slot) (s : State) : (s.modSlot r u k f).faults = s.faults := rfl
@[simp] theorem State.modSlot_nextTag (r u k : Nat) (f : Slot → Slot) (s : State) : (s.modSlot r u k f).nextTag = s.nextTag := rfl
@[simp] theorem State.modSlot_admin (r u k : Nat) (f : Slot → Slot) (s : State) : (s.modSlot r u k f).admin = s.admin := rfl
@[simp] theorem State.modSlot_hostMem (r u k : Nat) (f : Slot → Slot) (s : State) : (s.modSlot r u k f).hostMem = s.hostMem := rfl
@[simp] theorem State.modSlot_gangs (r u k : Nat) (f : Slot → Slot) (s : State) : (s.modSlot r u k f).gangs = s.gangs := rfl
@[simp] theorem State.modSlot_domainRank (r u k : Nat) (f : Slot → Slot) (s : State) : (s.modSlot r u k f).domainRank = s.domainRank := rfl
@[simp] theorem State.modSlot_linksDown (r u k : Nat) (f : Slot → Slot) (s : State) : (s.modSlot r u k f).linksDown = s.linksDown := rfl
@[simp] theorem State.modSlot_unreach (r u k : Nat) (f : Slot → Slot) (s : State) : (s.modSlot r u k f).unreach = s.unreach := rfl
@[simp] theorem State.modSlot_expandersDown (r u k : Nat) (f : Slot → Slot) (s : State) : (s.modSlot r u k f).expandersDown = s.expandersDown := rfl
@[simp] theorem State.modSlot_retired (r u k : Nat) (f : Slot → Slot) (s : State) : (s.modSlot r u k f).retired = s.retired := rfl
@[simp] theorem State.modSlot_notices (r u k : Nat) (f : Slot → Slot) (s : State) : (s.modSlot r u k f).notices = s.notices := rfl
@[simp] theorem State.modSlot_errors (r u k : Nat) (f : Slot → Slot) (s : State) : (s.modSlot r u k f).errors = s.errors := rfl
@[simp] theorem State.modSlot_corrected (r u k : Nat) (f : Slot → Slot) (s : State) : (s.modSlot r u k f).corrected = s.corrected := rfl
@[simp] theorem State.modSlot_throttled (r u k : Nat) (f : Slot → Slot) (s : State) : (s.modSlot r u k f).throttled = s.throttled := rfl
@[simp] theorem State.modHereR_turn (f : Region → Region) (s : State) : (s.modHereR f).turn = s.turn := rfl
@[simp] theorem State.modHereR_cur (f : Region → Region) (s : State) : (s.modHereR f).cur = s.cur := rfl
@[simp] theorem State.modHereR_agenda (f : Region → Region) (s : State) : (s.modHereR f).agenda = s.agenda := rfl
@[simp] theorem State.modHereR_fresh (f : Region → Region) (s : State) : (s.modHereR f).fresh = s.fresh := rfl
@[simp] theorem State.modHereR_time (f : Region → Region) (s : State) : (s.modHereR f).time = s.time := rfl
@[simp] theorem State.modHereR_moment (f : Region → Region) (s : State) : (s.modHereR f).moment = s.moment := rfl
@[simp] theorem State.modHereR_smem (f : Region → Region) (s : State) : (s.modHereR f).smem = s.smem := rfl
@[simp] theorem State.modHereR_lmem (f : Region → Region) (s : State) : (s.modHereR f).lmem = s.lmem := rfl
@[simp] theorem State.modHereR_tmem (f : Region → Region) (s : State) : (s.modHereR f).tmem = s.tmem := rfl
@[simp] theorem State.modHereR_contexts (f : Region → Region) (s : State) : (s.modHereR f).contexts = s.contexts := rfl
@[simp] theorem State.modHereR_gens (f : Region → Region) (s : State) : (s.modHereR f).gens = s.gens := rfl
@[simp] theorem State.modHereR_places (f : Region → Region) (s : State) : (s.modHereR f).places = s.places := rfl
@[simp] theorem State.modHereR_metas (f : Region → Region) (s : State) : (s.modHereR f).metas = s.metas := rfl
@[simp] theorem State.modHereR_metaHeld (f : Region → Region) (s : State) : (s.modHereR f).metaHeld = s.metaHeld := rfl
@[simp] theorem State.modHereR_roots (f : Region → Region) (s : State) : (s.modHereR f).roots = s.roots := rfl
@[simp] theorem State.modHereR_spoilt (f : Region → Region) (s : State) : (s.modHereR f).spoilt = s.spoilt := rfl
@[simp] theorem State.modHereR_leaving (f : Region → Region) (s : State) : (s.modHereR f).leaving = s.leaving := rfl
@[simp] theorem State.modHereR_rekeys (f : Region → Region) (s : State) : (s.modHereR f).rekeys = s.rekeys := rfl
@[simp] theorem State.modHereR_held (f : Region → Region) (s : State) : (s.modHereR f).held = s.held := rfl
@[simp] theorem State.modHereR_keys (f : Region → Region) (s : State) : (s.modHereR f).keys = s.keys := rfl
@[simp] theorem State.modHereR_attest (f : Region → Region) (s : State) : (s.modHereR f).attest = s.attest := rfl
@[simp] theorem State.modHereR_tlb (f : Region → Region) (s : State) : (s.modHereR f).tlb = s.tlb := rfl
@[simp] theorem State.modHereR_tlb2 (f : Region → Region) (s : State) : (s.modHereR f).tlb2 = s.tlb2 := rfl
@[simp] theorem State.modHereR_walks (f : Region → Region) (s : State) : (s.modHereR f).walks = s.walks := rfl
@[simp] theorem State.modHereR_tnames (f : Region → Region) (s : State) : (s.modHereR f).tnames = s.tnames := rfl
@[simp] theorem State.modHereR_scrubSeq (f : Region → Region) (s : State) : (s.modHereR f).scrubSeq = s.scrubSeq := rfl
@[simp] theorem State.modHereR_life (f : Region → Region) (s : State) : (s.modHereR f).life = s.life := rfl
@[simp] theorem State.modHereR_fuse (f : Region → Region) (s : State) : (s.modHereR f).fuse = s.fuse := rfl
@[simp] theorem State.modHereR_funcs (f : Region → Region) (s : State) : (s.modHereR f).funcs = s.funcs := rfl
@[simp] theorem State.modHereR_faults (f : Region → Region) (s : State) : (s.modHereR f).faults = s.faults := rfl
@[simp] theorem State.modHereR_nextTag (f : Region → Region) (s : State) : (s.modHereR f).nextTag = s.nextTag := rfl
@[simp] theorem State.modHereR_admin (f : Region → Region) (s : State) : (s.modHereR f).admin = s.admin := rfl
@[simp] theorem State.modHereR_hostMem (f : Region → Region) (s : State) : (s.modHereR f).hostMem = s.hostMem := rfl
@[simp] theorem State.modHereR_gangs (f : Region → Region) (s : State) : (s.modHereR f).gangs = s.gangs := rfl
@[simp] theorem State.modHereR_domainRank (f : Region → Region) (s : State) : (s.modHereR f).domainRank = s.domainRank := rfl
@[simp] theorem State.modHereR_linksDown (f : Region → Region) (s : State) : (s.modHereR f).linksDown = s.linksDown := rfl
@[simp] theorem State.modHereR_unreach (f : Region → Region) (s : State) : (s.modHereR f).unreach = s.unreach := rfl
@[simp] theorem State.modHereR_expandersDown (f : Region → Region) (s : State) : (s.modHereR f).expandersDown = s.expandersDown := rfl
@[simp] theorem State.modHereR_retired (f : Region → Region) (s : State) : (s.modHereR f).retired = s.retired := rfl
@[simp] theorem State.modHereR_notices (f : Region → Region) (s : State) : (s.modHereR f).notices = s.notices := rfl
@[simp] theorem State.modHereR_errors (f : Region → Region) (s : State) : (s.modHereR f).errors = s.errors := rfl
@[simp] theorem State.modHereR_corrected (f : Region → Region) (s : State) : (s.modHereR f).corrected = s.corrected := rfl
@[simp] theorem State.modHereR_throttled (f : Region → Region) (s : State) : (s.modHereR f).throttled = s.throttled := rfl
@[simp] theorem State.modHereC_turn (f : Core → Core) (s : State) : (s.modHereC f).turn = s.turn := rfl
@[simp] theorem State.modHereC_cur (f : Core → Core) (s : State) : (s.modHereC f).cur = s.cur := rfl
@[simp] theorem State.modHereC_agenda (f : Core → Core) (s : State) : (s.modHereC f).agenda = s.agenda := rfl
@[simp] theorem State.modHereC_fresh (f : Core → Core) (s : State) : (s.modHereC f).fresh = s.fresh := rfl
@[simp] theorem State.modHereC_time (f : Core → Core) (s : State) : (s.modHereC f).time = s.time := rfl
@[simp] theorem State.modHereC_moment (f : Core → Core) (s : State) : (s.modHereC f).moment = s.moment := rfl
@[simp] theorem State.modHereC_smem (f : Core → Core) (s : State) : (s.modHereC f).smem = s.smem := rfl
@[simp] theorem State.modHereC_lmem (f : Core → Core) (s : State) : (s.modHereC f).lmem = s.lmem := rfl
@[simp] theorem State.modHereC_tmem (f : Core → Core) (s : State) : (s.modHereC f).tmem = s.tmem := rfl
@[simp] theorem State.modHereC_contexts (f : Core → Core) (s : State) : (s.modHereC f).contexts = s.contexts := rfl
@[simp] theorem State.modHereC_gens (f : Core → Core) (s : State) : (s.modHereC f).gens = s.gens := rfl
@[simp] theorem State.modHereC_places (f : Core → Core) (s : State) : (s.modHereC f).places = s.places := rfl
@[simp] theorem State.modHereC_metas (f : Core → Core) (s : State) : (s.modHereC f).metas = s.metas := rfl
@[simp] theorem State.modHereC_metaHeld (f : Core → Core) (s : State) : (s.modHereC f).metaHeld = s.metaHeld := rfl
@[simp] theorem State.modHereC_roots (f : Core → Core) (s : State) : (s.modHereC f).roots = s.roots := rfl
@[simp] theorem State.modHereC_spoilt (f : Core → Core) (s : State) : (s.modHereC f).spoilt = s.spoilt := rfl
@[simp] theorem State.modHereC_leaving (f : Core → Core) (s : State) : (s.modHereC f).leaving = s.leaving := rfl
@[simp] theorem State.modHereC_rekeys (f : Core → Core) (s : State) : (s.modHereC f).rekeys = s.rekeys := rfl
@[simp] theorem State.modHereC_held (f : Core → Core) (s : State) : (s.modHereC f).held = s.held := rfl
@[simp] theorem State.modHereC_keys (f : Core → Core) (s : State) : (s.modHereC f).keys = s.keys := rfl
@[simp] theorem State.modHereC_attest (f : Core → Core) (s : State) : (s.modHereC f).attest = s.attest := rfl
@[simp] theorem State.modHereC_tlb (f : Core → Core) (s : State) : (s.modHereC f).tlb = s.tlb := rfl
@[simp] theorem State.modHereC_tlb2 (f : Core → Core) (s : State) : (s.modHereC f).tlb2 = s.tlb2 := rfl
@[simp] theorem State.modHereC_walks (f : Core → Core) (s : State) : (s.modHereC f).walks = s.walks := rfl
@[simp] theorem State.modHereC_tnames (f : Core → Core) (s : State) : (s.modHereC f).tnames = s.tnames := rfl
@[simp] theorem State.modHereC_scrubSeq (f : Core → Core) (s : State) : (s.modHereC f).scrubSeq = s.scrubSeq := rfl
@[simp] theorem State.modHereC_life (f : Core → Core) (s : State) : (s.modHereC f).life = s.life := rfl
@[simp] theorem State.modHereC_fuse (f : Core → Core) (s : State) : (s.modHereC f).fuse = s.fuse := rfl
@[simp] theorem State.modHereC_funcs (f : Core → Core) (s : State) : (s.modHereC f).funcs = s.funcs := rfl
@[simp] theorem State.modHereC_faults (f : Core → Core) (s : State) : (s.modHereC f).faults = s.faults := rfl
@[simp] theorem State.modHereC_nextTag (f : Core → Core) (s : State) : (s.modHereC f).nextTag = s.nextTag := rfl
@[simp] theorem State.modHereC_admin (f : Core → Core) (s : State) : (s.modHereC f).admin = s.admin := rfl
@[simp] theorem State.modHereC_hostMem (f : Core → Core) (s : State) : (s.modHereC f).hostMem = s.hostMem := rfl
@[simp] theorem State.modHereC_gangs (f : Core → Core) (s : State) : (s.modHereC f).gangs = s.gangs := rfl
@[simp] theorem State.modHereC_domainRank (f : Core → Core) (s : State) : (s.modHereC f).domainRank = s.domainRank := rfl
@[simp] theorem State.modHereC_linksDown (f : Core → Core) (s : State) : (s.modHereC f).linksDown = s.linksDown := rfl
@[simp] theorem State.modHereC_unreach (f : Core → Core) (s : State) : (s.modHereC f).unreach = s.unreach := rfl
@[simp] theorem State.modHereC_expandersDown (f : Core → Core) (s : State) : (s.modHereC f).expandersDown = s.expandersDown := rfl
@[simp] theorem State.modHereC_retired (f : Core → Core) (s : State) : (s.modHereC f).retired = s.retired := rfl
@[simp] theorem State.modHereC_notices (f : Core → Core) (s : State) : (s.modHereC f).notices = s.notices := rfl
@[simp] theorem State.modHereC_errors (f : Core → Core) (s : State) : (s.modHereC f).errors = s.errors := rfl
@[simp] theorem State.modHereC_corrected (f : Core → Core) (s : State) : (s.modHereC f).corrected = s.corrected := rfl
@[simp] theorem State.modHereC_throttled (f : Core → Core) (s : State) : (s.modHereC f).throttled = s.throttled := rfl
@[simp] theorem State.modHere_turn (f : Slot → Slot) (s : State) : (s.modHere f).turn = s.turn := rfl
@[simp] theorem State.modHere_cur (f : Slot → Slot) (s : State) : (s.modHere f).cur = s.cur := rfl
@[simp] theorem State.modHere_agenda (f : Slot → Slot) (s : State) : (s.modHere f).agenda = s.agenda := rfl
@[simp] theorem State.modHere_fresh (f : Slot → Slot) (s : State) : (s.modHere f).fresh = s.fresh := rfl
@[simp] theorem State.modHere_time (f : Slot → Slot) (s : State) : (s.modHere f).time = s.time := rfl
@[simp] theorem State.modHere_moment (f : Slot → Slot) (s : State) : (s.modHere f).moment = s.moment := rfl
@[simp] theorem State.modHere_smem (f : Slot → Slot) (s : State) : (s.modHere f).smem = s.smem := rfl
@[simp] theorem State.modHere_lmem (f : Slot → Slot) (s : State) : (s.modHere f).lmem = s.lmem := rfl
@[simp] theorem State.modHere_tmem (f : Slot → Slot) (s : State) : (s.modHere f).tmem = s.tmem := rfl
@[simp] theorem State.modHere_contexts (f : Slot → Slot) (s : State) : (s.modHere f).contexts = s.contexts := rfl
@[simp] theorem State.modHere_gens (f : Slot → Slot) (s : State) : (s.modHere f).gens = s.gens := rfl
@[simp] theorem State.modHere_places (f : Slot → Slot) (s : State) : (s.modHere f).places = s.places := rfl
@[simp] theorem State.modHere_metas (f : Slot → Slot) (s : State) : (s.modHere f).metas = s.metas := rfl
@[simp] theorem State.modHere_metaHeld (f : Slot → Slot) (s : State) : (s.modHere f).metaHeld = s.metaHeld := rfl
@[simp] theorem State.modHere_roots (f : Slot → Slot) (s : State) : (s.modHere f).roots = s.roots := rfl
@[simp] theorem State.modHere_spoilt (f : Slot → Slot) (s : State) : (s.modHere f).spoilt = s.spoilt := rfl
@[simp] theorem State.modHere_leaving (f : Slot → Slot) (s : State) : (s.modHere f).leaving = s.leaving := rfl
@[simp] theorem State.modHere_rekeys (f : Slot → Slot) (s : State) : (s.modHere f).rekeys = s.rekeys := rfl
@[simp] theorem State.modHere_held (f : Slot → Slot) (s : State) : (s.modHere f).held = s.held := rfl
@[simp] theorem State.modHere_keys (f : Slot → Slot) (s : State) : (s.modHere f).keys = s.keys := rfl
@[simp] theorem State.modHere_attest (f : Slot → Slot) (s : State) : (s.modHere f).attest = s.attest := rfl
@[simp] theorem State.modHere_tlb (f : Slot → Slot) (s : State) : (s.modHere f).tlb = s.tlb := rfl
@[simp] theorem State.modHere_tlb2 (f : Slot → Slot) (s : State) : (s.modHere f).tlb2 = s.tlb2 := rfl
@[simp] theorem State.modHere_walks (f : Slot → Slot) (s : State) : (s.modHere f).walks = s.walks := rfl
@[simp] theorem State.modHere_tnames (f : Slot → Slot) (s : State) : (s.modHere f).tnames = s.tnames := rfl
@[simp] theorem State.modHere_scrubSeq (f : Slot → Slot) (s : State) : (s.modHere f).scrubSeq = s.scrubSeq := rfl
@[simp] theorem State.modHere_life (f : Slot → Slot) (s : State) : (s.modHere f).life = s.life := rfl
@[simp] theorem State.modHere_fuse (f : Slot → Slot) (s : State) : (s.modHere f).fuse = s.fuse := rfl
@[simp] theorem State.modHere_funcs (f : Slot → Slot) (s : State) : (s.modHere f).funcs = s.funcs := rfl
@[simp] theorem State.modHere_faults (f : Slot → Slot) (s : State) : (s.modHere f).faults = s.faults := rfl
@[simp] theorem State.modHere_nextTag (f : Slot → Slot) (s : State) : (s.modHere f).nextTag = s.nextTag := rfl
@[simp] theorem State.modHere_admin (f : Slot → Slot) (s : State) : (s.modHere f).admin = s.admin := rfl
@[simp] theorem State.modHere_hostMem (f : Slot → Slot) (s : State) : (s.modHere f).hostMem = s.hostMem := rfl
@[simp] theorem State.modHere_gangs (f : Slot → Slot) (s : State) : (s.modHere f).gangs = s.gangs := rfl
@[simp] theorem State.modHere_domainRank (f : Slot → Slot) (s : State) : (s.modHere f).domainRank = s.domainRank := rfl
@[simp] theorem State.modHere_linksDown (f : Slot → Slot) (s : State) : (s.modHere f).linksDown = s.linksDown := rfl
@[simp] theorem State.modHere_unreach (f : Slot → Slot) (s : State) : (s.modHere f).unreach = s.unreach := rfl
@[simp] theorem State.modHere_expandersDown (f : Slot → Slot) (s : State) : (s.modHere f).expandersDown = s.expandersDown := rfl
@[simp] theorem State.modHere_retired (f : Slot → Slot) (s : State) : (s.modHere f).retired = s.retired := rfl
@[simp] theorem State.modHere_notices (f : Slot → Slot) (s : State) : (s.modHere f).notices = s.notices := rfl
@[simp] theorem State.modHere_errors (f : Slot → Slot) (s : State) : (s.modHere f).errors = s.errors := rfl
@[simp] theorem State.modHere_corrected (f : Slot → Slot) (s : State) : (s.modHere f).corrected = s.corrected := rfl
@[simp] theorem State.modHere_throttled (f : Slot → Slot) (s : State) : (s.modHere f).throttled = s.throttled := rfl
@[simp] theorem State.setFunc_turn (n : Nat) (F : Func) (s : State) : (s.setFunc n F).turn = s.turn := rfl
@[simp] theorem State.setFunc_cur (n : Nat) (F : Func) (s : State) : (s.setFunc n F).cur = s.cur := rfl
@[simp] theorem State.setFunc_agenda (n : Nat) (F : Func) (s : State) : (s.setFunc n F).agenda = s.agenda := rfl
@[simp] theorem State.setFunc_fresh (n : Nat) (F : Func) (s : State) : (s.setFunc n F).fresh = s.fresh := rfl
@[simp] theorem State.setFunc_time (n : Nat) (F : Func) (s : State) : (s.setFunc n F).time = s.time := rfl
@[simp] theorem State.setFunc_moment (n : Nat) (F : Func) (s : State) : (s.setFunc n F).moment = s.moment := rfl
@[simp] theorem State.setFunc_smem (n : Nat) (F : Func) (s : State) : (s.setFunc n F).smem = s.smem := rfl
@[simp] theorem State.setFunc_lmem (n : Nat) (F : Func) (s : State) : (s.setFunc n F).lmem = s.lmem := rfl
@[simp] theorem State.setFunc_tmem (n : Nat) (F : Func) (s : State) : (s.setFunc n F).tmem = s.tmem := rfl
@[simp] theorem State.setFunc_regions (n : Nat) (F : Func) (s : State) : (s.setFunc n F).regions = s.regions := rfl
@[simp] theorem State.setFunc_contexts (n : Nat) (F : Func) (s : State) : (s.setFunc n F).contexts = s.contexts := rfl
@[simp] theorem State.setFunc_gens (n : Nat) (F : Func) (s : State) : (s.setFunc n F).gens = s.gens := rfl
@[simp] theorem State.setFunc_places (n : Nat) (F : Func) (s : State) : (s.setFunc n F).places = s.places := rfl
@[simp] theorem State.setFunc_metas (n : Nat) (F : Func) (s : State) : (s.setFunc n F).metas = s.metas := rfl
@[simp] theorem State.setFunc_metaHeld (n : Nat) (F : Func) (s : State) : (s.setFunc n F).metaHeld = s.metaHeld := rfl
@[simp] theorem State.setFunc_roots (n : Nat) (F : Func) (s : State) : (s.setFunc n F).roots = s.roots := rfl
@[simp] theorem State.setFunc_spoilt (n : Nat) (F : Func) (s : State) : (s.setFunc n F).spoilt = s.spoilt := rfl
@[simp] theorem State.setFunc_leaving (n : Nat) (F : Func) (s : State) : (s.setFunc n F).leaving = s.leaving := rfl
@[simp] theorem State.setFunc_rekeys (n : Nat) (F : Func) (s : State) : (s.setFunc n F).rekeys = s.rekeys := rfl
@[simp] theorem State.setFunc_held (n : Nat) (F : Func) (s : State) : (s.setFunc n F).held = s.held := rfl
@[simp] theorem State.setFunc_keys (n : Nat) (F : Func) (s : State) : (s.setFunc n F).keys = s.keys := rfl
@[simp] theorem State.setFunc_attest (n : Nat) (F : Func) (s : State) : (s.setFunc n F).attest = s.attest := rfl
@[simp] theorem State.setFunc_tlb (n : Nat) (F : Func) (s : State) : (s.setFunc n F).tlb = s.tlb := rfl
@[simp] theorem State.setFunc_tlb2 (n : Nat) (F : Func) (s : State) : (s.setFunc n F).tlb2 = s.tlb2 := rfl
@[simp] theorem State.setFunc_walks (n : Nat) (F : Func) (s : State) : (s.setFunc n F).walks = s.walks := rfl
@[simp] theorem State.setFunc_tnames (n : Nat) (F : Func) (s : State) : (s.setFunc n F).tnames = s.tnames := rfl
@[simp] theorem State.setFunc_scrubSeq (n : Nat) (F : Func) (s : State) : (s.setFunc n F).scrubSeq = s.scrubSeq := rfl
@[simp] theorem State.setFunc_life (n : Nat) (F : Func) (s : State) : (s.setFunc n F).life = s.life := rfl
@[simp] theorem State.setFunc_fuse (n : Nat) (F : Func) (s : State) : (s.setFunc n F).fuse = s.fuse := rfl
@[simp] theorem State.setFunc_faults (n : Nat) (F : Func) (s : State) : (s.setFunc n F).faults = s.faults := rfl
@[simp] theorem State.setFunc_nextTag (n : Nat) (F : Func) (s : State) : (s.setFunc n F).nextTag = s.nextTag := rfl
@[simp] theorem State.setFunc_admin (n : Nat) (F : Func) (s : State) : (s.setFunc n F).admin = s.admin := rfl
@[simp] theorem State.setFunc_hostMem (n : Nat) (F : Func) (s : State) : (s.setFunc n F).hostMem = s.hostMem := rfl
@[simp] theorem State.setFunc_gangs (n : Nat) (F : Func) (s : State) : (s.setFunc n F).gangs = s.gangs := rfl
@[simp] theorem State.setFunc_domainRank (n : Nat) (F : Func) (s : State) : (s.setFunc n F).domainRank = s.domainRank := rfl
@[simp] theorem State.setFunc_linksDown (n : Nat) (F : Func) (s : State) : (s.setFunc n F).linksDown = s.linksDown := rfl
@[simp] theorem State.setFunc_unreach (n : Nat) (F : Func) (s : State) : (s.setFunc n F).unreach = s.unreach := rfl
@[simp] theorem State.setFunc_expandersDown (n : Nat) (F : Func) (s : State) : (s.setFunc n F).expandersDown = s.expandersDown := rfl
@[simp] theorem State.setFunc_retired (n : Nat) (F : Func) (s : State) : (s.setFunc n F).retired = s.retired := rfl
@[simp] theorem State.setFunc_notices (n : Nat) (F : Func) (s : State) : (s.setFunc n F).notices = s.notices := rfl
@[simp] theorem State.setFunc_errors (n : Nat) (F : Func) (s : State) : (s.setFunc n F).errors = s.errors := rfl
@[simp] theorem State.setFunc_corrected (n : Nat) (F : Func) (s : State) : (s.setFunc n F).corrected = s.corrected := rfl
@[simp] theorem State.setFunc_throttled (n : Nat) (F : Func) (s : State) : (s.setFunc n F).throttled = s.throttled := rfl
@[simp] theorem State.modCtx_turn (a : Nat) (f : Context → Context) (s : State) : (s.modCtx a f).turn = s.turn := by
  simp only [State.modCtx]; split <;> rfl
@[simp] theorem State.modCtx_cur (a : Nat) (f : Context → Context) (s : State) : (s.modCtx a f).cur = s.cur := by
  simp only [State.modCtx]; split <;> rfl
@[simp] theorem State.modCtx_agenda (a : Nat) (f : Context → Context) (s : State) : (s.modCtx a f).agenda = s.agenda := by
  simp only [State.modCtx]; split <;> rfl
@[simp] theorem State.modCtx_fresh (a : Nat) (f : Context → Context) (s : State) : (s.modCtx a f).fresh = s.fresh := by
  simp only [State.modCtx]; split <;> rfl
@[simp] theorem State.modCtx_time (a : Nat) (f : Context → Context) (s : State) : (s.modCtx a f).time = s.time := by
  simp only [State.modCtx]; split <;> rfl
@[simp] theorem State.modCtx_moment (a : Nat) (f : Context → Context) (s : State) : (s.modCtx a f).moment = s.moment := by
  simp only [State.modCtx]; split <;> rfl
@[simp] theorem State.modCtx_smem (a : Nat) (f : Context → Context) (s : State) : (s.modCtx a f).smem = s.smem := by
  simp only [State.modCtx]; split <;> rfl
@[simp] theorem State.modCtx_lmem (a : Nat) (f : Context → Context) (s : State) : (s.modCtx a f).lmem = s.lmem := by
  simp only [State.modCtx]; split <;> rfl
@[simp] theorem State.modCtx_tmem (a : Nat) (f : Context → Context) (s : State) : (s.modCtx a f).tmem = s.tmem := by
  simp only [State.modCtx]; split <;> rfl
@[simp] theorem State.modCtx_regions (a : Nat) (f : Context → Context) (s : State) : (s.modCtx a f).regions = s.regions := by
  simp only [State.modCtx]; split <;> rfl
@[simp] theorem State.modCtx_gens (a : Nat) (f : Context → Context) (s : State) : (s.modCtx a f).gens = s.gens := by
  simp only [State.modCtx]; split <;> rfl
@[simp] theorem State.modCtx_places (a : Nat) (f : Context → Context) (s : State) : (s.modCtx a f).places = s.places := by
  simp only [State.modCtx]; split <;> rfl
@[simp] theorem State.modCtx_metas (a : Nat) (f : Context → Context) (s : State) : (s.modCtx a f).metas = s.metas := by
  simp only [State.modCtx]; split <;> rfl
@[simp] theorem State.modCtx_metaHeld (a : Nat) (f : Context → Context) (s : State) : (s.modCtx a f).metaHeld = s.metaHeld := by
  simp only [State.modCtx]; split <;> rfl
@[simp] theorem State.modCtx_roots (a : Nat) (f : Context → Context) (s : State) : (s.modCtx a f).roots = s.roots := by
  simp only [State.modCtx]; split <;> rfl
@[simp] theorem State.modCtx_spoilt (a : Nat) (f : Context → Context) (s : State) : (s.modCtx a f).spoilt = s.spoilt := by
  simp only [State.modCtx]; split <;> rfl
@[simp] theorem State.modCtx_leaving (a : Nat) (f : Context → Context) (s : State) : (s.modCtx a f).leaving = s.leaving := by
  simp only [State.modCtx]; split <;> rfl
@[simp] theorem State.modCtx_rekeys (a : Nat) (f : Context → Context) (s : State) : (s.modCtx a f).rekeys = s.rekeys := by
  simp only [State.modCtx]; split <;> rfl
@[simp] theorem State.modCtx_held (a : Nat) (f : Context → Context) (s : State) : (s.modCtx a f).held = s.held := by
  simp only [State.modCtx]; split <;> rfl
@[simp] theorem State.modCtx_keys (a : Nat) (f : Context → Context) (s : State) : (s.modCtx a f).keys = s.keys := by
  simp only [State.modCtx]; split <;> rfl
@[simp] theorem State.modCtx_attest (a : Nat) (f : Context → Context) (s : State) : (s.modCtx a f).attest = s.attest := by
  simp only [State.modCtx]; split <;> rfl
@[simp] theorem State.modCtx_tlb (a : Nat) (f : Context → Context) (s : State) : (s.modCtx a f).tlb = s.tlb := by
  simp only [State.modCtx]; split <;> rfl
@[simp] theorem State.modCtx_tlb2 (a : Nat) (f : Context → Context) (s : State) : (s.modCtx a f).tlb2 = s.tlb2 := by
  simp only [State.modCtx]; split <;> rfl
@[simp] theorem State.modCtx_walks (a : Nat) (f : Context → Context) (s : State) : (s.modCtx a f).walks = s.walks := by
  simp only [State.modCtx]; split <;> rfl
@[simp] theorem State.modCtx_tnames (a : Nat) (f : Context → Context) (s : State) : (s.modCtx a f).tnames = s.tnames := by
  simp only [State.modCtx]; split <;> rfl
@[simp] theorem State.modCtx_scrubSeq (a : Nat) (f : Context → Context) (s : State) : (s.modCtx a f).scrubSeq = s.scrubSeq := by
  simp only [State.modCtx]; split <;> rfl
@[simp] theorem State.modCtx_life (a : Nat) (f : Context → Context) (s : State) : (s.modCtx a f).life = s.life := by
  simp only [State.modCtx]; split <;> rfl
@[simp] theorem State.modCtx_fuse (a : Nat) (f : Context → Context) (s : State) : (s.modCtx a f).fuse = s.fuse := by
  simp only [State.modCtx]; split <;> rfl
@[simp] theorem State.modCtx_funcs (a : Nat) (f : Context → Context) (s : State) : (s.modCtx a f).funcs = s.funcs := by
  simp only [State.modCtx]; split <;> rfl
@[simp] theorem State.modCtx_faults (a : Nat) (f : Context → Context) (s : State) : (s.modCtx a f).faults = s.faults := by
  simp only [State.modCtx]; split <;> rfl
@[simp] theorem State.modCtx_nextTag (a : Nat) (f : Context → Context) (s : State) : (s.modCtx a f).nextTag = s.nextTag := by
  simp only [State.modCtx]; split <;> rfl
@[simp] theorem State.modCtx_admin (a : Nat) (f : Context → Context) (s : State) : (s.modCtx a f).admin = s.admin := by
  simp only [State.modCtx]; split <;> rfl
@[simp] theorem State.modCtx_hostMem (a : Nat) (f : Context → Context) (s : State) : (s.modCtx a f).hostMem = s.hostMem := by
  simp only [State.modCtx]; split <;> rfl
@[simp] theorem State.modCtx_gangs (a : Nat) (f : Context → Context) (s : State) : (s.modCtx a f).gangs = s.gangs := by
  simp only [State.modCtx]; split <;> rfl
@[simp] theorem State.modCtx_domainRank (a : Nat) (f : Context → Context) (s : State) : (s.modCtx a f).domainRank = s.domainRank := by
  simp only [State.modCtx]; split <;> rfl
@[simp] theorem State.modCtx_linksDown (a : Nat) (f : Context → Context) (s : State) : (s.modCtx a f).linksDown = s.linksDown := by
  simp only [State.modCtx]; split <;> rfl
@[simp] theorem State.modCtx_unreach (a : Nat) (f : Context → Context) (s : State) : (s.modCtx a f).unreach = s.unreach := by
  simp only [State.modCtx]; split <;> rfl
@[simp] theorem State.modCtx_expandersDown (a : Nat) (f : Context → Context) (s : State) : (s.modCtx a f).expandersDown = s.expandersDown := by
  simp only [State.modCtx]; split <;> rfl
@[simp] theorem State.modCtx_retired (a : Nat) (f : Context → Context) (s : State) : (s.modCtx a f).retired = s.retired := by
  simp only [State.modCtx]; split <;> rfl
@[simp] theorem State.modCtx_notices (a : Nat) (f : Context → Context) (s : State) : (s.modCtx a f).notices = s.notices := by
  simp only [State.modCtx]; split <;> rfl
@[simp] theorem State.modCtx_errors (a : Nat) (f : Context → Context) (s : State) : (s.modCtx a f).errors = s.errors := by
  simp only [State.modCtx]; split <;> rfl
@[simp] theorem State.modCtx_corrected (a : Nat) (f : Context → Context) (s : State) : (s.modCtx a f).corrected = s.corrected := by
  simp only [State.modCtx]; split <;> rfl
@[simp] theorem State.modCtx_throttled (a : Nat) (f : Context → Context) (s : State) : (s.modCtx a f).throttled = s.throttled := by
  simp only [State.modCtx]; split <;> rfl
@[simp] theorem State.modGang_turn (g : Nat) (f : Gang → Gang) (s : State) : (s.modGang g f).turn = s.turn := by
  simp only [State.modGang]; split <;> rfl
@[simp] theorem State.modGang_cur (g : Nat) (f : Gang → Gang) (s : State) : (s.modGang g f).cur = s.cur := by
  simp only [State.modGang]; split <;> rfl
@[simp] theorem State.modGang_agenda (g : Nat) (f : Gang → Gang) (s : State) : (s.modGang g f).agenda = s.agenda := by
  simp only [State.modGang]; split <;> rfl
@[simp] theorem State.modGang_fresh (g : Nat) (f : Gang → Gang) (s : State) : (s.modGang g f).fresh = s.fresh := by
  simp only [State.modGang]; split <;> rfl
@[simp] theorem State.modGang_time (g : Nat) (f : Gang → Gang) (s : State) : (s.modGang g f).time = s.time := by
  simp only [State.modGang]; split <;> rfl
@[simp] theorem State.modGang_moment (g : Nat) (f : Gang → Gang) (s : State) : (s.modGang g f).moment = s.moment := by
  simp only [State.modGang]; split <;> rfl
@[simp] theorem State.modGang_smem (g : Nat) (f : Gang → Gang) (s : State) : (s.modGang g f).smem = s.smem := by
  simp only [State.modGang]; split <;> rfl
@[simp] theorem State.modGang_lmem (g : Nat) (f : Gang → Gang) (s : State) : (s.modGang g f).lmem = s.lmem := by
  simp only [State.modGang]; split <;> rfl
@[simp] theorem State.modGang_tmem (g : Nat) (f : Gang → Gang) (s : State) : (s.modGang g f).tmem = s.tmem := by
  simp only [State.modGang]; split <;> rfl
@[simp] theorem State.modGang_regions (g : Nat) (f : Gang → Gang) (s : State) : (s.modGang g f).regions = s.regions := by
  simp only [State.modGang]; split <;> rfl
@[simp] theorem State.modGang_contexts (g : Nat) (f : Gang → Gang) (s : State) : (s.modGang g f).contexts = s.contexts := by
  simp only [State.modGang]; split <;> rfl
@[simp] theorem State.modGang_gens (g : Nat) (f : Gang → Gang) (s : State) : (s.modGang g f).gens = s.gens := by
  simp only [State.modGang]; split <;> rfl
@[simp] theorem State.modGang_places (g : Nat) (f : Gang → Gang) (s : State) : (s.modGang g f).places = s.places := by
  simp only [State.modGang]; split <;> rfl
@[simp] theorem State.modGang_metas (g : Nat) (f : Gang → Gang) (s : State) : (s.modGang g f).metas = s.metas := by
  simp only [State.modGang]; split <;> rfl
@[simp] theorem State.modGang_metaHeld (g : Nat) (f : Gang → Gang) (s : State) : (s.modGang g f).metaHeld = s.metaHeld := by
  simp only [State.modGang]; split <;> rfl
@[simp] theorem State.modGang_roots (g : Nat) (f : Gang → Gang) (s : State) : (s.modGang g f).roots = s.roots := by
  simp only [State.modGang]; split <;> rfl
@[simp] theorem State.modGang_spoilt (g : Nat) (f : Gang → Gang) (s : State) : (s.modGang g f).spoilt = s.spoilt := by
  simp only [State.modGang]; split <;> rfl
@[simp] theorem State.modGang_leaving (g : Nat) (f : Gang → Gang) (s : State) : (s.modGang g f).leaving = s.leaving := by
  simp only [State.modGang]; split <;> rfl
@[simp] theorem State.modGang_rekeys (g : Nat) (f : Gang → Gang) (s : State) : (s.modGang g f).rekeys = s.rekeys := by
  simp only [State.modGang]; split <;> rfl
@[simp] theorem State.modGang_held (g : Nat) (f : Gang → Gang) (s : State) : (s.modGang g f).held = s.held := by
  simp only [State.modGang]; split <;> rfl
@[simp] theorem State.modGang_keys (g : Nat) (f : Gang → Gang) (s : State) : (s.modGang g f).keys = s.keys := by
  simp only [State.modGang]; split <;> rfl
@[simp] theorem State.modGang_attest (g : Nat) (f : Gang → Gang) (s : State) : (s.modGang g f).attest = s.attest := by
  simp only [State.modGang]; split <;> rfl
@[simp] theorem State.modGang_tlb (g : Nat) (f : Gang → Gang) (s : State) : (s.modGang g f).tlb = s.tlb := by
  simp only [State.modGang]; split <;> rfl
@[simp] theorem State.modGang_tlb2 (g : Nat) (f : Gang → Gang) (s : State) : (s.modGang g f).tlb2 = s.tlb2 := by
  simp only [State.modGang]; split <;> rfl
@[simp] theorem State.modGang_walks (g : Nat) (f : Gang → Gang) (s : State) : (s.modGang g f).walks = s.walks := by
  simp only [State.modGang]; split <;> rfl
@[simp] theorem State.modGang_tnames (g : Nat) (f : Gang → Gang) (s : State) : (s.modGang g f).tnames = s.tnames := by
  simp only [State.modGang]; split <;> rfl
@[simp] theorem State.modGang_scrubSeq (g : Nat) (f : Gang → Gang) (s : State) : (s.modGang g f).scrubSeq = s.scrubSeq := by
  simp only [State.modGang]; split <;> rfl
@[simp] theorem State.modGang_life (g : Nat) (f : Gang → Gang) (s : State) : (s.modGang g f).life = s.life := by
  simp only [State.modGang]; split <;> rfl
@[simp] theorem State.modGang_fuse (g : Nat) (f : Gang → Gang) (s : State) : (s.modGang g f).fuse = s.fuse := by
  simp only [State.modGang]; split <;> rfl
@[simp] theorem State.modGang_funcs (g : Nat) (f : Gang → Gang) (s : State) : (s.modGang g f).funcs = s.funcs := by
  simp only [State.modGang]; split <;> rfl
@[simp] theorem State.modGang_faults (g : Nat) (f : Gang → Gang) (s : State) : (s.modGang g f).faults = s.faults := by
  simp only [State.modGang]; split <;> rfl
@[simp] theorem State.modGang_nextTag (g : Nat) (f : Gang → Gang) (s : State) : (s.modGang g f).nextTag = s.nextTag := by
  simp only [State.modGang]; split <;> rfl
@[simp] theorem State.modGang_admin (g : Nat) (f : Gang → Gang) (s : State) : (s.modGang g f).admin = s.admin := by
  simp only [State.modGang]; split <;> rfl
@[simp] theorem State.modGang_hostMem (g : Nat) (f : Gang → Gang) (s : State) : (s.modGang g f).hostMem = s.hostMem := by
  simp only [State.modGang]; split <;> rfl
@[simp] theorem State.modGang_domainRank (g : Nat) (f : Gang → Gang) (s : State) : (s.modGang g f).domainRank = s.domainRank := by
  simp only [State.modGang]; split <;> rfl
@[simp] theorem State.modGang_linksDown (g : Nat) (f : Gang → Gang) (s : State) : (s.modGang g f).linksDown = s.linksDown := by
  simp only [State.modGang]; split <;> rfl
@[simp] theorem State.modGang_unreach (g : Nat) (f : Gang → Gang) (s : State) : (s.modGang g f).unreach = s.unreach := by
  simp only [State.modGang]; split <;> rfl
@[simp] theorem State.modGang_expandersDown (g : Nat) (f : Gang → Gang) (s : State) : (s.modGang g f).expandersDown = s.expandersDown := by
  simp only [State.modGang]; split <;> rfl
@[simp] theorem State.modGang_retired (g : Nat) (f : Gang → Gang) (s : State) : (s.modGang g f).retired = s.retired := by
  simp only [State.modGang]; split <;> rfl
@[simp] theorem State.modGang_notices (g : Nat) (f : Gang → Gang) (s : State) : (s.modGang g f).notices = s.notices := by
  simp only [State.modGang]; split <;> rfl
@[simp] theorem State.modGang_errors (g : Nat) (f : Gang → Gang) (s : State) : (s.modGang g f).errors = s.errors := by
  simp only [State.modGang]; split <;> rfl
@[simp] theorem State.modGang_corrected (g : Nat) (f : Gang → Gang) (s : State) : (s.modGang g f).corrected = s.corrected := by
  simp only [State.modGang]; split <;> rfl
@[simp] theorem State.modGang_throttled (g : Nat) (f : Gang → Gang) (s : State) : (s.modGang g f).throttled = s.throttled := by
  simp only [State.modGang]; split <;> rfl
@[simp] theorem State.draw_turn (s : State) : s.draw.2.turn = s.turn := rfl
@[simp] theorem State.draw_cur (s : State) : s.draw.2.cur = s.cur := rfl
@[simp] theorem State.draw_agenda (s : State) : s.draw.2.agenda = s.agenda := rfl
@[simp] theorem State.draw_time (s : State) : s.draw.2.time = s.time := rfl
@[simp] theorem State.draw_moment (s : State) : s.draw.2.moment = s.moment := rfl
@[simp] theorem State.draw_smem (s : State) : s.draw.2.smem = s.smem := rfl
@[simp] theorem State.draw_lmem (s : State) : s.draw.2.lmem = s.lmem := rfl
@[simp] theorem State.draw_tmem (s : State) : s.draw.2.tmem = s.tmem := rfl
@[simp] theorem State.draw_regions (s : State) : s.draw.2.regions = s.regions := rfl
@[simp] theorem State.draw_contexts (s : State) : s.draw.2.contexts = s.contexts := rfl
@[simp] theorem State.draw_gens (s : State) : s.draw.2.gens = s.gens := rfl
@[simp] theorem State.draw_places (s : State) : s.draw.2.places = s.places := rfl
@[simp] theorem State.draw_metas (s : State) : s.draw.2.metas = s.metas := rfl
@[simp] theorem State.draw_metaHeld (s : State) : s.draw.2.metaHeld = s.metaHeld := rfl
@[simp] theorem State.draw_roots (s : State) : s.draw.2.roots = s.roots := rfl
@[simp] theorem State.draw_spoilt (s : State) : s.draw.2.spoilt = s.spoilt := rfl
@[simp] theorem State.draw_leaving (s : State) : s.draw.2.leaving = s.leaving := rfl
@[simp] theorem State.draw_rekeys (s : State) : s.draw.2.rekeys = s.rekeys := rfl
@[simp] theorem State.draw_held (s : State) : s.draw.2.held = s.held := rfl
@[simp] theorem State.draw_keys (s : State) : s.draw.2.keys = s.keys := rfl
@[simp] theorem State.draw_attest (s : State) : s.draw.2.attest = s.attest := rfl
@[simp] theorem State.draw_tlb (s : State) : s.draw.2.tlb = s.tlb := rfl
@[simp] theorem State.draw_tlb2 (s : State) : s.draw.2.tlb2 = s.tlb2 := rfl
@[simp] theorem State.draw_walks (s : State) : s.draw.2.walks = s.walks := rfl
@[simp] theorem State.draw_tnames (s : State) : s.draw.2.tnames = s.tnames := rfl
@[simp] theorem State.draw_scrubSeq (s : State) : s.draw.2.scrubSeq = s.scrubSeq := rfl
@[simp] theorem State.draw_life (s : State) : s.draw.2.life = s.life := rfl
@[simp] theorem State.draw_fuse (s : State) : s.draw.2.fuse = s.fuse := rfl
@[simp] theorem State.draw_funcs (s : State) : s.draw.2.funcs = s.funcs := rfl
@[simp] theorem State.draw_faults (s : State) : s.draw.2.faults = s.faults := rfl
@[simp] theorem State.draw_nextTag (s : State) : s.draw.2.nextTag = s.nextTag := rfl
@[simp] theorem State.draw_admin (s : State) : s.draw.2.admin = s.admin := rfl
@[simp] theorem State.draw_hostMem (s : State) : s.draw.2.hostMem = s.hostMem := rfl
@[simp] theorem State.draw_gangs (s : State) : s.draw.2.gangs = s.gangs := rfl
@[simp] theorem State.draw_domainRank (s : State) : s.draw.2.domainRank = s.domainRank := rfl
@[simp] theorem State.draw_linksDown (s : State) : s.draw.2.linksDown = s.linksDown := rfl
@[simp] theorem State.draw_unreach (s : State) : s.draw.2.unreach = s.unreach := rfl
@[simp] theorem State.draw_expandersDown (s : State) : s.draw.2.expandersDown = s.expandersDown := rfl
@[simp] theorem State.draw_retired (s : State) : s.draw.2.retired = s.retired := rfl
@[simp] theorem State.draw_notices (s : State) : s.draw.2.notices = s.notices := rfl
@[simp] theorem State.draw_errors (s : State) : s.draw.2.errors = s.errors := rfl
@[simp] theorem State.draw_corrected (s : State) : s.draw.2.corrected = s.corrected := rfl
@[simp] theorem State.draw_throttled (s : State) : s.draw.2.throttled = s.throttled := rfl
@[simp] theorem State.takeId_turn (r : Nat) (s : State) : (s.takeId r).2.turn = s.turn := rfl
@[simp] theorem State.takeId_cur (r : Nat) (s : State) : (s.takeId r).2.cur = s.cur := rfl
@[simp] theorem State.takeId_agenda (r : Nat) (s : State) : (s.takeId r).2.agenda = s.agenda := rfl
@[simp] theorem State.takeId_fresh (r : Nat) (s : State) : (s.takeId r).2.fresh = s.fresh := rfl
@[simp] theorem State.takeId_time (r : Nat) (s : State) : (s.takeId r).2.time = s.time := rfl
@[simp] theorem State.takeId_moment (r : Nat) (s : State) : (s.takeId r).2.moment = s.moment := rfl
@[simp] theorem State.takeId_smem (r : Nat) (s : State) : (s.takeId r).2.smem = s.smem := rfl
@[simp] theorem State.takeId_lmem (r : Nat) (s : State) : (s.takeId r).2.lmem = s.lmem := rfl
@[simp] theorem State.takeId_tmem (r : Nat) (s : State) : (s.takeId r).2.tmem = s.tmem := rfl
@[simp] theorem State.takeId_contexts (r : Nat) (s : State) : (s.takeId r).2.contexts = s.contexts := rfl
@[simp] theorem State.takeId_gens (r : Nat) (s : State) : (s.takeId r).2.gens = s.gens := rfl
@[simp] theorem State.takeId_places (r : Nat) (s : State) : (s.takeId r).2.places = s.places := rfl
@[simp] theorem State.takeId_metas (r : Nat) (s : State) : (s.takeId r).2.metas = s.metas := rfl
@[simp] theorem State.takeId_metaHeld (r : Nat) (s : State) : (s.takeId r).2.metaHeld = s.metaHeld := rfl
@[simp] theorem State.takeId_roots (r : Nat) (s : State) : (s.takeId r).2.roots = s.roots := rfl
@[simp] theorem State.takeId_spoilt (r : Nat) (s : State) : (s.takeId r).2.spoilt = s.spoilt := rfl
@[simp] theorem State.takeId_leaving (r : Nat) (s : State) : (s.takeId r).2.leaving = s.leaving := rfl
@[simp] theorem State.takeId_rekeys (r : Nat) (s : State) : (s.takeId r).2.rekeys = s.rekeys := rfl
@[simp] theorem State.takeId_held (r : Nat) (s : State) : (s.takeId r).2.held = s.held := rfl
@[simp] theorem State.takeId_keys (r : Nat) (s : State) : (s.takeId r).2.keys = s.keys := rfl
@[simp] theorem State.takeId_attest (r : Nat) (s : State) : (s.takeId r).2.attest = s.attest := rfl
@[simp] theorem State.takeId_tlb (r : Nat) (s : State) : (s.takeId r).2.tlb = s.tlb := rfl
@[simp] theorem State.takeId_tlb2 (r : Nat) (s : State) : (s.takeId r).2.tlb2 = s.tlb2 := rfl
@[simp] theorem State.takeId_walks (r : Nat) (s : State) : (s.takeId r).2.walks = s.walks := rfl
@[simp] theorem State.takeId_tnames (r : Nat) (s : State) : (s.takeId r).2.tnames = s.tnames := rfl
@[simp] theorem State.takeId_scrubSeq (r : Nat) (s : State) : (s.takeId r).2.scrubSeq = s.scrubSeq := rfl
@[simp] theorem State.takeId_life (r : Nat) (s : State) : (s.takeId r).2.life = s.life := rfl
@[simp] theorem State.takeId_fuse (r : Nat) (s : State) : (s.takeId r).2.fuse = s.fuse := rfl
@[simp] theorem State.takeId_funcs (r : Nat) (s : State) : (s.takeId r).2.funcs = s.funcs := rfl
@[simp] theorem State.takeId_faults (r : Nat) (s : State) : (s.takeId r).2.faults = s.faults := rfl
@[simp] theorem State.takeId_nextTag (r : Nat) (s : State) : (s.takeId r).2.nextTag = s.nextTag := rfl
@[simp] theorem State.takeId_admin (r : Nat) (s : State) : (s.takeId r).2.admin = s.admin := rfl
@[simp] theorem State.takeId_hostMem (r : Nat) (s : State) : (s.takeId r).2.hostMem = s.hostMem := rfl
@[simp] theorem State.takeId_gangs (r : Nat) (s : State) : (s.takeId r).2.gangs = s.gangs := rfl
@[simp] theorem State.takeId_domainRank (r : Nat) (s : State) : (s.takeId r).2.domainRank = s.domainRank := rfl
@[simp] theorem State.takeId_linksDown (r : Nat) (s : State) : (s.takeId r).2.linksDown = s.linksDown := rfl
@[simp] theorem State.takeId_unreach (r : Nat) (s : State) : (s.takeId r).2.unreach = s.unreach := rfl
@[simp] theorem State.takeId_expandersDown (r : Nat) (s : State) : (s.takeId r).2.expandersDown = s.expandersDown := rfl
@[simp] theorem State.takeId_retired (r : Nat) (s : State) : (s.takeId r).2.retired = s.retired := rfl
@[simp] theorem State.takeId_notices (r : Nat) (s : State) : (s.takeId r).2.notices = s.notices := rfl
@[simp] theorem State.takeId_errors (r : Nat) (s : State) : (s.takeId r).2.errors = s.errors := rfl
@[simp] theorem State.takeId_corrected (r : Nat) (s : State) : (s.takeId r).2.corrected = s.corrected := rfl
@[simp] theorem State.takeId_throttled (r : Nat) (s : State) : (s.takeId r).2.throttled = s.throttled := rfl

/-! ### Reading after an update -/

@[simp] theorem State.region_setRegion_same (r : Nat) (R : Region) (s : State) : (s.setRegion r R).region r = R := by
  simp [State.region, State.setRegion]
theorem State.region_setRegion (q r : Nat) (R : Region) (s : State) : (s.setRegion r R).region q = if q = r then R else s.region q := by
  simp [State.region, State.setRegion, Assoc.get_put]
@[simp] theorem State.region_modRegion_same (r : Nat) (f : Region → Region) (s : State) : (s.modRegion r f).region r = f (s.region r) := by
  simp [State.modRegion]
theorem State.region_modRegion (q r : Nat) (f : Region → Region) (s : State) :
    (s.modRegion r f).region q = if q = r then f (s.region r) else s.region q := by
  simp [State.modRegion, State.region_setRegion]
@[simp] theorem Region.core_setCore_same (u : Nat) (c : Core) (R : Region) : (R.setCore u c).core u = c := by simp [Region.core, Region.setCore]
theorem Region.core_setCore (v u : Nat) (c : Core) (R : Region) : (R.setCore u c).core v = if v = u then c else R.core v := by
  simp [Region.core, Region.setCore, Assoc.get_put]
@[simp] theorem State.region_modCore_same (r u : Nat) (f : Core → Core) (s : State) :
    (s.modCore r u f).region r = (s.region r).setCore u (f ((s.region r).core u)) := by
  simp [State.modCore]
@[simp] theorem State.core_modCore_same (r u : Nat) (f : Core → Core) (s : State) : (s.modCore r u f).core r u = f (s.core r u) := by
  simp [State.core]
@[simp] theorem Core.slot_setSlot_same (k : Nat) (sl : Slot) (c : Core) : (c.setSlot k sl).slot k = sl := by simp [Core.slot, Core.setSlot]
theorem Core.slot_setSlot (j k : Nat) (sl : Slot) (c : Core) : (c.setSlot k sl).slot j = if j = k then sl else c.slot j := by
  simp [Core.slot, Core.setSlot, Assoc.get_put]
@[simp] theorem Core.chan_setChan_same (j : Nat) (ch : Chan) (c : Core) : (c.setChan j ch).chan j = ch := by simp [Core.chan, Core.setChan]
@[simp] theorem State.core_modSlot_same (r u k : Nat) (f : Slot → Slot) (s : State) :
    (s.modSlot r u k f).core r u = (s.core r u).setSlot k (f ((s.core r u).slot k)) := by
  simp [State.modSlot]
@[simp] theorem State.slot_modSlot_same (r u k : Nat) (f : Slot → Slot) (s : State) : (s.modSlot r u k f).slot r u k = f (s.slot r u k) := by
  simp [State.slot]
theorem State.here_eq (s : State) : s.here = s.hereC.slot s.cur.slot := rfl
@[simp] theorem State.here_modHere (f : Slot → Slot) (s : State) : (s.modHere f).here = f s.here := by
  simp [State.here, State.modHere]
@[simp] theorem State.hereC_modHereC (f : Core → Core) (s : State) : (s.modHereC f).hereC = f s.hereC := by
  simp [State.hereC, State.modHereC]
@[simp] theorem State.hereR_modHereR (f : Region → Region) (s : State) : (s.modHereR f).hereR = f s.hereR := by
  simp [State.hereR, State.modHereR]
@[simp] theorem State.hereC_modHere (f : Slot → Slot) (s : State) : (s.modHere f).hereC = s.hereC.setSlot s.cur.slot (f s.here) := by
  simp [State.hereC, State.modHere, State.here, State.slot]
@[simp] theorem State.here_modHereC (f : Core → Core) (s : State) : (s.modHereC f).here = (f s.hereC).slot s.cur.slot := by
  simp [State.here, State.modHereC, State.slot, State.hereC]
/-- Slots do not see a change of the region that leaves its cores. -/
theorem State.hereC_modRegion {f : Region → Region} (h : ∀ R, (f R).cores = R.cores) (r : Nat) (s : State) : (s.modRegion r f).hereC = s.hereC := by
  simp only [State.hereC, State.core, State.region_modRegion, State.modRegion_cur]
  split
  · next e => rw [← e]; simp only [Region.core, h]
  · rfl
@[simp] theorem State.hereC_takeId (r : Nat) (s : State) : (s.takeId r).2.hereC = s.hereC :=
  State.hereC_modRegion (f := fun R => { R with nextId := R.nextId + 1 }) (fun _ => rfl) r s
@[simp] theorem State.here_takeId (r : Nat) (s : State) : (s.takeId r).2.here = s.here := by
  rw [State.here_eq, State.here_eq, State.hereC_takeId]; rfl
@[simp] theorem State.func_setFunc_same (n : Nat) (F : Func) (s : State) : (s.setFunc n F).func n = F := by simp [State.func, State.setFunc]
theorem State.find_modCtx (a b : Nat) (f : Context → Context) (s : State) :
    Assoc.find b (s.modCtx a f).contexts = if b = a then (Assoc.find a s.contexts).map f else Assoc.find b s.contexts := by
  simp only [State.modCtx]
  split
  · next c h =>
    by_cases e : b = a
    · subst e; simp [h]
    · simp [e, Assoc.find_put_other e]
  · next h =>
    by_cases e : b = a
    · subst e; simp [h]
    · simp [e]

/-! ### Fields of a region, a core and a slot that an update leaves -/

@[simp] theorem Region.setCore_x (u : Nat) (c : Core) (R : Region) : (R.setCore u c).x = R.x := rfl
@[simp] theorem Region.setCore_y (u : Nat) (c : Core) (R : Region) : (R.setCore u c).y = R.y := rfl
@[simp] theorem Region.setCore_pw (u : Nat) (c : Core) (R : Region) : (R.setCore u c).pw = R.pw := rfl
@[simp] theorem Region.setCore_ph (u : Nat) (c : Core) (R : Region) : (R.setCore u c).ph = R.ph := rfl
@[simp] theorem Region.setCore_w (u : Nat) (c : Core) (R : Region) : (R.setCore u c).w = R.w := rfl
@[simp] theorem Region.setCore_h (u : Nat) (c : Core) (R : Region) : (R.setCore u c).h = R.h := rfl
@[simp] theorem Region.setCore_vmap (u : Nat) (c : Core) (R : Region) : (R.setCore u c).vmap = R.vmap := rfl
@[simp] theorem Region.setCore_inService (u : Nat) (c : Core) (R : Region) : (R.setCore u c).inService = R.inService := rfl
@[simp] theorem Region.setCore_resident (u : Nat) (c : Core) (R : Region) : (R.setCore u c).resident = R.resident := rfl
@[simp] theorem Region.setCore_spills (u : Nat) (c : Core) (R : Region) : (R.setCore u c).spills = R.spills := rfl
@[simp] theorem Region.setCore_levels (u : Nat) (c : Core) (R : Region) : (R.setCore u c).levels = R.levels := rfl
@[simp] theorem Region.setCore_starve (u : Nat) (c : Core) (R : Region) : (R.setCore u c).starve = R.starve := rfl
@[simp] theorem Region.setCore_graph (u : Nat) (c : Core) (R : Region) : (R.setCore u c).graph = R.graph := rfl
@[simp] theorem Region.setCore_pending (u : Nat) (c : Core) (R : Region) : (R.setCore u c).pending = R.pending := rfl
@[simp] theorem Region.setCore_doneRec (u : Nat) (c : Core) (R : Region) : (R.setCore u c).doneRec = R.doneRec := rfl
@[simp] theorem Region.setCore_scrubDue (u : Nat) (c : Core) (R : Region) : (R.setCore u c).scrubDue = R.scrubDue := rfl
@[simp] theorem Region.setCore_colJob (u : Nat) (c : Core) (R : Region) : (R.setCore u c).colJob = R.colJob := rfl
@[simp] theorem Region.setCore_col (u : Nat) (c : Core) (R : Region) : (R.setCore u c).col = R.col := rfl
@[simp] theorem Region.setCore_halt (u : Nat) (c : Core) (R : Region) : (R.setCore u c).halt = R.halt := rfl
@[simp] theorem Region.setCore_haltTime (u : Nat) (c : Core) (R : Region) : (R.setCore u c).haltTime = R.haltTime := rfl
@[simp] theorem Region.setCore_raised (u : Nat) (c : Core) (R : Region) : (R.setCore u c).raised = R.raised := rfl
@[simp] theorem Region.setCore_phase (u : Nat) (c : Core) (R : Region) : (R.setCore u c).phase = R.phase := rfl
@[simp] theorem Region.setCore_preempt (u : Nat) (c : Core) (R : Region) : (R.setCore u c).preempt = R.preempt := rfl
@[simp] theorem Region.setCore_arcs (u : Nat) (c : Core) (R : Region) : (R.setCore u c).arcs = R.arcs := rfl
@[simp] theorem Region.setCore_nodes (u : Nat) (c : Core) (R : Region) : (R.setCore u c).nodes = R.nodes := rfl
@[simp] theorem Region.setCore_allocs (u : Nat) (c : Core) (R : Region) : (R.setCore u c).allocs = R.allocs := rfl
@[simp] theorem Region.setCore_ags (u : Nat) (c : Core) (R : Region) : (R.setCore u c).ags = R.ags := rfl
@[simp] theorem Region.setCore_mxs (u : Nat) (c : Core) (R : Region) : (R.setCore u c).mxs = R.mxs := rfl
@[simp] theorem Region.setCore_coats (u : Nat) (c : Core) (R : Region) : (R.setCore u c).coats = R.coats := rfl
@[simp] theorem Region.setCore_bars (u : Nat) (c : Core) (R : Region) : (R.setCore u c).bars = R.bars := rfl
@[simp] theorem Region.setCore_phases (u : Nat) (c : Core) (R : Region) : (R.setCore u c).phases = R.phases := rfl
@[simp] theorem Region.setCore_tbars (u : Nat) (c : Core) (R : Region) : (R.setCore u c).tbars = R.tbars := rfl
@[simp] theorem Region.setCore_flying (u : Nat) (c : Core) (R : Region) : (R.setCore u c).flying = R.flying := rfl
@[simp] theorem Region.setCore_atomics (u : Nat) (c : Core) (R : Region) : (R.setCore u c).atomics = R.atomics := rfl
@[simp] theorem Region.setCore_xforms (u : Nat) (c : Core) (R : Region) : (R.setCore u c).xforms = R.xforms := rfl
@[simp] theorem Region.setCore_publishes (u : Nat) (c : Core) (R : Region) : (R.setCore u c).publishes = R.publishes := rfl
@[simp] theorem Region.setCore_copies (u : Nat) (c : Core) (R : Region) : (R.setCore u c).copies = R.copies := rfl
@[simp] theorem Region.setCore_tinvs (u : Nat) (c : Core) (R : Region) : (R.setCore u c).tinvs = R.tinvs := rfl
@[simp] theorem Region.setCore_ddq (u : Nat) (c : Core) (R : Region) : (R.setCore u c).ddq = R.ddq := rfl
@[simp] theorem Region.setCore_colls (u : Nat) (c : Core) (R : Region) : (R.setCore u c).colls = R.colls := rfl
@[simp] theorem Region.setCore_nextId (u : Nat) (c : Core) (R : Region) : (R.setCore u c).nextId = R.nextId := rfl
@[simp] theorem Core.setChan_slots (j : Nat) (ch : Chan) (c : Core) : (c.setChan j ch).slots = c.slots := rfl
@[simp] theorem Core.setSlot_last (k : Nat) (sl : Slot) (c : Core) : (c.setSlot k sl).last = c.last := rfl
@[simp] theorem Core.setChan_last (j : Nat) (ch : Chan) (c : Core) : (c.setChan j ch).last = c.last := rfl
@[simp] theorem Core.setSlot_trapvec (k : Nat) (sl : Slot) (c : Core) : (c.setSlot k sl).trapvec = c.trapvec := rfl
@[simp] theorem Core.setChan_trapvec (j : Nat) (ch : Chan) (c : Core) : (c.setChan j ch).trapvec = c.trapvec := rfl
@[simp] theorem Core.setSlot_chans (k : Nat) (sl : Slot) (c : Core) : (c.setSlot k sl).chans = c.chans := rfl
@[simp] theorem Core.setSlot_phase (k : Nat) (sl : Slot) (c : Core) : (c.setSlot k sl).phase = c.phase := rfl
@[simp] theorem Core.setChan_phase (j : Nat) (ch : Chan) (c : Core) : (c.setChan j ch).phase = c.phase := rfl
@[simp] theorem Core.setSlot_refresh (k : Nat) (sl : Slot) (c : Core) : (c.setSlot k sl).refresh = c.refresh := rfl
@[simp] theorem Core.setChan_refresh (j : Nat) (ch : Chan) (c : Core) : (c.setChan j ch).refresh = c.refresh := rfl
@[simp] theorem Core.setSlot_seen (k : Nat) (sl : Slot) (c : Core) : (c.setSlot k sl).seen = c.seen := rfl
@[simp] theorem Core.setSlot_own (k : Nat) (sl : Slot) (c : Core) : (c.setSlot k sl).own = c.own := rfl
@[simp] theorem Core.setSlot_shared (k : Nat) (sl : Slot) (c : Core) : (c.setSlot k sl).shared = c.shared := rfl
@[simp] theorem Core.setSlot_every (k : Nat) (sl : Slot) (c : Core) : (c.setSlot k sl).every = c.every := rfl
@[simp] theorem Core.setSlot_passed (k : Nat) (sl : Slot) (c : Core) : (c.setSlot k sl).passed = c.passed := rfl
@[simp] theorem Core.setChan_own (j : Nat) (ch : Chan) (c : Core) : (c.setChan j ch).own = c.own := rfl
@[simp] theorem Core.setChan_shared (j : Nat) (ch : Chan) (c : Core) : (c.setChan j ch).shared = c.shared := rfl
@[simp] theorem Core.setChan_every (j : Nat) (ch : Chan) (c : Core) : (c.setChan j ch).every = c.every := rfl
@[simp] theorem Core.setChan_passed (j : Nat) (ch : Chan) (c : Core) : (c.setChan j ch).passed = c.passed := rfl
@[simp] theorem Core.setChan_seen (j : Nat) (ch : Chan) (c : Core) : (c.setChan j ch).seen = c.seen := rfl
@[simp] theorem Core.setSlot_cyc (k : Nat) (sl : Slot) (c : Core) : (c.setSlot k sl).cyc = c.cyc := rfl
@[simp] theorem Core.setChan_cyc (j : Nat) (ch : Chan) (c : Core) : (c.setChan j ch).cyc = c.cyc := rfl
@[simp] theorem Core.setSlot_seed (k : Nat) (sl : Slot) (c : Core) : (c.setSlot k sl).seed = c.seed := rfl
@[simp] theorem Core.setChan_seed (j : Nat) (ch : Chan) (c : Core) : (c.setChan j ch).seed = c.seed := rfl
@[simp] theorem Core.setSlot_producers (k : Nat) (sl : Slot) (c : Core) : (c.setSlot k sl).producers = c.producers := rfl
@[simp] theorem Core.setChan_producers (j : Nat) (ch : Chan) (c : Core) : (c.setChan j ch).producers = c.producers := rfl
@[simp] theorem Core.setSlot_copyTicket (k : Nat) (sl : Slot) (c : Core) : (c.setSlot k sl).copyTicket = c.copyTicket := rfl
@[simp] theorem Core.setChan_copyTicket (j : Nat) (ch : Chan) (c : Core) : (c.setChan j ch).copyTicket = c.copyTicket := rfl
@[simp] theorem Core.setSlot_copyDone (k : Nat) (sl : Slot) (c : Core) : (c.setSlot k sl).copyDone = c.copyDone := rfl
@[simp] theorem Core.setChan_copyDone (j : Nat) (ch : Chan) (c : Core) : (c.setChan j ch).copyDone = c.copyDone := rfl
@[simp] theorem Core.setSlot_started (k : Nat) (sl : Slot) (c : Core) : (c.setSlot k sl).started = c.started := rfl
@[simp] theorem Core.setChan_started (j : Nat) (ch : Chan) (c : Core) : (c.setChan j ch).started = c.started := rfl
@[simp] theorem Core.setSlot_istore (k : Nat) (sl : Slot) (c : Core) : (c.setSlot k sl).istore = c.istore := rfl
@[simp] theorem Core.setChan_istore (j : Nat) (ch : Chan) (c : Core) : (c.setChan j ch).istore = c.istore := rfl
@[simp] theorem Core.setSlot_accs (k : Nat) (sl : Slot) (c : Core) : (c.setSlot k sl).accs = c.accs := rfl
@[simp] theorem Core.setSlot_loadModes (k : Nat) (sl : Slot) (c : Core) : (c.setSlot k sl).loadModes = c.loadModes := rfl
@[simp] theorem Core.setChan_accs (j : Nat) (ch : Chan) (c : Core) : (c.setChan j ch).accs = c.accs := rfl
@[simp] theorem Core.setChan_loadModes (j : Nat) (ch : Chan) (c : Core) : (c.setChan j ch).loadModes = c.loadModes := rfl
@[simp] theorem Core.setSlot_sticky (k : Nat) (sl : Slot) (c : Core) : (c.setSlot k sl).sticky = c.sticky := rfl
@[simp] theorem Core.setChan_sticky (j : Nat) (ch : Chan) (c : Core) : (c.setChan j ch).sticky = c.sticky := rfl
@[simp] theorem Core.setSlot_templates (k : Nat) (sl : Slot) (c : Core) : (c.setSlot k sl).templates = c.templates := rfl
@[simp] theorem Core.setChan_templates (j : Nat) (ch : Chan) (c : Core) : (c.setChan j ch).templates = c.templates := rfl
@[simp] theorem Core.setSlot_consts (k : Nat) (sl : Slot) (c : Core) : (c.setSlot k sl).consts = c.consts := rfl
@[simp] theorem Core.setChan_consts (j : Nat) (ch : Chan) (c : Core) : (c.setChan j ch).consts = c.consts := rfl
@[simp] theorem Core.setSlot_chains (k : Nat) (sl : Slot) (c : Core) : (c.setSlot k sl).chains = c.chains := rfl
@[simp] theorem Core.setChan_chains (j : Nat) (ch : Chan) (c : Core) : (c.setChan j ch).chains = c.chains := rfl
@[simp] theorem Core.setSlot_nextTicket (k : Nat) (sl : Slot) (c : Core) : (c.setSlot k sl).nextTicket = c.nextTicket := rfl
@[simp] theorem Core.setChan_nextTicket (j : Nat) (ch : Chan) (c : Core) : (c.setChan j ch).nextTicket = c.nextTicket := rfl
@[simp] theorem Core.setSlot_ended (k : Nat) (sl : Slot) (c : Core) : (c.setSlot k sl).ended = c.ended := rfl
@[simp] theorem Core.setChan_ended (j : Nat) (ch : Chan) (c : Core) : (c.setChan j ch).ended = c.ended := rfl
@[simp] theorem Core.setSlot_scale (k : Nat) (sl : Slot) (c : Core) : (c.setSlot k sl).scale = c.scale := rfl
@[simp] theorem Core.setChan_scale (j : Nat) (ch : Chan) (c : Core) : (c.setChan j ch).scale = c.scale := rfl
@[simp] theorem Slot.wr_pc (x : Reg) (v : Word) (sl : Slot) : (sl.wr x v).pc = sl.pc := by
  simp only [Slot.wr]; split <;> rfl
@[simp] theorem Slot.setFill_pc (x : Reg) (y : Fill) (sl : Slot) : (sl.setFill x y).pc = sl.pc := by
  simp only [Slot.setFill]; split <;> rfl
@[simp] theorem Slot.wrP_pc (p : PReg) (b : Bool) (sl : Slot) : (sl.wrP p b).pc = sl.pc := by
  simp only [Slot.wrP]; split <;> rfl
@[simp] theorem Slot.flag_pc (x : BitVec 5) (sl : Slot) : (sl.flag x).pc = sl.pc := rfl
@[simp] theorem Slot.setFill_regs (x : Reg) (y : Fill) (sl : Slot) : (sl.setFill x y).regs = sl.regs := by
  simp only [Slot.setFill]; split <;> rfl
@[simp] theorem Slot.wrP_regs (p : PReg) (b : Bool) (sl : Slot) : (sl.wrP p b).regs = sl.regs := by
  simp only [Slot.wrP]; split <;> rfl
@[simp] theorem Slot.flag_regs (x : BitVec 5) (sl : Slot) : (sl.flag x).regs = sl.regs := rfl
@[simp] theorem Slot.next_regs (sl : Slot) : sl.next.regs = sl.regs := rfl
@[simp] theorem Slot.goto_regs (x : Word) (sl : Slot) : (sl.goto x).regs = sl.regs := rfl
@[simp] theorem Slot.wrP_fills (p : PReg) (b : Bool) (sl : Slot) : (sl.wrP p b).fills = sl.fills := by
  simp only [Slot.wrP]; split <;> rfl
@[simp] theorem Slot.flag_fills (x : BitVec 5) (sl : Slot) : (sl.flag x).fills = sl.fills := rfl
@[simp] theorem Slot.next_fills (sl : Slot) : sl.next.fills = sl.fills := rfl
@[simp] theorem Slot.goto_fills (x : Word) (sl : Slot) : (sl.goto x).fills = sl.fills := rfl
@[simp] theorem Slot.wr_preds (x : Reg) (v : Word) (sl : Slot) : (sl.wr x v).preds = sl.preds := by
  simp only [Slot.wr]; split <;> rfl
@[simp] theorem Slot.setFill_preds (x : Reg) (y : Fill) (sl : Slot) : (sl.setFill x y).preds = sl.preds := by
  simp only [Slot.setFill]; split <;> rfl
@[simp] theorem Slot.flag_preds (x : BitVec 5) (sl : Slot) : (sl.flag x).preds = sl.preds := rfl
@[simp] theorem Slot.next_preds (sl : Slot) : sl.next.preds = sl.preds := rfl
@[simp] theorem Slot.goto_preds (x : Word) (sl : Slot) : (sl.goto x).preds = sl.preds := rfl
@[simp] theorem Slot.wr_chbind (x : Reg) (v : Word) (sl : Slot) : (sl.wr x v).chbind = sl.chbind := by
  simp only [Slot.wr]; split <;> rfl
@[simp] theorem Slot.setFill_chbind (x : Reg) (y : Fill) (sl : Slot) : (sl.setFill x y).chbind = sl.chbind := by
  simp only [Slot.setFill]; split <;> rfl
@[simp] theorem Slot.wrP_chbind (p : PReg) (b : Bool) (sl : Slot) : (sl.wrP p b).chbind = sl.chbind := by
  simp only [Slot.wrP]; split <;> rfl
@[simp] theorem Slot.flag_chbind (x : BitVec 5) (sl : Slot) : (sl.flag x).chbind = sl.chbind := rfl
@[simp] theorem Slot.next_chbind (sl : Slot) : sl.next.chbind = sl.chbind := rfl
@[simp] theorem Slot.goto_chbind (x : Word) (sl : Slot) : (sl.goto x).chbind = sl.chbind := rfl
@[simp] theorem Slot.wr_count (x : Reg) (v : Word) (sl : Slot) : (sl.wr x v).count = sl.count := by
  simp only [Slot.wr]; split <;> rfl
@[simp] theorem Slot.setFill_count (x : Reg) (y : Fill) (sl : Slot) : (sl.setFill x y).count = sl.count := by
  simp only [Slot.setFill]; split <;> rfl
@[simp] theorem Slot.wrP_count (p : PReg) (b : Bool) (sl : Slot) : (sl.wrP p b).count = sl.count := by
  simp only [Slot.wrP]; split <;> rfl
@[simp] theorem Slot.flag_count (x : BitVec 5) (sl : Slot) : (sl.flag x).count = sl.count := rfl
@[simp] theorem Slot.next_count (sl : Slot) : sl.next.count = sl.count := rfl
@[simp] theorem Slot.goto_count (x : Word) (sl : Slot) : (sl.goto x).count = sl.count := rfl
@[simp] theorem Slot.wr_st (x : Reg) (v : Word) (sl : Slot) : (sl.wr x v).st = sl.st := by
  simp only [Slot.wr]; split <;> rfl
@[simp] theorem Slot.setFill_st (x : Reg) (y : Fill) (sl : Slot) : (sl.setFill x y).st = sl.st := by
  simp only [Slot.setFill]; split <;> rfl
@[simp] theorem Slot.wrP_st (p : PReg) (b : Bool) (sl : Slot) : (sl.wrP p b).st = sl.st := by
  simp only [Slot.wrP]; split <;> rfl
@[simp] theorem Slot.flag_st (x : BitVec 5) (sl : Slot) : (sl.flag x).st = sl.st := rfl
@[simp] theorem Slot.wr_prog (x : Reg) (v : Word) (sl : Slot) : (sl.wr x v).prog = sl.prog := by
  simp only [Slot.wr]; split <;> rfl
@[simp] theorem Slot.setFill_prog (x : Reg) (y : Fill) (sl : Slot) : (sl.setFill x y).prog = sl.prog := by
  simp only [Slot.setFill]; split <;> rfl
@[simp] theorem Slot.wrP_prog (p : PReg) (b : Bool) (sl : Slot) : (sl.wrP p b).prog = sl.prog := by
  simp only [Slot.wrP]; split <;> rfl
@[simp] theorem Slot.flag_prog (x : BitVec 5) (sl : Slot) : (sl.flag x).prog = sl.prog := rfl
@[simp] theorem Slot.wr_fpflags (x : Reg) (v : Word) (sl : Slot) : (sl.wr x v).fpflags = sl.fpflags := by
  simp only [Slot.wr]; split <;> rfl
@[simp] theorem Slot.setFill_fpflags (x : Reg) (y : Fill) (sl : Slot) : (sl.setFill x y).fpflags = sl.fpflags := by
  simp only [Slot.setFill]; split <;> rfl
@[simp] theorem Slot.wrP_fpflags (p : PReg) (b : Bool) (sl : Slot) : (sl.wrP p b).fpflags = sl.fpflags := by
  simp only [Slot.wrP]; split <;> rfl
@[simp] theorem Slot.next_fpflags (sl : Slot) : sl.next.fpflags = sl.fpflags := rfl
@[simp] theorem Slot.goto_fpflags (x : Word) (sl : Slot) : (sl.goto x).fpflags = sl.fpflags := rfl
@[simp] theorem Slot.wr_fpmode (x : Reg) (v : Word) (sl : Slot) : (sl.wr x v).fpmode = sl.fpmode := by
  simp only [Slot.wr]; split <;> rfl
@[simp] theorem Slot.setFill_fpmode (x : Reg) (y : Fill) (sl : Slot) : (sl.setFill x y).fpmode = sl.fpmode := by
  simp only [Slot.setFill]; split <;> rfl
@[simp] theorem Slot.wrP_fpmode (p : PReg) (b : Bool) (sl : Slot) : (sl.wrP p b).fpmode = sl.fpmode := by
  simp only [Slot.wrP]; split <;> rfl
@[simp] theorem Slot.flag_fpmode (x : BitVec 5) (sl : Slot) : (sl.flag x).fpmode = sl.fpmode := rfl
@[simp] theorem Slot.next_fpmode (sl : Slot) : sl.next.fpmode = sl.fpmode := rfl
@[simp] theorem Slot.goto_fpmode (x : Word) (sl : Slot) : (sl.goto x).fpmode = sl.fpmode := rfl
@[simp] theorem Slot.wr_trapinfo (x : Reg) (v : Word) (sl : Slot) : (sl.wr x v).trapinfo = sl.trapinfo := by
  simp only [Slot.wr]; split <;> rfl
@[simp] theorem Slot.setFill_trapinfo (x : Reg) (y : Fill) (sl : Slot) : (sl.setFill x y).trapinfo = sl.trapinfo := by
  simp only [Slot.setFill]; split <;> rfl
@[simp] theorem Slot.wrP_trapinfo (p : PReg) (b : Bool) (sl : Slot) : (sl.wrP p b).trapinfo = sl.trapinfo := by
  simp only [Slot.wrP]; split <;> rfl
@[simp] theorem Slot.flag_trapinfo (x : BitVec 5) (sl : Slot) : (sl.flag x).trapinfo = sl.trapinfo := rfl
@[simp] theorem Slot.next_trapinfo (sl : Slot) : sl.next.trapinfo = sl.trapinfo := rfl
@[simp] theorem Slot.goto_trapinfo (x : Word) (sl : Slot) : (sl.goto x).trapinfo = sl.trapinfo := rfl
@[simp] theorem Slot.wr_trap (x : Reg) (v : Word) (sl : Slot) : (sl.wr x v).trap = sl.trap := by
  simp only [Slot.wr]; split <;> rfl
@[simp] theorem Slot.setFill_trap (x : Reg) (y : Fill) (sl : Slot) : (sl.setFill x y).trap = sl.trap := by
  simp only [Slot.setFill]; split <;> rfl
@[simp] theorem Slot.wrP_trap (p : PReg) (b : Bool) (sl : Slot) : (sl.wrP p b).trap = sl.trap := by
  simp only [Slot.wrP]; split <;> rfl
@[simp] theorem Slot.flag_trap (x : BitVec 5) (sl : Slot) : (sl.flag x).trap = sl.trap := rfl
@[simp] theorem Slot.next_trap (sl : Slot) : sl.next.trap = sl.trap := rfl
@[simp] theorem Slot.goto_trap (x : Word) (sl : Slot) : (sl.goto x).trap = sl.trap := rfl
@[simp] theorem Slot.wr_roster (x : Reg) (v : Word) (sl : Slot) : (sl.wr x v).roster = sl.roster := by
  simp only [Slot.wr]; split <;> rfl
@[simp] theorem Slot.setFill_roster (x : Reg) (y : Fill) (sl : Slot) : (sl.setFill x y).roster = sl.roster := by
  simp only [Slot.setFill]; split <;> rfl
@[simp] theorem Slot.wrP_roster (p : PReg) (b : Bool) (sl : Slot) : (sl.wrP p b).roster = sl.roster := by
  simp only [Slot.wrP]; split <;> rfl
@[simp] theorem Slot.flag_roster (x : BitVec 5) (sl : Slot) : (sl.flag x).roster = sl.roster := rfl
@[simp] theorem Slot.next_roster (sl : Slot) : sl.next.roster = sl.roster := rfl
@[simp] theorem Slot.goto_roster (x : Word) (sl : Slot) : (sl.goto x).roster = sl.roster := rfl
@[simp] theorem Slot.wr_interval (x : Reg) (v : Word) (sl : Slot) : (sl.wr x v).interval = sl.interval := by
  simp only [Slot.wr]; split <;> rfl
@[simp] theorem Slot.setFill_interval (x : Reg) (y : Fill) (sl : Slot) : (sl.setFill x y).interval = sl.interval := by
  simp only [Slot.setFill]; split <;> rfl
@[simp] theorem Slot.wrP_interval (p : PReg) (b : Bool) (sl : Slot) : (sl.wrP p b).interval = sl.interval := by
  simp only [Slot.wrP]; split <;> rfl
@[simp] theorem Slot.flag_interval (x : BitVec 5) (sl : Slot) : (sl.flag x).interval = sl.interval := rfl
@[simp] theorem Slot.next_interval (sl : Slot) : sl.next.interval = sl.interval := rfl
@[simp] theorem Slot.goto_interval (x : Word) (sl : Slot) : (sl.goto x).interval = sl.interval := rfl
@[simp] theorem Slot.wr_aseq (x : Reg) (v : Word) (sl : Slot) : (sl.wr x v).aseq = sl.aseq := by
  simp only [Slot.wr]; split <;> rfl
@[simp] theorem Slot.setFill_aseq (x : Reg) (y : Fill) (sl : Slot) : (sl.setFill x y).aseq = sl.aseq := by
  simp only [Slot.setFill]; split <;> rfl
@[simp] theorem Slot.wrP_aseq (p : PReg) (b : Bool) (sl : Slot) : (sl.wrP p b).aseq = sl.aseq := by
  simp only [Slot.wrP]; split <;> rfl
@[simp] theorem Slot.flag_aseq (x : BitVec 5) (sl : Slot) : (sl.flag x).aseq = sl.aseq := rfl
@[simp] theorem Slot.next_aseq (sl : Slot) : sl.next.aseq = sl.aseq := rfl
@[simp] theorem Slot.goto_aseq (x : Word) (sl : Slot) : (sl.goto x).aseq = sl.aseq := rfl
@[simp] theorem Slot.wr_dseq (x : Reg) (v : Word) (sl : Slot) : (sl.wr x v).dseq = sl.dseq := by
  simp only [Slot.wr]; split <;> rfl
@[simp] theorem Slot.setFill_dseq (x : Reg) (y : Fill) (sl : Slot) : (sl.setFill x y).dseq = sl.dseq := by
  simp only [Slot.setFill]; split <;> rfl
@[simp] theorem Slot.wrP_dseq (p : PReg) (b : Bool) (sl : Slot) : (sl.wrP p b).dseq = sl.dseq := by
  simp only [Slot.wrP]; split <;> rfl
@[simp] theorem Slot.flag_dseq (x : BitVec 5) (sl : Slot) : (sl.flag x).dseq = sl.dseq := rfl
@[simp] theorem Slot.next_dseq (sl : Slot) : sl.next.dseq = sl.dseq := rfl
@[simp] theorem Slot.goto_dseq (x : Word) (sl : Slot) : (sl.goto x).dseq = sl.dseq := rfl
@[simp] theorem Slot.next_pc (sl : Slot) : sl.next.pc = sl.pc + 1 := rfl
@[simp] theorem Slot.goto_pc (x : Word) (sl : Slot) : (sl.goto x).pc = x := rfl

/-! ### Registers (R24, R27) -/

@[simp] theorem Slot.rd_zero (sl : Slot) : sl.rd 0 = 0 := rfl
@[simp] theorem Slot.wr_zero (v : Word) (sl : Slot) : sl.wr 0 v = sl := rfl
@[simp] theorem Slot.fill_zero (sl : Slot) : sl.fill 0 = .full := rfl
theorem Slot.reg_ne {x y : Reg} (h : x ≠ y) : x.toNat ≠ y.toNat := fun e => h (BitVec.eq_of_toNat_eq e)
/-- A register reads what was written to it, and s0 reads zero. -/
theorem Slot.rd_wr (x y : Reg) (v : Word) (sl : Slot) : (sl.wr x v).rd y = if y = 0 then 0 else if y = x then v else sl.rd y := by
  by_cases hy : y = 0
  · subst hy; rfl
  · by_cases hx : x = 0
    · subst hx; rw [Slot.wr_zero, if_neg hy, if_neg hy]
    · by_cases e : y = x
      · subst e; simp only [Slot.rd, Slot.wr, if_neg hy, if_true, Assoc.get_set_same]
      · simp only [Slot.rd, Slot.wr, if_neg hy, if_neg hx, if_neg e]
        exact Assoc.get_set_other _ (Slot.reg_ne e) _ _
@[simp] theorem Slot.rd_wr_same {x : Reg} (h : x ≠ 0) (v : Word) (sl : Slot) : (sl.wr x v).rd x = v := by
  rw [Slot.rd_wr, if_neg h, if_pos rfl]
/-- A written register is full. -/
theorem Slot.fill_wr (x y : Reg) (v : Word) (sl : Slot) : (sl.wr x v).fill y = if y = x then .full else sl.fill y := by
  by_cases hy : y = 0
  · subst hy; by_cases e : (0 : Reg) = x <;> simp only [Slot.fill, if_true, e, ite_self]
  · by_cases hx : x = 0
    · subst hx; rw [Slot.wr_zero, if_neg hy]
    · by_cases e : y = x
      · subst e; simp only [Slot.fill, Slot.wr, if_neg hy, if_true, Assoc.get_set_same]
      · simp only [Slot.fill, Slot.wr, if_neg hy, if_neg hx, if_neg e, Assoc.get_set_other _ (Slot.reg_ne e)]
/-- The state of a register that `setFill` names, and of the others. -/
theorem Slot.fill_setFill (x y : Reg) (z : Fill) (sl : Slot) : (sl.setFill x z).fill y = if y = x ∧ y ≠ 0 then z else sl.fill y := by
  by_cases hy : y = 0
  · subst hy; simp only [Slot.fill, if_true, ne_eq, not_true_eq_false, and_false, if_false]
  · by_cases hx : x = 0
    · subst hx
      have h : ¬ (y = 0 ∧ y ≠ 0) := fun h => h.2 h.1
      rw [if_neg h]; rfl
    · by_cases e : y = x
      · subst e
        rw [if_pos ⟨rfl, hy⟩]
        simp only [Slot.fill, Slot.setFill, if_neg hy, Assoc.get_set_same]
      · rw [if_neg (fun h => e h.1)]
        simp only [Slot.fill, Slot.setFill, if_neg hy, if_neg hx, Assoc.get_set_other _ (Slot.reg_ne e)]
@[simp] theorem Slot.rdP_zero (sl : Slot) : sl.rdP 0 = true := rfl
@[simp] theorem Slot.wrP_zero (b : Bool) (sl : Slot) : sl.wrP 0 b = sl := rfl

end Sys2Proof.Machine
end

