-- ==== Sys2Proof/Laws/Memory.lean ====
section
/-! SUPPORT. The laws of memory: reading after writing, and that every operation on a memory keeps its canonical form. -/

namespace Sys2Proof.Machine

/-! ### Reading after writing -/

@[simp] theorem VMem.read_write_same (now a : Nat) (b : Byte) (m : VMem) : (m.write now a b).read a = b := by simp [VMem.read, VMem.write]
theorem VMem.read_write_other {now a c : Nat} (h : c ≠ a) (b : Byte) (m : VMem) : (m.write now a b).read c = m.read c := by
  simp [VMem.read, VMem.write, Assoc.get_set_other _ h]
/-- A byte outside the range that `writes` writes is as before. -/
theorem VMem.read_writes_other {now c : Nat} (bs : List Byte) : ∀ {a : Nat} (m : VMem), ¬ (a ≤ c ∧ c < a + bs.length) → (m.writes now a bs).read c = m.read c := by
  induction bs with
  | nil => intro a m _; rfl
  | cons b t ih =>
    intro a m h
    simp only [List.length_cons] at h
    simp only [VMem.writes]
    rw [ih (a := a + 1) _ (by omega), VMem.read_write_other (by omega)]
/-- A byte inside the range reads as written. -/
theorem VMem.read_writes_at {now : Nat} (bs : List Byte) : ∀ {a : Nat} (m : VMem) (i : Nat), i < bs.length → (m.writes now a bs).read (a + i) = bs.getD i 0 := by
  induction bs with
  | nil => intro a m i h; simp at h
  | cons b t ih =>
    intro a m i h
    simp only [VMem.writes]
    cases i with
    | zero =>
      rw [VMem.read_writes_other t _ (by omega)]
      simp
    | succ i =>
      have := ih (a := a + 1) (m.write now a b) i (by simpa using h)
      rw [show a + (i + 1) = a + 1 + i by omega, this]
      simp
/-- A byte that no pair of the list names is as before. -/
theorem VMem.read_writeEach_other {now c : Nat} (l : List (Nat × Byte)) : ∀ (m : VMem), (∀ p ∈ l, p.1 ≠ c) → (m.writeEach now l).read c = m.read c := by
  induction l with
  | nil => intro m _; rfl
  | cons p t ih =>
    intro m h
    simp only [VMem.writeEach]
    rw [ih _ (fun q hq => h q (List.mem_cons_of_mem _ hq)), VMem.read_write_other (Ne.symm (h p (by simp)))]
/-- A wiped byte reads zero. -/
theorem VMem.read_wipe_in {lo hi c : Nat} (m : VMem) (h : lo ≤ c ∧ c < hi) : (m.wipe lo hi).read c = 0 := by
  simp only [VMem.read, VMem.wipe, Assoc.get_eq_find]
  rw [Assoc.find_filter_none (by intro v; simp; omega)]
  rfl
/-- A byte outside the wiped range is as before. -/
theorem VMem.read_wipe_out {lo hi c : Nat} (m : VMem) (h : ¬ (lo ≤ c ∧ c < hi)) : (m.wipe lo hi).read c = m.read c := by
  simp only [VMem.read, VMem.wipe, Assoc.get_eq_find]
  rw [Assoc.find_filter (by intro v; simp; omega)]

/-! ### The canonical form -/

theorem VMem.wf_init : VMem.init.wf = true := rfl
theorem VMem.wf_write {now a : Nat} {b : Byte} {m : VMem} (h : m.wf = true) : (m.write now a b).wf = true := Assoc.wf_set h
theorem VMem.wf_writes {now : Nat} (bs : List Byte) : ∀ {a : Nat} {m : VMem}, m.wf = true → (m.writes now a bs).wf = true := by
  induction bs with
  | nil => intro a m h; exact h
  | cons b t ih => intro a m h; exact ih (VMem.wf_write h)
theorem VMem.wf_writeEach {now : Nat} (l : List (Nat × Byte)) : ∀ {m : VMem}, m.wf = true → (m.writeEach now l).wf = true := by
  induction l with
  | nil => intro m h; exact h
  | cons p t ih => intro m h; exact ih (VMem.wf_write h)
theorem VMem.wf_wipe {lo hi : Nat} {m : VMem} (h : m.wf = true) : (m.wipe lo hi).wf = true := Assoc.wf_filter h
theorem VMem.wf_wipes {f g : Nat → Nat} (l : List Nat) : ∀ {m : VMem}, m.wf = true → (l.foldl (fun m d => VMem.wipe (f d) (g d) m) m).wf = true := by
  induction l with
  | nil => intro m h; exact h
  | cons d t ih => intro m h; exact ih (VMem.wf_wipe h)
/-- The host's memory stays sorted. -/
theorem sorted_puts {l : List (Nat × Byte)} : ∀ {m : Assoc Byte}, Assoc.sorted m = true → Assoc.sorted (l.foldl (fun m p => Assoc.put p.1 p.2 m) m) = true := by
  induction l with
  | nil => intro m h; exact h
  | cons p t ih => intro m h; exact ih (Assoc.sorted_put h)

/-- Every memory of a state stands in its canonical form. -/
def State.memOk (s : State) : Prop := s.smem.wf = true ∧ s.lmem.wf = true ∧ s.tmem.wf = true ∧ Assoc.sorted s.hostMem = true

theorem State.memOk_reset : State.reset.memOk := ⟨rfl, rfl, rfl, rfl⟩
/-- The form depends on the memories alone. -/
theorem State.memOk_of_eq {s t : State} (h : s.memOk) (h1 : t.smem = s.smem) (h2 : t.lmem = s.lmem) (h3 : t.tmem = s.tmem) (h4 : t.hostMem = s.hostMem) :
    t.memOk := by
  unfold State.memOk; rw [h1, h2, h3, h4]; exact h

/-! ### The operations that write memory -/

theorem State.memOk_sWrite {r cl a : Nat} {bs : List Byte} {s : State} (h : s.memOk) : (s.sWrite r cl a bs).memOk :=
  ⟨VMem.wf_writes _ h.1, h.2.1, h.2.2.1, h.2.2.2⟩
theorem State.memOk_lWrite {r u off : Nat} {bs : List Byte} {s : State} (h : s.memOk) : (s.lWrite r u off bs).memOk :=
  ⟨h.1, VMem.wf_writes _ h.2.1, h.2.2.1, h.2.2.2⟩
theorem State.memOk_hostWrite {f a : Nat} {bs : List Byte} {s : State} (h : s.memOk) : (hostWrite f a bs s).memOk :=
  ⟨h.1, h.2.1, h.2.2.1, sorted_puts h.2.2.2⟩

end Sys2Proof.Machine
end

