-- ==== Sys2Proof/Laws/Ops.lean ====
section
/-! SUPPORT. What the shared operations can do: one lemma for each, which proofs cite instead of unfolding it. -/

namespace Sys2Proof.Machine

/-! ### Issuing a word (R23, R28 to R30) -/

/-- A word whose guard allows it, whose sources are full and whose destinations are not pending has its own effect. -/
theorem issue_next {g : Guard} {srcs : List Src} {dests : List Reg} {body : State → State} {s : State} (h1 : s.here.allows g = true)
    (h2 : ∀ x ∈ srcs, s.here.fill x.r = .full) (h3 : ∀ d ∈ dests, s.here.fill d ≠ .pending) : issue g srcs dests body s = .next (body s) := by
  have e1 : srcs.find? (fun x => x.et && s.here.fill x.r != .full) = none := by
    rw [List.find?_eq_none]; intro x hx; simp [h2 x hx]
  have e2 : emptySrcs s.here srcs = [] := by
    simp only [emptySrcs, List.map_eq_nil_iff, List.filter_eq_nil_iff]; intro x hx; simp [h2 x hx]
  have e3 : pendingDests s.here dests = [] := by
    simp only [pendingDests, List.map_eq_nil_iff, List.filter_eq_nil_iff]; intro x hx; simp [h3 x hx]
  simp [issue, h1, e1, e2, e3, nx]
/-- A word whose guard does not allow it only goes on. -/
theorem issue_off {g : Guard} {srcs : List Src} {dests : List Reg} {body : State → State} {s : State} (h : s.here.allows g = false) :
    issue g srcs dests body s = .next (retire id s) := by
  simp [issue, h, nx]
/-- All that issuing a word can do: go on without it, trap on an empty source, wait for a register, or its own effect. -/
theorem issue_cases {g : Guard} {srcs : List Src} {dests : List Reg} {body : State → State} {s t : State} (h : issue g srcs dests body s = .next t) :
    t = retire id s ∨ (∃ x ∈ srcs, x.et = true ∧ t = emptyTrap x s) ∨ (∃ a b, t = park (.regs a b) s) ∨ t = body s := by
  simp only [issue, nx] at h
  split at h
  · exact .inl (by simpa using h.symm)
  · split at h
    · next x hx =>
      have := List.find?_some hx
      exact .inr (.inl ⟨x, List.mem_of_find?_eq_some hx, by simp only [Bool.and_eq_true] at this; exact this.1, by simpa using h.symm⟩)
    · split at h
      · exact .inr (.inr (.inl ⟨_, _, by simpa using h.symm⟩))
      · split at h
        · exact .inr (.inr (.inl ⟨_, _, by simpa using h.symm⟩))
        · exact .inr (.inr (.inr (by simpa using h.symm)))

/-! ### Completing a word -/

@[simp] theorem retire_here (f : Slot → Slot) (s : State) : (retire f s).here = (f s.here).next := by simp [retire]
@[simp] theorem park_here (w : Wait) (s : State) : (park w s).here = { s.here with st := .waiting w } := by simp [park]
@[simp] theorem parkAt_here (w : Wait) (p : Progress) (s : State) : (parkAt w p s).here = { s.here with st := .waiting w, prog := p } := by simp [parkAt]
@[simp] theorem retire_turn (f : Slot → Slot) (s : State) : (retire f s).turn = s.turn := rfl
@[simp] theorem retire_cur (f : Slot → Slot) (s : State) : (retire f s).cur = s.cur := rfl
@[simp] theorem retire_agenda (f : Slot → Slot) (s : State) : (retire f s).agenda = s.agenda := rfl
@[simp] theorem retire_fresh (f : Slot → Slot) (s : State) : (retire f s).fresh = s.fresh := rfl
@[simp] theorem retire_time (f : Slot → Slot) (s : State) : (retire f s).time = s.time := rfl
@[simp] theorem retire_moment (f : Slot → Slot) (s : State) : (retire f s).moment = s.moment := rfl
@[simp] theorem retire_smem (f : Slot → Slot) (s : State) : (retire f s).smem = s.smem := rfl
@[simp] theorem retire_lmem (f : Slot → Slot) (s : State) : (retire f s).lmem = s.lmem := rfl
@[simp] theorem retire_tmem (f : Slot → Slot) (s : State) : (retire f s).tmem = s.tmem := rfl
@[simp] theorem retire_contexts (f : Slot → Slot) (s : State) : (retire f s).contexts = s.contexts := rfl
@[simp] theorem retire_gens (f : Slot → Slot) (s : State) : (retire f s).gens = s.gens := rfl
@[simp] theorem retire_places (f : Slot → Slot) (s : State) : (retire f s).places = s.places := rfl
@[simp] theorem retire_metas (f : Slot → Slot) (s : State) : (retire f s).metas = s.metas := rfl
@[simp] theorem retire_metaHeld (f : Slot → Slot) (s : State) : (retire f s).metaHeld = s.metaHeld := rfl
@[simp] theorem retire_roots (f : Slot → Slot) (s : State) : (retire f s).roots = s.roots := rfl
@[simp] theorem retire_spoilt (f : Slot → Slot) (s : State) : (retire f s).spoilt = s.spoilt := rfl
@[simp] theorem retire_attest (f : Slot → Slot) (s : State) : (retire f s).attest = s.attest := rfl
@[simp] theorem retire_walks (f : Slot → Slot) (s : State) : (retire f s).walks = s.walks := rfl
@[simp] theorem retire_retired (f : Slot → Slot) (s : State) : (retire f s).retired = s.retired := rfl
@[simp] theorem retire_notices (f : Slot → Slot) (s : State) : (retire f s).notices = s.notices := rfl
@[simp] theorem retire_held (f : Slot → Slot) (s : State) : (retire f s).held = s.held := rfl
@[simp] theorem retire_keys (f : Slot → Slot) (s : State) : (retire f s).keys = s.keys := rfl
@[simp] theorem retire_tlb (f : Slot → Slot) (s : State) : (retire f s).tlb = s.tlb := rfl
@[simp] theorem retire_tlb2 (f : Slot → Slot) (s : State) : (retire f s).tlb2 = s.tlb2 := rfl
@[simp] theorem retire_tnames (f : Slot → Slot) (s : State) : (retire f s).tnames = s.tnames := rfl
@[simp] theorem retire_scrubSeq (f : Slot → Slot) (s : State) : (retire f s).scrubSeq = s.scrubSeq := rfl
@[simp] theorem retire_life (f : Slot → Slot) (s : State) : (retire f s).life = s.life := rfl
@[simp] theorem retire_fuse (f : Slot → Slot) (s : State) : (retire f s).fuse = s.fuse := rfl
@[simp] theorem retire_funcs (f : Slot → Slot) (s : State) : (retire f s).funcs = s.funcs := rfl
@[simp] theorem retire_faults (f : Slot → Slot) (s : State) : (retire f s).faults = s.faults := rfl
@[simp] theorem retire_nextTag (f : Slot → Slot) (s : State) : (retire f s).nextTag = s.nextTag := rfl
@[simp] theorem retire_admin (f : Slot → Slot) (s : State) : (retire f s).admin = s.admin := rfl
@[simp] theorem retire_hostMem (f : Slot → Slot) (s : State) : (retire f s).hostMem = s.hostMem := rfl
@[simp] theorem retire_gangs (f : Slot → Slot) (s : State) : (retire f s).gangs = s.gangs := rfl
@[simp] theorem retire_domainRank (f : Slot → Slot) (s : State) : (retire f s).domainRank = s.domainRank := rfl
@[simp] theorem retire_linksDown (f : Slot → Slot) (s : State) : (retire f s).linksDown = s.linksDown := rfl
@[simp] theorem retire_expandersDown (f : Slot → Slot) (s : State) : (retire f s).expandersDown = s.expandersDown := rfl
@[simp] theorem retire_errors (f : Slot → Slot) (s : State) : (retire f s).errors = s.errors := rfl
@[simp] theorem retire_corrected (f : Slot → Slot) (s : State) : (retire f s).corrected = s.corrected := rfl
@[simp] theorem retire_throttled (f : Slot → Slot) (s : State) : (retire f s).throttled = s.throttled := rfl
@[simp] theorem park_turn (w : Wait) (s : State) : (park w s).turn = s.turn := rfl
@[simp] theorem park_cur (w : Wait) (s : State) : (park w s).cur = s.cur := rfl
@[simp] theorem park_agenda (w : Wait) (s : State) : (park w s).agenda = s.agenda := rfl
@[simp] theorem park_fresh (w : Wait) (s : State) : (park w s).fresh = s.fresh := rfl
@[simp] theorem park_time (w : Wait) (s : State) : (park w s).time = s.time := rfl
@[simp] theorem park_moment (w : Wait) (s : State) : (park w s).moment = s.moment := rfl
@[simp] theorem park_smem (w : Wait) (s : State) : (park w s).smem = s.smem := rfl
@[simp] theorem park_lmem (w : Wait) (s : State) : (park w s).lmem = s.lmem := rfl
@[simp] theorem park_tmem (w : Wait) (s : State) : (park w s).tmem = s.tmem := rfl
@[simp] theorem park_contexts (w : Wait) (s : State) : (park w s).contexts = s.contexts := rfl
@[simp] theorem park_gens (w : Wait) (s : State) : (park w s).gens = s.gens := rfl
@[simp] theorem park_places (w : Wait) (s : State) : (park w s).places = s.places := rfl
@[simp] theorem park_metas (w : Wait) (s : State) : (park w s).metas = s.metas := rfl
@[simp] theorem park_metaHeld (w : Wait) (s : State) : (park w s).metaHeld = s.metaHeld := rfl
@[simp] theorem park_roots (w : Wait) (s : State) : (park w s).roots = s.roots := rfl
@[simp] theorem park_spoilt (w : Wait) (s : State) : (park w s).spoilt = s.spoilt := rfl
@[simp] theorem park_attest (w : Wait) (s : State) : (park w s).attest = s.attest := rfl
@[simp] theorem park_walks (w : Wait) (s : State) : (park w s).walks = s.walks := rfl
@[simp] theorem park_retired (w : Wait) (s : State) : (park w s).retired = s.retired := rfl
@[simp] theorem park_notices (w : Wait) (s : State) : (park w s).notices = s.notices := rfl
@[simp] theorem park_held (w : Wait) (s : State) : (park w s).held = s.held := rfl
@[simp] theorem park_keys (w : Wait) (s : State) : (park w s).keys = s.keys := rfl
@[simp] theorem park_tlb (w : Wait) (s : State) : (park w s).tlb = s.tlb := rfl
@[simp] theorem park_tlb2 (w : Wait) (s : State) : (park w s).tlb2 = s.tlb2 := rfl
@[simp] theorem park_tnames (w : Wait) (s : State) : (park w s).tnames = s.tnames := rfl
@[simp] theorem park_scrubSeq (w : Wait) (s : State) : (park w s).scrubSeq = s.scrubSeq := rfl
@[simp] theorem park_life (w : Wait) (s : State) : (park w s).life = s.life := rfl
@[simp] theorem park_fuse (w : Wait) (s : State) : (park w s).fuse = s.fuse := rfl
@[simp] theorem park_funcs (w : Wait) (s : State) : (park w s).funcs = s.funcs := rfl
@[simp] theorem park_faults (w : Wait) (s : State) : (park w s).faults = s.faults := rfl
@[simp] theorem park_nextTag (w : Wait) (s : State) : (park w s).nextTag = s.nextTag := rfl
@[simp] theorem park_admin (w : Wait) (s : State) : (park w s).admin = s.admin := rfl
@[simp] theorem park_hostMem (w : Wait) (s : State) : (park w s).hostMem = s.hostMem := rfl
@[simp] theorem park_gangs (w : Wait) (s : State) : (park w s).gangs = s.gangs := rfl
@[simp] theorem park_domainRank (w : Wait) (s : State) : (park w s).domainRank = s.domainRank := rfl
@[simp] theorem park_linksDown (w : Wait) (s : State) : (park w s).linksDown = s.linksDown := rfl
@[simp] theorem park_expandersDown (w : Wait) (s : State) : (park w s).expandersDown = s.expandersDown := rfl
@[simp] theorem park_errors (w : Wait) (s : State) : (park w s).errors = s.errors := rfl
@[simp] theorem park_corrected (w : Wait) (s : State) : (park w s).corrected = s.corrected := rfl
@[simp] theorem park_throttled (w : Wait) (s : State) : (park w s).throttled = s.throttled := rfl
@[simp] theorem parkAt_turn (w : Wait) (p : Progress) (s : State) : (parkAt w p s).turn = s.turn := rfl
@[simp] theorem parkAt_cur (w : Wait) (p : Progress) (s : State) : (parkAt w p s).cur = s.cur := rfl
@[simp] theorem parkAt_agenda (w : Wait) (p : Progress) (s : State) : (parkAt w p s).agenda = s.agenda := rfl
@[simp] theorem parkAt_fresh (w : Wait) (p : Progress) (s : State) : (parkAt w p s).fresh = s.fresh := rfl
@[simp] theorem parkAt_time (w : Wait) (p : Progress) (s : State) : (parkAt w p s).time = s.time := rfl
@[simp] theorem parkAt_moment (w : Wait) (p : Progress) (s : State) : (parkAt w p s).moment = s.moment := rfl
@[simp] theorem parkAt_smem (w : Wait) (p : Progress) (s : State) : (parkAt w p s).smem = s.smem := rfl
@[simp] theorem parkAt_lmem (w : Wait) (p : Progress) (s : State) : (parkAt w p s).lmem = s.lmem := rfl
@[simp] theorem parkAt_tmem (w : Wait) (p : Progress) (s : State) : (parkAt w p s).tmem = s.tmem := rfl
@[simp] theorem parkAt_contexts (w : Wait) (p : Progress) (s : State) : (parkAt w p s).contexts = s.contexts := rfl
@[simp] theorem parkAt_gens (w : Wait) (p : Progress) (s : State) : (parkAt w p s).gens = s.gens := rfl
@[simp] theorem parkAt_places (w : Wait) (p : Progress) (s : State) : (parkAt w p s).places = s.places := rfl
@[simp] theorem parkAt_metas (w : Wait) (p : Progress) (s : State) : (parkAt w p s).metas = s.metas := rfl
@[simp] theorem parkAt_metaHeld (w : Wait) (p : Progress) (s : State) : (parkAt w p s).metaHeld = s.metaHeld := rfl
@[simp] theorem parkAt_roots (w : Wait) (p : Progress) (s : State) : (parkAt w p s).roots = s.roots := rfl
@[simp] theorem parkAt_spoilt (w : Wait) (p : Progress) (s : State) : (parkAt w p s).spoilt = s.spoilt := rfl
@[simp] theorem parkAt_attest (w : Wait) (p : Progress) (s : State) : (parkAt w p s).attest = s.attest := rfl
@[simp] theorem parkAt_walks (w : Wait) (p : Progress) (s : State) : (parkAt w p s).walks = s.walks := rfl
@[simp] theorem parkAt_retired (w : Wait) (p : Progress) (s : State) : (parkAt w p s).retired = s.retired := rfl
@[simp] theorem parkAt_notices (w : Wait) (p : Progress) (s : State) : (parkAt w p s).notices = s.notices := rfl
@[simp] theorem parkAt_held (w : Wait) (p : Progress) (s : State) : (parkAt w p s).held = s.held := rfl
@[simp] theorem parkAt_keys (w : Wait) (p : Progress) (s : State) : (parkAt w p s).keys = s.keys := rfl
@[simp] theorem parkAt_tlb (w : Wait) (p : Progress) (s : State) : (parkAt w p s).tlb = s.tlb := rfl
@[simp] theorem parkAt_tlb2 (w : Wait) (p : Progress) (s : State) : (parkAt w p s).tlb2 = s.tlb2 := rfl
@[simp] theorem parkAt_tnames (w : Wait) (p : Progress) (s : State) : (parkAt w p s).tnames = s.tnames := rfl
@[simp] theorem parkAt_scrubSeq (w : Wait) (p : Progress) (s : State) : (parkAt w p s).scrubSeq = s.scrubSeq := rfl
@[simp] theorem parkAt_life (w : Wait) (p : Progress) (s : State) : (parkAt w p s).life = s.life := rfl
@[simp] theorem parkAt_fuse (w : Wait) (p : Progress) (s : State) : (parkAt w p s).fuse = s.fuse := rfl
@[simp] theorem parkAt_funcs (w : Wait) (p : Progress) (s : State) : (parkAt w p s).funcs = s.funcs := rfl
@[simp] theorem parkAt_faults (w : Wait) (p : Progress) (s : State) : (parkAt w p s).faults = s.faults := rfl
@[simp] theorem parkAt_nextTag (w : Wait) (p : Progress) (s : State) : (parkAt w p s).nextTag = s.nextTag := rfl
@[simp] theorem parkAt_admin (w : Wait) (p : Progress) (s : State) : (parkAt w p s).admin = s.admin := rfl
@[simp] theorem parkAt_hostMem (w : Wait) (p : Progress) (s : State) : (parkAt w p s).hostMem = s.hostMem := rfl
@[simp] theorem parkAt_gangs (w : Wait) (p : Progress) (s : State) : (parkAt w p s).gangs = s.gangs := rfl
@[simp] theorem parkAt_domainRank (w : Wait) (p : Progress) (s : State) : (parkAt w p s).domainRank = s.domainRank := rfl
@[simp] theorem parkAt_linksDown (w : Wait) (p : Progress) (s : State) : (parkAt w p s).linksDown = s.linksDown := rfl
@[simp] theorem parkAt_expandersDown (w : Wait) (p : Progress) (s : State) : (parkAt w p s).expandersDown = s.expandersDown := rfl
@[simp] theorem parkAt_errors (w : Wait) (p : Progress) (s : State) : (parkAt w p s).errors = s.errors := rfl
@[simp] theorem parkAt_corrected (w : Wait) (p : Progress) (s : State) : (parkAt w p s).corrected = s.corrected := rfl
@[simp] theorem parkAt_throttled (w : Wait) (p : Progress) (s : State) : (parkAt w p s).throttled = s.throttled := rfl

/-! ### Stopping a region (R416, R430) -/

/-- A halted region raises nothing more. -/
theorem raise_of_halt {r : Nat} {x : StopRec} {s : State} (h : (s.region r).halt = true) : raise r x s = s := by simp [raise, h]
/-- Whatever was so before, the region is halted after. -/
theorem raise_halt (r : Nat) (x : StopRec) (s : State) : ((raise r x s).region r).halt = true := by
  unfold raise; dsimp only
  split
  · assumption
  · split
    · simp
    · simp [State.region, State.setRegion]
/-- A region that ran keeps one record, of this cause, and the moment of the stop; its pre-emption is abandoned. -/
theorem raise_region {r : Nat} {x : StopRec} {s : State} (h : (s.region r).halt = false) :
    (raise r x s).region r = { s.region r with halt := true, haltTime := s.time, raised := [{ x with time := s.time }], phase := .halted, preempt := none } := by
  unfold raise; dsimp only
  rw [if_neg (by simp [h])]
  split
  · simp
  · simp [State.region, State.setRegion]
@[simp] theorem raise_turn (r : Nat) (x : StopRec) (s : State) : (raise r x s).turn = s.turn := by
  unfold raise; dsimp only; split
  · rfl
  · split <;> simp
@[simp] theorem raise_cur (r : Nat) (x : StopRec) (s : State) : (raise r x s).cur = s.cur := by
  unfold raise; dsimp only; split
  · rfl
  · split <;> simp
@[simp] theorem raise_agenda (r : Nat) (x : StopRec) (s : State) : (raise r x s).agenda = s.agenda := by
  unfold raise; dsimp only; split
  · rfl
  · split <;> simp
@[simp] theorem raise_fresh (r : Nat) (x : StopRec) (s : State) : (raise r x s).fresh = s.fresh := by
  unfold raise; dsimp only; split
  · rfl
  · split <;> simp
@[simp] theorem raise_time (r : Nat) (x : StopRec) (s : State) : (raise r x s).time = s.time := by
  unfold raise; dsimp only; split
  · rfl
  · split <;> simp
@[simp] theorem raise_moment (r : Nat) (x : StopRec) (s : State) : (raise r x s).moment = s.moment := by
  unfold raise; dsimp only; split
  · rfl
  · split <;> simp
@[simp] theorem raise_smem (r : Nat) (x : StopRec) (s : State) : (raise r x s).smem = s.smem := by
  unfold raise; dsimp only; split
  · rfl
  · split <;> simp
@[simp] theorem raise_lmem (r : Nat) (x : StopRec) (s : State) : (raise r x s).lmem = s.lmem := by
  unfold raise; dsimp only; split
  · rfl
  · split <;> simp
@[simp] theorem raise_tmem (r : Nat) (x : StopRec) (s : State) : (raise r x s).tmem = s.tmem := by
  unfold raise; dsimp only; split
  · rfl
  · split <;> simp
@[simp] theorem raise_gens (r : Nat) (x : StopRec) (s : State) : (raise r x s).gens = s.gens := by
  unfold raise; dsimp only; split
  · rfl
  · split <;> simp
@[simp] theorem raise_places (r : Nat) (x : StopRec) (s : State) : (raise r x s).places = s.places := by
  unfold raise; dsimp only; split
  · rfl
  · split <;> simp
@[simp] theorem raise_metas (r : Nat) (x : StopRec) (s : State) : (raise r x s).metas = s.metas := by
  unfold raise; dsimp only; split
  · rfl
  · split <;> simp
@[simp] theorem raise_metaHeld (r : Nat) (x : StopRec) (s : State) : (raise r x s).metaHeld = s.metaHeld := by
  unfold raise; dsimp only; split
  · rfl
  · split <;> simp
@[simp] theorem raise_roots (r : Nat) (x : StopRec) (s : State) : (raise r x s).roots = s.roots := by
  unfold raise; dsimp only; split
  · rfl
  · split <;> simp
@[simp] theorem raise_spoilt (r : Nat) (x : StopRec) (s : State) : (raise r x s).spoilt = s.spoilt := by
  unfold raise; dsimp only; split
  · rfl
  · split <;> simp
@[simp] theorem raise_attest (r : Nat) (x : StopRec) (s : State) : (raise r x s).attest = s.attest := by
  unfold raise; dsimp only; split
  · rfl
  · split <;> simp
@[simp] theorem raise_walks (r : Nat) (x : StopRec) (s : State) : (raise r x s).walks = s.walks := by
  unfold raise; dsimp only; split
  · rfl
  · split <;> simp
@[simp] theorem raise_retired (r : Nat) (x : StopRec) (s : State) : (raise r x s).retired = s.retired := by
  unfold raise; dsimp only; split
  · rfl
  · split <;> simp
@[simp] theorem raise_notices (r : Nat) (x : StopRec) (s : State) : (raise r x s).notices = s.notices := by
  unfold raise; dsimp only; split
  · rfl
  · split <;> simp
@[simp] theorem raise_held (r : Nat) (x : StopRec) (s : State) : (raise r x s).held = s.held := by
  unfold raise; dsimp only; split
  · rfl
  · split <;> simp
@[simp] theorem raise_keys (r : Nat) (x : StopRec) (s : State) : (raise r x s).keys = s.keys := by
  unfold raise; dsimp only; split
  · rfl
  · split <;> simp
@[simp] theorem raise_tlb (r : Nat) (x : StopRec) (s : State) : (raise r x s).tlb = s.tlb := by
  unfold raise; dsimp only; split
  · rfl
  · split <;> simp
@[simp] theorem raise_tlb2 (r : Nat) (x : StopRec) (s : State) : (raise r x s).tlb2 = s.tlb2 := by
  unfold raise; dsimp only; split
  · rfl
  · split <;> simp
@[simp] theorem raise_tnames (r : Nat) (x : StopRec) (s : State) : (raise r x s).tnames = s.tnames := by
  unfold raise; dsimp only; split
  · rfl
  · split <;> simp
@[simp] theorem raise_scrubSeq (r : Nat) (x : StopRec) (s : State) : (raise r x s).scrubSeq = s.scrubSeq := by
  unfold raise; dsimp only; split
  · rfl
  · split <;> simp
@[simp] theorem raise_life (r : Nat) (x : StopRec) (s : State) : (raise r x s).life = s.life := by
  unfold raise; dsimp only; split
  · rfl
  · split <;> simp
@[simp] theorem raise_fuse (r : Nat) (x : StopRec) (s : State) : (raise r x s).fuse = s.fuse := by
  unfold raise; dsimp only; split
  · rfl
  · split <;> simp
@[simp] theorem raise_funcs (r : Nat) (x : StopRec) (s : State) : (raise r x s).funcs = s.funcs := by
  unfold raise; dsimp only; split
  · rfl
  · split <;> simp
@[simp] theorem raise_faults (r : Nat) (x : StopRec) (s : State) : (raise r x s).faults = s.faults := by
  unfold raise; dsimp only; split
  · rfl
  · split <;> simp
@[simp] theorem raise_nextTag (r : Nat) (x : StopRec) (s : State) : (raise r x s).nextTag = s.nextTag := by
  unfold raise; dsimp only; split
  · rfl
  · split <;> simp
@[simp] theorem raise_admin (r : Nat) (x : StopRec) (s : State) : (raise r x s).admin = s.admin := by
  unfold raise; dsimp only; split
  · rfl
  · split <;> simp
@[simp] theorem raise_hostMem (r : Nat) (x : StopRec) (s : State) : (raise r x s).hostMem = s.hostMem := by
  unfold raise; dsimp only; split
  · rfl
  · split <;> simp
@[simp] theorem raise_gangs (r : Nat) (x : StopRec) (s : State) : (raise r x s).gangs = s.gangs := by
  unfold raise; dsimp only; split
  · rfl
  · split <;> simp
@[simp] theorem raise_domainRank (r : Nat) (x : StopRec) (s : State) : (raise r x s).domainRank = s.domainRank := by
  unfold raise; dsimp only; split
  · rfl
  · split <;> simp
@[simp] theorem raise_linksDown (r : Nat) (x : StopRec) (s : State) : (raise r x s).linksDown = s.linksDown := by
  unfold raise; dsimp only; split
  · rfl
  · split <;> simp
@[simp] theorem raise_expandersDown (r : Nat) (x : StopRec) (s : State) : (raise r x s).expandersDown = s.expandersDown := by
  unfold raise; dsimp only; split
  · rfl
  · split <;> simp
@[simp] theorem raise_errors (r : Nat) (x : StopRec) (s : State) : (raise r x s).errors = s.errors := by
  unfold raise; dsimp only; split
  · rfl
  · split <;> simp
@[simp] theorem raise_corrected (r : Nat) (x : StopRec) (s : State) : (raise r x s).corrected = s.corrected := by
  unfold raise; dsimp only; split
  · rfl
  · split <;> simp
@[simp] theorem raise_throttled (r : Nat) (x : StopRec) (s : State) : (raise r x s).throttled = s.throttled := by
  unfold raise; dsimp only; split
  · rfl
  · split <;> simp

/-! ### Producers (R27) -/

@[simp] theorem launch_here (ds : List Reg) (f : Flight) (s : State) : (launch ds f s).here = s.here.pend ds := by
  simp only [launch, State.here_modHere, State.here_modHereC, State.hereC_takeId]
  rfl
/-- The slot of a completed producer has its values and flags. -/
theorem complete_slot (r u : Nat) (p : Producer) (vs : List Word) (fl : BitVec 5) (s : State) :
    (complete r u p vs fl s).slot r u p.slot = (Slot.land p.dests vs (s.slot r u p.slot)).flag fl := by
  simp only [complete, State.slot_modSlot_same]
  simp only [State.slot, State.core_modCore_same]
  rfl
@[simp] theorem launch_turn (ds : List Reg) (f : Flight) (s : State) : (launch ds f s).turn = s.turn := rfl
@[simp] theorem launch_cur (ds : List Reg) (f : Flight) (s : State) : (launch ds f s).cur = s.cur := rfl
@[simp] theorem launch_agenda (ds : List Reg) (f : Flight) (s : State) : (launch ds f s).agenda = s.agenda := rfl
@[simp] theorem launch_fresh (ds : List Reg) (f : Flight) (s : State) : (launch ds f s).fresh = s.fresh := rfl
@[simp] theorem launch_time (ds : List Reg) (f : Flight) (s : State) : (launch ds f s).time = s.time := rfl
@[simp] theorem launch_moment (ds : List Reg) (f : Flight) (s : State) : (launch ds f s).moment = s.moment := rfl
@[simp] theorem launch_smem (ds : List Reg) (f : Flight) (s : State) : (launch ds f s).smem = s.smem := rfl
@[simp] theorem launch_lmem (ds : List Reg) (f : Flight) (s : State) : (launch ds f s).lmem = s.lmem := rfl
@[simp] theorem launch_tmem (ds : List Reg) (f : Flight) (s : State) : (launch ds f s).tmem = s.tmem := rfl
@[simp] theorem launch_contexts (ds : List Reg) (f : Flight) (s : State) : (launch ds f s).contexts = s.contexts := rfl
@[simp] theorem launch_gens (ds : List Reg) (f : Flight) (s : State) : (launch ds f s).gens = s.gens := rfl
@[simp] theorem launch_places (ds : List Reg) (f : Flight) (s : State) : (launch ds f s).places = s.places := rfl
@[simp] theorem launch_metas (ds : List Reg) (f : Flight) (s : State) : (launch ds f s).metas = s.metas := rfl
@[simp] theorem launch_metaHeld (ds : List Reg) (f : Flight) (s : State) : (launch ds f s).metaHeld = s.metaHeld := rfl
@[simp] theorem launch_roots (ds : List Reg) (f : Flight) (s : State) : (launch ds f s).roots = s.roots := rfl
@[simp] theorem launch_spoilt (ds : List Reg) (f : Flight) (s : State) : (launch ds f s).spoilt = s.spoilt := rfl
@[simp] theorem launch_attest (ds : List Reg) (f : Flight) (s : State) : (launch ds f s).attest = s.attest := rfl
@[simp] theorem launch_walks (ds : List Reg) (f : Flight) (s : State) : (launch ds f s).walks = s.walks := rfl
@[simp] theorem launch_retired (ds : List Reg) (f : Flight) (s : State) : (launch ds f s).retired = s.retired := rfl
@[simp] theorem launch_notices (ds : List Reg) (f : Flight) (s : State) : (launch ds f s).notices = s.notices := rfl
@[simp] theorem launch_held (ds : List Reg) (f : Flight) (s : State) : (launch ds f s).held = s.held := rfl
@[simp] theorem launch_keys (ds : List Reg) (f : Flight) (s : State) : (launch ds f s).keys = s.keys := rfl
@[simp] theorem launch_tlb (ds : List Reg) (f : Flight) (s : State) : (launch ds f s).tlb = s.tlb := rfl
@[simp] theorem launch_tlb2 (ds : List Reg) (f : Flight) (s : State) : (launch ds f s).tlb2 = s.tlb2 := rfl
@[simp] theorem launch_tnames (ds : List Reg) (f : Flight) (s : State) : (launch ds f s).tnames = s.tnames := rfl
@[simp] theorem launch_scrubSeq (ds : List Reg) (f : Flight) (s : State) : (launch ds f s).scrubSeq = s.scrubSeq := rfl
@[simp] theorem launch_life (ds : List Reg) (f : Flight) (s : State) : (launch ds f s).life = s.life := rfl
@[simp] theorem launch_fuse (ds : List Reg) (f : Flight) (s : State) : (launch ds f s).fuse = s.fuse := rfl
@[simp] theorem launch_funcs (ds : List Reg) (f : Flight) (s : State) : (launch ds f s).funcs = s.funcs := rfl
@[simp] theorem launch_faults (ds : List Reg) (f : Flight) (s : State) : (launch ds f s).faults = s.faults := rfl
@[simp] theorem launch_nextTag (ds : List Reg) (f : Flight) (s : State) : (launch ds f s).nextTag = s.nextTag := rfl
@[simp] theorem launch_admin (ds : List Reg) (f : Flight) (s : State) : (launch ds f s).admin = s.admin := rfl
@[simp] theorem launch_hostMem (ds : List Reg) (f : Flight) (s : State) : (launch ds f s).hostMem = s.hostMem := rfl
@[simp] theorem launch_gangs (ds : List Reg) (f : Flight) (s : State) : (launch ds f s).gangs = s.gangs := rfl
@[simp] theorem launch_domainRank (ds : List Reg) (f : Flight) (s : State) : (launch ds f s).domainRank = s.domainRank := rfl
@[simp] theorem launch_linksDown (ds : List Reg) (f : Flight) (s : State) : (launch ds f s).linksDown = s.linksDown := rfl
@[simp] theorem launch_expandersDown (ds : List Reg) (f : Flight) (s : State) : (launch ds f s).expandersDown = s.expandersDown := rfl
@[simp] theorem launch_errors (ds : List Reg) (f : Flight) (s : State) : (launch ds f s).errors = s.errors := rfl
@[simp] theorem launch_corrected (ds : List Reg) (f : Flight) (s : State) : (launch ds f s).corrected = s.corrected := rfl
@[simp] theorem launch_throttled (ds : List Reg) (f : Flight) (s : State) : (launch ds f s).throttled = s.throttled := rfl
@[simp] theorem complete_turn (r u : Nat) (p : Producer) (vs : List Word) (fl : BitVec 5) (s : State) : (complete r u p vs fl s).turn = s.turn := rfl
@[simp] theorem complete_cur (r u : Nat) (p : Producer) (vs : List Word) (fl : BitVec 5) (s : State) : (complete r u p vs fl s).cur = s.cur := rfl
@[simp] theorem complete_agenda (r u : Nat) (p : Producer) (vs : List Word) (fl : BitVec 5) (s : State) : (complete r u p vs fl s).agenda = s.agenda := rfl
@[simp] theorem complete_fresh (r u : Nat) (p : Producer) (vs : List Word) (fl : BitVec 5) (s : State) : (complete r u p vs fl s).fresh = s.fresh := rfl
@[simp] theorem complete_time (r u : Nat) (p : Producer) (vs : List Word) (fl : BitVec 5) (s : State) : (complete r u p vs fl s).time = s.time := rfl
@[simp] theorem complete_moment (r u : Nat) (p : Producer) (vs : List Word) (fl : BitVec 5) (s : State) : (complete r u p vs fl s).moment = s.moment := rfl
@[simp] theorem complete_smem (r u : Nat) (p : Producer) (vs : List Word) (fl : BitVec 5) (s : State) : (complete r u p vs fl s).smem = s.smem := rfl
@[simp] theorem complete_lmem (r u : Nat) (p : Producer) (vs : List Word) (fl : BitVec 5) (s : State) : (complete r u p vs fl s).lmem = s.lmem := rfl
@[simp] theorem complete_tmem (r u : Nat) (p : Producer) (vs : List Word) (fl : BitVec 5) (s : State) : (complete r u p vs fl s).tmem = s.tmem := rfl
@[simp] theorem complete_contexts (r u : Nat) (p : Producer) (vs : List Word) (fl : BitVec 5) (s : State) : (complete r u p vs fl s).contexts = s.contexts := rfl
@[simp] theorem complete_gens (r u : Nat) (p : Producer) (vs : List Word) (fl : BitVec 5) (s : State) : (complete r u p vs fl s).gens = s.gens := rfl
@[simp] theorem complete_places (r u : Nat) (p : Producer) (vs : List Word) (fl : BitVec 5) (s : State) : (complete r u p vs fl s).places = s.places := rfl
@[simp] theorem complete_metas (r u : Nat) (p : Producer) (vs : List Word) (fl : BitVec 5) (s : State) : (complete r u p vs fl s).metas = s.metas := rfl
@[simp] theorem complete_metaHeld (r u : Nat) (p : Producer) (vs : List Word) (fl : BitVec 5) (s : State) : (complete r u p vs fl s).metaHeld = s.metaHeld := rfl
@[simp] theorem complete_roots (r u : Nat) (p : Producer) (vs : List Word) (fl : BitVec 5) (s : State) : (complete r u p vs fl s).roots = s.roots := rfl
@[simp] theorem complete_spoilt (r u : Nat) (p : Producer) (vs : List Word) (fl : BitVec 5) (s : State) : (complete r u p vs fl s).spoilt = s.spoilt := rfl
@[simp] theorem complete_attest (r u : Nat) (p : Producer) (vs : List Word) (fl : BitVec 5) (s : State) : (complete r u p vs fl s).attest = s.attest := rfl
@[simp] theorem complete_walks (r u : Nat) (p : Producer) (vs : List Word) (fl : BitVec 5) (s : State) : (complete r u p vs fl s).walks = s.walks := rfl
@[simp] theorem complete_retired (r u : Nat) (p : Producer) (vs : List Word) (fl : BitVec 5) (s : State) : (complete r u p vs fl s).retired = s.retired := rfl
@[simp] theorem complete_notices (r u : Nat) (p : Producer) (vs : List Word) (fl : BitVec 5) (s : State) : (complete r u p vs fl s).notices = s.notices := rfl
@[simp] theorem complete_held (r u : Nat) (p : Producer) (vs : List Word) (fl : BitVec 5) (s : State) : (complete r u p vs fl s).held = s.held := rfl
@[simp] theorem complete_keys (r u : Nat) (p : Producer) (vs : List Word) (fl : BitVec 5) (s : State) : (complete r u p vs fl s).keys = s.keys := rfl
@[simp] theorem complete_tlb (r u : Nat) (p : Producer) (vs : List Word) (fl : BitVec 5) (s : State) : (complete r u p vs fl s).tlb = s.tlb := rfl
@[simp] theorem complete_tlb2 (r u : Nat) (p : Producer) (vs : List Word) (fl : BitVec 5) (s : State) : (complete r u p vs fl s).tlb2 = s.tlb2 := rfl
@[simp] theorem complete_tnames (r u : Nat) (p : Producer) (vs : List Word) (fl : BitVec 5) (s : State) : (complete r u p vs fl s).tnames = s.tnames := rfl
@[simp] theorem complete_scrubSeq (r u : Nat) (p : Producer) (vs : List Word) (fl : BitVec 5) (s : State) : (complete r u p vs fl s).scrubSeq = s.scrubSeq := rfl
@[simp] theorem complete_life (r u : Nat) (p : Producer) (vs : List Word) (fl : BitVec 5) (s : State) : (complete r u p vs fl s).life = s.life := rfl
@[simp] theorem complete_fuse (r u : Nat) (p : Producer) (vs : List Word) (fl : BitVec 5) (s : State) : (complete r u p vs fl s).fuse = s.fuse := rfl
@[simp] theorem complete_funcs (r u : Nat) (p : Producer) (vs : List Word) (fl : BitVec 5) (s : State) : (complete r u p vs fl s).funcs = s.funcs := rfl
@[simp] theorem complete_faults (r u : Nat) (p : Producer) (vs : List Word) (fl : BitVec 5) (s : State) : (complete r u p vs fl s).faults = s.faults := rfl
@[simp] theorem complete_nextTag (r u : Nat) (p : Producer) (vs : List Word) (fl : BitVec 5) (s : State) : (complete r u p vs fl s).nextTag = s.nextTag := rfl
@[simp] theorem complete_admin (r u : Nat) (p : Producer) (vs : List Word) (fl : BitVec 5) (s : State) : (complete r u p vs fl s).admin = s.admin := rfl
@[simp] theorem complete_hostMem (r u : Nat) (p : Producer) (vs : List Word) (fl : BitVec 5) (s : State) : (complete r u p vs fl s).hostMem = s.hostMem := rfl
@[simp] theorem complete_gangs (r u : Nat) (p : Producer) (vs : List Word) (fl : BitVec 5) (s : State) : (complete r u p vs fl s).gangs = s.gangs := rfl
@[simp] theorem complete_domainRank (r u : Nat) (p : Producer) (vs : List Word) (fl : BitVec 5) (s : State) : (complete r u p vs fl s).domainRank = s.domainRank := rfl
@[simp] theorem complete_linksDown (r u : Nat) (p : Producer) (vs : List Word) (fl : BitVec 5) (s : State) : (complete r u p vs fl s).linksDown = s.linksDown := rfl
@[simp] theorem complete_expandersDown (r u : Nat) (p : Producer) (vs : List Word) (fl : BitVec 5) (s : State) : (complete r u p vs fl s).expandersDown = s.expandersDown := rfl
@[simp] theorem complete_errors (r u : Nat) (p : Producer) (vs : List Word) (fl : BitVec 5) (s : State) : (complete r u p vs fl s).errors = s.errors := rfl
@[simp] theorem complete_corrected (r u : Nat) (p : Producer) (vs : List Word) (fl : BitVec 5) (s : State) : (complete r u p vs fl s).corrected = s.corrected := rfl
@[simp] theorem complete_throttled (r u : Nat) (p : Producer) (vs : List Word) (fl : BitVec 5) (s : State) : (complete r u p vs fl s).throttled = s.throttled := rfl

/-! ### Traps (R82, R83) -/

@[simp] theorem deliver_turn (r u : Nat) (s : State) : (deliver r u s).turn = s.turn := by
  simp only [deliver]; split
  · split <;> rfl
  · rfl
@[simp] theorem deliver_cur (r u : Nat) (s : State) : (deliver r u s).cur = s.cur := by
  simp only [deliver]; split
  · split <;> rfl
  · rfl
@[simp] theorem deliver_agenda (r u : Nat) (s : State) : (deliver r u s).agenda = s.agenda := by
  simp only [deliver]; split
  · split <;> rfl
  · rfl
@[simp] theorem deliver_fresh (r u : Nat) (s : State) : (deliver r u s).fresh = s.fresh := by
  simp only [deliver]; split
  · split <;> rfl
  · rfl
@[simp] theorem deliver_time (r u : Nat) (s : State) : (deliver r u s).time = s.time := by
  simp only [deliver]; split
  · split <;> rfl
  · rfl
@[simp] theorem deliver_moment (r u : Nat) (s : State) : (deliver r u s).moment = s.moment := by
  simp only [deliver]; split
  · split <;> rfl
  · rfl
@[simp] theorem deliver_smem (r u : Nat) (s : State) : (deliver r u s).smem = s.smem := by
  simp only [deliver]; split
  · split <;> rfl
  · rfl
@[simp] theorem deliver_lmem (r u : Nat) (s : State) : (deliver r u s).lmem = s.lmem := by
  simp only [deliver]; split
  · split <;> rfl
  · rfl
@[simp] theorem deliver_tmem (r u : Nat) (s : State) : (deliver r u s).tmem = s.tmem := by
  simp only [deliver]; split
  · split <;> rfl
  · rfl
@[simp] theorem deliver_contexts (r u : Nat) (s : State) : (deliver r u s).contexts = s.contexts := by
  simp only [deliver]; split
  · split <;> rfl
  · rfl
@[simp] theorem deliver_gens (r u : Nat) (s : State) : (deliver r u s).gens = s.gens := by
  simp only [deliver]; split
  · split <;> rfl
  · rfl
@[simp] theorem deliver_places (r u : Nat) (s : State) : (deliver r u s).places = s.places := by
  simp only [deliver]; split
  · split <;> rfl
  · rfl
@[simp] theorem deliver_metas (r u : Nat) (s : State) : (deliver r u s).metas = s.metas := by
  simp only [deliver]; split
  · split <;> rfl
  · rfl
@[simp] theorem deliver_metaHeld (r u : Nat) (s : State) : (deliver r u s).metaHeld = s.metaHeld := by
  simp only [deliver]; split
  · split <;> rfl
  · rfl
@[simp] theorem deliver_roots (r u : Nat) (s : State) : (deliver r u s).roots = s.roots := by
  simp only [deliver]; split
  · split <;> rfl
  · rfl
@[simp] theorem deliver_spoilt (r u : Nat) (s : State) : (deliver r u s).spoilt = s.spoilt := by
  simp only [deliver]; split
  · split <;> rfl
  · rfl
@[simp] theorem deliver_attest (r u : Nat) (s : State) : (deliver r u s).attest = s.attest := by
  simp only [deliver]; split
  · split <;> rfl
  · rfl
@[simp] theorem deliver_walks (r u : Nat) (s : State) : (deliver r u s).walks = s.walks := by
  simp only [deliver]; split
  · split <;> rfl
  · rfl
@[simp] theorem deliver_retired (r u : Nat) (s : State) : (deliver r u s).retired = s.retired := by
  simp only [deliver]; split
  · split <;> rfl
  · rfl
@[simp] theorem deliver_notices (r u : Nat) (s : State) : (deliver r u s).notices = s.notices := by
  simp only [deliver]; split
  · split <;> rfl
  · rfl
@[simp] theorem deliver_held (r u : Nat) (s : State) : (deliver r u s).held = s.held := by
  simp only [deliver]; split
  · split <;> rfl
  · rfl
@[simp] theorem deliver_keys (r u : Nat) (s : State) : (deliver r u s).keys = s.keys := by
  simp only [deliver]; split
  · split <;> rfl
  · rfl
@[simp] theorem deliver_tlb (r u : Nat) (s : State) : (deliver r u s).tlb = s.tlb := by
  simp only [deliver]; split
  · split <;> rfl
  · rfl
@[simp] theorem deliver_tlb2 (r u : Nat) (s : State) : (deliver r u s).tlb2 = s.tlb2 := by
  simp only [deliver]; split
  · split <;> rfl
  · rfl
@[simp] theorem deliver_tnames (r u : Nat) (s : State) : (deliver r u s).tnames = s.tnames := by
  simp only [deliver]; split
  · split <;> rfl
  · rfl
@[simp] theorem deliver_scrubSeq (r u : Nat) (s : State) : (deliver r u s).scrubSeq = s.scrubSeq := by
  simp only [deliver]; split
  · split <;> rfl
  · rfl
@[simp] theorem deliver_life (r u : Nat) (s : State) : (deliver r u s).life = s.life := by
  simp only [deliver]; split
  · split <;> rfl
  · rfl
@[simp] theorem deliver_fuse (r u : Nat) (s : State) : (deliver r u s).fuse = s.fuse := by
  simp only [deliver]; split
  · split <;> rfl
  · rfl
@[simp] theorem deliver_funcs (r u : Nat) (s : State) : (deliver r u s).funcs = s.funcs := by
  simp only [deliver]; split
  · split <;> rfl
  · rfl
@[simp] theorem deliver_faults (r u : Nat) (s : State) : (deliver r u s).faults = s.faults := by
  simp only [deliver]; split
  · split <;> rfl
  · rfl
@[simp] theorem deliver_nextTag (r u : Nat) (s : State) : (deliver r u s).nextTag = s.nextTag := by
  simp only [deliver]; split
  · split <;> rfl
  · rfl
@[simp] theorem deliver_admin (r u : Nat) (s : State) : (deliver r u s).admin = s.admin := by
  simp only [deliver]; split
  · split <;> rfl
  · rfl
@[simp] theorem deliver_hostMem (r u : Nat) (s : State) : (deliver r u s).hostMem = s.hostMem := by
  simp only [deliver]; split
  · split <;> rfl
  · rfl
@[simp] theorem deliver_gangs (r u : Nat) (s : State) : (deliver r u s).gangs = s.gangs := by
  simp only [deliver]; split
  · split <;> rfl
  · rfl
@[simp] theorem deliver_domainRank (r u : Nat) (s : State) : (deliver r u s).domainRank = s.domainRank := by
  simp only [deliver]; split
  · split <;> rfl
  · rfl
@[simp] theorem deliver_linksDown (r u : Nat) (s : State) : (deliver r u s).linksDown = s.linksDown := by
  simp only [deliver]; split
  · split <;> rfl
  · rfl
@[simp] theorem deliver_expandersDown (r u : Nat) (s : State) : (deliver r u s).expandersDown = s.expandersDown := by
  simp only [deliver]; split
  · split <;> rfl
  · rfl
@[simp] theorem deliver_errors (r u : Nat) (s : State) : (deliver r u s).errors = s.errors := by
  simp only [deliver]; split
  · split <;> rfl
  · rfl
@[simp] theorem deliver_corrected (r u : Nat) (s : State) : (deliver r u s).corrected = s.corrected := by
  simp only [deliver]; split
  · split <;> rfl
  · rfl
@[simp] theorem deliver_throttled (r u : Nat) (s : State) : (deliver r u s).throttled = s.throttled := by
  simp only [deliver]; split
  · split <;> rfl
  · rfl
@[simp] theorem takeTrap_turn (r u k : Nat) (t : TrapReq) (a b : Word) (s : State) : (takeTrap r u k t a b s).turn = s.turn := by
  simp only [takeTrap]; split <;> simp
@[simp] theorem takeTrap_cur (r u k : Nat) (t : TrapReq) (a b : Word) (s : State) : (takeTrap r u k t a b s).cur = s.cur := by
  simp only [takeTrap]; split <;> simp
@[simp] theorem takeTrap_agenda (r u k : Nat) (t : TrapReq) (a b : Word) (s : State) : (takeTrap r u k t a b s).agenda = s.agenda := by
  simp only [takeTrap]; split <;> simp
@[simp] theorem takeTrap_fresh (r u k : Nat) (t : TrapReq) (a b : Word) (s : State) : (takeTrap r u k t a b s).fresh = s.fresh := by
  simp only [takeTrap]; split <;> simp
@[simp] theorem takeTrap_time (r u k : Nat) (t : TrapReq) (a b : Word) (s : State) : (takeTrap r u k t a b s).time = s.time := by
  simp only [takeTrap]; split <;> simp
@[simp] theorem takeTrap_moment (r u k : Nat) (t : TrapReq) (a b : Word) (s : State) : (takeTrap r u k t a b s).moment = s.moment := by
  simp only [takeTrap]; split <;> simp
@[simp] theorem takeTrap_smem (r u k : Nat) (t : TrapReq) (a b : Word) (s : State) : (takeTrap r u k t a b s).smem = s.smem := by
  simp only [takeTrap]; split <;> simp
@[simp] theorem takeTrap_lmem (r u k : Nat) (t : TrapReq) (a b : Word) (s : State) : (takeTrap r u k t a b s).lmem = s.lmem := by
  simp only [takeTrap]; split <;> simp
@[simp] theorem takeTrap_tmem (r u k : Nat) (t : TrapReq) (a b : Word) (s : State) : (takeTrap r u k t a b s).tmem = s.tmem := by
  simp only [takeTrap]; split <;> simp
@[simp] theorem takeTrap_gens (r u k : Nat) (t : TrapReq) (a b : Word) (s : State) : (takeTrap r u k t a b s).gens = s.gens := by
  simp only [takeTrap]; split <;> simp
@[simp] theorem takeTrap_places (r u k : Nat) (t : TrapReq) (a b : Word) (s : State) : (takeTrap r u k t a b s).places = s.places := by
  simp only [takeTrap]; split <;> simp
@[simp] theorem takeTrap_metas (r u k : Nat) (t : TrapReq) (a b : Word) (s : State) : (takeTrap r u k t a b s).metas = s.metas := by
  simp only [takeTrap]; split <;> simp
@[simp] theorem takeTrap_metaHeld (r u k : Nat) (t : TrapReq) (a b : Word) (s : State) : (takeTrap r u k t a b s).metaHeld = s.metaHeld := by
  simp only [takeTrap]; split <;> simp
@[simp] theorem takeTrap_roots (r u k : Nat) (t : TrapReq) (a b : Word) (s : State) : (takeTrap r u k t a b s).roots = s.roots := by
  simp only [takeTrap]; split <;> simp
@[simp] theorem takeTrap_spoilt (r u k : Nat) (t : TrapReq) (a b : Word) (s : State) : (takeTrap r u k t a b s).spoilt = s.spoilt := by
  simp only [takeTrap]; split <;> simp
@[simp] theorem takeTrap_attest (r u k : Nat) (t : TrapReq) (a b : Word) (s : State) : (takeTrap r u k t a b s).attest = s.attest := by
  simp only [takeTrap]; split <;> simp
@[simp] theorem takeTrap_walks (r u k : Nat) (t : TrapReq) (a b : Word) (s : State) : (takeTrap r u k t a b s).walks = s.walks := by
  simp only [takeTrap]; split <;> simp
@[simp] theorem takeTrap_retired (r u k : Nat) (t : TrapReq) (a b : Word) (s : State) : (takeTrap r u k t a b s).retired = s.retired := by
  simp only [takeTrap]; split <;> simp
@[simp] theorem takeTrap_notices (r u k : Nat) (t : TrapReq) (a b : Word) (s : State) : (takeTrap r u k t a b s).notices = s.notices := by
  simp only [takeTrap]; split <;> simp
@[simp] theorem takeTrap_held (r u k : Nat) (t : TrapReq) (a b : Word) (s : State) : (takeTrap r u k t a b s).held = s.held := by
  simp only [takeTrap]; split <;> simp
@[simp] theorem takeTrap_keys (r u k : Nat) (t : TrapReq) (a b : Word) (s : State) : (takeTrap r u k t a b s).keys = s.keys := by
  simp only [takeTrap]; split <;> simp
@[simp] theorem takeTrap_tlb (r u k : Nat) (t : TrapReq) (a b : Word) (s : State) : (takeTrap r u k t a b s).tlb = s.tlb := by
  simp only [takeTrap]; split <;> simp
@[simp] theorem takeTrap_tlb2 (r u k : Nat) (t : TrapReq) (a b : Word) (s : State) : (takeTrap r u k t a b s).tlb2 = s.tlb2 := by
  simp only [takeTrap]; split <;> simp
@[simp] theorem takeTrap_tnames (r u k : Nat) (t : TrapReq) (a b : Word) (s : State) : (takeTrap r u k t a b s).tnames = s.tnames := by
  simp only [takeTrap]; split <;> simp
@[simp] theorem takeTrap_scrubSeq (r u k : Nat) (t : TrapReq) (a b : Word) (s : State) : (takeTrap r u k t a b s).scrubSeq = s.scrubSeq := by
  simp only [takeTrap]; split <;> simp
@[simp] theorem takeTrap_life (r u k : Nat) (t : TrapReq) (a b : Word) (s : State) : (takeTrap r u k t a b s).life = s.life := by
  simp only [takeTrap]; split <;> simp
@[simp] theorem takeTrap_fuse (r u k : Nat) (t : TrapReq) (a b : Word) (s : State) : (takeTrap r u k t a b s).fuse = s.fuse := by
  simp only [takeTrap]; split <;> simp
@[simp] theorem takeTrap_funcs (r u k : Nat) (t : TrapReq) (a b : Word) (s : State) : (takeTrap r u k t a b s).funcs = s.funcs := by
  simp only [takeTrap]; split <;> simp
@[simp] theorem takeTrap_faults (r u k : Nat) (t : TrapReq) (a b : Word) (s : State) : (takeTrap r u k t a b s).faults = s.faults := by
  simp only [takeTrap]; split <;> simp
@[simp] theorem takeTrap_nextTag (r u k : Nat) (t : TrapReq) (a b : Word) (s : State) : (takeTrap r u k t a b s).nextTag = s.nextTag := by
  simp only [takeTrap]; split <;> simp
@[simp] theorem takeTrap_admin (r u k : Nat) (t : TrapReq) (a b : Word) (s : State) : (takeTrap r u k t a b s).admin = s.admin := by
  simp only [takeTrap]; split <;> simp
@[simp] theorem takeTrap_hostMem (r u k : Nat) (t : TrapReq) (a b : Word) (s : State) : (takeTrap r u k t a b s).hostMem = s.hostMem := by
  simp only [takeTrap]; split <;> simp
@[simp] theorem takeTrap_gangs (r u k : Nat) (t : TrapReq) (a b : Word) (s : State) : (takeTrap r u k t a b s).gangs = s.gangs := by
  simp only [takeTrap]; split <;> simp
@[simp] theorem takeTrap_domainRank (r u k : Nat) (t : TrapReq) (a b : Word) (s : State) : (takeTrap r u k t a b s).domainRank = s.domainRank := by
  simp only [takeTrap]; split <;> simp
@[simp] theorem takeTrap_linksDown (r u k : Nat) (t : TrapReq) (a b : Word) (s : State) : (takeTrap r u k t a b s).linksDown = s.linksDown := by
  simp only [takeTrap]; split <;> simp
@[simp] theorem takeTrap_expandersDown (r u k : Nat) (t : TrapReq) (a b : Word) (s : State) : (takeTrap r u k t a b s).expandersDown = s.expandersDown := by
  simp only [takeTrap]; split <;> simp
@[simp] theorem takeTrap_errors (r u k : Nat) (t : TrapReq) (a b : Word) (s : State) : (takeTrap r u k t a b s).errors = s.errors := by
  simp only [takeTrap]; split <;> simp
@[simp] theorem takeTrap_corrected (r u k : Nat) (t : TrapReq) (a b : Word) (s : State) : (takeTrap r u k t a b s).corrected = s.corrected := by
  simp only [takeTrap]; split <;> simp
@[simp] theorem takeTrap_throttled (r u k : Nat) (t : TrapReq) (a b : Word) (s : State) : (takeTrap r u k t a b s).throttled = s.throttled := by
  simp only [takeTrap]; split <;> simp

end Sys2Proof.Machine
end

