-- ==== Sys2Proof/Tests/Slice0.lean ====
section
/-! SUPPORT. Tests of the model against values worked out from the spec, and a state and operands that meet the hypotheses of each statement. -/

set_option maxRecDepth 100000
set_option exponentiation.threshold 2000

namespace Sys2Proof.Tests

open Sys2Proof.Machine Sys2Proof.Claims

/-- A source without its trap bit. -/
def src (x : Reg) : Src := { r := x, et := false }
/-- No guard. -/
def always : Guard := { neg := false, pred := 0 }
/-- A slot with s1 = 10, s2 = 3 and s6 = 1, running. -/
def slotA : Slot := { Slot.init with regs := [(1, 10), (2, 3), (6, 1)], st := .running }
/-- A region of one cluster, its slot 0 of core 0 as given. -/
def oneCore (c : Core) : Region := { Region.init 0 0 1 1 1 1 [1] with cores := [(0, c)] }
/-- The package after reset, its first keys written out. -/
def plainS : State := { State.reset with keys := [(0, { xts1 := 1, xts2 := 2, integ := 3, st := .active }), (1, { xts1 := 4, xts2 := 5, integ := 6, st := .active })], attest := 1 }
/-- The cursor at slot 0 of core 0. -/
def base : State :=
  { plainS with regions := [(0, oneCore { Core.init with slots := [(0, slotA)] })] }
/-- The buffer of that core is full: its words are the first 2,048 of S space. -/
def fullBuffer : State :=
  { base with regions := [(0, oneCore { Core.init with slots := [(0, slotA)],
                                                       phase := (List.range 2048).map (fun i => { sp := .s, addr := 8 * i, mask := 1, data := 0 }) })] }
/-- Its buffer holds two words. -/
def buffered : State :=
  { base with regions := [(0, oneCore { Core.init with slots := [(0, slotA)], phase := [{ sp := .s, addr := 8, mask := 3, data := 5 }, { sp := .r, addr := 0x10000, mask := 1, data := 7 }] })] }
/-- The cursor at the control core of a region on which context 0 is resident. -/
def control : State :=
  { plainS with
    regions := [(0, { Region.init 0 0 1 1 1 1 [1] with resident := some 0, cores := [(32, { Core.init with slots := [(0, slotA)] })] })],
    contexts := [(0, loadContext 0)], cur := { region := 0, unit := 32, slot := 0, tmpl := 0, stage := 0 } }
/-- s1 is the number -1. -/
def minusOne : State :=
  { plainS with regions := [(0, oneCore { Core.init with slots := [(0, { slotA with regs := [(1, 0xFFFFFFFFFFFFFFFF)] })] })] }
/-- The slot stands at the last word of the instruction store. -/
def lastPc : State :=
  { plainS with regions := [(0, oneCore { Core.init with slots := [(0, { slotA with pc := 2047 })] })] }
/-- A producer of 7 for s3. -/
def prod5 : Producer := { id := 5, slot := 0, dests := [3], work := .value [7] 0 false, pc := 0, was := [.full] }
/-- The same core with that producer in flight. -/
def busy : State :=
  { base with regions := [(0, oneCore { Core.init with slots := [(0, { slotA with fills := [(3, .pending)] })], producers := [prod5] })] }

/-- A word on its way to channel 5 of core 1. -/
def flyA : Flying := { u := 1, c := 5, data := 3, ord := false, su := 0, ss := 0 }
/-- Slot 0 of core 0, bound to channels 0 and 2, its publish over; s4 names channel 5 of core 1; s9 is cleared; slot 1 is trapped, slot 2 runnable, and
slot 7 handles traps. -/
def talk : State :=
  { plainS with
    regions := [(0, { oneCore { Core.init with
      slots := [(0, { slotA with regs := [(1, 10), (2, 3), (4, 0x50001), (6, 1), (7, 6)], fills := [(9, .cleared)], chbind := 5, prog := .published,
                                 st := .waiting .barrier }),
                (1, { Slot.init with st := .waiting .trapped }), (2, { Slot.init with st := .runnable })],
      chans := [(2, { words := [(0x77, true)], sender := none })], trapvec := 0x80070010 } with
      flying := [flyA] })] }
/-- The handler of that core runs after slot 0 has trapped at TRAP 4. -/
def handled : State := { takeTrap 0 0 0 { cause := 0x05, operand := 0, detail := 4, pc := 0 } 1 0 talk with cur := { talk.cur with slot := 7 } }
/-- The guard that p2 is false, and a slot whose p2 is true. -/
def notP2 : Guard := { neg := true, pred := 2 }
/-- p2 is true. -/
def off : State := { base with regions := [(0, oneCore { Core.init with slots := [(0, { slotA with preds := 4 })] })] }
/-- A load of two bytes, one of a remote store, a store of four bytes, and one to a remote store. -/
def loadH : LoadOp := { size := .h, t := false, sx := true, off := 2 }
/-- 8 bytes of the second store. -/
def loadR : LoadOp := { size := .d, t := false, sx := false, off := 0x1000E }
/-- 4 bytes at 12. -/
def storeW : StoreOp := { size := .w, t := false, off := 2 }
/-- 4 bytes of the second store. -/
def storeR : StoreOp := { size := .w, t := false, off := 0x10002 }
/-- A load of R space in flight. -/
def load6 : LoadReq := { sp := .r, addr := 0x10008, n := 8, sx := false, lay := PWord.none .r 0x10008, floor := 0 }
/-- Its producer. -/
def prod6 : Producer := { id := 6, slot := 0, dests := [3], work := .load load6, pc := 0, was := [.full] }
/-- The same core with that load in flight. -/
def loading : State :=
  { base with regions := [(0, oneCore { Core.init with slots := [(0, { slotA with fills := [(3, .pending)] })], producers := [prod6] })] }
/-- Two such loads in flight. -/
def loadingTwo : State :=
  { base with regions := [(0, oneCore { Core.init with slots := [(0, { slotA with fills := [(3, .pending)] })], producers := [prod6, { prod6 with id := 8 }] })] }
/-- The control core's word has published. -/
def published : State :=
  { control with regions := [(0, { Region.init 0 0 1 1 1 1 [1] with
      resident := some 0, cores := [(32, { Core.init with slots := [(0, { slotA with prog := .published })] })] })] }
/-- A graph of no node in run `n` of checking mode. -/
def graphOf (d : Line) (n : Nat) : Graph :=
  { rcd := { data := d, asid := 0, st := .running }, nodes := [], ready := [], loads := 0, resident := none, load := none, flags := 0, heldNodes := [],
    heldTasks := [], outs := [], run := n, digests1 := [], digests := [], wdog := 0, wdogAt := 0, spared := false, closing := false, ahead := [] }
/-- The same in run 1 of checking mode. -/
def checking1 : State :=
  { published with regions := [(0, { Region.init 0 0 1 1 1 1 [1] with
      resident := some 0, graph := some (graphOf 0 1), cores := [(32, { Core.init with slots := [(0, { slotA with prog := .published })] })] })] }
/-- An atomic in flight. -/
def atom3 : Atomic :=
  { id := 3, unit := 0, slot := 0, glob := false, addr := 0x40, mem := 0, n := 8, op := .upd .add, x := 5, cmp := 0, key := { interval := 0, issuer := 0, seq := 0 }, pc := 0, view := [] }
/-- The region that sent it. -/
def atomic : State := { base with regions := [(0, { oneCore { Core.init with slots := [(0, slotA)] } with atomics := [atom3] })] }
/-- A slot released from a barrier. -/
def freed : State := { base with regions := [(0, oneCore { Core.init with slots := [(0, { slotA with prog := .released 9 })] })] }
/-- An INT8 word whose operands are constants 0, 1 and 2 and whose result goes to output 0. -/
def vecW : VWord := { ty := .int8, dest := 1, selA := 16, kA := 0, selB := 17, kB := 0, selC := 18, kC := 0, fn := 0, rnd := .rne, sat := true }
/-- A stage of that word. -/
def stageW (op : Nat) : Stage := { word := packV op vecW, pos := 0, carry := 0, served := [], firing := none }
/-- A resident template of one stage. -/
def tmplW (op : Nat) : Template := { base := 0, len := 1, res := true, stages := [stageW op], arcs := [], flags := 0, mags := [0, 0, 0, 0] }
/-- The cursor at that stage. -/
def firingS : State :=
  { base with turn := .stage, cur := { region := 0, unit := 0, slot := 0, tmpl := 0, stage := 1 },
              regions := [(0, oneCore { Core.init with slots := [(0, slotA)], templates := [(0, tmplW 0x80)], consts := [(0, 5), (1, 7)] })] }
/-- A route from port 0 of core 0 to port 0 of core 1, and one from port 0 of core 1 to port 2 of core 0, without conversions. -/
def routeA : Route :=
  { skind := 0, sidx := 0, sport := 0, dunit := 1, dport := 0, sfmt := .int8, smod := 0, dfmt := .int8, dmod := 0, rnd := .rne, sat := false, tsc := false,
    spill := false, depth := 2, mu := 0, mubase := 0, ring := 0, init := 0 }
/-- The other one. -/
def routeB : Route := { routeA with sidx := 1, dunit := 0, dport := 2 }
/-- A data beat. -/
def beatA : Beat := dataBeat 9
/-- The two arcs, the second holding a beat. -/
def arcA : Arc := Arc.fresh routeA
/-- The second. -/
def arcB : Arc := { Arc.fresh routeB with fifo := [beatA] }
/-- A firing that takes a beat of port 2 and delivers one. -/
def fireA : Firing := { takes := [(32, 1)], steer := none, outs := [3], flags := 0x10, mag := none, carry := none, late := none }
/-- A VMAC that overwrites accumulator 1. -/
def lateB : Late := { word := packV 0x84 { vecW with dest := 17 }, a := 0, b := 0, scale := 0 }
/-- A VMAC that adds to accumulator 2, which is in another mode. -/
def lateC : Late := { lateB with word := packV 0x84 { vecW with dest := 10 } }
/-- A VNRW of accumulator 1. -/
def lateD : Late := { lateB with word := packV 0xA3 { vecW with fn := 1 } }
/-- Their firings. -/
def fireB : Firing := { fireA with takes := [], outs := [], late := some lateB }
/-- Their firings. -/
def fireC : Firing := { fireB with late := some lateC }
/-- Their firings. -/
def fireD : Firing := { fireB with late := some lateD }
/-- A stage with a firing, and its template. -/
def stageF (f : Firing) : Stage := { stageW 0x80 with firing := some f }
/-- A template of that stage. -/
def tmplF (f : Firing) : Template := { tmplW 0x80 with stages := [stageF f] }
/-- A region with arcs and one core. -/
def withArcs (l : Assoc Arc) (T : Template) : State :=
  { base with regions := [(0, { oneCore { Core.init with slots := [(0, slotA)], templates := [(0, T)] } with arcs := l })] }
/-- The core with that firing. -/
def commitS (f : Firing) : State := withArcs [(2560, arcA), (2561, arcB)] (tmplF f)
/-- A stage that reads port 2. -/
def stageE : Stage := { stageW 0x80 with word := packV 0x80 { vecW with selA := 2 } }
/-- Its template. -/
def tmplE : Template := { tmplW 0x80 with stages := [stageE] }
/-- An eoi marker stands at port 2. -/
def eoiS : State := withArcs [(2560, arcA), (2561, { Arc.fresh routeB with fifo := [eoiBeat] })] tmplE
/-- A header of scale 130. -/
def hdrA : Beat := { data := 31 * 256 + 130, ctl := 4, side := 0 }
/-- An arc with it. -/
def arcH : Arc := { Arc.fresh routeB with fifo := [hdrA, beatA] }
/-- It stands at port 2. -/
def hdrS : State := withArcs [(2561, arcH)] tmplE
/-- Node 0 of the switch with a beat at inputs 0 and 1 and this select. -/
def nodeS (m : Bool) (q : Nat) : State :=
  { base with regions := [(0, { oneCore Core.init with
      nodes := [(2560, { merge := m, n := 1, fmt := .int8 })],
      arcs := [(2560, { Arc.fresh { routeA with dunit := 40, dport := 0 } with fifo := [beatA] }),
               (2561, { Arc.fresh { routeB with dunit := 40, dport := 1 } with fifo := [beatA] }),
               (2562, { Arc.fresh { routeB with dunit := 40, dport := 4 } with fifo := [dataBeat (BitVec.ofNat 512 q)] })] })] }
/-- A beat that core 0 has pushed. -/
def inA (b : Beat) : Inbound := { beat := b, scale := 0 }
/-- An arc with such a beat: plain; with its FIFO full and a ring; with its ring full too; with a beat to come back. -/
def arcIn (b : Inbound) : Nat → Arc
  | 0 => { arcA with inbox := [b] }
  | 1 => { Arc.fresh { routeA with spill := true } with inbox := [b], fifo := [beatA, beatA] }
  | 2 => { Arc.fresh { routeA with spill := true } with inbox := [b], fifo := [beatA, beatA], ring := rep 64 beatA }
  | _ => { Arc.fresh { routeA with spill := true } with ring := [beatA] }
/-- The region with that arc. -/
def arcS (b : Inbound) (k : Nat) : State := withArcs [(2560, arcIn b k)] tmplE
/-- An issued template. -/
def tmplC : Template := { tmplW 0x80 with res := false }
/-- A descriptor without memory streams at local-store address 0; one chain has ended. -/
def chainS : State :=
  { base with
    lmem := { cur := (List.range 12).map (fun i => (i, (0xFF : Byte))), past := [] },
    regions := [(0, oneCore { Core.init with
      slots := [(0, slotA)], templates := [(0, tmplC)], nextTicket := 1, ended := [(0, 0x300000010)] })] }
/-- A running chain of three firings. -/
def chainA : Chain :=
  { tmpl := 0, fields := rep 6 0xFFFF, n := 3, eoi := false, ticket := 0, running := true, since := 0, rd := [], wr := [], held := [], kept := [],
    short := false, flags := 0x10 }
/-- A chain with eoi that has kept a beat back. -/
def chainE : Chain := { chainA with eoi := true, kept := [(0, beatA)] }
/-- A core with this chain and this template. -/
def courseS (q : Chain) (T : Template) : State :=
  { base with regions := [(0, oneCore { Core.init with slots := [(0, slotA)], templates := [(0, T)], chains := [q], nextTicket := 1 })] }
/-- A stage that has made its three firings. -/
def stageDone : Stage := { stageW 0x80 with pos := 3 }
/-- Its template. -/
def tmplDone : Template := { tmplC with stages := [stageDone] }
/-- A template whose stage reads port 2. -/
def tmplShort : Template := { tmplC with stages := [{ stageE with pos := 1 }] }
/-- An eoi marker stands there. -/
def shortS : State :=
  { base with regions := [(0, { oneCore { Core.init with slots := [(0, slotA)], templates := [(0, tmplShort)], chains := [chainA], nextTicket := 1 } with
      arcs := [(2561, { Arc.fresh routeB with fifo := [eoiBeat] })] })] }
/-- A stage at whose port 2 a token is resident. -/
def stageK : Stage := { stageE with pos := 1, served := [(2, 1)] }
/-- Its resident template. -/
def tmplK : Template := { tmplE with stages := [stageK] }
/-- A header of a wrong layout stands between the token and an eoi marker. -/
def arcK : Arc := { Arc.fresh routeB with fifo := [beatA, { hdrA with data := 0 }, eoiBeat] }
/-- It stands there for a stage of a resident template. -/
def eoiBad : State := withArcs [(2560, arcA), (2561, arcK)] tmplK
/-- The template of a chain: one stage has made its firings, and the other waits at port 3. -/
def tmplKeep : Template := { tmplC with stages := [{ stageK with pos := 3 }, { stageW 0x80 with word := packV 0x80 { vecW with selA := 3 } }] }
/-- It stands there for a chain. -/
def badEnd : State :=
  { base with regions := [(0, { oneCore { Core.init with slots := [(0, slotA)], templates := [(0, tmplKeep)], chains := [chainA], nextTicket := 1 } with
      arcs := [(2561, arcK)] })] }
/-- The route from port 0 of AG 0 to core 0. -/
def routeP : Route := { routeB with skind := 3, sidx := 0, sport := 0 }
/-- Patterns of 4 consecutive beats: 0 reads, 1 writes. -/
def patR (w : Bool) : Pattern := { tensor := false, write := w, col := false, fmt := .int8, loops := [(4, 64)] }
/-- AG 0 with these ports, port 0 leading to core 0 and a beat at port 1. -/
def agS (ps : Assoc Port) : State :=
  { base with regions := [(0, { oneCore { Core.init with slots := [(0, slotA)] } with
      ags := [(24, { patterns := [(0, patR false), (1, patR true)], ports := ps })],
      arcs := [(2560, Arc.fresh routeP), (2561, { Arc.fresh { routeA with dunit := 24, dport := 1 } with fifo := [beatA] }),
               (2562, Arc.fresh { routeP with sport := 3, dport := 3 })] })] }
/-- No command. -/
def portS : State := agS []
/-- Port 1 is closed. -/
def shutS : State := agS [(1, { Port.init with closed := true })]
/-- Port 0 is full. -/
def fullPort : State := agS [(0, { Port.init with queue := rep 8 (.barrier 9) })]
/-- A read command at port 0, a write command at port 1. -/
def beatS : State := agS [(0, { Port.init with queue := [.cmd 0 0x100 1 true 0] }), (1, { Port.init with queue := [.cmd 1 0x200 1 false 0] })]
/-- A command that is done, a close entry, a barrier entry, and an eoi that is due. -/
def endsS : State :=
  agS [(0, { Port.init with queue := [.cmd 0 0x100 1 false 0], done := 4 }), (1, { Port.init with queue := [.close 3], closing := true }),
       (2, { Port.init with queue := [.barrier 9] }), (3, { Port.init with queue := [.cmd 0 0x100 1 true 0], done := 4, tail := true })]
/-- A fill of three bytes. -/
def xformA : Xform := { id := 0, unit := 0, slot := 0, cmd := .fill, fmt := .int8, rnd := .rne, sat := false, addr := 0x40, n := 3, v := 5 }
/-- It is under way. -/
def xformS : State := { base with regions := [(0, { oneCore { Core.init with slots := [(0, slotA)] } with xforms := [xformA] })] }
/-- A section of one INT8 panel, armed for one work tile of one firing. -/
def secA : Section :=
  { afmt := .int8, bfmt := .int8, smod := 0, g := 1, node0 := 0, pfirst := 0, kp := 1, ecnt := 1, count := 1, j := 0, tiles := 0, flags := 0, latch := 127,
    lot := false, hdr := false, coll := [], check := false }
/-- Its panel. -/
def panelA : Panel := { valid := true, off := 0, len := 257, fmt := .int8, smod := 0, src := none, digest := 0 }
/-- The MX. -/
def mxA : Mx := { Mx.init with sections := [(0, secA)], panels := [(0, panelA)], buffer := [(0, 0x400000000041)] }
/-- A region with this MX and these arcs; a panel header stands at S address 0, s8 names the MX, and s9 is 300. -/
def mxWith (m : Mx) (l : Assoc Arc) : State :=
  { base with
    smem := { cur := [(0, 0x41), (5, 0x40)], past := [] },
    regions := [(0, { oneCore { Core.init with slots := [(0, { slotA with regs := [(1, 10), (2, 3), (6, 1), (8, 16), (9, 300)] })] } with mxs := [(16, m)], arcs := l })] }
/-- No load is queued. -/
def mxS : State := mxWith mxA []
/-- A load that has not started, one under way, and one that has all its units. -/
def loadA : PanelLoad := { slot := 1, off := 300, src := some 0, started := false, len := 257, got := 0, id := 0 }
/-- The second. -/
def loadB : PanelLoad := { loadA with started := true, got := 5 }
/-- The third. -/
def loadC : PanelLoad := { loadB with off := 0, got := 257 }
/-- The MX with such a load, a beat at input 4. -/
def loadS (l : PanelLoad) : State :=
  mxWith { mxA with loads := [l], panels := [] } [(2560, { Arc.fresh { routeA with dunit := 16, dport := 4 } with fifo := [beatA] })]
/-- Two A beats. -/
def arcM : Arc := { Arc.fresh { routeA with dunit := 16, dport := 0 } with fifo := [beatA, beatA] }
/-- They stand at the section. -/
def fireS : State := mxWith mxA [(2563, arcM)]
/-- A lattice of one block of 64 INT8 cells, ZERO edges, one step, between 0x1000 and 0x2000. -/
def latD : Nat := 2 ^ 4 + 2 ^ 8 + 6 * 2 ^ 11 + 2 ^ 16 + 2 ^ 19 + 2 ^ 64 + 64 * 2 ^ 128 + 2 ^ 144 + 2 ^ 160 + 0x1000 * 2 ^ 192 + 0x2000 * 2 ^ 256
/-- The one core of a coat. -/
def coreL : CoatCore :=
  { unit := 0, head := true, last := true, tmpl := 0, iport := 2, oport := 0, hmu := 1, hbase := 0, hsize := 3, taps := [(0, { fsel := 0, dz := 0, dy := 0, dx := 0 })] }
/-- The coat with these cells. -/
def coatL (cells : List Line) : Coat := { cores := [coreL], cells := cells, next := 0, begun := 0, emitted := 0, drain := false, fin := false, ended := [], edgeNow := [] }
/-- A chain of one coat. -/
def chainL : CoatChain :=
  { depth := 1, sunit := 24, sport := 0, kunit := 24, kport := 1, coats := [(1, coatL [])], running := false, ran := false, desc := 0, pass := 0, steps := 0,
    passes := 0, edge := [] }
/-- The descriptor stands at S address 0. -/
def coatS : State :=
  { base with
    smem := { cur := ((bytesLE 64 latD).zipIdx.map (fun p => (p.2, p.1))).filter (fun p => p.2 ≠ 0), past := [] },
    regions := [(0, { oneCore { Core.init with slots := [(0, slotA)], templates := [(0, tmplE)] } with coats := [(0, chainL)] })] }
/-- The chain runs, the coat having these cells and these beats at its port. -/
def hawkS (cells : List Line) (bs : List Beat) : State :=
  { base with regions := [(0, { oneCore { Core.init with slots := [(0, slotA)], templates := [(0, tmplE)] } with
      coats := [(0, { chainL with running := true, ran := true, desc := BitVec.ofNat 512 latD, coats := [(1, coatL cells), (2, coatL cells)] })],
      arcs := [(2561, { Arc.fresh routeB with fifo := bs })] })] }
/-- Every coat has finished. -/
def passS : State :=
  { base with regions := [(0, { oneCore { Core.init with slots := [(0, slotA)] } with
      coats := [(0, { chainL with running := true, ran := true, desc := BitVec.ofNat 512 latD, coats := [(1, { coatL [9] with fin := true })] })] })] }
/-- Tensor 0 of the context: 4,096 INT8 elements in one tile, its table at tile 1 (its entry at byte 0 of tile 0). -/
def tensorE : Nat := 7 + 16 + 12 * 2 ^ 16 + (1 * 8 + 2 * 64 + 3 * 512 + 4 * 4096) * 2 ^ 36 + 2 ^ 51 + 4096 * 2 ^ 64 + 2 ^ 88 + 2 ^ 112 + 2 ^ 128 + 2 ^ 144 + 1 * 2 ^ 192
/-- A control core whose context has this tensor; its copy descriptor at byte 0 is the same tile. -/
def tensorS : State :=
  { control with tmem := { cur := ((bytesLE 32 tensorE).zipIdx.map (fun p => (p.2, p.1))).filter (fun p => p.2 ≠ 0), past := [] } }
/-- Its core has completed a copy. -/
def copiedS : State :=
  { tensorS with regions := [(0, { Region.init 0 0 1 1 1 1 [1] with
      resident := some 0, cores := [(32, { Core.init with slots := [(0, slotA)], copyTicket := 1, copyDone := [(0, 0x100000000)] })] })] }
/-- Context 0 with budget. -/
def ctxB : Context := { loadContext 0 with budget := 5 }
/-- A copy of one element between the scratchpads of a cluster, from 0 to 0x2000: INT8, box 1 by 1 by 1, scale 1.0. -/
def copyA : Copy :=
  { id := 4, unit := 32, ticket := 0,
    desc := BitVec.ofNat 512 (2 ^ 8 + 2 ^ 12 + 0x3F800000 * 2 ^ 32 + 2 ^ 64 + 2 ^ 80 + 2 ^ 96 + 2 ^ 128 + (1 + 0x2000 * 2 ^ 32) * 2 ^ 256), off := 0, word := 0,
    node := none, issuer := 0, started := false, units := [], next := 0, flags := 0, fault := none }
/-- The same under way. -/
def copyB : Copy := { copyA with started := true, units := [2] }
/-- A region with that copy. -/
def copyS (x : Copy) : State :=
  { control with
    contexts := [(0, ctxB)],
    regions := [(0, { Region.init 0 0 1 1 1 1 [1] with resident := some 0, cores := [(32, { Core.init with slots := [(0, slotA)] })], copies := [x] })] }
/-- A queued invalidation. -/
def tinvS : State :=
  { control with regions := [(0, { Region.init 0 0 1 1 1 1 [1] with
      resident := some 0, cores := [(32, { Core.init with slots := [(0, slotA)] })],
      tinvs := [{ id := 4, unit := 32, num := 4, all := false, whole := true, tid := 0, lo := 0, hi := 5 }] })] }
/-- A table of two variables, with the projection of variable 0 at node 1. -/
def tableD : DdTable :=
  { cfg := { nbase := 0x100, ubase := 0x200, cbase := 0x300, lc := 8, lk := 7, nv := 2 }, nodes := [(1, { level := 0, hi := 0, lo := 1, count := 0xFFFF })],
    uniq := [], cache := [], level := [], var := [], quota := none, kept := none }
/-- A context with it. -/
def ctxD : Context := { ctxB with dd := some tableD }
/-- DDSTAT of function 0; DDENUM of its edge over two variables; one that has beats to push. -/
def cmdA : DdCmd :=
  { id := 4, unit := 32, slot := 0, key := { interval := 0, issuer := 0, seq := 0 }, op := 0xEF, fn := 0, a := 0, b := 0, c := 0, dest := 3, word := 0, pc := 0,
    rcd := 0, beats := [], result := none, taken := true }
/-- The second. -/
def cmdE : DdCmd := { cmdA with op := 0xE9, a := 2, b := 0, c := 2 * 2 ^ 16 }
/-- The third. -/
def cmdP : DdCmd := { cmdE with beats := [beatA, beatA], result := some 2 }
/-- The first on its way to the engine. -/
def cmdN : DdCmd := { cmdA with taken := false }
/-- A clean tile. -/
def heldD : Held := { version := 0, dirty := false, rewrite := none, writer := 0 }
/-- A region with that command, the tiles of the table held. -/
def ddS (x : DdCmd) : State :=
  { control with
    contexts := [(0, ctxD)], held := [(0, heldD), (0x100, heldD), (0x200, heldD), (0x300, heldD)],
    regions := [(0, { Region.init 0 0 1 1 1 1 [1] with resident := some 0, cores := [(32, { Core.init with slots := [(0, slotA)] })], ddq := [x] })] }
/-- The route of a DDENUM leaves the cluster's switch, and s8 names a window of two variables. -/
def enumS : State :=
  { base with regions := [(0, { oneCore { Core.init with slots := [(0, { slotA with regs := [(1, 10), (2, 3), (6, 1), (8, 0x20000)] })] } with
      arcs := [(2560, Arc.fresh { routeA with skind := 5, sport := 31 })] })] }
/-- A batch of one DDSTAT. -/
def nodeB : GNode :=
  { kind := 2, aux := 1, pred := 0, succ := [], arg0 := 0, arg1 := 0, remaining := 0, st := .running, entered := 0, results := [], batch := [0xEF], midway := false, arms := [] }
/-- It runs. -/
def batchS : State :=
  { ddS cmdA with regions := [(0, { Region.init 0 0 1 1 1 1 [1] with
      resident := some 0, cores := [(32, { Core.init with slots := [(0, slotA)] })], graph := some { graphOf 0 0 with nodes := [nodeB] } })] }
/-- A COLL descriptor: n INT8 elements from S 0 to S 0x2000 of cluster 0, rounded to nearest, a sum, root 0. -/
def collDesc (n : Nat) : Nat := 1 + (1 + 0x2000 * 2 ^ 32) * 2 ^ 128 + n * 2 ^ 256 + 2 ^ 288 + 2 ^ 292
/-- A gather in flight, two elements a member, of a gang of two or more. -/
def gatherX : Coll :=
  { id := 4, seq := 0, unit := 32, slot := 0, op := .gather, tree := false, desc := BitVec.ofNat 512 (collDesc 2), off := 0, word := 0, started := true,
    flags := 0, src := [], acc := [], steps := [], done := [1, 0], written := 2, inbox := [], heads := [] }
/-- The same as some other collective, performing. -/
def collY : Coll := { gatherX with id := 7 }
/-- One that waits. -/
def collW : Coll := { gatherX with id := 8, seq := 1, started := false }
/-- A beat of rank 1 for its first element. -/
def gatherB : CollMsg := { seq := 0, terms := collTerms gatherX, src := 1, step := 0, elem := 0, val := 7, fin := false, head := false }
/-- Its producer. -/
def prodG : Producer := { id := 4, slot := 0, dests := [3], work := .coll, pc := 0, was := [.full] }
/-- A control core whose descriptor at byte 0 of the segment is `collDesc 4`, with these collectives. -/
def collS (l : List Coll) : State :=
  { control with
    tmem := { cur := ((bytesLE 64 (collDesc 4)).zipIdx.map (fun p => (p.2, p.1))).filter (fun p => p.2 ≠ 0), past := [] },
    regions := [(0, { Region.init 0 0 1 1 1 1 [1] with resident := some 0, cores := [(32, { Core.init with slots := [(0, slotA)] })], colls := l })] }
/-- The gang of two that context 0 belongs to as rank 0. -/
def gangA : Gang :=
  { size := 2, grace := 20, members := [(0, 0), (5, 0)], rank := 0, asid := 0, slice := none, reports := [], sent := [], timeouts := [], lifts := [],
    stopBy := none }
/-- Context 0 as its member. -/
def ctxG : Context := { loadContext 0 with gang := some 1 }
/-- A control core with these collectives in flight. -/
def gangS (l : List Coll) : State :=
  { control with
    contexts := [(0, ctxG)], gangs := [(1, gangA)],
    regions := [(0, { Region.init 0 0 1 1 1 1 [1] with
      resident := some 0, graph := some (graphOf 0 0), cores := [(32, { Core.init with slots := [(0, slotA)], producers := [prodG] })], colls := l })] }
/-- A pre-emption is under way. -/
def flitS : State :=
  { control with regions := [(0, { Region.init 0 0 1 1 1 1 [1] with
      resident := some 0, preempt := some { migrate := false, saved := [], flits := [] }, cores := [(32, { Core.init with slots := [(0, slotA)] })] })] }
/-- A record of context 0 at level `l`. -/
def recordA (l : Nat) : Record := { data := BitVec.ofNat 512 (l * 2 ^ 64), asid := 0, st := .queued }
/-- A published control core, with its record of zeros in the segment. -/
def publishedT : State := published
/-- Its level 0 is full. -/
def fullS : State :=
  { published with regions := [(0, { Region.init 0 0 1 1 1 1 [1] with
      resident := some 0, levels := [(0, rep 32 (recordA 0))], cores := [(32, { Core.init with slots := [(0, { slotA with prog := .published })] })] })] }
/-- A region without a graph. -/
def regionQ : Region := { Region.init 0 0 1 1 1 1 [1] with resident := some 0, cores := [(32, { Core.init with slots := [(0, slotA)] })] }
/-- An arc with a ring, its context resident. -/
def ringS (k : Nat) : State := { control with regions := [(0, { regionQ with arcs := [(2560, arcIn (inA beatA) k)] })] }
/-- The tile of its ring belongs to another key. -/
def badRing (k : Nat) : State := { ringS k with places := [(0, { ptn := 3, owner := 9, moving := false })] }
/-- A record waits at level 2. -/
def queueS : State := { control with regions := [(0, { regionQ with levels := [(2, [recordA 2])] })] }
/-- Level 1 has starved. -/
def starveS : State := { control with regions := [(0, { regionQ with levels := [(1, [recordA 1]), (2, [recordA 2])], starve := [(1, 16)] })] }
/-- A record of one node, selected. -/
def recordG : Record := { data := BitVec.ofNat 512 (2 ^ 448), asid := 0, st := .selected }
/-- Nothing is due for it; its node at byte 0 is a fabric load without successors. -/
def takeS : State :=
  { control with
    tmem := { cur := (List.range 8).map (fun i => (8 + i, (0xFF : Byte))), past := [] }, regions := [(0, { regionQ with pending := some recordG })] }
/-- A fabric load, a copy, a successor launch that runs, and a finished load. -/
def nodeI : GNode :=
  { kind := 0, aux := 0, pred := 0, succ := [], arg0 := 0, arg1 := 0, remaining := 0, st := .waiting, entered := 0, results := [], batch := [], midway := false, arms := [] }
/-- The second. -/
def nodeC : GNode := { nodeI with kind := 1 }
/-- The third. -/
def nodeL : GNode := { nodeI with kind := 3, st := .running }
/-- The fourth. -/
def nodeF : GNode := { nodeI with st := .finished }
/-- A graph of that node. -/
def graphN (x : GNode) : Graph := { graphOf 0 0 with nodes := [x], ready := readyNodes [x] }
/-- It runs. -/
def nodeG (x : GNode) : State := { control with regions := [(0, { regionQ with graph := some (graphN x) })] }
/-- Its load has read no frame. -/
def loadI : Load := { node := 0, base := 0, frames := [] }
/-- The load is under way. -/
def graphI : Graph := { graphN { nodeI with st := .running } with loads := 1, load := some loadI }
/-- A region of no core that loads an image of frame 0, all zeros. -/
def frameG : State := { control with regions := [(0, { Region.init 0 0 1 1 1 1 [1] with resident := some 0, graph := some graphI })] }
/-- The image is its end frame alone. -/
def loadG : State := { frameG with tmem := { cur := [(28, 0x0F), (31, 0xF0)], past := [] } }
/-- The load is resident, with these beats before core 0. -/
def residentG (l : List Beat) : State :=
  { control with regions := [(0, { Region.init 0 0 1 1 1 1 [1] with
      resident := some 0, graph := some { graphI with load := none, resident := some 0 }, arcs := [(2561, { Arc.fresh routeB with fifo := l })] })] }
/-- Checking mode, in its first run. -/
def checkL : State :=
  { published with regions := [(0, { Region.init 0 0 1 1 1 1 [1] with
      resident := some 0, graph := some (graphOf (BitVec.ofNat 512 (2 ^ 69)) 1), cores := [(32, { Core.init with slots := [(0, { slotA with prog := .published })] })] })] }
/-- A stopped context, and one that asks for a dump. -/
def ctxS : Context := { loadContext 0 with st := .stopped }
/-- The second, its save area in its own memory. -/
def ctxU : Context := { ctxS with attr := { ctxS.attr with dump := true } }
/-- A region in that phase of a stop for SPACE, with a graph. -/
def stopS (ph : StopPhase) (g : Bool) : State :=
  { control with
    contexts := [(0, ctxS)],
    regions := [(0, { regionQ with halt := true, phase := ph, raised := [{ recOf 0x03 4 32 with time := 0 }], graph := if g then some (graphOf 0 0) else none })] }
/-- The context asks for a dump. -/
def dumpS : State :=
  { control with
    contexts := [(0, ctxU)],
    regions := [(0, { Region.init 0 0 1 1 1 1 [1] with resident := some 0, halt := true, phase := .recorded, raised := [{ recOf 0x03 4 32 with time := 0 }] })] }
/-- Nothing has saved. -/
def preA : Preempt := { migrate := false, saved := [], flits := [] }
/-- A pre-emption of a region whose AG has a read port and a write port. -/
def markS : State :=
  { control with regions := [(0, { Region.init 0 0 1 1 1 1 [1] with
      resident := some 0, preempt := some preA, graph := some (graphOf 0 0), ags := [(24, { patterns := [(0, patR false)], ports := [] })],
      arcs := [(2560, Arc.fresh routeP)] })] }
/-- Node 0 of the switch waits for its markers, all else having saved. -/
def forceS : State :=
  { control with regions := [(0, { Region.init 0 0 1 1 1 1 [1] with
      resident := some 0, preempt := some { preA with saved := [.unit 40] }, graph := some (graphOf 0 0), nodes := [(2560, { merge := true, n := 1, fmt := .int8 })],
      arcs := [(2560, Arc.fresh { routeA with dunit := 40, dport := 0 }), (2561, Arc.fresh { routeB with dunit := 40, dport := 1 })] })] }
/-- An atomic with a destination, of a key that is not the next. -/
def atomO : Atomic := { atom3 with key := { interval := 1, issuer := 0, seq := 0 } }
/-- Deterministic mode holds it, and its core has not saved. -/
def orderS : State :=
  { control with contexts := [(0, { loadContext 0 with budget := 1 })], regions := [(0, { Region.init 0 0 1 1 1 1 [1] with
      resident := some 0, preempt := some { preA with saved := [.unit 40] }, graph := some (graphOf (BitVec.ofNat 512 (2 ^ 67)) 0), atomics := [atomO],
      cores := [(0, { Core.init with producers := [{ id := 3, slot := 0, dests := [3], work := .atomic, pc := 0, was := [.full] }],
                                     slots := [(0, { Slot.init with roster := true }), (1, { Slot.init with roster := true })] })] })] }
/-- Everything has saved. -/
def savedS : State :=
  { control with regions := [(0, { Region.init 0 0 1 1 1 1 [1] with
      resident := some 0, preempt := some { preA with saved := [.unit 40] }, graph := some (graphOf 0 0) })] }
/-- A record of a pre-empted context. -/
def recordP : Record := { data := 0, asid := 0, st := .preempted }
/-- An image of no section. -/
def imageA : SaveImage :=
  { kind := 1, st := 1, w := 1, h := 1, gen := 0, cseq := 0xFFFFFFFF, image := 0, time := 0, body := Region.init 0 0 1 1 1 1 [1], sects := [], length := 64,
    pastS := [], pastL := [], waits := [], rings := [] }
/-- Context 0 with it. -/
def ctxP (i : SaveImage) : Context := { loadContext 0 with st := .preempted, image := some i, attr := { (loadContext 0).attr with saveSize := 1 } }
/-- The image's header stands in memory (it names no configuration image), and the record is selected. -/
def restoreS : State :=
  { control with
    contexts := [(0, ctxP imageA)],
    tmem := { cur := ((bytesLE 36 (0x3753565A + 2 ^ 32 + 2 ^ 48 + 2 ^ 56 + 64 * 2 ^ 64 + 0xFFFFFFFF * 2 ^ 256)).zipIdx.map (fun p => (p.2, p.1))).filter (fun p => p.2 ≠ 0), past := [] },
    regions := [(0, { Region.init 0 0 1 1 1 1 [1] with resident := some 0, pending := some recordP })] }
/-- No header stands there. -/
def badHeadS : State := { restoreS with tmem := { cur := [], past := [] } }
/-- A tile of key 1 at PTN 3, dirty in its cache. -/
def placeA : Place := { ptn := 3, owner := 1, moving := false }
/-- It is held. -/
def heldA : Held := { version := 5, dirty := true, rewrite := none, writer := 0 }
/-- The state with it. -/
def heldS : State := { control with places := [(0, placeA)], held := [(3, heldA)] }
/-- A word of the tile fails its check twice over. -/
def spoiltS : State := { heldS with errors := [{ r := 0, code := 12, unit := 0, key := 1536, double := true, wrote := 0 }] }
/-- A verified metadata tile whose entry for PTN 3 is this. -/
def metaS (e : Meta) (s : State) : State :=
  { s with metaHeld := [(metaKey 0 0, { tile := { base := Meta.init, entries := [(3, e)] }, dirty := true })] }
/-- It is being moved. -/
def movingS : State :=
  metaS { p := false, z := false, version := 6, tag := tileTag control 1 6 3 (storedBytes control 1 6 3 0) }
    { control with places := [(0, { placeA with moving := true })] }
/-- It is poisoned. -/
def poisonedS : State := metaS { p := true, z := false, version := 6, tag := 0 } { control with places := [(0, { placeA with moving := true })] }
/-- Tier memory holds a metadata tile of level 1. -/
def storedS : State := { control with metas := [(metaKey 1 0, { base := Meta.init, entries := [] })] }
/-- It has reached the last version. -/
def lastS : State := metaS { p := false, z := false, version := 2 ^ 56 - 1, tag := 0 } { control with places := [(0, placeA)], rekeys := [1] }
/-- An enabled queue of 16 records, bound to context 0, one record ahead. -/
def queueA : Queue := { Queue.init with base := 0x1000, lsz := 4, en := true, ridx := 4, widx := 5, ctx := some (0, 0) }
/-- It is queue 3 of the physical function. -/
def hostS (q : Queue) : State := { control with funcs := [(0, { Func.init with queues := [(3, q)] })] }
/-- A fault entry of tag 7 for a copy, the admin ring with one entry, a fault ring with one. -/
def faultS : State :=
  { control with
    faults := [{ tag := 7, func := 0, asid := 0, region := 0, write := false, stage := 1, tid := 0, tile := 0, copy := some 4, port := none }],
    admin := { base := 0x1000, lsz := 4, en := true, ridx := 0, widx := 1, code := 0, back := false, err := false },
    funcs := [(0, { Func.init with fen := true, fwidx := 1 })] }
/-- A region of four clusters apart from region 0. -/
def regionB : RegionArgs := { id := 3, x := 4, y := 4, pw := 2, ph := 2, w := 2, h := 2 }
/-- A second region, empty. -/
def emptyS : State := { control with regions := [(0, regionQ), (3, Region.init 4 4 2 2 2 2 [1, 2, 3, 4])] }
/-- The attributes of a context of region 0. -/
def newB : ContextArgs :=
  { (loadContext 0).attr with asid := 5, csSize := 4, saveBase := 0, saveSize := 2560, stopOff := 0, stopSize := 3, colOff := 0x3000 }
/-- Context 0 is only created. -/
def createdS : State := { control with contexts := [(0, { loadContext 0 with st := .created })] }
/-- A gang of this package's context 0 alone and one other. -/
def gangArgsA : GangArgs := { gid := 1, size := 2, grace := 0, members := [(0, 0), (5, 0)], agreed := true }
/-- A slice that this member has reported for. -/
def sliceR : Slice := { num := 8, deadline := 100, vacated := true, go := false }
/-- The coordinator with it. -/
def gangR : Gang := { gangA with slice := some sliceR, reports := [(8, 0)] }
/-- A member of rank 1 that has not reported. -/
def gangM : Gang := { gangA with rank := 1, slice := some { sliceR with vacated := false } }
/-- A region whose context is in that gang. -/
def sliceS (G : Gang) (c : Context) (g : Option Graph) : State :=
  { control with contexts := [(0, c)], gangs := [(1, G)], regions := [(0, { regionQ with graph := g })] }
/-- The member's record waits for go on its scrubbed region. -/
def waitS : State :=
  { control with contexts := [(0, ctxG)], gangs := [(1, gangM)], regions := [(0, { regionQ with pending := some recordG })] }
/-- A scrub is due for a selected record. -/
def dueS : State := { control with regions := [(0, { regionQ with pending := some recordG, scrubDue := true })] }
/-- A colophon is due. -/
def jobA : ColJob := { out := none, seq := 1, iasid := 0, nonce := 0, req := false, mask := 0x3FFF, time := 0 }
/-- The region has it. -/
def colS : State := { control with regions := [(0, { regionQ with colJob := some jobA, pending := some recordG })] }
theorem witness_IntegerRegisterForms : Issues always [src 1, src 2] [3] base ∧ Issues always [src 1] [3] base := by decide

theorem witness_Division : Issues always [src 1, src 2] [3] base := by decide
theorem witness_Division_least : rv minusOne (src 1) = BitVec.allOnes 64 := by decide
theorem witness_Division_completion : (busy.region 0).halt = false ∧ (busy.core 0 0).producers.find? (fun q => decide (q.id = 5)) = some prod5
    ∧ prod5.work = .value [7] 0 false ∧ prod5.dests = [3] ∧ (3 : Reg) ≠ 0 := by decide

theorem witness_ImmediateForms : Issues always [src 1] [3] base ∧ Issues { neg := true, pred := 2 } [src 1, src 2] [3] base := by decide

theorem witness_ComparesAndPredicates_word : 0x32 ≤ (0x320080840BF40000#64).toNat / 2 ^ 56 ∧ (0x320080840BF40000#64).toNat / 2 ^ 56 ≤ 0x34
    ∧ (0x320080840BF40000#64).getLsbD 27 = true := by decide
theorem witness_ComparesAndPredicates_function : 0x34 ≤ (0x340080840004FFFF#64).toNat / 2 ^ 56 ∧ 4 ≤ (0x340080840004FFFF#64).toNat / 2 ^ 16 % 2 ^ 9 := by decide
theorem witness_ComparesAndPredicates : Issues always [src 1, src 2] [] base ∧ Issues always [src 1] [] base
    ∧ Issues { neg := true, pred := 2 } [] [] base := by decide

theorem witness_FloatingPoint : Issues always [src 1, src 2, src 4] [3] base ∧ Issues always [src 1, src 2] [3] base
    ∧ Issues always [src 1] [3] base ∧ Issues always [src 1, src 2] [] base := by decide

theorem witness_Branches : Issues always [src 1] [1] base ∧ Issues always [src 1] [] base
    ∧ Issues always [] [2] base ∧ rv base (src 1) ≠ 0 ∧ rv base (src 5) = 0 ∧ rv base (src 6) = 1
    ∧ Reachable ((base.here.pc.toNat : Int) + (4 : Imm).toInt) base ∧ Reachable ((base.here.pc + 1).toNat : Int) base
    ∧ Reachable 2047 base ∧ Reachable 2048 control := by decide

theorem witness_BranchOutsideTheStore : OnCompute base ∧ 2047 < (base.here.pc.toNat : Int) + (5000 : Imm).toInt ∧ (base.here.pc.toNat : Int) + (-5000 : Imm).toInt < 0
    ∧ Issues always [src 1] [1] base ∧ Issues always [] [2] base ∧ rv base (src 1) ≠ 0 ∧ rv base (src 1) ≠ 1
    ∧ base.here.pc.toNat < 2047 := by decide
theorem witness_BranchOutsideTheStore_call : OnCompute lastPc ∧ Issues always [] [2] lastPc ∧ lastPc.here.pc.toNat = 2047 ∧ lastPc.hereR.halt = false := by decide

theorem witness_TaskWords_twait : Issues always [src 0] [3] talk ∧ twaitMask (src 0) talk ≠ 0 ∧ (twaitMask (src 0) talk).getLsbD 2 = true ∧ Holds talk 2
    ∧ (∀ i, i < 2 → (twaitMask (src 0) talk).getLsbD i = true → ¬ Holds talk i)
    ∧ Issues always [src 6] [3] talk ∧ twaitMask (src 6) talk ≠ 0 ∧ (∀ i, i < 16 → (twaitMask (src 6) talk).getLsbD i = true → ¬ Holds talk i) := by decide
theorem witness_TaskWords_trun : Issues always [src 6, src 2, src 6] [3] base ∧ (rv base (src 6)).toNat < slotCount base.cur.unit ∧ (rv base (src 2)).toNat ≤ 2047
    ∧ (∀ j, j < slotCount base.cur.unit → j ≠ (rv base (src 6)).toNat → j ≠ base.cur.slot → (base.hereC.slot j).chbind &&& (rv base (src 6)).setWidth 16 = 0)
    ∧ (rv base (src 6)).toNat ≠ base.cur.slot ∧ (base.hereC.slot (rv base (src 6)).toNat).st = .idle
    ∧ (talk.hereC.slot 1).st = .waiting .trapped ∧ (talk.hereC.slot 2).st = .runnable := by decide
theorem witness_TaskWords_tend : Issues always [] [] talk ∧ talk.here.anyPending = false ∧ handlerSlot talk.hereC ≠ talk.cur.slot ∧ Issues always [] [5] talk := by decide

theorem witness_RecoverableTraps : (talk.core 0 0).trapvec.getLsbD 31 = true ∧ handlerSlot (talk.core 0 0) ≠ 0 ∧ isCtl 0 = false
    ∧ (base.core 0 0).trapvec.getLsbD 31 = false ∧ (base.region 0).halt = false ∧ handlerSlot (talk.core 0 0) = 7 ∧ isCtl 32 = true
    ∧ Issues always [] [] talk := by decide
theorem witness_RecoverableTraps_empty : talk.here.allows always = true ∧ ¬ ((src 1).et = true ∧ Empty talk (src 1)) ∧ Empty talk { r := 9, et := true }
    ∧ ∃ f, formOf (.ffma always 3 (src 1) { r := 9, et := true } (src 2) { prec := .s, rm := .fixed .rne, sat := false }) = some f ∧ f.Stands talk ∧ f.guard = always
        ∧ f.srcs = [src 1] ++ { r := 9, et := true } :: [src 2] :=
  ⟨by decide, by decide, by decide, _, rfl, .inl rfl, rfl, rfl⟩

theorem witness_TrapDelivery : (talk.core 0 0).trapvec.getLsbD 31 = true ∧ handlerSlot (talk.core 0 0) ≠ 0 ∧ isCtl 0 = false
    ∧ ((talk.core 0 0).slot (handlerSlot (talk.core 0 0))).st = .idle ∧ (∀ j, j < 0 → (talk.core 0 0).awaits j = false) := by decide
theorem witness_TrapDelivery_resume : handled.cur.slot = handlerSlot (talk.core 0 0)
    ∧ handled.slot 0 0 0 = (takeTrap 0 0 0 { cause := 0x05, operand := 0, detail := 4, pc := 0 } 1 0 talk).slot 0 0 0 ∧ Issues always [src 5, src 5, src 5] [3] handled
    ∧ (rv handled (src 5)).toNat = 0 ∧ (∀ j, j < 8 → (handled.hereC.slot j).chbind &&& (rv handled (src 5)).setWidth 16 = 0) := by decide

theorem witness_ChannelWords_recv : Issues always [] [3] talk ∧ talk.here.chbind.getLsbD (2 : CReg).toNat = true
    ∧ (talk.hereC.chan (2 : CReg).toNat).words = [(0x77, true)] ∧ talk.here.chbind.getLsbD (0 : CReg).toNat = true
    ∧ (talk.hereC.chan (0 : CReg).toNat).words = [] ∧ Issues always [] [] talk := by decide
theorem witness_ChannelWords_send : Issues always [src 1, src 4] [] talk ∧ MaySend (rv talk (src 4)) talk
    ∧ chanLoad talk.hereR ((rv talk (src 4)).toNat % 2 ^ 16) ((rv talk (src 4)).toNat / 2 ^ 16) < 4
    ∧ inScope .cluster talk.cur.unit ((rv talk (src 4)).toNat % 2 ^ 16) = true ∧ talk.here.prog = .published := by decide
theorem witness_ChannelWords_arrival : (talk.region 0).halt = false ∧ (talk.region 0).flying[0]? = some flyA
    ∧ (∀ e ∈ (talk.region 0).flying.take 0, ¬ (e.u = flyA.u ∧ e.c = flyA.c ∧ e.su = flyA.su ∧ e.ss = flyA.ss)) := by decide

theorem witness_SystemWords : Issues always [] [3] talk ∧ FpIdle talk ∧ Issues always [src 6] [] talk ∧ (rv talk (src 6)).toNat % 8 < 6
    ∧ 6 ≤ (rv talk (src 7)).toNat % 8 ∧ Issues always [src 7] [] talk ∧ Issues always [] [] talk ∧ waitDone base.hereR base.cur.unit base.cur.slot .earlier = true ∧ Issues always [] [] base
    ∧ talk.here.prog = .published ∧ Issues always [src 1, src 2] [3] talk ∧ Issues always [src 1, src 2, src 6] [] talk ∧ chkOn talk talk.hereR = false
    ∧ talk.hereC.seed = none := by decide

theorem witness_SlotSelection : isCoreUnit (talk.region 0) 0 = true ∧ isCtl 0 = false ∧ (talk.region 0).halt = false ∧ (talk.region 0).frozen (.unit 0) = false
    ∧ ((deliver 0 0 (wake 0 0 talk)).core 0 0).last = 7
    ∧ ((deliver 0 0 (wake 0 0 talk)).slot 0 0 ((7 + 3) % 8)).mayIssue = true
    ∧ (∀ i, 1 ≤ i → i < 3 → ((deliver 0 0 (wake 0 0 talk)).slot 0 0 ((7 + i) % 8)).mayIssue = false) := by decide
/-- Every slot of the core waits. -/
def quietS : State := { plainS with regions := [(0, oneCore Core.init)] }
theorem witness_SlotSelection_none : isCoreUnit (quietS.region 0) 0 = true ∧ (quietS.region 0).halt = false ∧ (quietS.region 0).frozen (.unit 0) = false
    ∧ (∀ k, k < 8 → ((deliver 0 0 (wake 0 0 quietS)).slot 0 0 k).mayIssue = false) := by decide
theorem witness_SlotSelection_load : (loadG.region 0).graph = some graphI ∧ loadG.ctxOf (loadG.region 0) = some (loadContext 0) ∧ (loadG.region 0).halt = false
    ∧ graphI.load = some loadI ∧ graphI.run ≠ 2
    ∧ (match frameAt (loadContext 0) 0 loadI loadI.frames.length loadG with
       | .ok (some x) s1 => decide (s1.regions = loadG.regions) && decide (bits x 255 252 = 15)
           && decide (firstBad (loadG.region 0) (imageOf loadI.frames) (bits graphI.bits 319 256) (bits graphI.bits 351 320) = none)
           && decide (endReason { pos := loadI.frames.length, x := x, k := 0 } = none)
           && (graphI.nodes.all (fun y => y.arms.isEmpty))
       | _ => false) = true := by decide

theorem witness_GuardedOff : (∃ f, formOf (.add notP2 3 (src 1) (src 2)) = some f ∧ f.Stands off ∧ off.here.allows f.guard = false) :=
  ⟨_, rfl, .inl rfl, by decide⟩
theorem witness_GuardedOff_source : ∃ f, formOf (.add always 3 (src 1) (src 9)) = some f ∧ f.Stands talk ∧ talk.here.allows f.guard = true
    ∧ (∀ x ∈ f.srcs, x.et = true → ¬ Empty talk x) ∧ ∃ x ∈ f.srcs, Empty talk x :=
  ⟨_, rfl, .inl rfl, by decide, by decide, by decide⟩
theorem witness_GuardedOff_destination : ∃ f, formOf (.add always 3 (src 1) (src 2)) = some f ∧ f.Stands busy ∧ busy.here.allows f.guard = true
    ∧ (∀ x ∈ f.srcs, ¬ Empty busy x) ∧ ∃ d ∈ f.dests, busy.here.fill d = .pending :=
  ⟨_, rfl, .inl rfl, by decide, by decide, by decide⟩

theorem witness_LocalStores : OnCompute base ∧ Issues always (loadSrcs 1 loadH) [3] base ∧ base.errors = []
    ∧ Fits (effAddr (base.here.rd 1) loadH.off) (sizeBytes loadH.size) 0x10000 ∧ Issues always (storeSrcs 2 1 storeW) [] base
    ∧ Fits (effAddr (base.here.rd 1) storeW.off) (sizeBytes storeW.size) 0x10000
    ∧ Fits 0xFFF8 8 0x10000 := by decide

theorem witness_BufferedStores : Issues always (storeSrcs 2 1 storeW) [] base ∧ Room .s (effAddr (base.here.rd 1) storeW.off).toNat base
    ∧ Fits (effAddr (base.here.rd 1) storeR.off) (sizeBytes storeR.size) 0x40000 ∧ (effAddr (base.here.rd 1) storeR.off).toNat / 2 ^ 16 ≠ uIdx base.cur.unit
    ∧ Fits (effAddr (base.here.rd 1) storeW.off) (sizeBytes storeW.size) 0x400000
    ∧ borrowed base.hereR base.hereCl (effAddr (base.here.rd 1) storeW.off).toNat (sizeBytes storeW.size) = false
    ∧ Issues always (storeSrcs 2 1 storeW) [] control ∧ Room .g (effAddr (control.here.rd 1) storeW.off).toNat control ∧ OnControl control
    ∧ Fits (effAddr (control.here.rd 1) storeW.off) (sizeBytes storeW.size) (hereSeg control) := by unfold Room; decide
theorem witness_BufferedStores_full : Issues always (storeSrcs 2 1 storeW) [] fullBuffer ∧ Room .s 0x800 fullBuffer ∧ ¬ Room .s 0x20000 fullBuffer :=
  ⟨by decide +kernel, .inr ⟨{ sp := .s, addr := 0x800, mask := 1, data := 0 }, by decide +kernel, rfl, rfl⟩, by unfold Room; decide +kernel⟩

theorem witness_Loads : Issues always (loadSrcs 1 loadH) [3] base ∧ Fits (effAddr (base.here.rd 1) loadH.off) (sizeBytes loadH.size) 0x400000
    ∧ borrowed base.hereR base.hereCl (effAddr (base.here.rd 1) loadH.off).toNat (sizeBytes loadH.size) = false ∧ base.errors = []
    ∧ floorOf base.hereC base.cur.slot .s (sKey base.cur.region base.hereCl (effAddr (base.here.rd 1) loadH.off).toNat) (sizeBytes loadH.size) ≤ base.moment
    ∧ Fits (effAddr (base.here.rd 1) loadR.off) (sizeBytes loadR.size) 0x40000 ∧ (effAddr (base.here.rd 1) loadR.off).toNat / 2 ^ 16 ≠ uIdx base.cur.unit
    ∧ Issues always (loadSrcs 1 loadH) [3] control ∧ OnControl control
    ∧ Fits (effAddr (control.here.rd 1) loadH.off) (sizeBytes loadH.size) (hereSeg control) ∧ control.here.prog ≠ .accepted := by decide
theorem witness_Loads_completion : (loading.region 0).halt = false ∧ loading.errors = []
    ∧ (loading.core 0 0).producers.find? (fun q => decide (q.id = 6)) = some prod6 ∧ prod6.work = .load load6 ∧ load6.sp = .r ∧ prod6.dests = [3] ∧ (3 : Reg) ≠ 0 ∧ olderLoad (loading.core 0 0) 6 load6 = false
    ∧ max load6.floor ((loading.core 0 0).seenOf .r (lKey 0 (mkUnit (uCl 0) 0 (load6.addr / 2 ^ 16)) (load6.addr % 2 ^ 16)) load6.n) ≤ loading.moment := by
  decide
theorem witness_Loads_older : olderLoad (loadingTwo.core 0 0) 8 load6 = true := by decide

theorem witness_OrderedStores : OnControl published ∧ Issues always (storeSrcs 2 1 storeW) [] published ∧ published.here.prog = .published
    ∧ Fits (effAddr (published.here.rd 1) storeW.off) (sizeBytes storeW.size) (hereSeg published) ∧ run1 published published.hereR = false
    ∧ published.ctxOf published.hereR = some (loadContext 0) ∧ loadWaits (loadContext 0) published.cur.region (segMid (loadContext 0) (effAddr (published.here.rd 1) storeW.off).toNat) published = false
    ∧ (match gWrite (loadContext 0) published.cur.region (effAddr (published.here.rd 1) storeW.off).toNat (bytesLE 4 (published.here.rd 2).toNat) published with
       | .ok _ _ => true
       | _ => false) = true := by decide
theorem witness_OrderedStores_run1 : OnControl checking1 ∧ Issues always (storeSrcs 2 1 storeW) [] checking1 ∧ checking1.here.prog = .published
    ∧ Fits (effAddr (checking1.here.rd 1) storeW.off) (sizeBytes storeW.size) (hereSeg checking1) ∧ run1 checking1 checking1.hereR = true := by decide

theorem witness_AtomicsLeave : Fits ((rv base (src 5)).toNat : Int) 8 0x400000 ∧ borrowed base.hereR base.hereCl ((rv base (src 5)).toNat : Int).toNat 8 = false
    ∧ Issues always [src 5, src 2] [] base ∧ AtomFree false false (src 5) base ∧ Issues always (atomVSrcs (src 5) (src 2) (src 1) .cas) [3] base
    ∧ AtomFree true false (src 5) base ∧ OnControl control ∧ Fits ((rv control (src 5)).toNat : Int) 8 (hereSeg control) ∧ Issues always [src 5, src 2] [] control
    ∧ AtomFree false true (src 5) control ∧ Issues always (atomVSrcs (src 5) (src 2) (src 1) .swap) [3] control ∧ AtomFree true true (src 5) control := by decide

theorem witness_AtomicPerforms : (atomic.region 0).halt = false ∧ atomic.errors = []
    ∧ (atomic.region 0).atomics.find? (fun x => decide (x.id = 3)) = some atom3 ∧ atom3.glob = false ∧ hasBudget 0 atomic = true ∧ atomReady atomic (atomic.region 0) atom3 = true ∧ 0 < atom3.n := by
  decide

theorem witness_PhaseBoundaries : Issues always [src 6] [3] base
    ∧ MayArrive { cl := some base.hereCl, id := 2 } (rv base (src 6)).toNat base ∧ (barAt { cl := some base.hereCl, id := 2 } base.hereR).count + 1 = (rv base (src 6)).toNat
    ∧ base.hereR.halt = false
    ∧ MayArrive { cl := none, id := 2 } (rv base (src 6)).toNat base
    ∧ Issues always [src 2] [3] base ∧ MayArrive { cl := some base.hereCl, id := 2 } (rv base (src 2)).toNat base
    ∧ (barAt { cl := some base.hereCl, id := 2 } base.hereR).count + 1 ≠ (rv base (src 2)).toNat := by decide
theorem witness_PhaseBoundaries_buffers : Issues always [src 6] [3] buffered ∧ MayArrive { cl := some buffered.hereCl, id := 2 } (rv buffered (src 6)).toNat buffered
    ∧ (barAt { cl := some buffered.hereCl, id := 2 } buffered.hereR).count + 1 = (rv buffered (src 6)).toNat ∧ buffered.hereR.halt = false ∧ buffered.errors = []
    ∧ (buffered.core buffered.cur.region 0).phase ≠ [] ∧ (∀ p ∈ (barAt { cl := some buffered.hereCl, id := 2 } buffered.hereR).arrived ++ [(buffered.cur.unit, buffered.cur.slot)],
        ∀ w ∈ (buffered.core buffered.cur.region p.1).phase, w.sp ≠ .g) := by decide
theorem witness_PhaseBoundaries_released : Issues always [src 6] [3] freed ∧ freed.here.prog = .released 9 := by decide

theorem witness_VectorArithmetic : ([0x80, 0x81, 0x82, 0x83, 0x86, 0x87, 0x88, 0x89, 0x8A, 0x8B, 0x8C, 0x95, 0x96, 0x98, 0x99, 0x9A, 0xA3].all
    (fun op => canFire (packV op vecW) firingS)) = true ∧ canFire (packV 0x80 vecW) base = false := by decide

theorem witness_VectorMoves : ([0x84, 0x85, 0x8D, 0x8E, 0x8F, 0x90, 0x91, 0x92, 0x93, 0x94, 0x97, 0x9B, 0x9C, 0x9D, 0x9E, 0x9F, 0xA0, 0xA1, 0xA2, 0xA3, 0xA4].all
    (fun op => canFire (packV op vecW) firingS)) = true ∧ canFire (packV 0x8D vecW) base = false := by decide

theorem witness_FiringStartFrame : vectorOf (.vadd vecW) = some vecW ∧ firingS.errors = []
    ∧ (match exec (.vadd vecW) firingS with
       | .next _ => true
       | _ => false) = true := by decide

theorem witness_IntegerElements : fmtKind vecW.ty = .int true ∧ 200 < 2 ^ fmtBits vecW.ty ∧ 100 < 2 ^ fmtBits vecW.ty := by decide

theorem witness_FiringCommits : HasFiring 0 0 0 1 (tmplF fireA) (stageF fireA) fireA (commitS fireA) ∧ fireA.late = none
    ∧ ((commitS fireA).core 0 0).chainOf 0 = none ∧ Assoc.sorted ((commitS fireA).region 0).arcs = true
    ∧ firePorts (stageF fireA).word fireA.steer = [0] ∧ Assoc.find 2560 ((commitS fireA).region 0).arcs = some arcA ∧ arcFrom 0 0 2560 arcA.route = true
    ∧ fireA.takes = [(16 * 2, 1)] ∧ ((commitS fireA).region 0).inArc 0 2 = some (2561, arcB) := by decide
theorem witness_FiringCommits_late : HasFiring 0 0 0 1 (tmplF fireB) (stageF fireB) fireB (commitS fireB) ∧ fireB.late = some lateB ∧ accWritten lateB.word = some 1
    ∧ (commitS fireB).errors = [] ∧ (lateWrite (commitIn 0 0 0 1 (stageF fireB) lateB (commitS fireB)) lateB (Assoc.get AccEntry.init 1 ((commitS fireB).core 0 0).accs)).isSome = true
    ∧ HasFiring 0 0 0 1 (tmplF fireC) (stageF fireC) fireC (commitS fireC) ∧ fireC.late = some lateC ∧ accWritten lateC.word = some 2
    ∧ (lateWrite (commitIn 0 0 0 1 (stageF fireC) lateC (commitS fireC)) lateC (Assoc.get AccEntry.init 2 ((commitS fireC).core 0 0).accs)).isNone = true
    ∧ HasFiring 0 0 0 1 (tmplF fireD) (stageF fireD) fireD (commitS fireD) ∧ fireD.late = some lateD ∧ accWritten lateD.word = none ∧ accRead lateD.word = some 1
    ∧ outReady ((commitS fireD).region 0) 0 ((commitS fireD).core 0 0) (tmplF fireD) (((commitS fireD).core 0 0).chainOf 0) 1 (stageF fireD).word (outPorts (stageF fireD).word) = true
    ∧ ((commitS fireD).core 0 0).chainOf 0 = none ∧ Assoc.sorted ((commitS fireD).region 0).arcs = true ∧ firePorts (stageF fireD).word fireD.steer = [0]
    ∧ wordOp (stageF fireD).word ≠ 0xA1 ∧ fireD.takes = [] := by
  decide

theorem witness_EndsOfInvocation : (eoiS.region 0).halt = false ∧ (eoiS.region 0).preempt = none ∧ eoiS.errors = [] ∧ Assoc.sorted (eoiS.region 0).arcs = true ∧ Assoc.find 0 (eoiS.core 0 0).templates = some tmplE
    ∧ tmplE.stage 1 = some stageE ∧ tmplE.res = true ∧ stageE.firing = none ∧ eoiReady (eoiS.region 0) 0 0 tmplE 1 stageE = true
    ∧ markHeadersOk (eoiS.region 0) 0 stageE (uniq (inPorts stageE.word)) = true
    ∧ (∀ p ∈ outPorts stageE.word, (eoiS.region 0).roomOutMark 0 p = true) ∧ tmplE.roomInner (eoiS.core 0 0).modes 1 1 = true := by decide
theorem witness_EndsOfInvocation_bad : (eoiBad.region 0).halt = false ∧ (eoiBad.region 0).preempt = none ∧ eoiBad.errors = [] ∧ Assoc.find 0 (eoiBad.core 0 0).templates = some tmplK
    ∧ tmplK.stage 1 = some stageK ∧ tmplK.res = true ∧ stageK.firing = none ∧ eoiReady (eoiBad.region 0) 0 0 tmplK 1 stageK = true
    ∧ (∀ p ∈ outPorts stageK.word, (eoiBad.region 0).roomOutMark 0 p = true) ∧ tmplK.roomInner (eoiBad.core 0 0).modes 1 1 = true
    ∧ markHeadersOk (eoiBad.region 0) 0 stageK (uniq (inPorts stageK.word)) = false := by decide
theorem witness_EndsOfInvocation_header : tmplE.res = true ∧ memField ((hdrS.core 0 0).chainOf 0) 2 = none ∧ Assoc.find 0 (hdrS.core 0 0).templates = some tmplE ∧ (inPorts stageE.word).contains 2 = true
    ∧ (hdrS.region 0).inArc 0 2 = some (2561, arcH) ∧ headerPlace 0 (stageRate stageE.word 2) arcH.fifo = some 0 ∧ arcH.fifo[0]? = some hdrA ∧ headerOk hdrA = true
    ∧ (hdrS.region 0).halt = false ∧ (hdrS.region 0).preempt = none ∧ hdrS.errors = [] ∧ headerOk { hdrA with data := 0 } = false := by decide

theorem witness_SwitchNodes : ((nodeS false 1).region 0).halt = false ∧ ((nodeS false 1).region 0).preempt = none ∧ (nodeS false 1).errors = []
    ∧ ((nodeS false 1).region 0).node 40 0 = some { merge := false, n := 1, fmt := .int8 } ∧ nodeSelect ((nodeS false 1).region 0) 40 0 = some 1
    ∧ NodeMay ((nodeS false 1).region 0) 40 (8 * 0) (8 * 0 + 1) beatA ∧ NodeMay ((nodeS true 1).region 0) 40 (8 * 0 + 1) (8 * 0) beatA
    ∧ nodeSelect ((nodeS false 2).region 0) 40 0 = some 2 ∧ 0 < ((nodeS false 2).region 0).tokensIn 40 (8 * 0) := by decide

theorem witness_ArcsCarryBeats : (arcS (inA beatA) 0).errors = [] ∧ ((arcS (inA beatA) 0).region 0).halt = false
    ∧ Assoc.find (arcKey 40 0) ((arcS (inA beatA) 0).region 0).arcs = some (arcIn (inA beatA) 0)
    ∧ (arcIn (inA beatA) 0).inbox = [inA beatA] ∧ beatA.isData = true ∧ (arcIn (inA beatA) 0).route.converts = false ∧ (arcIn (inA beatA) 0).route.spill = false
    ∧ (arcIn (inA beatA) 1).route.spill = true ∧ (arcIn (inA beatA) 1).route.depth ≤ (arcIn (inA beatA) 1).fifo.length
    ∧ (ringBeats (arcIn (inA beatA) 1).ring).length < 64 * 2 ^ (arcIn (inA beatA) 1).route.ring
    ∧ eoiBeat.eoi = true ∧ eoiBeat.lift = false ∧ eoiBeat.hdr = false
    ∧ (arcIn (inA beatA) 2).route.depth ≤ (arcIn (inA beatA) 2).fifo.length
    ∧ 64 * 2 ^ (arcIn (inA beatA) 2).route.ring ≤ (ringBeats (arcIn (inA beatA) 2).ring).length
    ∧ (arcIn (inA beatA) 3).ring = [beatA] ∧ beatA.lift = false ∧ (arcIn (inA beatA) 3).fifo.length < (arcIn (inA beatA) 3).route.depth := by decide
/-- A beat of the ring reaches memory, or does not. -/
def ringWrites (c : Context) (s : State) : MemRes Unit :=
  gWrite c 0 (ringSlot (s.region 0) (arcKey 40 0) (arcIn (inA beatA) 1) 0) (ringBytes s.fresh) { s with fresh := s.fresh + 64 }
/-- The oldest beat of the ring is read there. -/
def ringReads (c : Context) (s : State) : MemRes (List Byte) := gRead c 0 (ringSlot (s.region 0) (arcKey 40 0) (arcIn (inA beatA) 3) 0) 64 s
theorem witness_ArcsCarryBeats_ring : (ringS 1).ctxOf ((ringS 1).region 0) = some (loadContext 0) ∧ ((ringS 1).region 0).halt = false ∧ (ringS 1).errors = []
    ∧ (match ringWrites (loadContext 0) (ringS 1), ringReads (loadContext 0) (ringS 3) with
       | .ok _ _, .ok _ _ => true
       | _, _ => false) = true := by decide +kernel
theorem witness_ArcsCarryBeats_fault : (match ringWrites (loadContext 0) (badRing 1), ringReads (loadContext 0) (badRing 3) with
    | .fail _ _, .fail _ _ => true
    | _, _ => false) = true := by decide +kernel

theorem witness_ChainWords : OnCompute chainS ∧ Issues always [src 5, src 2] [3] chainS ∧ chainS.errors = [] ∧ Assoc.find 0 chainS.hereC.templates = some tmplC
    ∧ tmplC.res = false ∧ chainBad chainS.hereC tmplC (ofBytesLE (chainS.lmem.reads (lKey 0 0 0) 16)) 3 = false ∧ (rv chainS (src 2)).toNat = 3
    ∧ (rv chainS (src 5)).toNat = 0 ∧ chainS.hereC.chains.length < 4 ∧ (rv chainS (src 1)).toNat % 16 ≠ 0 := by decide
theorem witness_ChainWords_bad : Issues always [src 5, src 5] [3] chainS ∧ chainBad chainS.hereC tmplC (ofBytesLE (chainS.lmem.reads (lKey 0 0 0) 16)) 0 = true
    ∧ (rv chainS (src 5)).toNat = 0 ∧ Assoc.find 5 chainS.hereC.templates = none := by decide
theorem witness_ChainWords_cwait : Issues always [src 5] [3] chainS ∧ age (chainS.hereC.nextTicket + 2 ^ 16 - 1) 0 < chainS.hereC.nextTicket
    ∧ age (chainS.hereC.nextTicket + 2 ^ 16 - 1) 0 < 2 ^ 15 ∧ (∀ q ∈ chainS.hereC.chains, 2 ^ 15 ≤ age 0 q.ticket)
    ∧ chainS.hereC.nextTicket ≤ age (chainS.hereC.nextTicket + 2 ^ 16 - 1) 10 ∧ Issues always [] [3] chainS := by decide

theorem witness_ChainCourse : ((courseS { chainA with running := false } tmplC).region 0).halt = false ∧ ((courseS { chainA with running := false } tmplC).region 0).preempt = none
    ∧ ((courseS { chainA with running := false } tmplC).core 0 0).chains[0]? = some { chainA with running := false }
    ∧ (∀ p ∈ ((courseS { chainA with running := false } tmplC).core 0 0).chains.take 0, p.running = true)
    ∧ (∀ p ∈ ((courseS { chainA with running := false } tmplC).core 0 0).chains, p.running = true → chainsMeet ((courseS { chainA with running := false } tmplC).core 0 0) chainA p = false) := by
  decide
theorem witness_ChainCourse_end : chainA.running = true ∧ (courseS chainA tmplDone).errors = []
    ∧ ((courseS chainA tmplDone).core 0 0).chains[0]? = some chainA ∧ Assoc.sorted ((courseS chainA tmplDone).region 0).arcs = true
    ∧ Assoc.get default 0 ((courseS chainA tmplDone).core 0 0).templates = tmplDone ∧ (∀ st ∈ tmplDone.stages, st.firing = none)
    ∧ (tmplDone.stage 1).isSome = true ∧ stageTotal ((courseS chainA tmplDone).core 0 0).modes tmplDone 1 3 = 3 ∧ (stageDone.pos = 3)
    ∧ chainA.kept = [] ∧ eoiOuts tmplDone chainA = [] ∧ { chainA with short := true }.short = true := by decide
theorem witness_ChainCourse_short : shortS.errors = [] ∧ chainA.short = false ∧ eoiPort (shortS.region 0) 0 tmplShort chainA = some (2, 0)
    ∧ chainAlive 0 0 tmplShort chainA shortS = false ∧ (shortS.core 0 0).chains[0]? = some chainA ∧ Assoc.get default 0 (shortS.core 0 0).templates = tmplShort
    ∧ Assoc.sorted (shortS.region 0).arcs = true ∧ (∀ x ∈ tmplShort.stages, markHeadersOk (shortS.region 0) 0 x [2] = true)
    ∧ 1 < stageTotal (shortS.core 0 0).modes tmplShort 1 3 := by decide
theorem witness_ChainCourse_badHeader : badEnd.errors = [] ∧ eoiPort (badEnd.region 0) 0 tmplKeep chainA = some (2, 2)
    ∧ chainAlive 0 0 tmplKeep chainA badEnd = false ∧ (badEnd.core 0 0).chains[0]? = some chainA ∧ Assoc.get default 0 (badEnd.core 0 0).templates = tmplKeep
    ∧ Assoc.sorted (badEnd.region 0).arcs = true ∧ (∀ x ∈ tmplKeep.stages, (inPorts x.word).contains 2 = true → markHeadersOk (badEnd.region 0) 0 x [2] = false)
    ∧ (tmplKeep.stage 2).isSome = true ∧ 0 < stageTotal (badEnd.core 0 0).modes tmplKeep 2 3
    ∧ (∀ st ∈ tmplKeep.stages, st.firing = none) := by decide
theorem witness_ChainCourse_kept : ((courseS chainE tmplDone).region 0).halt = false
    ∧ ((courseS chainE tmplDone).core 0 0).chains[0]? = some chainE ∧ eoiOuts tmplDone chainE = [0]
    ∧ chainE.kept.find? (fun x => ((courseS chainE tmplDone).region 0).roomOut 0 x.1 1) = some (0, beatA)
    ∧ (∀ p ∈ eoiOuts tmplDone chainE, ((courseS chainE tmplDone).region 0).roomOutMark 0 p = true) := by decide

theorem witness_StreamWords : Issues always [src 5, src 2] [3] portS ∧ agUnit portS false = 24 ∧ bindBad portS.hereR 24 0 (rv portS (src 2)).toNat (portS.hereR.pattern 24 0) = false
    ∧ (portS.hereR.port 24 0).queue.length < 8 ∧ bindBad portS.hereR 24 0 (rv portS (src 2)).toNat (portS.hereR.pattern 24 5) = true ∧ Issues always [] [3] portS
    ∧ portS.hereR.portShut 24 0 = false ∧ (portS.hereR.port 24 0).closed = false ∧ portS.hereR.chainOwns 24 0 = false := by decide
theorem witness_StreamWords_marks : Issues always [] [] portS ∧ maskPorts portS.hereCl 3 = [(24, 0), (24, 1)] ∧ (∀ p ∈ maskPorts portS.hereCl 3, portS.hereR.portShut p.1 p.2 = false)
    ∧ maskPorts portS.hereCl 0 = [] ∧ shutS.hereR.portShut 24 1 = true ∧ (shutS.hereR.port 24 1).closed = true ∧ Issues always [] [3] shutS
    ∧ maskPorts shutS.hereCl 2 = [(24, 1)] ∧ maskPorts fullPort.hereCl 1 = [(24, 0)] ∧ fullPort.hereR.portShut 24 0 = false
    ∧ 8 ≤ (fullPort.hereR.port 24 0).queue.length ∧ Issues always [] [] fullPort ∧ Issues always [] [] shutS
    ∧ (∀ p ∈ maskPorts portS.hereCl 3, (portS.hereR.port p.1 p.2).queue.length < 8) ∧ portS.here.prog ≠ .accepted := by decide

theorem witness_StreamBeats : portRuns (beatS.region 0) 24 0 = true ∧ beatS.errors = [] ∧ (beatS.region 0).preempt = none ∧ (beatS.region 0).isSource 24 0 = true
    ∧ ((beatS.region 0).port 24 0).tail = false ∧ (beatS.region 0).roomOut 24 0 1 = true
    ∧ (match commandAt (beatS.region 0) 24 0 with
       | some c => !c.write && decide (0 < c.total) && (match c.place 0 with
                                                        | .scratch i l => decide (i = 0x100) && decide (l = some [(0x100, 64)])
                                                        | _ => false)
       | none => false) = true
    ∧ portRuns (beatS.region 0) 24 1 = true ∧ (beatS.region 0).headIn 24 1 = some beatA ∧ beatA.isData = true
    ∧ (match commandAt (beatS.region 0) 24 1 with
       | some c => c.write && decide (0 < c.total) && (match c.place 0 with
                                                       | .scratch i l => decide (i = 0x200) && decide (l = some [(0x200, 64)])
                                                       | _ => false)
       | none => false) = true := by decide
theorem witness_StreamBeats_ends : portRuns (endsS.region 0) 24 0 = true ∧ endsS.errors = [] ∧ (commandAt (endsS.region 0) 24 0).isSome = true
    ∧ (match commandAt (endsS.region 0) 24 0 with
       | some c => decide (c.total ≤ ((endsS.region 0).port 24 0).done)
       | none => false) = true ∧ ((endsS.region 0).port 24 0).tail = false
    ∧ ((endsS.region 0).port 24 1).queue = [.close 3] ∧ portRuns (endsS.region 0) 24 1 = true
    ∧ ((maskPorts 0 0xFFFF).filter (fun q => ((endsS.region 0).port q.1 q.2).holdsBar 9)) = [(24, 2)]
    ∧ ((endsS.region 0).port 24 2).atBar 9 = true ∧ portRuns (endsS.region 0) 24 2 = true
    ∧ ((endsS.region 0).port 24 3).tail = true ∧ (endsS.region 0).isSource 24 3 = true ∧ (endsS.region 0).roomOutMark 24 3 = true := by decide

theorem witness_Transforms : Issues always [src 5, src 2] [3] base ∧ Issues always [src 5, src 2, src 1] [3] base ∧ base.here.prog = .fresh
    ∧ xformBad .scale .int8 0 3 base = false ∧ xformBad (.cvt .int16) .int8 0 3 base = true ∧ (rv base (src 5)).toNat = 0 ∧ (rv base (src 2)).toNat = 3
    ∧ Issues always [src 5, src 2] [3] { base with regions := [(0, oneCore { Core.init with slots := [(0, { slotA with prog := .answered 5 1 })] })] }
    ∧ (xformS.region 0).halt = false ∧ xformS.errors = [] ∧ (xformS.region 0).xforms.find? (fun y => decide (y.unit = 0) && decide (y.slot = 0)) = some xformA
    ∧ xformA.cmd ≠ .amax := by decide

theorem witness_MatrixWords : Issues always [src 1, src 2] [3] mxS ∧ OnCompute mxS ∧ mxS.hereC.chains = [] ∧ OnControl control ∧ Issues always [src 5, src 6, src 9] [3] mxS
    ∧ mxS.errors = [] ∧ (rv mxS (src 6)).toNat ≤ 63 ∧ (rv mxS (src 9)).toNat ≤ 24575 ∧ (mxS.hereR.mx (mxUnit mxS)).armedSlot (rv mxS (src 6)).toNat = false
    ∧ GoodImage (rv mxS (src 5)).toNat (rv mxS (src 9)).toNat (ofBytesLE (mxS.smem.reads (sKey 0 0 (rv mxS (src 5)).toNat) 64)) mxS
    ∧ (mxS.hereR.mx (mxUnit mxS)).loads.length < 4 ∧ Issues always [src 6, src 9] [3] mxS := by decide
theorem witness_MatrixWords_marm : Issues always [src 2] [3] mxS ∧ mxS.hereR.section (mxUnit mxS) 0 = some secA ∧ armBad secA (rv mxS (src 2)).toNat = false
    ∧ (∀ l ∈ (mxS.hereR.mx (mxUnit mxS)).loads, secA.names l.slot = false) ∧ (mxS.hereR.mx (mxUnit mxS)).mismatch secA = none
    ∧ mxS.hereR.section (mxUnit mxS) 1 = none ∧ Issues always [] [3] mxS ∧ secA.count ≠ 0 ∧ (rv mxS (src 8)).toNat = 16
    ∧ unitOk mxS.hereR 16 = true ∧ uKind 16 = 2 ∧ mxS.hereR.section 16 0 = some secA ∧ Issues always [src 8] [3] mxS ∧ Issues always [src 8, src 2] [3] mxS := by decide

theorem witness_MatrixEvents : MxRuns 0 (loadS loadA) ∧ (((loadS loadA).region 0).mx 16).loads = [loadA] ∧ loadA.started = false ∧ loadA.src = some 0
    ∧ (((loadS loadA).region 0).mx 16).armedUnits loadA.off loadA.len = false
    ∧ (((loadS loadB).region 0).mx 16).loads = [loadB] ∧ loadB.started = true ∧ loadB.got < loadB.len
    ∧ (((loadS { loadB with src := none }).region 0).headIn 16 4) = some beatA ∧ beatA.isData = true
    ∧ hdrBad ((((loadS loadC).region 0).mx 16).unit loadC.off).toNat = false ∧ hdrUnits ((((loadS loadC).region 0).mx 16).unit loadC.off).toNat = loadC.len
    ∧ hdrDense ((((loadS loadC).region 0).mx 16).unit loadC.off).toNat = true ∧ loadC.len ≤ loadC.got := by decide
theorem witness_MatrixEvents_firing : MxRuns 0 fireS ∧ (fireS.region 0).section 16 0 = some secA ∧ (fireS.region 0).inArc 16 0 = some (2563, arcM) ∧ secA.count ≠ 0
    ∧ secA.check = false ∧ (match collectAll secA arcM.fifo with
                            | .ok _ _ n => decide (n = 2)
                            | _ => false) = true ∧ releases ((fireS.region 0).mx 16) secA [(beatA, 127), (beatA, 127)] = false := by decide

theorem witness_CoatWords : Issues always [src 5] [3] coatS ∧ Assoc.find 0 coatS.hereR.coats = some chainL ∧ chainL.running = false ∧ (rv coatS (src 5)).toNat = 0
    ∧ SRecord 0 8 coatS ∧ crunBad (loadSWords 0 0 0 8 coatS).2.hereR chainL (ofBytesLE (loadSWords 0 0 0 8 coatS).1) = false
    ∧ (chainL.sunit, chainL.sport) ≠ (chainL.kunit, chainL.kport) ∧ Issues always [] [3] coatS ∧ Issues always [src 5, src 2] [3] coatS ∧ SRecord 0 12 coatS
    ∧ edgeFree chainL 3 = true ∧ (rv coatS (src 2)).toNat ≤ 2 ^ 24 - 2 ∧ latTensor (ofBytesLE (loadSWords 0 0 0 8 coatS).1) = false := by decide
theorem witness_CoatWords_buffers : ∀ k, withBuffers (ofBytesLE (loadSWords 0 0 0 8 coatS).1) k (loadSWords 0 0 0 8 coatS).2 = k true (loadSWords 0 0 0 8 coatS).2 := by
  intro k
  have h : latTensor (ofBytesLE (loadSWords 0 0 0 8 coatS).1) = false := by decide
  simp [withBuffers, h]

theorem witness_CoatEvents : (hawkS [] [beatA]).errors = [] ∧ (((hawkS [] [beatA]).region 0).coat 0 1).headCore = some coreL
    ∧ (((hawkS [] [beatA]).region 0).coat 0 1).lastCore = some coreL ∧ coatLive ((hawkS [] [beatA]).region 0) 0 1 = true
    ∧ (Assoc.get default 0 ((hawkS [] [beatA]).region 0).coats).computes 1 = true
    ∧ admits ((hawkS [] [beatA]).region 0) (Assoc.get default 0 ((hawkS [] [beatA]).region 0).coats) 1 (((hawkS [] [beatA]).region 0).coat 0 1) coreL = none
    ∧ ((hawkS [] [beatA]).region 0).headIn 0 2 = some beatA ∧ latticeBlocks (Assoc.get default 0 ((hawkS [] [beatA]).region 0).coats).desc.toNat = 1
    ∧ (admits ((hawkS [9] []).region 0) (Assoc.get default 0 ((hawkS [9] []).region 0).coats) 1 (((hawkS [9] []).region 0).coat 0 1) coreL).isSome = true
    ∧ ((hawkS [9] [eoiBeat]).region 0).eoiIn 0 2 0 = true ∧ (((hawkS [9] [eoiBeat]).region 0).coat 0 1).drain = false
    ∧ (((hawkS [9] [eoiBeat]).region 0).coat 0 1).cells.length = 1
    ∧ (Assoc.get default 0 ((hawkS [] [beatA]).region 0).coats).computes 2 = false := by decide
theorem witness_CoatEvents_pass : (passS.region 0).halt = false ∧ (passS.region 0).preempt = none ∧ (Assoc.get default 0 (passS.region 0).coats).running = true
    ∧ holdsCoat 0 ((passS.region 0).port 24 0) = false ∧ holdsCoat 0 ((passS.region 0).port 24 1) = false
    ∧ (∀ q ∈ (Assoc.get default 0 (passS.region 0).coats).coats, coatOver (passS.region 0) (Assoc.get default 0 (passS.region 0).coats) q.1 q.2 = true) ∧ passS.errors = [] := by decide

theorem witness_TransferWords : Issues always [src 5] [3] tensorS ∧ tensorS.errors = [] ∧ tensorS.ctxOf tensorS.hereR = some (loadContext 0) ∧ (rv tensorS (src 5)).toNat = 0
    ∧ 64 ≤ hereSeg tensorS
    ∧ (match loadGWords (loadContext 0) 0 32 0 8 tensorS with
       | .ok _ s1 => decide (s1.cur = tensorS.cur) && decide ((s1.hereR.copies.filter (fun x => x.unit == 32 && x.node == none)).length < 8)
       | _ => false) = true
    ∧ (rv tensorS (src 1)).toNat % 64 ≠ 0 ∧ Issues always [src 1] [3] tensorS
    ∧ age (copiedS.hereC.copyTicket + 2 ^ 16 - 1) 0 < copiedS.hereC.copyTicket ∧ Issues always [src 5] [3] copiedS ∧ (rv copiedS (src 5)).toNat = 0
    ∧ (∀ x ∈ copiedS.hereR.copies, ¬ (x.unit = copiedS.cur.unit ∧ x.node = none ∧ x.ticket = 0))
    ∧ (tensorS.hereR.tbar tensorS.hereCl 2).armed = false ∧ (tensorS.hereR.tbar tensorS.hereCl 2).c < (rv tensorS (src 1)).toNat
    ∧ Issues always [src 5, src 5] [3] tensorS ∧ Issues always [] [3] tensorS ∧ (∀ x ∈ tensorS.hereR.tinvs, x.unit ≠ tensorS.cur.unit) := by decide
theorem witness_TransferWords_name : (match tensorName (loadContext 0) 0 0 tensorS with
    | .ok (.tensor tn) s1 => decide (tn.tile [0, 0, 0, 0, 0] = 0) && !tn.outside (lookCoords 0 0) && decide (s1.cur = tensorS.cur)
    | _ => false) = true := by
  unfold tensorName State.draw
  generalize Config.freeNat tensorS.fresh = n
  by_cases h : n % 2 = 0 <;> simp only [h, if_true, if_false] <;> rfl
theorem witness_TransferWords_absent : tensorName { loadContext 0 with attr := { (loadContext 0).attr with ttCount := 0 } } 0 0 tensorS = .ok .absent tensorS := by
  rfl

theorem witness_CopyEvents : CopyLive 0 4 copyA ctxB (copyS copyA) ∧ copyBad ((copyS copyA).region 0) copyA.desc.toNat = false
    ∧ ScratchCopy ((copyS copyA).region 0) copyA.desc.toNat ∧ copyA.started = false ∧ CopyLive 0 4 copyB ctxB (copyS copyB) ∧ copyB.started = true
    ∧ copyB.units[copyB.next]? = some 2 ∧ hasBudget 0 (copyS copyB) = true ∧ detOn (copyS copyB) ((copyS copyB).region 0) = false ∧ (copyS copyB).errors = []
    ∧ fmtBits (copyDfmt copyB.desc.toNat) % 8 = 0 ∧ bit copyB.desc.toNat 16 = false ∧ copyBad ((copyS copyA).region 0) 1 = true
    ∧ copyB.units.length ≤ copyB.next + 1
    ∧ CopyLive 0 4 { copyA with desc := 1 } ctxB (copyS { copyA with desc := 1 }) := by decide
theorem witness_CopyEvents_tinv : (tinvS.region 0).halt = false ∧ (tinvS.region 0).resident = some 0
    ∧ ((tinvS.region 0).tinvs.find? (fun t => decide (t.id = 4))).isSome = true ∧ Assoc.find 0 tinvS.contexts = some (loadContext 0) := by decide

theorem witness_DiagramWords : tensorS.errors = [] ∧ Issues always [src 1, src 2, src 6] [3] base ∧ Issues always [src 1] [3, 3 + 1] base ∧ MayDd base ∧ (rv base (src 5)).toNat % 16 = 0
    ∧ (rv base (src 1)).toNat % 16 ≠ 0 ∧ Issues always [src 1, src 5, src 6] [3] base ∧ enumBad enumS.hereR enumS.cur.unit (rv enumS (src 8)).toNat = false
    ∧ Issues always [src 1, src 2, src 8] [3] enumS ∧ MayDd enumS
    ∧ Issues always [src 5] [3] tensorS ∧ (match loadGWords (loadContext 0) 0 32 0 4 tensorS with
       | .ok _ s1 => decide (s1.cur = tensorS.cur) && decide (s1.here = tensorS.here) && decide (MayDd s1)
       | _ => false) = true := by decide

theorem witness_DiagramEvents : DdTurn 0 4 0 cmdA ctxD (ddS cmdA) ∧ cmdA.result = none ∧ hasBudget 0 (ddS cmdA) = true ∧ ddReady (ddS cmdA) ((ddS cmdA).region 0) 0 cmdA = true
    ∧ DdTurn 0 4 0 cmdE ctxD (ddS cmdE) ∧ ddReady (ddS cmdE) ((ddS cmdE).region 0) 0 cmdE = true
    ∧ (match ddRun cmdE.op cmdE.fn cmdE.a.toNat cmdE.b.toNat cmdE.c.toNat cmdE.rcd.toNat ctxD.dd with
       | .stream ones l _ => decide (ones = 2) && decide (l.length = 1)
       | _ => false) = true
    ∧ DdTurn 0 4 0 cmdP ctxD (ddS cmdP) ∧ cmdP.result = some 2 ∧ cmdA.taken = true ∧ cmdN.taken = false
    ∧ detOn (ddS cmdN) ((ddS cmdN).region 0) = false ∧ DdTurn 0 4 0 cmdN ctxD (ddS cmdN) ∧ ddBehind ((ddS cmdN).region 0) 0 cmdN = false ∧ cmdP.taken = true ∧ cmdP.beats = [beatA, beatA] ∧ ((ddS cmdP).region 0).roomOut (switchOf cmdP.unit) 31 1 = true := by decide
/-- What stands after the engine's reads of the tiles `l` and its two further draws. -/
def readD (s : State) (l : List Nat) : State :=
  match readMids ctxD 0 l { s with fresh := 1 } with
  | .ok _ s1 => { s1 with fresh := 3 }
  | _ => base
/-- DDSTAT's result under a quota and with a store or none, after the reads of `l`. -/
def madeD (s : State) (l : List Nat) (q : Option Nat) (st : Bool) : Option (List Nat × State) :=
  match ddRun 0xEF 0 0 0 0 0 (ctxD.inHand q) with
  | .ok vals _ T =>
    (match (if st then ddWriteback ctxD 0 false T (readD s l) else .ok () (readD s l)) with
     | .ok _ s3 => some (vals, putTable 0 T s3)
     | _ => none)
  | _ => none
/-- DDSTAT from a state whose tiles have been read. -/
def statD (s1 : State) : Option (List Nat × State) :=
  match ddRun 0xEF 0 0 0 0 0 (ctxD.inHand (ddQuota 0xEF s1).1) with
  | .ok vals _ T =>
    (match ddStore ctxD 0 0xEF 0 T (ddQuota 0xEF s1).2 with
     | .ok _ s3 => some (vals, putTable 0 T s3)
     | _ => none)
  | _ => none
theorem statD_eq {s s1 : State} {l : List Nat} (h : readMids ctxD 0 l { s with fresh := 1 } = .ok () s1) (hf : s1.fresh = 1) :
    statD s1 = madeD s l (ddQuota 0xEF s1).1 (Config.freeNat 2 % 2 == 1) := by
  have hq : (ddQuota 0xEF s1).2 = { s1 with fresh := 2 } := by simp [ddQuota, State.draw, hf]
  have hr : readD s l = { s1 with fresh := 3 } := by simp [readD, h]
  have hst : ∀ T, ddStore ctxD 0 0xEF 0 T { s1 with fresh := 2 }
      = if Config.freeNat 2 % 2 == 1 then ddWriteback ctxD 0 false T { s1 with fresh := 3 } else .ok () { s1 with fresh := 3 } := by
    intro T
    simp [ddStore, State.draw]
  unfold statD madeD
  simp only [hr, hq, hst]
/-- The quota makes no difference to DDSTAT. -/
theorem madeD_quota (s : State) (l : List Nat) (q : Option Nat) (st : Bool) : madeD s l q st = madeD s l none st := by
  have h : ∀ q, ddRun 0xEF 0 0 0 0 0 (ctxD.inHand q) = .ok [1] 0 { tableD with quota := q } := by
    intro q
    cases q <;> rfl
  simp only [madeD, h]
  rfl
/-- The engine reads any of the table's tiles, and DDSTAT is made. -/
theorem statD_some (f : List Nat × State → Bool) (s : State) (hs : ∀ (a b c : Bool), ∃ s1, readMids ctxD 0 ((if a then [0x100] else []) ++ (if b then [0x200] else []) ++ (if c then [0x300] else [])) { s with fresh := 1 } = .ok () s1 ∧ s1.fresh = 1)
    (hm : ∀ st a b c : Bool, ((madeD s ((if a then [0x100] else []) ++ (if b then [0x200] else []) ++ (if c then [0x300] else [])) none st).map f) = some true) (h0 : s.fresh = 0) :
    (match ddFetch ctxD 0 s with
     | .ok _ s1 => (statD s1).map f
     | _ => none) = some true := by
  have hf : ddFetch ctxD 0 s = readMids ctxD 0 ((if bit (Config.freeNat 0) 0 then [0x100] else []) ++ (if bit (Config.freeNat 0) 1 then [0x200] else []) ++ (if bit (Config.freeNat 0) 2 then [0x300] else [])) { s with fresh := 1 } := by
    have : ddFetch ctxD 0 s = readMids ctxD 0 ((([(0x100, 0), (0x200, 1), (0x300, 2)] : List (Nat × Nat)).filter (fun q => bit (Config.freeNat s.fresh) q.2)).map (fun q => q.1)) { s with fresh := s.fresh + 1 } := rfl
    rw [this, h0]
    cases ha : bit (Config.freeNat 0) 0 <;> cases hb : bit (Config.freeNat 0) 1 <;> cases hc : bit (Config.freeNat 0) 2 <;> simp [List.filter, ha, hb, hc]
  obtain ⟨s1, h1, h2⟩ := hs (bit (Config.freeNat 0) 0) (bit (Config.freeNat 0) 1) (bit (Config.freeNat 0) 2)
  simp only [hf, h1, statD_eq h1 h2, madeD_quota s _ _ _, hm]
theorem witness_DiagramEvents_made : (match ddFetch ctxD 0 (ddS cmdA) with
    | .ok _ s1 => (statD s1).map (fun _ => true)
    | _ => none) = some true :=
  statD_some _ _ (by intro a b c; cases a <;> cases b <;> cases c <;> exact ⟨_, rfl, rfl⟩)
    (by intro st a b c; cases st <;> cases a <;> cases b <;> cases c <;> rfl) rfl
theorem witness_DiagramEvents_batch : (batchS.region 0).halt = false ∧ (batchS.region 0).preempt = none ∧ batchS.errors = []
    ∧ ((batchS.region 0).graph.bind (fun g => g.nodes[0]?)) = some nodeB
    ∧ batchS.ctxOf (batchS.region 0) = some ctxD ∧ nodeB.batch[nodeB.entered]? = some 0xEF ∧ nodeB.st = .running ∧ hasBudget 0 batchS = true
    ∧ entryWaits batchS (batchS.region 0) ctxD 0 0xEF nodeB = false ∧ detOn batchS (batchS.region 0) = false := by decide
/-- The result is written beside the batch. -/
def besideD (p : List Nat × State) : Bool :=
  match gWrite ctxD 0 32 (bytesLE 8 (p.1.headD 0)) p.2 with
  | .ok _ _ => true
  | _ => false
theorem besideD_made : ∀ st a b c : Bool, ((madeD batchS ((if a then [0x100] else []) ++ (if b then [0x200] else []) ++ (if c then [0x300] else [])) none st).map besideD) = some true := by
  decide +kernel
theorem witness_DiagramEvents_written : (match ddFetch ctxD 0 batchS with
    | .ok _ s1 => (statD s1).map besideD
    | _ => none) = some true :=
  statD_some _ _ (by intro a b c; cases a <;> cases b <;> cases c <;> exact ⟨_, rfl, rfl⟩)
    besideD_made rfl

theorem witness_CollectiveWords : (collS [collY]).errors = [] ∧ collY.inbox = [] ∧ (collS []).hereR.halt = false ∧ (collS []).hereR.preempt = none ∧ Issues always [src 5] [3] (collS [collY]) ∧ (collS [collY]).ctxOf (collS [collY]).hereR = some (loadContext 0)
    ∧ (rv (collS [collY]) (src 5)).toNat = 0 ∧ 64 ≤ hereSeg (collS [collY])
    ∧ Issues always [src 1] [3] (collS [collY]) ∧ (rv (collS [collY]) (src 1)).toNat % 64 ≠ 0 ∧ Issues always [] [3] (collS [collY])
    ∧ (match loadGWords (loadContext 0) 0 32 0 8 (collS [collY]) with
       | .ok bs s1 => decide (ofBytesLE bs = collDesc 4) && decide (s1.hereR.colls = [collY]) && decide (collY.started = true)
           && !chkOn s1 s1.hereR && !collBad .reduce (teamOf s1 (loadContext 0)) (ofBytesLE bs)
           && decide (Assoc.get (loadContext 0) 0 s1.contexts = loadContext 0) && sideScratch (collSrc (ofBytesLE bs)) && sideScratch (collDst (ofBytesLE bs))
           && !collSideBad s1.hereR .int8 (collSrc (ofBytesLE bs)) 4 none && !collSideBad s1.hereR .int8 (collDst (ofBytesLE bs)) 4 none
           && !collMeet .int8 (collSrc (ofBytesLE bs)) 4 (collDst (ofBytesLE bs)) 4
       | _ => false) = true := by decide
theorem witness_CollectiveWords_full : (match loadGWords (loadContext 0) 0 32 0 8 (collS [collY, collY, collY, collY]) with
    | .ok _ s1 => decide (4 ≤ s1.hereR.colls.length)
    | _ => false) = true := by decide

theorem witness_CollectiveEvents : CollAt 0 0 ctxG gatherX [collW] (gangS [gatherX, collW]) ∧ collW.id ≠ gatherX.id ∧ gatherX.started = true ∧ gatherX.inbox = []
    ∧ gatherX.seq = gatherB.seq ∧ gatherB.terms = collTerms gatherX ∧ gatherX.op.moves = true ∧ ((gangS [gatherX]).region 0).preempt = none ∧ gatherB.head = false
    ∧ (match writeElems ctxG 0 (collFmt gatherX.desc.toNat) (collDst gatherX.desc.toNat) [(blockElem gatherX gatherB, 7)] (received 0 gatherX gatherB (gangS [gatherX])) with
       | .ok _ s1 => decide (s1.regions = (received 0 gatherX gatherB (gangS [gatherX])).regions) && decide (Assoc.find 0 s1.contexts = some ctxG)
       | _ => false) = true
    ∧ gatherX.done.length + 1 < collParts (teamOf (gangS [gatherX]) ctxG) gatherX
    ∧ collParts (teamOf (gangS [gatherX]) ctxG) gatherX ≤ { gatherX with done := [1, 0, 3] }.done.length + 1
    ∧ (teamOf (gangS [gatherX]) ctxG).size ≤ { gatherX with heads := [1] }.heads.length + 1
    ∧ ((gangS [gatherX]).core 0 32).producers.find? (fun q => decide (q.id = gatherX.id)) = some prodG := by decide
theorem witness_CollectiveEvents_kept : ctxG.st ≠ .preempted ∧ ((gangS [gatherX]).region 0).graph.isSome = true ∧ ((gangS []).region 0).resident = some 0
    ∧ ({ (gangS []).region 0 with graph := none } : Region).graph = none ∧ ({ ctxG with st := .preempted } : Context).st = .preempted := by decide
theorem witness_CollectiveEvents_cut : ((gangS [gatherX]).regions.map (fun q => q.1)) = [0] ∧ ((gangS [gatherX]).region 0).colls = [gatherX]
    ∧ (gangS [gatherX]).ctxOf ((gangS [gatherX]).region 0) = some ctxG
    ∧ cutOff (lost 3 [5] (gangS [gatherX])) ctxG gatherX = some (5, 3)
    ∧ (∀ q ∈ (gangS []).regions, ∀ x ∈ ((gangS []).region q.1).colls, cutOff (gangS []) ctxG x = none)
    ∧ Assoc.find 0 flitS.contexts = some (loadContext 0) ∧ (flitS.region 0).preempt = some { migrate := false, saved := [], flits := [] }
    ∧ Assoc.find 1 (gangS []).gangs = some gangA ∧ gangA.lifts.contains 5 = false ∧ ctxG.collSeq ≤ 3 ∧ (∀ y ∈ ((gangS [gatherX]).region 0).colls, y.seq ≠ 3)
    ∧ (∀ y, ((gangS [gatherX]).region 0).colls.head? = some y → y.started = true ∧ y.inbox = []) ∧ ((gangS []).region 0).preempt = none := by decide

theorem witness_GraphWords : Issues always [src 5] [3] publishedT ∧ publishedT.ctxOf publishedT.hereR = some (loadContext 0)
    ∧ (rv publishedT (src 5)).toNat % 64 = 0 ∧ (rv publishedT (src 5)).toNat + 64 ≤ hereSeg publishedT ∧ publishedT.here.prog = .published
    ∧ (match gRead (loadContext 0) 0 0 64 publishedT with
       | .ok _ s1 => decide (s1.cur = publishedT.cur) && !detOn s1 s1.hereR && !chkOn s1 s1.hereR && decide ((s1.hereR.level 0).length < 32)
       | _ => false) = true
    ∧ (rv publishedT (src 1)).toNat % 64 ≠ 0 ∧ control.here.prog ≠ .published ∧ chkOn checkL checkL.hereR = true ∧ checkL.hereR.graph = some (graphOf (BitVec.ofNat 512 (2 ^ 69)) 1)
    ∧ (match gRead (loadContext 0) 0 0 64 fullS with
       | .ok _ s1 => decide (32 ≤ (s1.hereR.level 0).length)
       | _ => false) = true := by decide

theorem witness_Scheduling : IdleRegion (queueS.region 0) ∧ (queueS.region 0).pending = none ∧ gangRecord queueS 0 (queueS.region 0) = none
    ∧ NamedLevel queueS (queueS.region 0) 2 ∧ levelHead queueS (queueS.region 0) 2 = some (recordA 2)
    ∧ 16 ≤ (starveS.region 0).starved 1 ∧ NamedLevel starveS (starveS.region 0) 1 := by decide
theorem witness_Scheduling_taken : IdleRegion (takeS.region 0) ∧ (takeS.region 0).pending = some recordG ∧ Assoc.find recordG.asid takeS.contexts = some (loadContext 0)
    ∧ (takeS.region 0).scrubDue = false ∧ recordG.st = .selected ∧ (takeS.region 0).resident = some 0 ∧ (loadContext 0).gang = none
    ∧ recordBad (loadContext 0) recordG.data.toNat = none ∧ recordBad (loadContext 0) 0 = some 3
    ∧ (match readList (loadContext 0) 0 recordG.data.toNat (takenRecord 0 recordG takeS) with
       | .ok (.inr _) s1 => match readNodes (loadContext 0) 0 recordG.data.toNat 0 1 s1 with
                            | .ok (.inr nodes) _ => decide (wholeBad nodes = none) && decide (nodes.length = 1)
                            | _ => false
       | _ => false) = true := by decide
theorem witness_Scheduling_nodes : NodeOf 0 0 (graphN nodeC) nodeC (loadContext 0) (nodeG nodeC)
    ∧ (graphN nodeC).mayStart (detOn (nodeG nodeC) ((nodeG nodeC).region 0)) 0 = true
    ∧ (match gRead (loadContext 0) 0 nodeC.arg0 64 (nodeG nodeC) with
       | .ok _ s1 => decide (s1.regions = (nodeG nodeC).regions)
       | _ => false) = true
    ∧ NodeOf 0 0 (graphN nodeL) nodeL (loadContext 0) (nodeG nodeL) ∧ nodeL.kind = 3 ∧ nodeL.st = .running
    ∧ detOn (nodeG nodeL) ((nodeG nodeL).region 0) = false ∧ chkOn (nodeG nodeL) ((nodeG nodeL).region 0) = false
    ∧ (((nodeG nodeL).region 0).level 0).length < 32
    ∧ (graphN nodeF).expired (nodeG nodeF).time = false ∧ (∀ x ∈ (graphN nodeF).nodes, x.st = .finished) ∧ (graphN nodeF).load = none
    ∧ ((nodeG nodeC).region 0).halt = false ∧ (graphN nodeC).nodes[0]? = some nodeC ∧ nodeC.st ≠ .finished
    ∧ (graphN nodeF).run = 0 ∧ (graphN nodeF).heldTasks = [] ∧ recChk (graphN nodeF).rcd.data.toNat = false
    ∧ ({ graphN nodeF with rcd := { data := 2 ^ 96, asid := 0, st := .running } } : Graph).expired 1000 = true
    ∧ (match gWrite (loadContext 0) 0 (recDone (graphN nodeF).rcd.data.toNat) (bytesLE 32 0) (writeThrough 0 (nodeG nodeF)) with
       | .ok _ _ => true
       | _ => false) = true := by decide

theorem witness_FabricLoads : ((nodeG nodeI).region 0).graph = some (graphN nodeI) ∧ (nodeG nodeI).ctxOf ((nodeG nodeI).region 0) = some (loadContext 0)
    ∧ (graphN nodeI).mayStart (detOn (nodeG nodeI) ((nodeG nodeI).region 0)) 0 = true ∧ nodeI.kind = 0
    ∧ (loadG.region 0).graph = some graphI ∧ graphI.load = some loadI
    ∧ (match frameAt (loadContext 0) 0 loadI 0 loadG with
       | .ok (some x) s1 => decide (s1.regions = loadG.regions) && decide (bits x 255 252 = 15)
           && decide (firstBad (loadG.region 0) (imageOf []) 0 0 = none) && decide (endReason { pos := 0, x := x, k := 0 } = none)
       | _ => false) = true
    ∧ (match frameAt (loadContext 0) 0 loadI 0 frameG with
       | .ok (some x) s1 => decide (s1.regions = frameG.regions) && decide (bits x 255 252 ≠ 15)
       | _ => false) = true := by decide
theorem witness_FabricLoads_quiet : quiescent 0 (residentG []) = true ∧ blockedUnits ((residentG []).region 0) = [] ∧ (loadContext 0).dd = none
    ∧ (match publishCores 0 (coreUnits ((residentG []).region 0)) (residentG []) with
       | .ok _ s1 => decide ((s1.region 0).graph = ((residentG []).region 0).graph) && decide (Assoc.find 0 s1.contexts = some (loadContext 0))
       | _ => false) = true
    ∧ quiescent 0 (residentG [beatA]) = true ∧ blockedUnits ((residentG [beatA]).region 0) ≠ []
    ∧ ((residentG [beatA]).region 0).graph.any (fun g => !g.startsMore (detOn (residentG [beatA]) ((residentG [beatA]).region 0)) && !g.nodes.any batchRuns) = true
    ∧ loadOvertaken 0 0 (residentG [beatA]) = false := by decide

theorem witness_Stops : StopAt 0 ctxS .halted (stopS .halted false) ∧ ctxS.dd = none ∧ ctxS.image = none
    ∧ (match gWriteLines ctxS 0 64 (stopLines ((stopS .halted false).region 0) ctxS) (stopS .halted false) with
       | .ok _ s0 => match gWriteLines ctxS 0 0 [stopHeader 1 0x03 0 0 0] s0 with
                     | .ok _ s1 => decide (Assoc.find 0 s1.contexts = some ctxS)
                     | _ => false
       | _ => false) = true
    ∧ StopAt 0 ctxS .recorded (stopS .recorded false) ∧ ctxS.attr.dump = false ∧ StopAt 0 ctxS .dumped (stopS .dumped true)
    ∧ ((stopS .dumped true).region 0).graph = some (graphOf 0 0) ∧ doneValid ctxS 0 = true ∧ ((stopS .recorded false).region 0).graph = none
    ∧ (match gWrite ctxS 0 0 (completionBytes (graphOf 0 0) 1 3 0 0) (stopS .dumped true) with
       | .ok _ _ => true
       | _ => false) = true
    ∧ ((stopS (.whitewash 0) false).region 0).inService = true ∧ Assoc.find 0 (stopS (.whitewash 0) false).contexts = some ctxS ∧ ctxS.st = .stopped := by decide
theorem witness_Stops_dump : StopAt 0 ctxU .recorded dumpS ∧ ctxU.attr.dump = true ∧ Assoc.find 0 dumpS.contexts = some ctxU
    ∧ (match writeImage ctxU 0 (dumpS.region 0) (makeImage 0 3 (dumpS.region 0) ctxU (sectionsOf 0 (dumpS.region 0) ctxU dumpS ++ [stopSect (dumpS.region 0) ctxU]) dumpS) dumpS with
       | .ok _ s1 => decide (Assoc.find 0 s1.contexts = some ctxU)
       | _ => false) = true := by decide +kernel

theorem witness_Preemption : (markS.region 0).preempt = some { migrate := false, saved := [], flits := [] } ∧ marking (markS.region 0) = true
    ∧ (unsaved (markS.region 0)).contains (.port 24 0) = true ∧ liftReady 0 markS (.port 24 0) = true
    ∧ marking (forceS.region 0) = true ∧ unsaved (forceS.region 0) ≠ [] ∧ settled 0 forceS = true ∧ unitsStill 0 forceS = true
    ∧ (unsaved (forceS.region 0)).any (liftReady 0 forceS) = false ∧ markS.errors = [] ∧ forceS.errors = [] ∧ forcedAtomic (forceS.region 0) = none := by decide
theorem witness_Preemption_held : marking (orderS.region 0) = true ∧ unsaved (orderS.region 0) ≠ [] ∧ settled 0 orderS = true ∧ unitsStill 0 orderS = true
    ∧ (unsaved (orderS.region 0)).any (liftReady 0 orderS) = false ∧ forcedAtomic (orderS.region 0) = some atomO ∧ hasBudget 0 orderS = true := by decide
theorem witness_Preemption_saved : (savedS.region 0).graph = some (graphOf 0 0) ∧ savedS.ctxOf (savedS.region 0) = some (loadContext 0)
    ∧ marking (savedS.region 0) = true ∧ unsaved (savedS.region 0) = [] ∧ settled 0 savedS = true ∧ collsParked savedS (savedS.region 0) (loadContext 0) { preA with saved := ((savedS.region 0).preempt.map (fun p => p.saved)).getD [] } = true ∧ savedS.errors = [] := by decide
theorem witness_Preemption_restore : (restoreS.region 0).pending = some recordP ∧ Assoc.find recordP.asid restoreS.contexts = some (ctxP imageA)
    ∧ (ctxP imageA).image = some imageA ∧ recordP.st = .preempted ∧ (ctxP imageA).st = .preempted ∧ (restoreS.region 0).resident = some 0
    ∧ (restoreS.region 0).graph = none ∧ imageA.waits = [] ∧ imageA.body.colls = [] := by decide
/-- The state after a tile of the area is read. -/
def readS (s : State) : State :=
  match readArea (ctxP imageA) 0 1 0 s with
  | .ok _ t => t
  | _ => s
theorem area_length : (bits (ofBytesLE ((restoreS.tmem.readsAt restoreS.moment 0 4096).take 64)) 127 64 + 4095) / 4096 = 1 := by decide +kernel
theorem witness_Preemption_area : ∃ h bs s2, Verified 0 recordP (ctxP imageA) imageA h bs (imageOf []) restoreS s2 ∧ Assoc.find 0 s2.contexts = some (ctxP imageA) := by
  refine ⟨_, restoreS.tmem.readsAt restoreS.moment 0 4096, readS (readS restoreS),
    ⟨restoreS.tmem.readsAt restoreS.moment 0 4096, readS restoreS, readS (readS restoreS), ⟨rfl, rfl⟩, ?_, area_length ▸ rfl, ?_, ?_, ?_, ?_, .inl ⟨?_, rfl, rfl⟩, ?_⟩, ?_⟩ <;> decide +kernel
theorem witness_Preemption_header : ∃ front h s0, HeaderRead 0 (ctxP imageA) front h badHeadS s0 ∧ headDamage (s0.region 0) (ctxP imageA) h = some (frontDamage 0 1) := by
  refine ⟨badHeadS.tmem.readsAt badHeadS.moment 0 4096, _, readS badHeadS, ⟨rfl, rfl⟩, ?_⟩
  decide +kernel

theorem witness_Tiles : Assoc.find 0 heldS.contexts = some (loadContext 0)
    ∧ (match openTile (loadContext 0).keyId 0 0 false false heldS with
       | .ok _ _ => true
       | _ => false) = true
    ∧ heldS.spoilt = []
    ∧ Assoc.find 0 heldS.places = some placeA ∧ Assoc.find placeA.ptn heldS.held = some heldA ∧ heldA.rewrite = none ∧ heldA.dirty = true ∧ placeA.moving = false
    ∧ Assoc.find 0 movingS.places = some { placeA with moving := true } ∧ (∀ q ∈ movingS.places, q.2.ptn ≠ 9)
    ∧ lostTile (fetchMeta 9 (fetchMeta 3 poisonedS).2).2 1 3 0 = true ∧ Assoc.find 0 poisonedS.places = some { placeA with moving := true }
    ∧ lastS.rekeys.contains (loadContext 0).keyId = true ∧ lastVersion movingS 9 = false ∧ tilesOf lastS (loadContext 0).keyId = [(0, 3)] ∧ freeKey lastS = some 2 ∧ (loadContext 0).keyId ≠ 2 ∧ (∀ q ∈ lastS.places, q.2.moving = false)
    ∧ heldErrors heldS placeA.ptn 0 4096 = [] ∧ (heldErrors spoiltS placeA.ptn 0 4096).any (fun e => e.double) = true
    ∧ Assoc.find 0 spoiltS.places = some placeA ∧ Assoc.find placeA.ptn spoiltS.held = some heldA
    ∧ Assoc.find 0 lastS.contexts = some (loadContext 0) := by decide
/-- The stored tile's tag is that of its contents. -/
theorem witness_Tiles_moved : lostTile (fetchMeta 9 (fetchMeta 3 movingS).2).2 1 3 0 = false ∧ (metaOf (fetchMeta 9 (fetchMeta 3 movingS).2).2 3).z = false := by
  refine ⟨?_, by decide +kernel⟩
  have h : tileTag (fetchMeta 9 (fetchMeta 3 movingS).2).2 1 6 3 (storedBytes (fetchMeta 9 (fetchMeta 3 movingS).2).2 1 6 3 0)
      = tileTag control 1 6 3 (storedBytes control 1 6 3 0) := by rfl
  have e : metaOf (fetchMeta 9 (fetchMeta 3 movingS).2).2 3 = { p := false, z := false, version := 6, tag := tileTag control 1 6 3 (storedBytes control 1 6 3 0) } := by rfl
  have d : expanderDown (fetchMeta 9 (fetchMeta 3 movingS).2).2 3 = false := by rfl
  have n : tierErrors (fetchMeta 9 (fetchMeta 3 movingS).2).2 3 = [] := by rfl
  unfold lostTile
  simp only [e, h, d, n, bne_self_eq_false]
  rfl

theorem witness_LaunchQueues : Interface 0 3 ∧ ((hostS queueA).func 0).queue 3 = queueA ∧ queueA.en = true ∧ queueA.ctx = some (0, 0) ∧ queueA.err = false
    ∧ hostRingBad (apertureOf (hostS queueA) 0) queueA.base.toNat (64 * 2 ^ queueA.lsz) = false ∧ 4 ≤ queueA.lsz ∧ queueA.lsz ≤ 16 ∧ queueA.ridx ≠ queueA.widx
    ∧ Assoc.find 0 (hostS queueA).contexts = some (loadContext 0) ∧ (loadContext 0).gen = 0 ∧ ((hostS queueA).region 0).w ≠ 0
    ∧ (((hostS queueA).region 0).level 0).length < 32 ∧ 2 * 2 ^ queueA.lsz ≤ 32 ∧ 2 ^ queueA.lsz < (3 + 2 * 2 ^ queueA.lsz - 4) % (2 * 2 ^ queueA.lsz)
    ∧ ({ queueA with en := false } : Queue).en = false ∧ ({ queueA with lsz := 2 } : Queue).lsz < 4
    ∧ hostRingBad (0, 2 ^ 64) 0x20 (64 * 2 ^ 4) = true := by decide

theorem witness_HostRegisters : (faultS.faults.find? (fun e => decide (e.func = 0) && decide (e.tag = 7))).isSome = true ∧ (faultS.region 0).halt = false
    ∧ (∀ e ∈ faultS.faults, ¬ (e.func = 0 ∧ e.tag = 8)) ∧ faultS.admin.en = true ∧ faultS.admin.err = false ∧ 4 ≤ faultS.admin.lsz ∧ faultS.admin.lsz ≤ 12
    ∧ hostRingBad (0, 2 ^ 64) faultS.admin.base.toNat (64 * 2 ^ faultS.admin.lsz) = false ∧ (1 + 2 - (faultS.func 0).fridx) % 2 ≤ ((faultS.func 0).fwidx + 2 - (faultS.func 0).fridx) % 2
    ∧ (control.func 0).fen = false ∧ control.admin.en = false := by decide

theorem witness_AdminRequests : adminReady .firmware control = true ∧ regionRefused control regionB = false ∧ regionRefused control { regionB with w := 9 } = true
    ∧ (emptyS.region 3).w ≠ 0 ∧ (emptyS.region 3).resident = none ∧ (emptyS.region 3).hasRecord = false ∧ (control.region 9).w = 0
    ∧ contextRefused { control with keys := [] } newB = false ∧ contextRefused control { newB with csSize := 0 } = true
    ∧ Assoc.find 0 control.contexts = some (loadContext 0) ∧ (loadContext 0).st = .resident ∧ (loadContext 0).attr.func = 0
    ∧ Assoc.find 0 createdS.contexts = some { loadContext 0 with st := .created } ∧ Assoc.sorted createdS.contexts = true ∧ adminReady .ring faultS = true
    ∧ Assoc.find 0 (nodeG nodeF).contexts = some (loadContext 0) ∧ ((nodeG nodeF).region 0).resident = some 0 ∧ ((nodeG nodeF).region 0).graph = some (graphN nodeF)
    ∧ (graphN nodeF).rcd.st = .running ∧ ((nodeG nodeF).region 0).colJob = none
    ∧ ((nodeG nodeF).region 0).preempt = none ∧ ((nodeG nodeF).region 0).halt = false := by decide
theorem witness_AdminRequests_last : ∀ a y, Assoc.find a createdS.contexts = some y → y.keyId = (loadContext 0).keyId → a = 0 := by
  intro a y h _
  by_cases e : (0 : Nat) = a
  · exact e.symm
  · simp [createdS, Assoc.find, e] at h

theorem witness_Gangs : adminReady .firmware control = true ∧ gangRefused control gangArgsA = false ∧ gangArgsA.agreed = true ∧ localMember control gangArgsA = some (0, 0)
    ∧ (control.region 0).pending = none ∧ gangRefused control { gangArgsA with size := 0 } = true ∧ GangAt 1 gangA ctxG (sliceS gangA ctxG none)
    ∧ GangAt 1 gangA { ctxG with st := .created } (sliceS gangA { ctxG with st := .created } none) ∧ gangA.slice = none ∧ ((sliceS gangA ctxG none).region 0).graph = none
    ∧ GangAt 1 gangR ctxG (sliceS gangR ctxG none) ∧ gangR.rank = 0 ∧ gangR.slice = some sliceR ∧ sliceR.go = false ∧ sliceR.vacated = true ∧ 1 < gangR.size
    ∧ (∀ j < gangR.size, j ≠ 1 → gangR.reports.contains (8, j) = true) ∧ gangR.reports.contains (8, 1) = false
    ∧ gangR.split (sliceS gangR ctxG none) = false ∧ gangA.timeouts.contains 8 = false ∧ ({ gangA with timeouts := [8] } : Gang).timeouts.contains 8 = true
    ∧ gangR.split { sliceS gangR ctxG none with unreach := [(5, 0)] } = true ∧ cutFrom (gangS []) gangA 1 = false ∧ 0 ≤ sliceR.deadline + 1000 * gangR.grace
    ∧ GangAt 1 gangM ctxG (sliceS gangM ctxG (some (graphOf 0 0))) ∧ gangM.rank ≠ 0 ∧ gangM.slice = some { sliceR with vacated := false }
    ∧ ((sliceS gangM ctxG (some (graphOf 0 0))).region 0).graph ≠ none ∧ ((sliceS gangM ctxG (some (graphOf 0 0))).region 0).halt = false
    ∧ GangAt 1 gangM ctxG waitS ∧ (waitS.region 0).pending = some recordG ∧ (waitS.region 0).scrubDue = false ∧ (waitS.region 0).graph = none
    ∧ (waitS.region 0).halt = false ∧ (waitS.region 0).resident = some gangM.asid ∧ ({ gangM with slice := none } : Gang).timeouts.contains 8 = false
    ∧ (sliceS gangM ctxG none).ctxOf ((sliceS gangM ctxG none).region 0) = some ctxG ∧ ((sliceS gangM ctxG none).region 0).pending = none
    ∧ (dueS.region 0).pending = some recordG ∧ (dueS.region 0).scrubDue = true ∧ recordG.asid = gangM.asid
    ∧ ctxG.st = .resident ∧ ((sliceS gangM ctxG none).region 0).resident = some gangM.asid := by decide
theorem witness_Gangs_late : GangAt 1 { gangR with grace := 0 } ctxG (sliceS { gangR with grace := 0 } ctxG none)
    ∧ sliceR.deadline + 1000 * ({ gangR with grace := 0 } : Gang).grace < ({ sliceS { gangR with grace := 0 } ctxG none with time := 200 } : State).time := by decide

theorem witness_Package : (dueS.region 0).pending = some recordG ∧ (dueS.region 0).scrubDue = true ∧ (dueS.region 0).inService = true ∧ (dueS.region 0).graph = none
    ∧ (dueS.region 0).halt = false ∧ (dueS.region 0).preempt = none ∧ Assoc.find recordG.asid dueS.contexts = some (loadContext 0)
    ∧ (loadContext 0).gang = none ∧ (scrubAll 0 dueS).isSome = true
    ∧ (colS.region 0).colJob = some jobA ∧ Assoc.find jobA.iasid colS.contexts = some (loadContext 0) ∧ (colS.region 0).halt = false
    ∧ (metaOf poisonedS (1536 / 512)).z = false ∧ poisonedS.errors = [] ∧ (Assoc.find (metaKey 1 0) storedS.metas).isSome = true ∧ poisonedS.expandersDown = []
    ∧ (Assoc.find (1536 / 512) heldS.held).isSome = true ∧ Assoc.find (1536 / 512) poisonedS.held = none
    ∧ Assoc.find (arcKey 40 1) (eoiBad.region 0).arcs = some arcK ∧ arcK.fifo.length = 3 ∧ eoiBad.errors = [] := by decide
theorem witness_Package_colophon : ∃ s1, gWrite (loadContext 0) 0 (loadContext 0).attr.colOff
    (colBytes colS.attest (colMessage (colS.region 0) jobA 0 (deviceOf colS))) colS = .ok () s1 :=
  ⟨_, rfl⟩

theorem witness_StepRunsDecoded : (State.withFetchWord base 64 0x3800C10800030000).turn = .issue ∧ (State.withFetchWord base 64 0x3800C10800030000).hereR.halt = false
    ∧ isCtl (State.withFetchWord base 64 0x3800C10800030000).cur.unit = false
    ∧ Assoc.find (State.withFetchWord base 64 0x3800C10800030000).here.pc.toNat (State.withFetchWord base 64 0x3800C10800030000).hereC.istore = some 0x3800C10800030000
    ∧ (decode 0x3800C10800030000).isSome = true ∧ isElemOp 0x3800C10800030000 = false
    ∧ (State.withFetchWord control 64 0x4F00C7C400000000).turn = .issue ∧ isCtl (State.withFetchWord control 64 0x4F00C7C400000000).cur.unit = true
    ∧ (match gRead (loadContext 0) 0 0 8 (State.withFetchWord control 64 0x4F00C7C400000000) with
       | .ok _ _ => true
       | _ => false) = true
    ∧ (State.withFetchWord base 64 0x800B089010000000).turn = .stage ∧ stageWordAt (State.withFetchWord base 64 0x800B089010000000) = some 0x800B089010000000
    ∧ (decode 0x800B089010000000).isSome = true ∧ isElemOp 0x800B089010000000 = true ∧ base.turn = .none := by decide

theorem witness_EncodeDecodeRoundTrip : (Instr.add always 3 (src 1) (src 2)).isEvent = false ∧ (Instr.add always 3 (src 1) (src 2)).wf = true
    ∧ (decode 0x3800C10800030000).isSome = true := by decide

theorem witness_StepKeepsMemoryForm : MemoryForm coatS ∧ coatS.smem.cur ≠ [] := by decide

/-- The guard that a predicate is false. -/
def negp (p : PReg) : Guard := { neg := true, pred := p }
/-- A source with its trap bit. -/
def ret (x : Reg) : Src := { r := x, et := true }

/-- Words laid out from the field maps and opcodes of the spec: integer register forms: opcodes of R40, fields of R31 (R87, R88). -/
theorem test_decode_integer :
    decode 0x00A0C10808000000 = some (.add (negp 2) 3 (ret 1) (rg 2)) ∧
    decode 0x0007DE7404010000 = some (.addSat plain 31 (rg 30) (ret 29)) ∧
    decode 0x0100C10800000000 = some (.sub plain 3 (rg 1) (rg 2)) ∧
    decode 0x0100C10800010000 = some (.subSat plain 3 (rg 1) (rg 2)) ∧
    decode 0x0200C10800000000 = some (.mul plain 3 (rg 1) (rg 2)) ∧
    decode 0x0200C10800010000 = some (.mulSat plain 3 (rg 1) (rg 2)) ∧
    decode 0x0300C10800000000 = some (.mulh plain 3 (rg 1) (rg 2)) ∧
    decode 0x0400C10800000000 = some (.mulhu plain 3 (rg 1) (rg 2)) ∧
    decode 0x0500C10800000000 = some (.div plain 3 (rg 1) (rg 2)) ∧
    decode 0x0600C10800000000 = some (.divu plain 3 (rg 1) (rg 2)) ∧
    decode 0x0700C10800000000 = some (.rem plain 3 (rg 1) (rg 2)) ∧
    decode 0x0800C10800000000 = some (.remu plain 3 (rg 1) (rg 2)) ∧
    decode 0x0900C10800000000 = some (.and plain 3 (rg 1) (rg 2)) ∧
    decode 0x0A00C10800000000 = some (.or plain 3 (rg 1) (rg 2)) ∧
    decode 0x0B00C10800000000 = some (.xor plain 3 (rg 1) (rg 2)) ∧
    decode 0x0C00C10800000000 = some (.andn plain 3 (rg 1) (rg 2)) := by decide

/-- Words laid out from the field maps and opcodes of the spec: shifts, orders and counts (R88). -/
theorem test_decode_shifts :
    decode 0x0D00C10800000000 = some (.shl plain 3 (rg 1) (rg 2)) ∧
    decode 0x0D00C10800010000 = some (.shlSat plain 3 (rg 1) (rg 2)) ∧
    decode 0x0E00C10800000000 = some (.shr plain 3 (rg 1) (rg 2)) ∧
    decode 0x0F00C10800000000 = some (.sra plain 3 (rg 1) (rg 2)) ∧
    decode 0x1000C10800000000 = some (.rotr plain 3 (rg 1) (rg 2)) ∧
    decode 0x1100C10800000000 = some (.min plain 3 (rg 1) (rg 2)) ∧
    decode 0x1200C10800000000 = some (.max plain 3 (rg 1) (rg 2)) ∧
    decode 0x1300C10800000000 = some (.minu plain 3 (rg 1) (rg 2)) ∧
    decode 0x1400C10800000000 = some (.maxu plain 3 (rg 1) (rg 2)) ∧
    decode 0x1500C10000000000 = some (.clz plain 3 (rg 1)) ∧
    decode 0x1600C10008000000 = some (.ctz plain 3 (ret 1)) ∧
    decode 0x1700C10000000000 = some (.popc plain 3 (rg 1)) := by decide

/-- Words laid out from the field maps and opcodes of the spec: immediate, address, select, compare and predicate forms (R91 to R95). -/
theorem test_decode_immediate :
    decode 0x20014680FFFFFFFF = some (.addi plain 5 (ret 6) 0xFFFFFFFF) ∧
    decode 0x2101460000000080 = some (.andi plain 5 (rg 6) 0x80) ∧
    decode 0x220140009ABCDEF0 = some (.ori plain 5 (rg 0) 0x9abcdef0) ∧
    decode 0x2301460000000001 = some (.xori plain 5 (rg 6) 1) ∧
    decode 0x240146000000003F = some (.shli plain 5 (rg 6) 63) ∧
    decode 0x2501460000000001 = some (.shri plain 5 (rg 6) 1) ∧
    decode 0x2601460000000002 = some (.srai plain 5 (rg 6) 2) ∧
    decode 0x2701450012345678 = some (.lui plain 5 (rg 5) 0x12345678) ∧
    decode 0x2800C10800040000 = some (.lea plain 3 (rg 1) (rg 2) 4) ∧
    decode 0x2900C10A30000000 = some (.sel plain 3 (rg 1) (rg 2) 3) ∧
    decode 0x2A08810800000000 = some (.ceq plain 2 (rg 1) (rg 2)) ∧
    decode 0x2B08810800000000 = some (.cne plain 2 (rg 1) (rg 2)) ∧
    decode 0x2C08810800000000 = some (.clt plain 2 (rg 1) (rg 2)) ∧
    decode 0x2D08810800000000 = some (.cle plain 2 (rg 1) (rg 2)) ∧
    decode 0x2E08810800000000 = some (.cltu plain 2 (rg 1) (rg 2)) ∧
    decode 0x2F08810800000000 = some (.cleu plain 2 (rg 1) (rg 2)) ∧
    decode 0x30085F0000000029 = some (.ceqi plain 1 (rg 31) 41) ∧
    decode 0x31085F00FFFFFFFC = some (.clti plain 1 (rg 31) 0xFFFFFFFC) ∧
    decode 0x3209208400020000 = some (.pand plain 4 0 1 false true) ∧
    decode 0x3309228400010000 = some (.por plain 4 2 1 true false) ∧
    decode 0x3409248000000000 = some (.pxor plain 4 4 0 false false) := by decide

/-- Words laid out from the field maps and opcodes of the spec: scalar floating-point forms (R96, R97, R99, R100). -/
theorem test_decode_float :
    decode 0x3900C108000E0000 = some (.fsub plain 3 (rg 1) (rg 2) { prec := .s, rm := .dyn, sat := false }) ∧
    decode 0x3A00C10800100000 = some (.fmul plain 3 (rg 1) (rg 2) { prec := .s, rm := .fixed .rne, sat := true }) ∧
    decode 0x3B00C10842090000 = some (.ffma plain 3 (rg 1) (rg 2) (ret 4) { prec := .d, rm := .fixed .rna, sat := false }) ∧
    decode 0x3C00C10800040000 = some (.fdiv plain 3 (rg 1) (rg 2) { prec := .s, rm := .fixed .rp, sat := false }) ∧
    decode 0x3D00C10000070000 = some (.fsqrt plain 3 (rg 1) { prec := .d, rm := .fixed .rm, sat := false }) ∧
    decode 0x3E00C10800010000 = some (.fmin plain 3 (rg 1) (rg 2) .d) ∧
    decode 0x3F00C10800000000 = some (.fmax plain 3 (rg 1) (rg 2) .s) ∧
    decode 0x4008410800610000 = some (.fcmp plain 1 (rg 1) (rg 2) .d .un) ∧
    decode 0x4008410800200000 = some (.fcmp plain 1 (rg 1) (rg 2) .s .lt) ∧
    decode 0x4100C10000E20000 = some (.fcvt plain 3 (rg 1) .d .lu (.fixed .rz) false) ∧
    decode 0x4100C100011A0000 = some (.fcvt plain 3 (rg 1) .l .s (.fixed .rs) true) ∧
    decode 0x4200C10000010000 = some (.fclass plain 3 (rg 1) .d) := by decide

/-- Words laid out from the field maps and opcodes of the spec: loads, stores and atomics (R33, R34, R218). -/
theorem test_decode_memory :
    decode 0x4900C220FFFFFFF8 = some (.stl plain 3 2 { size := .b, t := true, off := 0xFFFFFFF8 }) ∧
    decode 0x4A00C2C000000000 = some (.ldr plain 3 2 { size := .d, t := false, sx := false, off := 0 }) ∧
    decode 0x4B00C24000000002 = some (.str plain 3 2 { size := .h, t := false, off := 2 }) ∧
    decode 0x4D00C28000000004 = some (.sts plain 3 2 { size := .w, t := false, off := 4 }) ∧
    decode 0x4E00C2B000000004 = some (.ldg plain 3 2 { size := .w, t := true, sx := true, off := 4 }) ∧
    decode 0x4E00C2C200000000 = some (.ldgAcq plain 3 2 { size := .d, t := false, sx := false, off := 0 }) ∧
    decode 0x4E00C2C600000000 = some (.ldgSc plain 3 2 { size := .d, t := false, sx := false, off := 0 }) ∧
    decode 0x4F00C2C000000000 = some (.stg plain 3 2 { size := .d, t := false, off := 0 }) ∧
    decode 0x4F00C2C600000000 = some (.stgSc plain 3 2 { size := .d, t := false, off := 0 }) ∧
    decode 0x5000051801180000 = some (.ats plain (rg 5) (rg 6) .xor true) ∧
    decode 0x5102451870500000 = some (.atsv plain 9 (rg 5) (rg 6) (rg 7) .cas false) ∧
    decode 0x5102451800180000 = some (.atsv plain 9 (rg 5) (rg 6) (rg 0) .swap true) ∧
    decode 0x5200051800B00000 = some (.atg plain (rg 5) (rg 6) .fmax false) ∧
    decode 0x5302451800380000 = some (.atgv plain 9 (rg 5) (rg 6) (rg 0) .fetchAdd true) := by decide

/-- Words laid out from the field maps and opcodes of the spec: channels, branches and task control (R103 to R111, R114, R115, R118). -/
theorem test_decode_control :
    decode 0x5401320000000000 = some (.recv plain 4 2) ∧
    decode 0x5500051808000000 = some (.send plain (ret 5) (rg 6)) ∧
    decode 0x56013F0000000000 = some (.peek plain 4 15) ∧
    decode 0x5608700000010000 = some (.peekQ plain 1 0) ∧
    decode 0x60A00680FFFFFFFE = some (.br (negp 2) (ret 6) 0xFFFFFFFE) ∧
    decode 0x6100000000000007 = some (.jmp plain 7) ∧
    decode 0x6207C00000000007 = some (.call plain 31 7) ∧
    decode 0x6400C10000000000 = some (.twait plain 3 (rg 1)) ∧
    decode 0x6500C10840000000 = some (.trun plain 3 (rg 1) (rg 2) (rg 4)) ∧
    decode 0x6600000000000000 = some (.tend plain) ∧
    decode 0x6700000000000009 = some (.trap plain 9) ∧
    decode 0x6800C00000000000 = some (.empty plain 3) ∧
    decode 0x69085F0000000000 = some (.fullq plain 1 31) ∧
    decode 0x6A00000000000000 = some (.yield plain) ∧
    decode 0x6B000000FFFFFFFF = some (.halt plain 0xFFFFFFFF) := by decide

/-- Words laid out from the field maps and opcodes of the spec: system forms (R46, R119 to R124). -/
theorem test_decode_system :
    decode 0xF001000000000022 = some (.mfsr plain 4 .trapinfo) ∧
    decode 0xF001000000000013 = some (.mfsr plain 4 .phbuf) ∧
    decode 0xF100040000000021 = some (.mtsr plain .trapvec (rg 4)) ∧
    decode 0xF200000000000000 = some (.fenceWait plain) ∧
    decode 0xF2000000000D0000 = some (.fenceRel plain .package) ∧
    decode 0xF200000000060000 = some (.fenceAcq plain .cluster) ∧
    decode 0xF200000000130000 = some (.fenceAcqrel plain .system) ∧
    decode 0xF301000000000000 = some (.rdtime plain 4) ∧
    decode 0xF301000000010000 = some (.rdtimeCyc plain 4) ∧
    decode 0xF400C10800000000 = some (.digest plain 3 (rg 1) (rg 2)) ∧
    decode 0xF400010840010000 = some (.digestOut plain (rg 1) (rg 2) (rg 4)) ∧
    decode 0xF500010000000000 = some (.seed plain (rg 1)) ∧
    decode 0xF600C00000000000 = some (.colchk plain 3) := by decide

/-- Words laid out from the field maps and opcodes of the spec: element operations, arithmetic to shifts (R37, R139). -/
theorem test_decode_element_a :
    decode 0x810310140A000001 = some (.vsub { ty := .int16, dest := 2, selA := 1, kA := 4, selB := 5, kB := 0, selC := 0, kC := 0, fn := 0, rnd := .rne, sat := true }) ∧
    decode 0x820D01003E000006 = some (.vmul { ty := .fp32, dest := 0, selA := 16, kA := 0, selB := 31, kB := 0, selC := 0, kC := 0, fn := 0, rnd := .rm, sat := false }) ∧
    decode 0x8401780002000000 = some (.vmac { ty := .int8, dest := 15, selA := 0, kA := 0, selB := 1, kB := 0, selC := 0, kC := 0, fn := 0, rnd := .rne, sat := false }) ∧
    decode 0x8508800002000030 = some (.vdot4 { ty := .fp8a, dest := 16, selA := 0, kA := 0, selB := 1, kB := 0, selC := 0, kC := 0, fn := 3, rnd := .rne, sat := false }) ∧
    decode 0x8604002000000001 = some (.vabs { ty := .int32, dest := 0, selA := 2, kA := 0, selB := 0, kB := 0, selC := 0, kC := 0, fn := 0, rnd := .rne, sat := true }) ∧
    decode 0x870B002000000000 = some (.vneg { ty := .fp16, dest := 0, selA := 2, kA := 0, selB := 0, kB := 0, selC := 0, kC := 0, fn := 0, rnd := .rne, sat := false }) ∧
    decode 0x8802002006000000 = some (.vmin { ty := .uint8, dest := 0, selA := 2, kA := 0, selB := 3, kB := 0, selC := 0, kC := 0, fn := 0, rnd := .rne, sat := false }) ∧
    decode 0x8902002006000000 = some (.vmax { ty := .uint8, dest := 0, selA := 2, kA := 0, selB := 3, kB := 0, selC := 0, kC := 0, fn := 0, rnd := .rne, sat := false }) ∧
    decode 0x8A0C002006000000 = some (.vminp { ty := .bf16, dest := 0, selA := 2, kA := 0, selB := 3, kB := 0, selC := 0, kC := 0, fn := 0, rnd := .rne, sat := false }) ∧
    decode 0x8B0C002006000000 = some (.vmaxp { ty := .bf16, dest := 0, selA := 2, kA := 0, selB := 3, kB := 0, selC := 0, kC := 0, fn := 0, rnd := .rne, sat := false }) ∧
    decode 0x8C0F002020044000 = some (.vclamp { ty := .uint16, dest := 0, selA := 2, kA := 0, selB := 16, kB := 0, selC := 17, kC := 0, fn := 0, rnd := .rne, sat := false }) ∧
    decode 0x8D0A002006000000 = some (.vand { ty := .df8, dest := 0, selA := 2, kA := 0, selB := 3, kB := 0, selC := 0, kC := 0, fn := 0, rnd := .rne, sat := false }) ∧
    decode 0x8E0A002006000000 = some (.vor { ty := .df8, dest := 0, selA := 2, kA := 0, selB := 3, kB := 0, selC := 0, kC := 0, fn := 0, rnd := .rne, sat := false }) ∧
    decode 0x8F0A002006000000 = some (.vxor { ty := .df8, dest := 0, selA := 2, kA := 0, selB := 3, kB := 0, selC := 0, kC := 0, fn := 0, rnd := .rne, sat := false }) ∧
    decode 0x9003002006000001 = some (.vshl { ty := .int16, dest := 0, selA := 2, kA := 0, selB := 3, kB := 0, selC := 0, kC := 0, fn := 0, rnd := .rne, sat := true }) ∧
    decode 0x9103002006000000 = some (.vshr { ty := .int16, dest := 0, selA := 2, kA := 0, selB := 3, kB := 0, selC := 0, kC := 0, fn := 0, rnd := .rne, sat := false }) ∧
    decode 0x9203002006000000 = some (.vsra { ty := .int16, dest := 0, selA := 2, kA := 0, selB := 3, kB := 0, selC := 0, kC := 0, fn := 0, rnd := .rne, sat := false }) := by decide

/-- Words laid out from the field maps and opcodes of the spec: element operations, compares to moves (R37, R139). -/
theorem test_decode_element_b :
    decode 0x930B002006000040 = some (.vcmp { ty := .fp16, dest := 0, selA := 2, kA := 0, selB := 3, kB := 0, selC := 0, kC := 0, fn := 4, rnd := .rne, sat := false }) ∧
    decode 0x940B002006010000 = some (.vsel { ty := .fp16, dest := 0, selA := 2, kA := 0, selB := 3, kB := 0, selC := 4, kC := 0, fn := 0, rnd := .rne, sat := false }) ∧
    decode 0x95080800000000CB = some (.vcvt { ty := .fp8a, dest := 1, selA := 0, kA := 0, selB := 0, kB := 0, selC := 0, kC := 0, fn := 12, rnd := .rs, sat := true }) ∧
    decode 0x9603002006000008 = some (.vscale { ty := .int16, dest := 0, selA := 2, kA := 0, selB := 3, kB := 0, selC := 0, kC := 0, fn := 0, rnd := .rna, sat := false }) ∧
    decode 0x970B002000000030 = some (.vamax { ty := .fp16, dest := 0, selA := 2, kA := 0, selB := 0, kB := 0, selC := 0, kC := 0, fn := 3, rnd := .rne, sat := false }) ∧
    decode 0x980B002000000090 = some (.vsf { ty := .fp16, dest := 0, selA := 2, kA := 0, selB := 0, kB := 0, selC := 0, kC := 0, fn := 9, rnd := .rne, sat := false }) ∧
    decode 0x9904002000000000 = some (.vsum { ty := .int32, dest := 0, selA := 2, kA := 0, selB := 0, kB := 0, selC := 0, kC := 0, fn := 0, rnd := .rne, sat := false }) ∧
    decode 0x9A04002000000010 = some (.vscan { ty := .int32, dest := 0, selA := 2, kA := 0, selB := 0, kB := 0, selC := 0, kC := 0, fn := 1, rnd := .rne, sat := false }) ∧
    decode 0x9B01002006000000 = some (.vperm { ty := .int8, dest := 0, selA := 2, kA := 0, selB := 3, kB := 0, selC := 0, kC := 0, fn := 0, rnd := .rne, sat := false }) ∧
    decode 0x9B01002006010010 = some (.vperm2 { ty := .int8, dest := 0, selA := 2, kA := 0, selB := 3, kB := 0, selC := 4, kC := 0, fn := 1, rnd := .rne, sat := false }) ∧
    decode 0x9C0B0020000001F0 = some (.vbcast { ty := .fp16, dest := 0, selA := 2, kA := 0, selB := 0, kB := 0, selC := 0, kC := 0, fn := 31, rnd := .rne, sat := false }) ∧
    decode 0x9D0B002006000010 = some (.vslide { ty := .fp16, dest := 0, selA := 2, kA := 0, selB := 3, kB := 0, selC := 0, kC := 0, fn := 1, rnd := .rne, sat := false }) ∧
    decode 0x9E0B07F006000000 = some (.vtap { ty := .fp16, dest := 0, selA := 127, kA := 0, selB := 3, kB := 0, selC := 0, kC := 0, fn := 0, rnd := .rne, sat := false }) ∧
    decode 0x9F0B002006000010 = some (.vexpand { ty := .fp16, dest := 0, selA := 2, kA := 0, selB := 3, kB := 0, selC := 0, kC := 0, fn := 1, rnd := .rne, sat := false }) ∧
    decode 0xA00B002006000000 = some (.vcompress { ty := .fp16, dest := 0, selA := 2, kA := 0, selB := 3, kB := 0, selC := 0, kC := 0, fn := 0, rnd := .rne, sat := false }) ∧
    decode 0xA10B080002000000 = some (.vsteer { ty := .fp16, dest := 1, selA := 0, kA := 0, selB := 1, kB := 0, selC := 0, kC := 0, fn := 0, rnd := .rne, sat := false }) ∧
    decode 0xA20B000002008000 = some (.vmerge { ty := .fp16, dest := 0, selA := 0, kA := 0, selB := 1, kB := 0, selC := 2, kC := 0, fn := 0, rnd := .rne, sat := false }) ∧
    decode 0xA301080000000153 = some (.vnrw { ty := .int8, dest := 1, selA := 0, kA := 0, selB := 0, kB := 0, selC := 0, kC := 0, fn := 21, rnd := .rz, sat := true }) ∧
    decode 0xA30B080000000080 = some (.vnrwStream { ty := .fp16, dest := 1, selA := 0, kA := 0, selB := 0, kB := 0, selC := 0, kC := 0, fn := 8, rnd := .rne, sat := false }) ∧
    decode 0xA40BB80000000000 = some (.vmov { ty := .fp16, dest := 23, selA := 0, kA := 0, selB := 0, kB := 0, selC := 0, kC := 0, fn := 0, rnd := .rne, sat := false }) := by decide

/-- Words laid out from the field maps and opcodes of the spec: chain, stream, barrier and transform commands (R156, R158, R216, R224, R228, R230, R231). -/
theorem test_decode_stream_words :
    decode 0xC002472004000015 = some (.chain plain 9 (rg 7) (ret 8) 5 true) ∧
    decode 0xC102470000000000 = some (.cwait plain 9 (rg 7)) ∧
    decode 0xC102400000010003 = some (.cwaitFlags plain 9 3) ∧
    decode 0xC102400000020023 = some (.cwaitMag plain 9 3 2) ∧
    decode 0xC202472000000123 = some (.sbind plain 9 (rg 7) (rg 8) true 1 false 3) ∧
    decode 0xC3024000000000F0 = some (.sclose plain 9 7 true) ∧
    decode 0xC302400000010040 = some (.scloseAbort plain 9 2 false) ∧
    decode 0xC400000000008001 = some (.sbar plain 0x8001) ∧
    decode 0xC400000000010003 = some (.sbarWait plain 3) ∧
    decode 0xC50244000000000F = some (.cbar plain 9 (rg 4) 15) ∧
    decode 0xC602440000040001 = some (.phase plain 9 (rg 4) .system 1) ∧
    decode 0xC702441400006C08 = some (.xformCvt plain 9 (rg 4) (rg 5) .int8 .fp8a .rs true) ∧
    decode 0xC702441460000019 = some (.xformScale plain 9 (rg 4) (rg 5) (rg 6) .int16 .rne false) ∧
    decode 0xC702441462000022 = some (.xformFill plain 9 (rg 4) (rg 5) (ret 6) .int32 false) ∧
    decode 0xC70244146000085B = some (.xformAdd plain 9 (rg 4) (rg 5) (rg 6) .fp16 .rz false) ∧
    decode 0xC70244140000007C = some (.xformAmax plain 9 (rg 4) (rg 5) .uint16 false) := by decide

/-- Words laid out from the field maps and opcodes of the spec: matrix, coat, copy, transfer-barrier, translation, graph and collective commands (R251, R252, R275 to R277, R302, R304, R335, R339, R341, R343, R461). -/
theorem test_decode_engine_words :
    decode 0xC800C51800000000 = some (.mscale plain 3 (rg 5) (rg 6)) ∧
    decode 0xC902401460010000 = some (.mwloadP plain 9 (rg 5) (rg 6)) ∧
    decode 0xCA02400000010003 = some (.marmQ plain 9 3) ∧
    decode 0xCA02400000020003 = some (.marmWait plain 9 3) ∧
    decode 0xCA02400000030003 = some (.marmFlags plain 9 3) ∧
    decode 0xCB02400000010002 = some (.crunWait plain 9 2) ∧
    decode 0xD002890000010000 = some (.copyWait plain 10 (rg 9)) ∧
    decode 0xD201C00000000003 = some (.xwait plain 7 3) ∧
    decode 0xD300040000010000 = some (.tinvT plain 0 (rg 4)) ∧
    decode 0xD301400000020000 = some (.tinvAll plain 5) ∧
    decode 0xD300000000030000 = some (.tinvWait plain 0) ∧
    decode 0xD402041400010000 = some (.xlookO plain 8 (rg 4) (rg 5)) ∧
    decode 0xD502440000010000 = some (.glaunchQ plain 9 (rg 4)) ∧
    decode 0xD602440000010002 = some (.garmQ plain 9 (rg 4) 2) ∧
    decode 0xD702440000000000 = some (.collReduceRing plain 9 (rg 4)) ∧
    decode 0xD702440000080000 = some (.collReduceTree plain 9 (rg 4)) ∧
    decode 0xD702440000090000 = some (.collAllreduceTree plain 9 (rg 4)) ∧
    decode 0xD702440000020000 = some (.collGather plain 9 (rg 4)) ∧
    decode 0xD702440000030000 = some (.collScatter plain 9 (rg 4)) := by decide

/-- Words laid out from the field maps and opcodes of the spec: decision-diagram commands (R358). -/
theorem test_decode_dd_words :
    decode 0xE001020000000000 = some (.ddcfg plain 4 (rg 2)) ∧
    decode 0xE001020000010000 = some (.ddcfgGrow plain 4 (rg 2)) ∧
    decode 0xE101020000010000 = some (.ddvarLvl plain 4 (rg 2)) ∧
    decode 0xE101020000020000 = some (.ddvarVar plain 4 (rg 2)) ∧
    decode 0xE201010830000000 = some (.ddite plain 4 (rg 1) (rg 2) (rg 3)) ∧
    decode 0xE401010800000000 = some (.ddrestrict plain 4 (rg 1) (rg 2)) ∧
    decode 0xE501010800000000 = some (.ddquantEx plain 4 (rg 1) (rg 2)) ∧
    decode 0xE501010800010000 = some (.ddquantAll plain 4 (rg 1) (rg 2)) ∧
    decode 0xE601010830000000 = some (.ddcompose plain 4 (rg 1) (rg 2) (rg 3)) ∧
    decode 0xE701010830000000 = some (.ddwcount plain 4 (rg 1) (rg 2) (rg 3)) ∧
    decode 0xE801010000000000 = some (.ddsat plain 4 (rg 1)) ∧
    decode 0xE901010830000000 = some (.ddenum plain 4 (rg 1) (rg 2) (rg 3)) ∧
    decode 0xE901010830010000 = some (.ddenumE plain 4 (rg 1) (rg 2) (rg 3)) ∧
    decode 0xEA01010000000000 = some (.ddref plain 4 (rg 1)) ∧
    decode 0xEB01010000000000 = some (.ddderef plain 4 (rg 1)) ∧
    decode 0xEC01000000000000 = some (.ddgc plain 4) ∧
    decode 0xED01010000000000 = some (.ddswap plain 4 (rg 1)) ∧
    decode 0xEE01010000000000 = some (.ddnode plain 4 (rg 1)) ∧
    decode 0xEF01000000040000 = some (.ddstat plain 4 4) := by decide

/-- Words that the spec calls illegal: unallocated opcode (R40). -/
theorem test_illegal_1 :
    decode 0x1800000000000000 = none ∧
    decode 0xFF00000000000000 = none ∧
    decode 0xFFFFFFFFFFFFFFFF = none ∧
    decode 0x7000000000000000 = none ∧
    decode 0xCD01010000000000 = none ∧
    decode 0xFC00000000000000 = none := by decide

/-- Words that the spec calls illegal: predicate fields (R23). -/
theorem test_illegal_2 :
    decode 0x0080C10800000000 = none := by decide

/-- Words that the spec calls illegal: function values (R26). -/
theorem test_illegal_3 :
    decode 0x0000C10800020000 = none ∧
    decode 0x0900C10800010000 = none ∧
    decode 0x2800C10800050000 = none ∧
    decode 0xC102470000030000 = none ∧
    decode 0xD702440000050000 = none ∧
    decode 0xD7024400000A0000 = none ∧
    decode 0xE301010800100000 = none ∧
    decode 0xEF01000000050000 = none := by decide

/-- Words that the spec calls illegal: reserved and unnamed fields (R25). -/
theorem test_illegal_4 :
    decode 0x0000C10800000001 = none ∧
    decode 0x0000C10840000000 = none ∧
    decode 0x1500C10800000000 = none ∧
    decode 0x2401460000000040 = none ∧
    decode 0x6100400000000007 = none ∧
    decode 0xC002472000000020 = none ∧
    decode 0xE101020C00000000 = none := by decide

/-- Words that the spec calls illegal: specifier classes (R25). -/
theorem test_illegal_5 :
    decode 0x0008410800000000 = none ∧
    decode 0x2A00C10800000000 = none ∧
    decode 0x5401040000000000 = none ∧
    decode 0x2900C10830000000 = none ∧
    decode 0x0000E80800000000 = none := by decide

/-- Words that the spec calls illegal: trap bits (R30). -/
theorem test_illegal_6 :
    decode 0x1500C10004000000 = none ∧
    decode 0x69085F0008000000 = none ∧
    decode 0x5401320008000000 = none ∧
    decode 0x6100008000000007 = none ∧
    decode 0x3209208408000000 = none := by decide

/-- Words that the spec calls illegal: memory order and size (R33, R34, R218). -/
theorem test_illegal_7 :
    decode 0x4C00C2C200000000 = none ∧
    decode 0x4E00C2C400000000 = none ∧
    decode 0x4F00C2C200000000 = none ∧
    decode 0x4E00C2C800000000 = none ∧
    decode 0x4D00C29000000000 = none ∧
    decode 0x4C00C2D000000000 = none ∧
    decode 0x5000051800080000 = none ∧
    decode 0x5000051801300000 = none ∧
    decode 0x5102451870180000 = none := by decide

/-- Words that the spec calls illegal: system registers (R46). -/
theorem test_illegal_8 :
    decode 0xF001000000000007 = none ∧
    decode 0xF100040000000022 = none ∧
    decode 0xF100040000000031 = none := by decide

/-- Words that the spec calls illegal: rounding codes and float fields (R96, R97, R99, R100). -/
theorem test_illegal_9 :
    decode 0x3800C108000C0000 = none ∧
    decode 0x4008410800800000 = none ∧
    decode 0x4100C10000010000 = none ∧
    decode 0x4100C10000A00000 = none ∧
    decode 0x4100C10001600000 = none ∧
    decode 0x4100C10000500000 = none ∧
    decode 0x3E00C10800020000 = none := by decide

/-- Words that the spec calls illegal: registers an entry forbids (R103, R109, R372). -/
theorem test_illegal_10 :
    decode 0x6000000000000007 = none ∧
    decode 0x6300000000000007 = none ∧
    decode 0x6800000000000000 = none ∧
    decode 0xEE00010000000000 = none ∧
    decode 0xEE07C10000000000 = none := by decide

/-- Words that the spec calls illegal: element operations (R38, R39, R139). -/
theorem test_illegal_11 :
    decode 0x800B08C010000000 = none ∧
    decode 0x800B089110000000 = none ∧
    decode 0x800B189010000000 = none ∧
    decode 0x800B089010004000 = none ∧
    decode 0x800E089010000000 = none ∧
    decode 0x8005089010000000 = none ∧
    decode 0x800B089010000010 = none ∧
    decode 0x8003089010000002 = none ∧
    decode 0x800B08901000000C = none ∧
    decode 0x840B080002000000 = none ∧
    decode 0x880B002006000001 = none ∧
    decode 0x9303002006000040 = none ∧
    decode 0x9508080000000080 = none ∧
    decode 0x9803002000000000 = none ∧
    decode 0x9C0D002000000100 = none ∧
    decode 0x9E0B002006000000 = none ∧
    decode 0xA10B100002000000 = none ∧
    decode 0xA20B004002008000 = none ∧
    decode 0xA30B080000000090 = none ∧
    decode 0x808B089010000000 = none := by decide

/-- Words that the spec calls illegal: ranges of a transform, scopes (R216, R224, R115, R120). -/
theorem test_illegal_12 :
    decode 0xC70244140000000D = none ∧
    decode 0xC702441400000074 = none ∧
    decode 0xC70244146000080A = none ∧
    decode 0xC602440000010000 = none ∧
    decode 0xC602440000050000 = none ∧
    decode 0x55000518000B0000 = none ∧
    decode 0x5500051800020000 = none ∧
    decode 0xF200000000040000 = none ∧
    decode 0xF200000000150000 = none := by decide

/-- A term of each operand check that no word has (R23, R34, R46, R92, R100, R103, R109, R216, R218, R224, R372, R373). -/
theorem test_wf_operands :
    Instr.wf (.add (negp 0) 3 (rg 1) (rg 2)) = false ∧
    Instr.wf (.lea plain 3 (rg 1) (rg 2) 5) = false ∧
    Instr.wf (.fcvt plain 3 (rg 1) .d .d (.fixed .rne) false) = false ∧
    Instr.wf (.fcvt plain 3 (rg 1) .l .lu (.fixed .rne) false) = false ∧
    Instr.wf (.fcvt plain 3 (rg 1) .d .l (.fixed .rne) true) = false ∧
    Instr.wf (.lds plain 3 2 { size := .d, t := false, sx := true, off := 0 }) = false ∧
    Instr.wf (.atsv plain 9 (rg 5) (rg 6) (rg 7) .swap true) = false ∧
    Instr.wf (.br plain (rg 0) 7) = false ∧
    Instr.wf (.loop plain (rg 0) 7) = false ∧
    Instr.wf (.empty plain 0) = false ∧
    Instr.wf (.mtsr plain .trapinfo (rg 4)) = false ∧
    Instr.wf (.phase plain 9 (rg 4) .cluster 1) = false ∧
    Instr.wf (.xformAmax plain 9 (rg 4) (rg 5) .fp64 false) = false ∧
    Instr.wf (.ddnode plain 0 (rg 1)) = false ∧
    Instr.wf (.ddnode plain 31 (rg 1)) = false ∧
    Instr.wf (.ddstat plain 4 5) = false := by decide

/-- A term of each check of an element operation (R38, R39, R139). -/
theorem test_wf_elements :
    Instr.wf (.vadd { ty := .fp16, dest := 1, selA := 12, kA := 0, selB := 8, kB := 0, selC := 0, kC := 0, fn := 0, rnd := .rne, sat := false }) = false ∧
    Instr.wf (.vadd { ty := .fp16, dest := 1, selA := 9, kA := 1, selB := 8, kB := 0, selC := 0, kC := 0, fn := 0, rnd := .rne, sat := false }) = false ∧
    Instr.wf (.vadd { ty := .fp16, dest := 1, selA := 9, kA := 0, selB := 8, kB := 0, selC := 1, kC := 0, fn := 0, rnd := .rne, sat := false }) = false ∧
    Instr.wf (.vadd { ty := .fp4, dest := 1, selA := 9, kA := 0, selB := 8, kB := 0, selC := 0, kC := 0, fn := 0, rnd := .rne, sat := false }) = false ∧
    Instr.wf (.vadd { ty := .fp16, dest := 3, selA := 9, kA := 0, selB := 8, kB := 0, selC := 0, kC := 0, fn := 0, rnd := .rne, sat := false }) = false ∧
    Instr.wf (.vadd { ty := .int16, dest := 1, selA := 9, kA := 0, selB := 8, kB := 0, selC := 0, kC := 0, fn := 0, rnd := .rz, sat := false }) = false ∧
    Instr.wf (.vadd { ty := .fp16, dest := 1, selA := 9, kA := 0, selB := 8, kB := 0, selC := 0, kC := 0, fn := 1, rnd := .rne, sat := false }) = false ∧
    Instr.wf (.vdot4 { ty := .int8, dest := 8, selA := 0, kA := 0, selB := 1, kB := 0, selC := 0, kC := 0, fn := 4, rnd := .rne, sat := false }) = false ∧
    Instr.wf (.vabs { ty := .fp16, dest := 0, selA := 2, kA := 0, selB := 0, kB := 0, selC := 0, kC := 0, fn := 0, rnd := .rne, sat := true }) = false ∧
    Instr.wf (.vmin { ty := .fp16, dest := 0, selA := 2, kA := 0, selB := 3, kB := 0, selC := 0, kC := 0, fn := 0, rnd := .rne, sat := true }) = false ∧
    Instr.wf (.vshl { ty := .fp16, dest := 0, selA := 2, kA := 0, selB := 3, kB := 0, selC := 0, kC := 0, fn := 0, rnd := .rne, sat := false }) = false ∧
    Instr.wf (.vcmp { ty := .int16, dest := 0, selA := 2, kA := 0, selB := 3, kB := 0, selC := 0, kC := 0, fn := 4, rnd := .rne, sat := false }) = false ∧
    Instr.wf (.vcvt { ty := .fp8a, dest := 1, selA := 0, kA := 0, selB := 0, kB := 0, selC := 0, kC := 0, fn := 8, rnd := .rne, sat := false }) = false ∧
    Instr.wf (.vsf { ty := .fp16, dest := 0, selA := 2, kA := 0, selB := 0, kB := 0, selC := 0, kC := 0, fn := 0, rnd := .rz, sat := false }) = false ∧
    Instr.wf (.vbcast { ty := .fp32, dest := 0, selA := 2, kA := 0, selB := 0, kB := 0, selC := 0, kC := 0, fn := 16, rnd := .rne, sat := false }) = false ∧
    Instr.wf (.vtap { ty := .fp16, dest := 0, selA := 2, kA := 0, selB := 3, kB := 0, selC := 0, kC := 0, fn := 0, rnd := .rne, sat := false }) = false ∧
    Instr.wf (.vsteer { ty := .fp16, dest := 2, selA := 0, kA := 0, selB := 1, kB := 0, selC := 0, kC := 0, fn := 0, rnd := .rne, sat := false }) = false ∧
    Instr.wf (.vmerge { ty := .fp16, dest := 0, selA := 4, kA := 0, selB := 1, kB := 0, selC := 2, kC := 0, fn := 0, rnd := .rne, sat := false }) = false ∧
    Instr.wf (.vnrw { ty := .fp16, dest := 1, selA := 0, kA := 0, selB := 0, kB := 0, selC := 0, kC := 0, fn := 9, rnd := .rne, sat := false }) = false ∧
    Instr.wf (.vmov { ty := .fp16, dest := 24, selA := 0, kA := 0, selB := 0, kB := 0, selC := 0, kC := 0, fn := 0, rnd := .rne, sat := false }) = false := by decide

/-- The FP64 pattern of -0.75 is 0xBFE8000000000000; to UINT64 toward zero: 0, inexact only (R100). -/
theorem test_fcvt_small : fcvtCode .lu .rz false 0 (fcvtVal .d 0xBFE8000000000000) = (0, flNx) := by decide
/-- The quotient and remainder by zero, of the most negative number by -1, and of -7 by 2 (R89). -/
theorem test_divide : divWord 7 0 7 = (0xFFFFFFFFFFFFFFFF, 7) ∧ divWord (-2 ^ 63) (-1) 0x8000000000000000 = (0x8000000000000000, 0)
    ∧ divWord (-7) 2 (BitVec.ofInt 64 (-7)) = (BitVec.ofInt 64 (-3), BitVec.ofInt 64 (-1)) := by decide
/-- Counts of zero, and of a word with both ends clear (R88). -/
theorem test_counts : clzWord 0 = 64 ∧ ctzWord 0 = 64 ∧ clzWord 0x00F0000000000000 = 8 ∧ ctzWord 0x00F0000000000000 = 52
    ∧ popWord 0x00F0000000000000 = 4 := by decide
/-- The two words of R91 that build 0x123456789ABCDEF0 in s5. -/
theorem test_constant : (match exec (.ori plain 5 (rg 0) 0x9ABCDEF0) base with
    | .next t => (match exec (.lui plain 5 (rg 5) 0x12345678) t with
      | .next u => decide (t.here.rd 5 = 0xFFFFFFFF9ABCDEF0 ∧ u.here.rd 5 = 0x123456789ABCDEF0)
      | _ => false)
    | _ => false) = true := by decide
/-- -5 times 2^-1 in INT16: -2 to nearest even, -3 toward minus infinity and with ties away, inexact (R62, R147). -/
theorem test_vscale : encodeNum .int16 true .rne false 0 (.fin true 5 2) = (0xFFFE, flNx) ∧ encodeNum .int16 true .rm false 0 (.fin true 5 2) = (0xFFFD, flNx)
    ∧ encodeNum .int16 true .rna false 0 (.fin true 5 2) = (0xFFFD, flNx) := by decide
/-- BF16 8192, -7680 and 100 times 0.0625 to FP8A with saturation, of the transposed copy worked through under R337. -/
theorem test_copy_elements : encodeNum .fp8a true .rne true 0 (numMul (decodeNum .bf16 0x4600) (decodeNum .fp32 0x3D800000)).1 = (0x7E, flOfNx)
    ∧ encodeNum .fp8a true .rne true 0 (numMul (decodeNum .bf16 0xC5F0) (decodeNum .fp32 0x3D800000)).1 = (0xFE, flOfNx)
    ∧ encodeNum .fp8a true .rne true 0 (numMul (decodeNum .bf16 0x42C8) (decodeNum .fp32 0x3D800000)).1 = (0x4C, flNx)
    ∧ encodeNum .fp8a true .rne true 0 (numMul (decodeNum .bf16 0x3F80) (decodeNum .fp32 0x3D800000)).1 = (0x18, flNone) := by decide
/-- The TRAPINFO of R84's example: pc 37, slot 2, s5 pending. -/
theorem test_trapinfo : trapInfo 2 { cause := 0x02, detail := 1, operand := 5, pc := 37 } 37 = 0x0000000105025202 := by decide
/-- The colophon word of R410's example. -/
theorem test_colophon : colWord { seq := 0x1F7, mask := 0x3FFF, required := true, nonce := true, written := true } = 0x000001F73FFF0007 := by decide
/-- The mapping of R441's example, whose cluster (13, 8) is defective. -/
theorem test_mapping : healthy [16 * 13 + 8] { id := 0, x := 12, y := 8, pw := 3, ph := 2, w := 5, h := 1 } = [(12, 8), (14, 8), (12, 9), (13, 9), (14, 9)] := by decide
/-- The occupancies of R445's example: read index 250, 256 places. -/
theorem test_occupancy : occupancy 256 250 260 = 10 ∧ occupancy 256 250 245 = 507 := by decide
/-- The table of the session traced under R375. -/
def ddStart : DdTable := ddFresh { nbase := 0, ubase := 16, cbase := 32, lc := 12, nv := 2, lk := 10 }
/-- A result and the table with its reference. -/
def held (p : Option Nat × DdTable) : Nat × DdTable :=
  match p.1 with
  | some x => (x, p.2.incr x)
  | none => (99, p.2)
/-- The first variable's projection. -/
def ddX : Nat × DdTable := held (ddStart.mkEdge (ddStart.levelOf 0) 0 1)
/-- The second's. -/
def ddY : Nat × DdTable := held (ddX.2.mkEdge (ddX.2.levelOf 1) 0 1)
/-- Their conjunction. -/
def ddZ : Nat × DdTable := held (ddAp 8 ddY.2.depth ddX.1 ddY.1 ddY.2)
/-- The least cube of its complement. -/
def ddQ : Nat × DdTable := held (ddSat ddZ.2.depth (compl ddZ.1) ddZ.2)
/-- That session's first results and the table after them. -/
theorem test_session : ddX.1 = 2 ∧ ddY.1 = 4 ∧ ddZ.1 = 6 ∧ ddQ.1 = 3 ∧ (ddQ.2.node 3).level = 0 ∧ (ddQ.2.node 3).hi = 4 ∧ (ddQ.2.node 3).lo = 1
    ∧ (ddQ.2.node 1).count = 2 ∧ (ddQ.2.node 2).count = 2 ∧ (ddQ.2.node 3).count = 1 := by decide

end Sys2Proof.Tests
end

section

namespace Sys2Proof.Machine

/-! ## Every step keeps the canonical form of the memories

`State.memOk` speaks of four fields of the state. An operation that changes none of them keeps it because the statement about its
result is, by definition, the one about its argument: there the hypothesis itself is the proof. An operation built from others keeps
it because they do: there the proof follows its branches and cites one lemma per operation called. Only the writers of a memory
(stores, atomics, decryption, wipes, the laying of an image) need the rules of `VMem` and `Assoc`.

An operation that takes a continuation keeps the form when the continuation does; outcomes other than a plain state get the
predicates below. `nextOk_exec` assembles the lemmas over the instructions, and the last section over turns and moves. -/

/-- The state of an access's outcome is canonical. -/
def MemRes.memOk {α : Type} : MemRes α → Prop
  | .ok _ s => s.memOk
  | .wait s => s.memOk
  | .fail _ s => s.memOk

/-- The state of a translation's outcome is canonical. -/
def XRes.memOk {α : Type} : XRes α → Prop
  | .ok _ s => s.memOk
  | .miss _ s => s.memOk
  | .wait s => s.memOk
  | .fail _ s => s.memOk

/-- The next state, where an outcome is one, is canonical. -/
def nextOk : Host.Outcome State Fault Refusal → Prop
  | .next s => s.memOk
  | _ => True

/-- The state is canonical, where there is one. -/
def someOk : Option State → Prop
  | some s => s.memOk
  | none => True

/-- The state that a posted record leaves is canonical, where it was posted. -/
def Posted.memOk : Posted → Prop
  | .tag _ s => s.memOk
  | _ => True

theorem MemRes.memOk_of_eq {α : Type} {x y : MemRes α} (e : x = y) (h : x.memOk) : y.memOk := e ▸ h
theorem XRes.memOk_of_eq {α : Type} {x y : XRes α} (e : x = y) (h : x.memOk) : y.memOk := e ▸ h
theorem Posted.memOk_of_eq {x y : Posted} (e : x = y) (h : x.memOk) : y.memOk := e ▸ h
theorem someOk_of_eq {x y : Option State} (e : x = y) (h : someOk x) : someOk y := e ▸ h
theorem nextOk_of_eq {x y : Host.Outcome State Fault Refusal} (e : x = y) (h : nextOk x) : nextOk y := e ▸ h

theorem nextOk_of_next {o : Host.Outcome State Fault Refusal} (h : ∀ t, o = .next t → t.memOk) : nextOk o := by
  cases o with
  | next t => exact h t rfl
  | _ => trivial

theorem memOk_of_pair {α : Type} {p : α × State} {a : α} {t : State} (e : p = (a, t)) (h : p.2.memOk) : t.memOk := by
  subst e
  exact h

/-- Sequencing keeps the form when each part does; a part that waits or fails ends the sequence in its own state. -/
theorem MemRes.memOk_bind {α β : Type} {x : MemRes α} {f : α → State → MemRes β} (hx : x.memOk)
    (hf : ∀ v t, t.memOk → (f v t).memOk) : (x.bind f).memOk := by
  cases x with
  | ok v t => exact hf v t hx
  | wait t => exact hx
  | fail y t => exact hx

theorem XRes.memOk_bind {α β : Type} {x : XRes α} {f : α → State → XRes β} (hx : x.memOk)
    (hf : ∀ v t, t.memOk → (f v t).memOk) : (x.bind f).memOk := by
  cases x with
  | ok v t => exact hf v t hx
  | miss k t => exact hx
  | wait t => exact hx
  | fail y t => exact hx

theorem XRes.memOk_lift {α : Type} {x : MemRes α} (hx : x.memOk) : (XRes.lift x).memOk := by
  cases x <;> exact hx

theorem MemRes.memOk_atG {α : Type} {off : Nat} {write : Bool} {x : MemRes α} (hx : x.memOk) : (x.atG off write).memOk := by
  cases x <;> exact hx

theorem memOk_foldl {α : Type} {f : State → α → State} {l : List α} {s : State}
    (hf : ∀ t a, t.memOk → (f t a).memOk) (h : s.memOk) : (l.foldl f s).memOk := by
  induction l generalizing s with
  | nil => exact h
  | cons a l ih => exact ih (hf s a h)

theorem someOk_bind {o : Option State} {f : State → Option State} (ho : someOk o) (hf : ∀ t, t.memOk → someOk (f t)) :
    someOk (o.bind f) := by
  cases o with
  | none => trivial
  | some t => exact hf t ho

theorem someOk_map {o : Option State} {f : State → State} (ho : someOk o) (hf : ∀ t, t.memOk → (f t).memOk) : someOk (o.map f) := by
  cases o with
  | none => trivial
  | some t => exact hf t ho

theorem VMem.wf_lay (l : List (Nat × Byte)) : ∀ {m : VMem}, m.wf = true → (VMem.lay l m).wf = true := by
  induction l with
  | nil => intro m h; exact h
  | cons p l ih => intro m h; exact ih (m := ⟨Assoc.set 0 p.1 p.2 m.cur, m.past⟩) (Assoc.wf_set h)

theorem VMem.wf_foldl_wipe {α : Type} {f g : α → Nat} (l : List α) :
    ∀ {m : VMem}, m.wf = true → (l.foldl (fun m d => VMem.wipe (f d) (g d) m) m).wf = true := by
  induction l with
  | nil => intro m h; exact h
  | cons d t ih => intro m h; exact ih (VMem.wf_wipe h)

/-! ### Raising, delivering and completing -/

theorem State.memOk_setRegion {r R} {s : State} (h : s.memOk) : (State.setRegion r R s).memOk := h

theorem State.memOk_modRegion {r} {f : Region → Region} {s : State} (h : s.memOk) : (State.modRegion r f s).memOk := h

theorem State.memOk_modCore {r u} {f : Core → Core} {s : State} (h : s.memOk) : (State.modCore r u f s).memOk := h

theorem State.memOk_modSlot {r u k} {f : Slot → Slot} {s : State} (h : s.memOk) : (State.modSlot r u k f s).memOk := h

theorem State.memOk_modHereR {f : Region → Region} {s : State} (h : s.memOk) : (State.modHereR f s).memOk := h

theorem State.memOk_modHereC {f : Core → Core} {s : State} (h : s.memOk) : (State.modHereC f s).memOk := h

theorem State.memOk_modHere {f : Slot → Slot} {s : State} (h : s.memOk) : (State.modHere f s).memOk := h

theorem State.memOk_modCtx {asid} {f : Context → Context} {s : State} (h : s.memOk) : (State.modCtx asid f s).memOk :=
  State.memOk_of_eq h (State.modCtx_smem ..) (State.modCtx_lmem ..) (State.modCtx_tmem ..) (State.modCtx_hostMem ..)

theorem memOk_retire {f : Slot → Slot} {s : State} (h : s.memOk) : (retire f s).memOk := h

theorem memOk_park {w} {s : State} (h : s.memOk) : (park w s).memOk := h

theorem memOk_parkAt {w p} {s : State} (h : s.memOk) : (parkAt w p s).memOk := h

theorem memOk_refresh {r u} {s : State} (h : s.memOk) : (refresh r u s).memOk := h

theorem memOk_raise {r x} {s : State} (h : s.memOk) : (raise r x s).memOk :=
  State.memOk_of_eq h (raise_smem ..) (raise_lmem ..) (raise_tmem ..) (raise_hostMem ..)

theorem memOk_readChkBy {r code unit lo hi} {f : Nat → Nat} {x} {k : State → State} {s : State} (hk : ∀ t, t.memOk → (k t).memOk)
    (h : s.memOk) :
    (readChkBy r code unit lo hi f x k s).memOk := by
  simp only [readChkBy]
  split
  · exact hk _ h
  split
  · exact memOk_raise h
  exact hk _ h

theorem memOk_readChk {r code unit lo hi address x} {k : State → State} {s : State} (hk : ∀ t, t.memOk → (k t).memOk) (h : s.memOk) :
    (readChk r code unit lo hi address x k s).memOk :=
  memOk_readChkBy hk h

theorem memOk_phaseChk {r u sp v n v'} {k : State → State} {s : State} (hk : ∀ t, t.memOk → (k t).memOk) (h : s.memOk) :
    (phaseChk r u sp v n v' k s).memOk := by
  induction n generalizing v v' k s with
  | zero =>
    exact hk _ h
  | succ m ih =>
    simp only [phaseChk]
    split
    · exact memOk_readChkBy (fun _ ht => ih hk ht) h
    exact ih hk h

theorem memOk_fail {cause address d1} {s : State} (h : s.memOk) : (fail cause address d1 s).memOk := memOk_raise h

theorem memOk_failSpace {address} {s : State} (h : s.memOk) : (failSpace address s).memOk := memOk_fail h

theorem memOk_failIllegal {d0} {s : State} (h : s.memOk) : (failIllegal d0 s).memOk := memOk_raise h

theorem memOk_deliver {r u} {s : State} (h : s.memOk) : (deliver r u s).memOk :=
  State.memOk_of_eq h (deliver_smem ..) (deliver_lmem ..) (deliver_tmem ..) (deliver_hostMem ..)

theorem memOk_takeTrap {r u k t resume word} {s : State} (h : s.memOk) : (takeTrap r u k t resume word s).memOk :=
  State.memOk_of_eq h (takeTrap_smem ..) (takeTrap_lmem ..) (takeTrap_tmem ..) (takeTrap_hostMem ..)

theorem memOk_launch {ds f} {s : State} (h : s.memOk) : (launch ds f s).memOk := h

theorem memOk_complete {r u p vs fl} {s : State} (h : s.memOk) : (complete r u p vs fl s).memOk := h

/-! ### The graph's charge -/

theorem State.memOk_modGraph {r} {f : Graph → Graph} {s : State} (h : s.memOk) : (State.modGraph r f s).memOk := h

theorem memOk_charge {r n} {s : State} (h : s.memOk) : (charge r n s).memOk := by
  unfold charge
  split
  · exact State.memOk_modCtx h
  exact h

/-! ### Sealed memory: metadata levels and held tiles -/

theorem memOk_unspoil {ptn} {s : State} (h : s.memOk) : (unspoil ptn s).memOk := h

theorem memOk_setParent {level m e} {s : State} (h : s.memOk) : (setParent level m e s).memOk := by
  simp only [setParent]
  split <;> exact h

theorem memOk_setMeta {ptn e} {s : State} (h : s.memOk) : (setMeta ptn e s).memOk := h

theorem memOk_metaWriteback {level m} {s : State} (h : s.memOk) : (metaWriteback level m s).memOk := by
  simp only [metaWriteback]
  split
  · exact h
  split
  · exact memOk_setParent h
  exact h

theorem memOk_metaFails {level m} {s : State} (h : s.memOk) : (metaFails level m s).memOk := memOk_metaWriteback h

theorem memOk_fetchLevel {level m} {s : State} (h : s.memOk) : (fetchLevel level m s).2.memOk := by
  simp only [fetchLevel]
  split
  · exact h
  split
  · exact h
  split
  · exact h
  exact memOk_metaFails h

theorem memOk_fetchMeta {ptn} {s : State} (h : s.memOk) : (fetchMeta ptn s).2.memOk :=
  memOk_fetchLevel (memOk_fetchLevel (memOk_fetchLevel h))

theorem memOk_evictMeta {level m} {s : State} (h : s.memOk) : (evictMeta level m s).memOk := by
  simp only [evictMeta]
  split
  · exact memOk_metaWriteback h
  exact h

theorem memOk_setHeld {ptn h} {s : State} (h1 : s.memOk) : (setHeld ptn h s).memOk := h1

theorem memOk_dropHeld {ptn} {s : State} (h : s.memOk) : (dropHeld ptn s).memOk := h

theorem memOk_freshMeta {ptn} {s : State} (h : s.memOk) : (freshMeta ptn s).memOk := memOk_unspoil (memOk_setMeta (memOk_fetchMeta h))

theorem memOk_clearTier {ptn} {s : State} (h : s.memOk) : (clearTier ptn s).memOk := h

theorem memOk_holdClean {ptn version} {s : State} (h : s.memOk) : (holdClean ptn version s).memOk := h

theorem memOk_decrypted {key ptn dev version} {s : State} (h : s.memOk) : (decrypted key ptn dev version s).memOk := by
  obtain ⟨hs, hl, ht, hh⟩ := h
  simp only [decrypted]
  split
  · exact ⟨hs, hl, VMem.wf_writes _ ht, hh⟩
  exact ⟨hs, hl, ht, hh⟩

theorem memOk_fillTile {key dev ptn} {s : State} (h : s.memOk) : (fillTile key dev ptn s).memOk := by
  simp only [fillTile]
  split
  · exact h
  split
  · exact h
  split
  · exact memOk_holdClean (memOk_decrypted h)
  exact h

theorem memOk_versionFails {key dev ptn} {s : State} (h : s.memOk) : (versionFails key dev ptn s).memOk := h

theorem memOk_poisonedAccess {dev ptn r write whole} {s : State} (h : s.memOk) : (poisonedAccess dev ptn r write whole s).memOk := by
  simp only [poisonedAccess]
  repeat' split
  all_goals exact h

theorem memOk_openTile {key dev r write whole} {s : State} (h : s.memOk) : (openTile key dev r write whole s).memOk := by
  simp only [openTile]
  split
  · exact h
  split
  · exact h
  split
  · exact h
  split
  · split
    · exact memOk_versionFails h
    exact h
  split
  · exact memOk_fetchMeta h
  split
  · exact memOk_versionFails (memOk_fetchMeta h)
  split
  · exact memOk_poisonedAccess (memOk_fetchMeta h)
  split
  · exact memOk_setHeld (memOk_fetchMeta h)
  exact memOk_fillTile (memOk_fetchMeta h)

theorem memOk_tileRead {key dev off n t r} {s : State} (h : s.memOk) : (tileRead key dev off n t r s).memOk := by
  simp only [tileRead]
  refine MemRes.memOk_bind (memOk_openTile h) (fun v t1 ht => ?_)
  repeat' split
  all_goals exact ht

theorem memOk_tileWrite {key dev l r} {s : State} (h : s.memOk) : (tileWrite key dev l r s).memOk :=
  MemRes.memOk_bind (memOk_openTile h) fun _ _ ⟨hs, hl, ht, hh⟩ => ⟨hs, hl, VMem.wf_writeEach _ ht, hh⟩

theorem memOk_store {key version ptn dev} {s : State} (h : s.memOk) : (store key version ptn dev s).memOk := h

theorem memOk_readHeld {ptn} {s : State} (h : s.memOk) : (readHeld ptn s).memOk := by
  simp only [readHeld]
  split <;> exact h

theorem memOk_writeback {ptn} {s0 : State} (h : s0.memOk) : (writeback ptn s0).memOk := by
  simp only [writeback]
  split
  · exact h
  split
  · split
    · exact memOk_readHeld h
    exact memOk_setHeld (memOk_store (memOk_readHeld h))
  exact h

theorem memOk_writebackAll {l} {s : State} (h : s.memOk) : (writebackAll l s).memOk := by
  unfold writebackAll
  exact memOk_foldl (fun _ _ ht => memOk_writeback ht) h

theorem memOk_writebackKey {key} {s : State} (h : s.memOk) : (writebackKey key s).memOk := memOk_writebackAll h

theorem memOk_dropRewrites {r} {s : State} (h : s.memOk) : (dropRewrites r s).memOk := by
  unfold dropRewrites
  exact memOk_foldl (fun _ _ ht => ht) h

theorem memOk_rekeyTile {key key'} {s0 : State} {q} (h : s0.memOk) : (rekeyTile key key' s0 q).memOk := by
  have hs := memOk_readHeld (ptn := q.2) (memOk_fetchMeta (ptn := q.2) h)
  simp only [rekeyTile]
  generalize readHeld q.2 (fetchMeta q.2 s0).2 = s at hs ⊢
  split
  · split
    · exact memOk_setMeta hs
    exact memOk_store hs
  split
  · exact memOk_setMeta hs
  split
  · exact memOk_setMeta hs
  exact memOk_store hs

/-! ### Translation: table walks and tensor names -/

theorem memOk_tableRead {r tile off n} {s : State} (h : s.memOk) : (tableRead r tile off n s).memOk := by
  unfold tableRead
  split
  · exact memOk_tileRead h
  exact h

theorem memOk_walk2 {r v l} {s : State} (h : s.memOk) : (walk2 r v l s).memOk := by
  induction l generalizing v s with
  | nil => exact h
  | cons a t ih =>
    simp only [walk2]
    refine XRes.memOk_bind (XRes.memOk_lift (memOk_tableRead h)) (fun v1 t1 ht => ?_)
    split
    · exact ht
    split
    · exact ht
    split
    · exact ht
    exact ih ht

theorem memOk_stage2 {c r mid} {s : State} (h : s.memOk) : (stage2 c r mid s).memOk := by
  simp only [stage2]
  split
  · exact h
  split
  · exact h
  exact XRes.memOk_bind (memOk_walk2 h) (fun _ _ ht => ht)

theorem memOk_readMid {c r mid off n} {s : State} (h : s.memOk) : (readMid c r mid off n s).memOk := by
  unfold readMid
  refine XRes.memOk_bind (memOk_stage2 h) (fun v t ht => ?_)
  split
  · exact ht
  split <;> next e1 => exact (MemRes.memOk_of_eq e1 (memOk_tileRead ht) :)

theorem memOk_tensorName {c r tid} {s : State} (h : s.memOk) : (tensorName c r tid s).memOk := by
  simp only [tensorName]
  split
  · exact h
  split
  · exact h
  exact XRes.memOk_bind (memOk_readMid h) (fun _ _ ht => ht)

theorem memOk_walkEntry {c r tid t tile i k} {s : State} (h : s.memOk) : (walkEntry c r tid t tile i k s).memOk := by
  simp only [walkEntry]
  split
  · exact h
  refine XRes.memOk_bind (memOk_readMid h) (fun v1 t1 ht => ?_)
  repeat' split
  all_goals exact ht

theorem memOk_walk1 {c r tid t v l} {s : State} (h : s.memOk) : (walk1 c r tid t v l s).memOk := by
  induction l generalizing v s with
  | nil => exact h
  | cons a t1 ih =>
    simp only [walk1]
    refine XRes.memOk_bind (memOk_walkEntry h) (fun v1 t2 ht => ?_)
    split
    · exact ht
    exact ih ht

theorem memOk_stage1 {c r tid tn t} {s : State} (h : s.memOk) : (stage1 c r tid tn t s).memOk := by
  simp only [stage1]
  split
  · exact h
  exact XRes.memOk_bind (memOk_walk1 h) (fun _ _ ht => ht)

theorem memOk_tensorTile {c r ws tid tn t write} {s : State} (h : s.memOk) : (tensorTile c r ws tid tn t write s).memOk := by
  simp only [tensorTile]
  refine XRes.memOk_bind ?_ (fun v t1 ht => ?_)
  · split
    · exact h
    exact memOk_stage1 h
  split
  · split
    · exact ht
    refine XRes.memOk_bind (memOk_stage2 ht) (fun v1 t2 ht1 => ?_)
    split <;> exact ht1
  split
  · exact ht
  refine XRes.memOk_bind (memOk_stage2 ht) (fun v1 t2 ht1 => ?_)
  split <;> exact ht1

/-! ### Accesses of G space -/

theorem memOk_gTile {c r off write} {s : State} (h : s.memOk) : (gTile c r off write s).memOk := by
  unfold gTile
  split
  · next e => split <;> split <;> exact (XRes.memOk_of_eq e (memOk_stage2 h))
  · next e => exact (XRes.memOk_of_eq e (memOk_stage2 h) :)
  · next e => exact (XRes.memOk_of_eq e (memOk_stage2 h) :)
  · next e => exact (XRes.memOk_of_eq e (memOk_stage2 h) :)

theorem memOk_gReadAt {c r off n t} {s : State} (h : s.memOk) : (gReadAt c r off n t s).memOk := by
  unfold gReadAt
  exact MemRes.memOk_bind (memOk_gTile h) (fun _ _ ht => MemRes.memOk_atG (memOk_tileRead ht))

theorem memOk_gRead {c r off n} {s : State} (h : s.memOk) : (gRead c r off n s).memOk := memOk_gReadAt h

theorem memOk_gWriteEach {c r off l} {s : State} (h : s.memOk) : (gWriteEach c r off l s).memOk := by
  unfold gWriteEach
  exact MemRes.memOk_bind (memOk_gTile h) (fun _ _ ht => MemRes.memOk_atG (memOk_tileWrite ht))

theorem memOk_gWrite {c r off bs} {s : State} (h : s.memOk) : (gWrite c r off bs s).memOk := memOk_gWriteEach h

theorem memOk_gWriteLines {c r v l} {s : State} (h : s.memOk) : (gWriteLines c r v l s).memOk := by
  induction l generalizing v s with
  | nil => exact h
  | cons a t ih =>
    exact MemRes.memOk_bind (memOk_gWrite h) (fun _ _ ht => ih ht)

theorem memOk_performWord {r u w} {s : State} (h : s.memOk) : (performWord r u w s).memOk := by
  simp only [performWord]
  split
  · obtain ⟨hs, rest⟩ := h
    exact ⟨VMem.wf_writeEach _ hs, rest⟩
  · obtain ⟨hs, hl, rest⟩ := h
    exact ⟨hs, VMem.wf_writeEach _ hl, rest⟩
  split
  · exact h
  split
  · exact h
  split
  · exact h
  exact MemRes.memOk_bind (memOk_gWriteEach h) (fun _ _ ht => ht)

theorem memOk_performWords {r u l} {s : State} (h : s.memOk) : (performWords r u l s).memOk := by
  induction l generalizing s with
  | nil => exact h
  | cons a t ih =>
    exact MemRes.memOk_bind (memOk_performWord h) (fun _ _ ht => ih ht)

theorem memOk_phaseRead {r u} {s : State} (h : s.memOk) : (phaseRead r u s).memOk := by
  simp only [phaseRead]
  split <;> exact h

theorem memOk_publish {r u} {s : State} (h : s.memOk) : (publish r u s).memOk := by
  unfold publish
  exact MemRes.memOk_bind (memOk_phaseRead h) (fun _ _ ht => MemRes.memOk_bind (memOk_performWords ht) (fun _ _ ht1 => ht1))

theorem memOk_writeThrough {r} {s : State} (h : s.memOk) : (writeThrough r s).memOk := by
  unfold writeThrough
  split
  · exact memOk_writebackKey h
  exact h

theorem memOk_publishThen {r u x scope} {k : State → State} {s : State} (hk : ∀ t, t.memOk → (k t).memOk) (h : s.memOk) :
    (publishThen r u x scope k s).memOk := by
  unfold publishThen
  split
  · next s1 e =>
      have h1 : s1.memOk := MemRes.memOk_of_eq e (memOk_publish h)
      refine hk _ ?_
      split
      · exact memOk_writeThrough h1
      exact h1
  · exact h
  · next e => exact memOk_raise (MemRes.memOk_of_eq e (memOk_publish h))

theorem memOk_fetch {s : State} (h : s.memOk) : (fetch s).2.memOk := by
  simp only [fetch]
  split
  · exact h
  split
  · split
    · exact h
    split
    · exact memOk_raise h
    split
    · exact memOk_phaseChk (fun _ ht => ht) h
    split
    · next e5 => exact MemRes.memOk_of_eq e5 (memOk_gRead (memOk_phaseChk (fun _ ht => ht) h))
    · exact h
    · next e5 => exact memOk_raise (MemRes.memOk_of_eq e5 (memOk_gRead (memOk_phaseChk (fun _ ht => ht) h)))
  split
  · exact memOk_failIllegal h
  split <;> exact memOk_readChk (fun _ ht => ht) h

/-! ### Operands and issue: the forms a word's meaning is written in -/

theorem memOk_emptyTrap {x} {s : State} (h : s.memOk) : (emptyTrap x s).memOk := memOk_takeTrap h

theorem nextOk_issue {g srcs dests} {body : State → State} {s : State} (hbody : ∀ t, t.memOk → (body t).memOk) (h : s.memOk) :
    nextOk (issue g srcs dests body s) :=
  nextOk_of_next fun t e => by
    obtain rfl | ⟨x, -, -, rfl⟩ | ⟨a, b, rfl⟩ | rfl := issue_cases e
    · exact memOk_retire h
    · exact memOk_emptyTrap h
    · exact memOk_park h
    · exact hbody s h

theorem nextOk_onCompute {k : State → Host.Outcome State Fault Refusal} {s : State} (hk : ∀ t, t.memOk → nextOk (k t)) (h : s.memOk) :
    nextOk (onCompute k s) := by
  unfold onCompute
  split
  · exact memOk_failIllegal h
  exact hk _ h

theorem nextOk_onControl {k : State → Host.Outcome State Fault Refusal} {s : State} (hk : ∀ t, t.memOk → nextOk (k t)) (h : s.memOk) :
    nextOk (onControl k s) := by
  unfold onControl
  split
  · exact hk _ h
  exact memOk_failIllegal h

theorem memOk_done {d v} {s : State} (h : s.memOk) : (done d v s).memOk := h

/-! ### Channels -/

theorem nextOk_execRecv {g d j} {s : State} (h : s.memOk) : nextOk (execRecv g d j s) := by
  simp only [execRecv]
  refine nextOk_issue (fun t ht => ?_) h
  split
  · exact memOk_failSpace ht
  split
  · exact ht
  refine memOk_done ?_
  split <;> exact ht

theorem nextOk_execPeek {g d j} {s : State} (h : s.memOk) : nextOk (execPeek g d j s) := by
  unfold execPeek
  refine nextOk_issue (fun t ht => ?_) h
  split
  · exact memOk_failSpace ht
  split <;> exact ht

theorem nextOk_execPeekQ {g p j} {s : State} (h : s.memOk) : nextOk (execPeekQ g p j s) := by
  unfold execPeekQ
  refine nextOk_issue (fun t ht => ?_) h
  split
  · exact memOk_failSpace ht
  exact ht

theorem nextOk_execSend {g a b} {s : State} (h : s.memOk) : nextOk (execSend g a b s) := by
  simp only [execSend]
  refine nextOk_issue (fun t ht => ?_) h
  split
  · exact memOk_fail ht
  split <;> exact ht

theorem memOk_beginPublish {sc} {w : Nat → Wait} {s : State} (h : s.memOk) : (beginPublish sc w s).memOk := by
  simp only [beginPublish]
  exact memOk_publishThen (fun _ ht => ht) h

theorem nextOk_execSendRel {g a b sc} {s : State} (h : s.memOk) : nextOk (execSendRel g a b sc s) := by
  simp only [execSendRel]
  refine nextOk_issue (fun t ht => ?_) h
  split
  · exact memOk_fail ht
  split
  · exact ht
  split
  · exact ht
  exact memOk_beginPublish ht

theorem nextOk_execChannelWordArrival {r k} {s : State} (h : s.memOk) : nextOk (execChannelWordArrival r k s) := by
  simp only [execChannelWordArrival]
  repeat' split
  all_goals exact h

theorem nextOk_execPublishComplete {r u k} {s : State} (h : s.memOk) : nextOk (execPublishComplete r u k s) := by
  simp only [execPublishComplete]
  split <;> exact h

/-! ### Local memory: the ordered words of a core -/

theorem nextOk_execLdl {g x base m} {s : State} (h : s.memOk) : nextOk (execLdl g x base m s) := by
  simp only [execLdl]
  refine nextOk_onCompute (fun t ht => nextOk_issue (fun t1 ht1 => ?_) ht) h
  split
  · exact memOk_failSpace ht1
  exact memOk_readChk (fun _ ht2 => ht2) ht1

theorem nextOk_execStl {g x base m} {s : State} (h : s.memOk) : nextOk (execStl g x base m s) := by
  simp only [execStl]
  refine nextOk_onCompute (fun t ht => nextOk_issue (fun t1 ht1 => ?_) ht) h
  split
  · exact memOk_failSpace ht1
  exact memOk_retire (State.memOk_modHereC (State.memOk_lWrite ht1))

theorem memOk_loadLater {sp a n} {k : LoadReq → State → State} {sx} {s : State} (hk : ∀ v t, t.memOk → (k v t).memOk) (h : s.memOk) :
    (loadLater sp a n k sx s).memOk := by
  unfold loadLater
  exact memOk_phaseChk (fun _ ht => hk _ _ ht) h

theorem nextOk_execLdr {g x base m} {s : State} (h : s.memOk) : nextOk (execLdr g x base m s) := by
  simp only [execLdr]
  refine nextOk_issue (fun t ht => ?_) h
  split
  · exact memOk_failSpace ht
  exact memOk_loadLater (fun _ _ ht1 => ht1) ht

theorem memOk_bufferStore {sp a n v} {s : State} (h : s.memOk) : (bufferStore sp a n v s).memOk := by
  simp only [bufferStore]
  split
  · exact h
  exact memOk_fail h

theorem nextOk_execStr {g x base m} {s : State} (h : s.memOk) : nextOk (execStr g x base m s) := by
  simp only [execStr]
  refine nextOk_issue (fun t ht => ?_) h
  split
  · exact memOk_failSpace ht
  exact memOk_bufferStore ht

theorem memOk_performR {r u p l} {s : State} (h : s.memOk) : (performR r u p l s).memOk := by
  simp only [performR]
  exact memOk_readChk (fun _ ht => ht) h

theorem memOk_performG {r u p l t} {s : State} (h : s.memOk) : (performG r u p l t s).memOk := by
  simp only [performG]
  split
  · exact h
  split
  · next e1 => exact MemRes.memOk_of_eq e1 (memOk_gReadAt h)
  · next e1 => exact MemRes.memOk_of_eq e1 (memOk_gReadAt h)
  · next e1 => exact memOk_raise (MemRes.memOk_of_eq e1 (memOk_gReadAt h))

theorem memOk_momentG {r u l} {s : State} (h : s.memOk) : (momentG r u l s).2.memOk := by
  simp only [momentG]
  split <;> exact h

theorem nextOk_execProducerCompletion {r u k} {s : State} (h : s.memOk) : nextOk (execProducerCompletion r u k s) := by
  simp only [execProducerCompletion]
  split
  · exact h
  split
  · exact h
  split
  · exact h
  · split
    · exact h
    split
    · exact memOk_performR h
    · exact memOk_performG (memOk_momentG h)
    exact h
  · split
    · exact memOk_performG h
    exact State.memOk_modCore (memOk_refresh (memOk_performG h))
  · exact h
  · exact h
  exact h

/-! ### Scratchpad accesses -/

theorem nextOk_execLds {g x base m} {s : State} (h : s.memOk) : nextOk (execLds g x base m s) := by
  simp only [execLds]
  refine nextOk_issue (fun t ht => ?_) h
  split
  · exact memOk_failSpace ht
  exact memOk_readChk (fun _ ht1 => memOk_phaseChk (fun _ ht2 => ht2) ht1) ht

theorem nextOk_execSts {g x base m} {s : State} (h : s.memOk) : nextOk (execSts g x base m s) := by
  simp only [execSts]
  refine nextOk_issue (fun t ht => ?_) h
  split
  · exact memOk_failSpace ht
  exact memOk_bufferStore ht

theorem memOk_segChk {i n} {k : State → State} {s : State} (hk : ∀ t, t.memOk → (k t).memOk) (h : s.memOk) : (segChk i n k s).memOk := by
  unfold segChk
  split
  · exact memOk_fail h
  exact hk _ h

theorem nextOk_execLdg {g x base m} {s : State} (h : s.memOk) : nextOk (execLdg g x base m s) := by
  simp only [execLdg]
  exact nextOk_onControl (fun _ ht => nextOk_issue (fun _ ht1 => memOk_segChk (fun _ ht2 => memOk_loadLater
    (fun _ _ ht3 => ht3) ht2) ht1) ht) h

theorem nextOk_orderedLoad {sc g x base m} {s : State} (h : s.memOk) : nextOk (orderedLoad sc g x base m s) := by
  simp only [orderedLoad]
  refine nextOk_issue (fun t ht => ?_) h
  split
  · exact ht
  exact memOk_segChk (fun _ ht1 => memOk_loadLater (fun _ _ ht2 => ht2) ht1) ht

theorem nextOk_execStg {g x base m} {s : State} (h : s.memOk) : nextOk (execStg g x base m s) := by
  simp only [execStg]
  exact nextOk_onControl (fun _ ht => nextOk_issue (fun _ ht1 => memOk_segChk (fun _ ht2 => memOk_bufferStore ht2) ht1) ht) h

theorem memOk_directStore {a n v} {s : State} (h : s.memOk) : (directStore a n v s).memOk := by
  simp only [directStore]
  split
  · exact h
  split
  · exact h
  split
  · exact h
  split
  · next e3 => exact MemRes.memOk_of_eq e3 (memOk_gWrite h)
  · exact h
  · next e3 => exact memOk_raise (MemRes.memOk_of_eq e3 (memOk_gWrite h))

theorem nextOk_orderedStore {g x base m} {s : State} (h : s.memOk) : nextOk (orderedStore g x base m s) := by
  simp only [orderedStore]
  refine nextOk_issue (fun t ht => memOk_segChk (fun t1 ht1 => ?_) ht) h
  split
  · exact memOk_directStore ht1
  exact memOk_beginPublish ht1

/-! ### Atomics and publishing -/

theorem memOk_sendAtomic {glob a b c op dest dbl} {s : State} (h : s.memOk) : (sendAtomic glob a b c op dest dbl s).memOk := by
  simp only [sendAtomic]
  split
  · exact memOk_park h
  refine memOk_retire (State.memOk_modHereR ?_)
  split
  · exact memOk_launch h
  exact State.memOk_modRegion h

theorem memOk_failAtomic {i dest} {s : State} (h : s.memOk) : (failAtomic i dest s).memOk := by
  unfold failAtomic
  repeat' split
  all_goals exact memOk_fail h

theorem nextOk_atomS {g a b c srcs op dest dbl} {s : State} (h : s.memOk) : nextOk (atomS g a b c srcs op dest dbl s) := by
  simp only [atomS]
  refine nextOk_issue (fun t ht => ?_) h
  split
  · exact memOk_failSpace ht
  split
  · exact memOk_failAtomic ht
  exact memOk_sendAtomic ht

theorem nextOk_atomG {g a b c srcs op dest dbl} {s : State} (h : s.memOk) : nextOk (atomG g a b c srcs op dest dbl s) := by
  simp only [atomG]
  refine nextOk_issue (fun t ht => memOk_segChk (fun t1 ht1 => ?_) ht) h
  split
  · exact memOk_failAtomic ht1
  exact memOk_sendAtomic ht1

theorem memOk_chargeAtom {r m} {s : State} (h : s.memOk) : (chargeAtom r m s).memOk := by
  simp only [chargeAtom]
  split
  · exact h
  exact State.memOk_modCtx h

theorem memOk_atomEnd {r a old} {s : State} (h : s.memOk) : (atomEnd r a old s).memOk := by
  simp only [atomEnd]
  split
  · exact memOk_complete (State.memOk_modRegion (memOk_chargeAtom h))
  exact State.memOk_modRegion (memOk_chargeAtom h)

theorem memOk_passOn {r a sp key} {s : State} (h : s.memOk) : (passOn r a sp key s).memOk := h

theorem memOk_atomPerformS {r a} {s : State} (h : s.memOk) : (atomPerformS r a s).memOk := by
  simp only [atomPerformS]
  exact memOk_readChk (fun _ ht => memOk_atomEnd (memOk_passOn (State.memOk_sWrite ht))) h

theorem memOk_atomPerformG {r a} {s : State} (h : s.memOk) : (atomPerformG r a s).memOk := by
  simp only [atomPerformG]
  split
  · exact h
  split
  · next s1 e1 =>
      have h1 : s1.memOk := MemRes.memOk_of_eq e1 (by
      refine MemRes.memOk_bind (memOk_gRead h) (fun v1 t ht => ?_)
      split
      · exact ht
      exact MemRes.memOk_bind (memOk_gWrite ht) (fun _ _ ht1 => ht1))
      exact memOk_atomEnd h1
  · exact h
  · next s1 e1 =>
      have h1 : s1.memOk := MemRes.memOk_of_eq e1 (by
      refine MemRes.memOk_bind (memOk_gRead h) (fun v2 t ht => ?_)
      split
      · exact ht
      exact MemRes.memOk_bind (memOk_gWrite ht) (fun _ _ ht1 => ht1))
      exact memOk_raise h1

theorem memOk_atomPerform {r a} {s : State} (h : s.memOk) : (atomPerform r a s).memOk := by
  unfold atomPerform
  refine memOk_readChk (fun t ht => ?_) h
  split
  · exact memOk_atomPerformG ht
  exact memOk_atomPerformS ht

theorem nextOk_execAtomicPerform {r k} {s : State} (h : s.memOk) : nextOk (execAtomicPerform r k s) := by
  simp only [execAtomicPerform]
  split
  · exact h
  split
  · exact h
  split
  · exact h
  exact memOk_atomPerform h

/-! ### Floating point words -/

theorem nextOk_fpArith {f : List XNum → XNum × Flg} {fm g d srcs} {s : State} (h : s.memOk) : nextOk (fpArith f fm g d srcs s) := by
  simp only [fpArith]
  exact nextOk_issue (fun _ ht => ht) h

theorem nextOk_fpLong {f : List XNum → XNum × Flg} {fm g d srcs} {s : State} (h : s.memOk) : nextOk (fpLong f fm g d srcs s) := by
  simp only [fpLong]
  exact nextOk_issue (fun _ ht => ht) h

theorem nextOk_fpMinMax {mx pr g d a b} {s : State} (h : s.memOk) : nextOk (fpMinMax mx pr g d a b s) := by
  simp only [fpMinMax]
  exact nextOk_issue (fun _ ht => ht) h

/-! ### Arcs -/

theorem memOk_fifosChk {r l} {k : State → State} {s : State} (hk : ∀ t, t.memOk → (k t).memOk) (h : s.memOk) :
    (fifosChk r l k s).memOk := by
  induction l generalizing k s with
  | nil => exact hk _ h
  | cons a t ih =>
    simp only [fifosChk]
    split
    · exact ih hk h
    exact memOk_readChkBy (fun _ ht => ih hk ht) h

/-! ### The pipe: invocations and headers -/

theorem memOk_blocksChk {r u x l} {k : State → State} {s : State} (hk : ∀ t, t.memOk → (k t).memOk) (h : s.memOk) :
    (blocksChk r u x l k s).memOk := by
  induction l generalizing k s with
  | nil => exact hk _ h
  | cons a t ih =>
    exact memOk_readChk (fun _ ht => ih hk ht) h

theorem memOk_readBlocks {r u lo l} {s : State} (h : s.memOk) : (readBlocks r u lo l s).2.memOk := by
  induction l generalizing s with
  | nil => exact h
  | cons a t ih =>
    exact ih h

theorem memOk_gather1 {r u t j st f o} {s : State} (h : s.memOk) : (gather1 r u t j st f o s).2.memOk := by
  simp only [gather1]
  split
  · exact h
  split
  · exact h
  split
  · exact memOk_readBlocks h
  exact h

theorem memOk_gather {r u t j st l} {s : State} (h : s.memOk) : (gather r u t j st l s).2.memOk := by
  induction l generalizing s with
  | nil => exact h
  | cons a t1 ih =>
    simp only [gather]
    split <;> exact ih (memOk_gather1 h)

theorem memOk_recordFiring {w} {f : FireIn → FireOut} {s : State} (h : s.memOk) : (recordFiring w f s).memOk := by
  simp only [recordFiring]
  split
  · exact h
  refine memOk_blocksChk (fun t ht => memOk_fifosChk (fun t1 ht1 => ?_) ht) h
  split
  · split
    · exact State.memOk_modRegion (State.memOk_modCore (memOk_gather ht1))
    exact State.memOk_modCore (memOk_gather ht1)
  exact State.memOk_modCore (memOk_gather ht1)

theorem nextOk_fireStage {op v} {f : FireIn → FireOut} {s : State} (h : s.memOk) : nextOk (fireStage op v f s) := by
  unfold fireStage
  split
  · exact memOk_recordFiring h
  exact h

/-! ### Stream transforms -/

theorem nextOk_xformWord {cmd f rnd sat g d a b c srcs} {s : State}
    (h : s.memOk) : nextOk (xformWord cmd f rnd sat g d a b c srcs s) := by
  simp only [xformWord]
  refine nextOk_issue (fun t ht => ?_) h
  cases t.here.prog with
  | fresh | published | arrived | released _ | accepted =>
    dsimp only
    split
    · exact memOk_failSpace ht
    exact ht
  | answered _ _ => exact ht

theorem memOk_xformPerform {r x} {s : State} (h : s.memOk) : (xformPerform r x s).memOk := by
  simp only [xformPerform]
  split
  · refine State.memOk_modSlot (State.memOk_modRegion ?_)
    split
    · exact h
    exact State.memOk_sWrite h
  refine memOk_readChk (fun t ht => State.memOk_modSlot (State.memOk_modRegion ?_)) h
  split
  · exact ht
  exact State.memOk_sWrite ht

theorem nextOk_execXformComplete {r u k} {s : State} (h : s.memOk) : nextOk (execXformComplete r u k s) := by
  simp only [execXformComplete]
  split
  · exact h
  split
  · exact h
  exact memOk_xformPerform h

/-! ### Commits of an invocation -/

theorem memOk_writeBlocks {r u v l} {s : State} (h : s.memOk) : (writeBlocks r u v l s).memOk := by
  induction l generalizing v s with
  | nil => exact h
  | cons a t ih =>
    exact ih (State.memOk_lWrite h)

theorem memOk_finishFiring {r u t j f outs fl} {s : State} (h : s.memOk) : (finishFiring r u t j f outs fl s).memOk := by
  simp only [finishFiring]
  split
  · exact h
  exact memOk_foldl (fun _ _ ht => memOk_writeBlocks ht) h

theorem memOk_commitWrite {r u t j st f L n} {s : State} (h : s.memOk) : (commitWrite r u t j st f L n s).memOk := by
  simp only [commitWrite]
  split
  · exact memOk_raise h
  exact memOk_finishFiring h

theorem memOk_commitRead {r u t j st f L n} {s : State} (h : s.memOk) : (commitRead r u t j st f L n s).memOk := by
  simp only [commitRead]
  split
  · exact memOk_finishFiring h
  exact h

theorem memOk_accChk {r u n p x} {k : State → State} {s : State} (hk : ∀ t, t.memOk → (k t).memOk) (h : s.memOk) :
    (accChk r u n p x k s).memOk :=
  memOk_readChk hk h

theorem nextOk_execNodeFiringCommit {r u t j} {s : State} (h : s.memOk) : nextOk (execNodeFiringCommit r u t j s) := by
  simp only [execNodeFiringCommit]
  split
  · exact h
  split
  · exact h
  split
  · exact h
  split
  · exact memOk_finishFiring h
  split
  · split
    · exact memOk_accChk (fun _ ht => memOk_commitWrite ht) h
    exact memOk_commitWrite h
  · exact memOk_accChk (fun _ ht => memOk_commitRead ht) h
  exact memOk_finishFiring h

theorem memOk_eoiStage {r u t j} {s : State} (h : s.memOk) : (eoiStage r u t j s).memOk := by
  simp only [eoiStage]
  split
  · exact h
  split
  · exact h
  split
  · split
    · refine memOk_fifosChk (fun t1 ht => ?_) h
      split
      · exact memOk_raise ht
      exact ht
    exact h
  split
  · refine memOk_fifosChk (fun t1 ht => ?_) h
    split
    · exact memOk_raise ht
    exact ht
  exact h

theorem memOk_nodeChk {r u j} {k : State → State} {s : State} (hk : ∀ t, t.memOk → (k t).memOk)
    (h : s.memOk) : (nodeChk r u j k s).memOk :=
  memOk_readChk hk h

theorem memOk_eoiNode {r u j} {s : State} (h : s.memOk) : (eoiNode r u j s).memOk := by
  simp only [eoiNode]
  split
  · exact h
  split
  · exact memOk_nodeChk (fun _ ht => memOk_fifosChk (fun _ ht1 => ht1) ht) h
  exact h

theorem memOk_nodeMove {r u j i o} {s : State} (h : s.memOk) : (nodeMove r u j i o s).memOk := by
  simp only [nodeMove]
  split
  · exact h
  split
  · exact memOk_nodeChk (fun _ ht => memOk_fifosChk (fun _ ht1 => ht1) ht) h
  exact h

theorem memOk_badSelect {r u j q} {s : State} (h : s.memOk) : (badSelect r u j q s).memOk := by
  unfold badSelect
  exact memOk_nodeChk (fun _ ht => memOk_fifosChk (fun _ ht1 => memOk_raise ht1) ht) h

theorem nextOk_execSteerNodeFiring {r u j} {s : State} (h : s.memOk) : nextOk (execSteerNodeFiring r u j s) := by
  simp only [execSteerNodeFiring]
  split
  · exact h
  split
  · exact h
  split
  · split
    · exact h
    exact memOk_badSelect h
  exact memOk_nodeMove h

theorem nextOk_execMergeNodeFiring {r u j} {s : State} (h : s.memOk) : nextOk (execMergeNodeFiring r u j s) := by
  simp only [execMergeNodeFiring]
  split
  · exact h
  split
  · exact h
  split
  · exact memOk_badSelect h
  exact memOk_nodeMove h

/-! ### Chains -/

theorem nextOk_execChain {g d a b t eoi} {s : State} (h : s.memOk) : nextOk (execChain g d a b t eoi s) := by
  simp only [execChain]
  refine nextOk_onCompute (fun t1 ht => nextOk_issue (fun t2 ht1 => ?_) ht) h
  split
  · exact memOk_failSpace ht1
  split
  · exact memOk_failSpace ht1
  refine memOk_readChk (fun t3 ht2 => ?_) ht1
  split
  · exact memOk_failSpace ht2
  split <;> exact ht2

theorem nextOk_execCwait {g d a} {s : State} (h : s.memOk) : nextOk (execCwait g d a s) := by
  simp only [execCwait]
  refine nextOk_onCompute (fun t ht => nextOk_issue (fun t1 ht1 => ?_) ht) h
  split
  · exact memOk_failSpace ht1
  repeat' split
  all_goals exact ht1

theorem nextOk_execCwaitFlags {g d t} {s : State} (h : s.memOk) : nextOk (execCwaitFlags g d t s) := by
  unfold execCwaitFlags
  refine nextOk_onCompute (fun t1 ht => nextOk_issue (fun t2 ht1 => ?_) ht) h
  split <;> exact ht1

theorem nextOk_execChainStart {r u k} {s : State} (h : s.memOk) : nextOk (execChainStart r u k s) := by
  simp only [execChainStart]
  repeat' split
  all_goals exact h

theorem memOk_sendKept {r u k q} {s : State} (h : s.memOk) : (sendKept r u k q s).memOk := by
  simp only [sendKept]
  split <;> exact h

theorem memOk_cutShort {r u k T q p n} {s : State} (h : s.memOk) : (cutShort r u k T q p n s).memOk := by
  simp only [cutShort]
  split
  · exact h
  refine memOk_fifosChk (fun t ht => ?_) h
  split
  · exact memOk_raise ht
  exact ht

theorem memOk_endChain {r u k T q} {s : State} (h : s.memOk) : (endChain r u k T q s).memOk := by
  simp only [endChain]
  split <;> exact h

theorem nextOk_execChainEnd {r u k} {s : State} (h : s.memOk) : nextOk (execChainEnd r u k s) := by
  simp only [execChainEnd]
  split
  · exact h
  split
  · exact h
  split
  · split
    · exact memOk_endChain h
    exact memOk_sendKept h
  split
  · exact h
  split
  · exact h
  exact memOk_cutShort h

/-! ### Records of the system level -/

theorem memOk_loadSWords {r u v n} {s : State} (h : s.memOk) : (loadSWords r u v n s).2.memOk := by
  induction n generalizing v s with
  | zero =>
    exact h
  | succ m ih =>
    exact ih h

theorem memOk_withSRecord {a n} {k : Nat → State → State} {s : State} (hk : ∀ v t, t.memOk → (k v t).memOk) (h : s.memOk) :
    (withSRecord a n k s).memOk := by
  simp only [withSRecord]
  split
  · exact memOk_failSpace h
  exact memOk_readChk (fun _ ht => memOk_phaseChk (fun _ ht1 => hk _ _ (memOk_loadSWords ht1)) ht) h

theorem memOk_loadGWord {c r u a} {s : State} (h : s.memOk) : (loadGWord c r u a s).memOk := by
  simp only [loadGWord]
  exact MemRes.memOk_bind (memOk_gReadAt h) (fun _ _ ht => ht)

theorem memOk_loadGWords {c r u v n} {s : State} (h : s.memOk) : (loadGWords c r u v n s).memOk := by
  induction n generalizing v s with
  | zero =>
    exact h
  | succ m ih =>
    exact MemRes.memOk_bind (memOk_loadGWord h) (fun _ _ ht => MemRes.memOk_bind (ih ht) (fun _ _ ht1 => ht1))

theorem memOk_slotAccess {α : Type} {k : α → State → State} {s : State} {res : MemRes α} (hk : ∀ v t, t.memOk → (k v t).memOk)
    (h : s.memOk) (hres : res.memOk) :
    (slotAccess k s res).memOk := by
  simp only [slotAccess]
  split
  · exact hk _ _ hres
  · exact h
  exact memOk_raise hres

theorem memOk_withGRecord {a n} {k : Nat → State → State} {s : State} (hk : ∀ v t, t.memOk → (k v t).memOk) (h : s.memOk) :
    (withGRecord a n k s).memOk := by
  unfold withGRecord
  split
  · exact hk _ _ h
  exact memOk_phaseChk (fun _ ht => memOk_slotAccess (fun _ _ ht1 => hk _ _ ht1) ht (memOk_loadGWords ht)) h

/-! ### Digests -/

theorem memOk_digestStream {r key} {f : Word → Word} {s : State} (h : s.memOk) : (digestStream r key f s).memOk := by
  simp only [digestStream]
  split
  · exact h
  split
  · exact memOk_raise h
  exact h

/-! ### Tensor places -/

theorem memOk_tensorFor {c r tid} {s : State} (h : s.memOk) : (tensorFor c r tid s).memOk := by
  unfold tensorFor
  refine XRes.memOk_bind (memOk_tensorName h) (fun v t ht => ?_)
  split <;> exact ht

theorem memOk_tensorRead {c r ws tid tn t ps} {s : State} (h : s.memOk) : (tensorRead c r ws tid tn t ps s).memOk := by
  simp only [tensorRead]
  exact XRes.memOk_bind (memOk_tensorTile h) (fun _ _ ht => XRes.memOk_bind (XRes.memOk_lift (memOk_tileRead ht)) (fun _ _ ht1 => ht1))

theorem memOk_tensorDigest {r tid tile l} {s : State} (h : s.memOk) : (tensorDigest r tid tile l s).memOk := by
  simp only [tensorDigest]
  split
  · exact h
  split
  · exact memOk_digestStream h
  exact h

theorem memOk_tensorWrite {c r ws tid tn t l} {s : State} (h : s.memOk) : (tensorWrite c r ws tid tn t l s).memOk := by
  simp only [tensorWrite]
  refine XRes.memOk_bind (memOk_tensorTile h) (fun v t1 ht => ?_)
  split
  · exact memOk_tensorDigest ht
  exact XRes.memOk_lift (memOk_tileWrite (memOk_tensorDigest ht))

theorem State.memOk_setFunc {f F} {s : State} (h : s.memOk) : (State.setFunc f F s).memOk := h

theorem memOk_msix {f v} {s : State} (h : s.memOk) : (msix f v s).memOk := h

theorem memOk_postFault {c r write stage tid tile copy port} {s : State} (h : s.memOk) :
    (postFault c r write stage tid tile copy port s).memOk := by
  unfold postFault
  extract_lets f F tag e s1
  have h1 : s1.memOk := State.memOk_hostWrite h
  clear_value s1
  split
  · trivial
  split
  · trivial
  exact memOk_msix (State.memOk_setFunc h1)

theorem memOk_portFull {r port b} {s : State} (h : s.memOk) : (portFull r port b s).memOk := by
  unfold portFull
  repeat' split
  all_goals exact h

theorem memOk_serve {α : Type} {c r x tid tile write copy port} {hold : Nat → State → State} {k : α → State → State} {res : XRes α}
    {s : State} (hhold : ∀ v t, t.memOk → (hold v t).memOk) (hk : ∀ v t, t.memOk → (k v t).memOk) (hres : res.memOk) (h : s.memOk) :
    (serve c r x tid tile write copy port hold k res s).memOk := by
  simp only [serve]
  split
  · split
    · exact hres
    exact hk _ _ (memOk_portFull hres)
  · exact h
  · split
    · next e => exact hhold _ _ (memOk_portFull (Posted.memOk_of_eq e (memOk_postFault hres)))
    · exact memOk_portFull h
    exact memOk_raise hres
  exact memOk_raise hres

/-! ### Streams -/

theorem nextOk_execSbind {g d a b eoi port ag pat} {s : State} (h : s.memOk) : nextOk (execSbind g d a b eoi port ag pat s) := by
  simp only [execSbind]
  refine nextOk_issue (fun t ht => ?_) h
  split
  · exact memOk_failSpace ht
  split <;> exact ht

theorem nextOk_execSclose {g d port ag} {s : State} (h : s.memOk) : nextOk (execSclose g d port ag s) := by
  simp only [execSclose]
  refine nextOk_issue (fun t ht => ?_) h
  split
  · exact memOk_failSpace ht
  split <;> exact ht

theorem nextOk_execScloseAbort {g d port ag} {s : State} (h : s.memOk) : nextOk (execScloseAbort g d port ag s) := by
  simp only [execScloseAbort]
  refine nextOk_issue (fun t ht => ?_) h
  split
  · exact memOk_failSpace ht
  exact ht

theorem memOk_placeBarrier {m} {k : Nat → State → State} {s : State} (hk : ∀ v t, t.memOk → (k v t).memOk) (h : s.memOk) :
    (placeBarrier m k s).memOk := by
  simp only [placeBarrier]
  split
  · exact memOk_failSpace h
  split
  · exact h
  exact hk _ _ h

theorem nextOk_execSbar {g mask} {s : State} (h : s.memOk) : nextOk (execSbar g mask s) := by
  unfold execSbar
  exact nextOk_issue (fun _ ht => memOk_placeBarrier (fun _ _ ht1 => ht1) ht) h

theorem nextOk_execSbarWait {g mask} {s : State} (h : s.memOk) : nextOk (execSbarWait g mask s) := by
  unfold execSbarWait
  refine nextOk_issue (fun t ht => ?_) h
  split
  · exact ht
  exact memOk_placeBarrier (fun _ _ ht1 => ht1) ht

theorem memOk_piecesChk {r cl x l} {k : State → State} {s : State} (hk : ∀ t, t.memOk → (k t).memOk) (h : s.memOk) :
    (piecesChk r cl x l k s).memOk := by
  induction l generalizing k s with
  | nil => exact hk _ h
  | cons a t ih =>
    exact memOk_readChk (fun _ ht => ih hk ht) h

theorem State.memOk_sWriteEach {r cl l ps} {s : State} (h : s.memOk) : (State.sWriteEach r cl l ps s).memOk :=
  let ⟨hs, rest⟩ := h
  ⟨VMem.wf_writeEach _ hs, rest⟩

theorem memOk_readTensorBeat {r u p x f tid j} {k : Line → State → State} {s : State} (hk : ∀ v t, t.memOk → (k v t).memOk)
    (h : s.memOk) :
    (readTensorBeat r u p x f tid j k s).memOk := by
  simp only [readTensorBeat]
  split
  · exact h
  refine memOk_serve (fun _ _ ht => ht) (fun v1 t ht => ?_) (memOk_tensorFor h) h
  split
  · exact memOk_raise ht
  split
  · exact hk _ _ ht
  exact memOk_serve (fun _ _ ht1 => ht1) (fun _ _ ht1 => hk _ _ ht1) (memOk_tensorRead ht) ht

theorem memOk_writeTensorBeat {r u p x f tid j l} {k : State → State} {s : State} (hk : ∀ t, t.memOk → (k t).memOk) (h : s.memOk) :
    (writeTensorBeat r u p x f tid j l k s).memOk := by
  simp only [writeTensorBeat]
  split
  · exact h
  refine memOk_serve (fun _ _ ht => ht) (fun v1 t ht => ?_) (memOk_tensorFor h) h
  split
  · exact memOk_raise ht
  split
  · exact hk _ ht
  split
  · exact h
  exact memOk_serve (fun _ _ ht1 => ht1) (fun _ _ ht1 => hk _ ht1) (memOk_tensorWrite ht) ht

theorem memOk_queuesChk {r l} {k : State → State} {s : State} (hk : ∀ t, t.memOk → (k t).memOk) (h : s.memOk) :
    (queuesChk r l k s).memOk := by
  induction l generalizing k s with
  | nil => exact hk _ h
  | cons a t ih =>
    exact memOk_readChk (fun _ ht => ih hk ht) h

theorem nextOk_execStreamReadBeat {r u p} {s : State} (h : s.memOk) : nextOk (execStreamReadBeat r u p s) := by
  simp only [execStreamReadBeat]
  split
  · exact h
  split
  · split <;> exact h
  split
  · exact h
  split
  · exact h
  refine memOk_readChk (fun t ht => ?_) h
  split
  · exact memOk_raise ht
  · exact memOk_piecesChk (fun _ ht1 => ht1) ht
  exact memOk_readTensorBeat (fun _ _ ht1 => ht1) ht

theorem memOk_popWritten {r u p} {f : Port → Port} {s : State} (h : s.memOk) : (popWritten r u p f s).memOk := h

theorem memOk_writeBeat {r u p c b} {s : State} (h : s.memOk) : (writeBeat r u p c b s).memOk := by
  simp only [writeBeat]
  refine memOk_readChk (fun t ht => memOk_fifosChk (fun t1 ht1 => ?_) ht) h
  split
  · exact memOk_raise ht1
  · exact memOk_popWritten (State.memOk_sWriteEach ht1)
  exact memOk_writeTensorBeat (fun _ ht2 => ht2) ht1

theorem nextOk_execStreamWriteBeat {r u p} {s : State} (h : s.memOk) : nextOk (execStreamWriteBeat r u p s) := by
  simp only [execStreamWriteBeat]
  split
  · exact h
  split
  · exact h
  split
  · exact h
  split
  · exact memOk_fifosChk (fun _ ht => ht) h
  split
  · exact h
  split
  · exact h
  split
  · split
    · exact memOk_queuesChk (fun _ ht => memOk_fifosChk (fun _ ht1 => ht1) ht) h
    split
    · exact memOk_queuesChk (fun _ ht => memOk_fifosChk (fun _ ht1 => ht1) ht) h
    exact h
  split
  · exact memOk_writeBeat h
  exact h

theorem nextOk_execStreamCommandComplete {r u p} {s : State} (h : s.memOk) : nextOk (execStreamCommandComplete r u p s) := by
  simp only [execStreamCommandComplete]
  repeat' split
  all_goals exact h

theorem nextOk_execPortCloseReached {r u p} {s : State} (h : s.memOk) : nextOk (execPortCloseReached r u p s) := by
  simp only [execPortCloseReached]
  split
  · exact h
  split
  · split
    · exact h
    exact memOk_queuesChk (fun _ ht => ht) h
  exact h

theorem nextOk_execStreamBarrierPass {r cl id} {s : State} (h : s.memOk) : nextOk (execStreamBarrierPass r cl id s) := by
  simp only [execStreamBarrierPass]
  split
  · exact h
  exact memOk_queuesChk (fun _ ht => ht) h

/-! ### Coating -/

theorem memOk_withBuffer {d b} {k : Bool → State → State} {s : State} (hk : ∀ v t, t.memOk → (k v t).memOk) (h : s.memOk) :
    (withBuffer d b k s).memOk := by
  simp only [withBuffer]
  split
  · exact hk _ _ h
  split
  · next e1 => exact hk _ _ (XRes.memOk_of_eq e1 (memOk_tensorName h))
  · next e2 => exact hk _ _ (XRes.memOk_of_eq e2 (memOk_tensorName h))
  · exact h
  · next e1 => exact memOk_raise (XRes.memOk_of_eq e1 (memOk_tensorName h))
  · next e1 => exact memOk_raise (XRes.memOk_of_eq e1 (memOk_tensorName h))

theorem memOk_withBuffers {d} {k : Bool → State → State} {s : State} (hk : ∀ v t, t.memOk → (k v t).memOk) (h : s.memOk) :
    (withBuffers d k s).memOk := by
  unfold withBuffers
  split
  · refine memOk_withBuffer (fun v t ht => ?_) h
    split
    · exact memOk_withBuffer hk ht
    exact hk _ _ ht
  exact hk _ _ h

theorem nextOk_execCrun {g d a ch} {s : State} (h : s.memOk) : nextOk (execCrun g d a ch s) := by
  simp only [execCrun]
  refine nextOk_issue (fun t ht => ?_) h
  split
  · exact memOk_failSpace ht
  split
  · exact memOk_failSpace ht
  refine memOk_withSRecord (fun v1 t1 ht1 => ?_) ht
  split
  · exact memOk_failSpace ht1
  refine memOk_withBuffers (fun v2 t2 ht2 => ?_) ht1
  split
  · exact memOk_failSpace ht2
  exact ht2

theorem nextOk_execCrunWait {g d ch} {s : State} (h : s.memOk) : nextOk (execCrunWait g d ch s) := by
  unfold execCrunWait
  refine nextOk_issue (fun t ht => ?_) h
  split
  · exact memOk_failSpace ht
  split <;> exact ht

theorem nextOk_execCedge {g d a b ch} {s : State} (h : s.memOk) : nextOk (execCedge g d a b ch s) := by
  simp only [execCedge]
  refine nextOk_issue (fun t ht => ?_) h
  split
  · exact memOk_failSpace ht
  split
  · exact memOk_failSpace ht
  refine memOk_withSRecord (fun v1 t1 ht1 => ?_) ht
  repeat' split
  all_goals exact ht1

theorem memOk_coatForward {r ch k c o} {s : State} (h : s.memOk) : (coatForward r ch k c o s).memOk := by
  simp only [coatForward]
  split
  · exact h
  split
  · exact h
  split
  · split
    · exact h
    exact memOk_fifosChk (fun _ ht => ht) h
  split
  · exact h
  exact memOk_fifosChk (fun _ ht => ht) h

theorem memOk_coatTake {r ch k C K c} {s : State} (h : s.memOk) : (coatTake r ch k C K c s).memOk := by
  simp only [coatTake]
  split
  · exact h
  split
  · exact h
  refine memOk_fifosChk (fun t ht => ?_) h
  split
  · exact memOk_raise ht
  exact ht

theorem nextOk_execCoatFiring {r ch k} {s : State} (h : s.memOk) : nextOk (execCoatFiring r ch k s) := by
  simp only [execCoatFiring]
  split
  · split
    · exact h
    split
    · exact memOk_coatForward h
    split
    · exact memOk_readChk (fun _ ht => ht) h
    exact memOk_coatTake h
  exact h

theorem nextOk_execCoatDrain {r ch k} {s : State} (h : s.memOk) : nextOk (execCoatDrain r ch k s) := by
  simp only [execCoatDrain]
  split
  · exact h
  split
  · exact h
  refine memOk_fifosChk (fun t ht => ?_) h
  split
  · exact memOk_raise ht
  exact ht

theorem nextOk_execCoatPassStart {r ch} {s : State} (h : s.memOk) : nextOk (execCoatPassStart r ch s) := by
  simp only [execCoatPassStart]
  split <;> exact h

/-! ### The matrix unit -/

theorem nextOk_execMscale {g d a b} {s : State} (h : s.memOk) : nextOk (execMscale g d a b s) := by
  simp only [execMscale]
  refine nextOk_issue (fun t ht => ?_) h
  split
  · exact memOk_failSpace ht
  split <;> exact ht

theorem memOk_queueLoad {d slot off src len} {s : State} (h : s.memOk) : (queueLoad d slot off src len s).memOk := by
  simp only [queueLoad]
  split <;> exact h

theorem nextOk_execMwload {g d a b c} {s : State} (h : s.memOk) : nextOk (execMwload g d a b c s) := by
  simp only [execMwload]
  refine nextOk_issue (fun t ht => ?_) h
  split
  · exact memOk_failSpace ht
  refine memOk_readChk (fun t1 ht1 => ?_) ht
  split
  · exact memOk_failSpace ht1
  exact memOk_queueLoad ht1

theorem nextOk_execMwloadP {g d b c} {s : State} (h : s.memOk) : nextOk (execMwloadP g d b c s) := by
  simp only [execMwloadP]
  refine nextOk_issue (fun t ht => ?_) h
  split
  · exact memOk_failSpace ht
  exact memOk_queueLoad ht

theorem nextOk_execMarm {g d a sec} {s : State} (h : s.memOk) : nextOk (execMarm g d a sec s) := by
  simp only [execMarm]
  refine nextOk_issue (fun t ht => ?_) h
  split
  · exact memOk_failSpace ht
  split
  · exact memOk_failSpace ht
  split
  · exact ht
  split
  · exact memOk_failSpace ht
  exact ht

theorem nextOk_execMarmQ {g d sec} {s : State} (h : s.memOk) : nextOk (execMarmQ g d sec s) := by
  unfold execMarmQ
  refine nextOk_issue (fun t ht => ?_) h
  split
  · exact memOk_failSpace ht
  exact ht

theorem nextOk_execMarmWait {g d sec} {s : State} (h : s.memOk) : nextOk (execMarmWait g d sec s) := by
  unfold execMarmWait
  refine nextOk_issue (fun t ht => ?_) h
  split
  · exact memOk_failSpace ht
  split <;> exact ht

theorem nextOk_execMarmFlags {g d sec} {s : State} (h : s.memOk) : nextOk (execMarmFlags g d sec s) := by
  unfold execMarmFlags
  refine nextOk_issue (fun t ht => ?_) h
  split
  · exact memOk_failSpace ht
  exact ht

theorem nextOk_execGarm {g d a b sec} {s : State} (h : s.memOk) : nextOk (execGarm g d a b sec s) := by
  simp only [execGarm]
  refine nextOk_issue (fun t ht => ?_) h
  split
  · exact memOk_failSpace ht
  split
  · exact memOk_failSpace ht
  exact ht

theorem nextOk_execGarmQ {g d a sec} {s : State} (h : s.memOk) : nextOk (execGarmQ g d a sec s) := by
  unfold execGarmQ
  refine nextOk_issue (fun t ht => ?_) h
  split
  · exact memOk_failSpace ht
  exact ht

theorem nextOk_execPanelLoadStart {r u} {s : State} (h : s.memOk) : nextOk (execPanelLoadStart r u s) := by
  simp only [execPanelLoadStart]
  split
  · exact h
  split
  · exact h
  split
  · split
    · exact memOk_raise h
    exact h
  split
  · exact h
  split
  · exact h
  refine memOk_fifosChk (fun t ht => ?_) h
  split
  · exact memOk_raise ht
  exact ht

theorem nextOk_execPanelUnitArrival {r u} {s : State} (h : s.memOk) : nextOk (execPanelUnitArrival r u s) := by
  simp only [execPanelUnitArrival]
  split
  · exact h
  split
  · exact h
  split
  · exact memOk_piecesChk (fun _ ht => ht) h
  split
  · exact h
  split
  · exact memOk_fifosChk (fun _ ht => memOk_raise ht) h
  split
  · exact h
  exact memOk_fifosChk (fun _ ht => ht) h

theorem nextOk_execPanelLoadEnd {r u} {s : State} (h : s.memOk) : nextOk (execPanelLoadEnd r u s) := by
  simp only [execPanelLoadEnd]
  split
  · exact h
  split
  · exact h
  split
  · exact memOk_raise h
  exact h

theorem nextOk_execInput4EoiDrop {r u} {s : State} (h : s.memOk) : nextOk (execInput4EoiDrop r u s) := by
  simp only [execInput4EoiDrop]
  split
  · exact h
  exact memOk_fifosChk (fun _ ht => ht) h

theorem nextOk_execGarmCheck {r u sec} {s : State} (h : s.memOk) : nextOk (execGarmCheck r u sec s) := by
  simp only [execGarmCheck]
  split
  · exact h
  split
  · exact h
  split
  · exact memOk_raise h
  exact h

theorem memOk_panelsChk {r u x l} {k : State → State} {s : State} (hk : ∀ t, t.memOk → (k t).memOk) (h : s.memOk) :
    (panelsChk r u x l k s).memOk := by
  induction l generalizing k s with
  | nil => exact hk _ h
  | cons a t ih =>
    exact memOk_readChkBy (fun _ ht => ih hk ht) h

theorem memOk_slotsChk {r u x l} {k : State → State} {s : State} (hk : ∀ t, t.memOk → (k t).memOk) (h : s.memOk) :
    (slotsChk r u x l k s).memOk := by
  induction l generalizing k s with
  | nil => exact hk _ h
  | cons a t ih =>
    exact memOk_readChkBy (fun _ ht => ih hk ht) h

theorem nextOk_execMxFiring {r u sec} {s : State} (h : s.memOk) : nextOk (execMxFiring r u sec s) := by
  simp only [execMxFiring]
  split
  · split
    · exact h
    split
    · exact h
    · exact memOk_fifosChk (fun _ ht => memOk_raise ht) h
    split
    · exact h
    exact memOk_slotsChk (fun _ ht => memOk_panelsChk (fun _ ht1 => memOk_readChkBy (fun _ ht2 => memOk_fifosChk
      (fun _ ht3 => ht3) ht2) ht1) ht) h
  exact h

theorem memOk_eoiSection {r u sec} {s : State} (h : s.memOk) : (eoiSection r u sec s).memOk := by
  simp only [eoiSection]
  split
  · exact h
  split
  · exact h
  split
  · exact memOk_fifosChk (fun _ ht => memOk_raise ht) h
  split
  · exact memOk_fifosChk (fun _ ht => ht) h
  exact h

theorem memOk_headerSection {r u sec} {s : State} (h : s.memOk) : (headerSection r u sec s).memOk := by
  simp only [headerSection]
  split
  · split
    · refine memOk_fifosChk (fun t ht => ?_) h
      split
      · exact ht
      exact memOk_raise ht
    exact h
  exact h

/-! ### Markers -/

theorem nextOk_execEoiHandling {r nd} {s : State} (h : s.memOk) : nextOk (execEoiHandling r nd s) := by
  simp only [execEoiHandling]
  split
  · exact h
  split
  · exact memOk_eoiStage h
  · exact memOk_eoiNode h
  · exact memOk_eoiSection h
  · exact h
  · exact h
  exact h

theorem memOk_takeHeader {r u p n x} {s : State} (h : s.memOk) : (takeHeader r u p n x s).memOk := by
  simp only [takeHeader]
  split
  · exact h
  split
  · exact h
  split
  · exact h
  refine memOk_fifosChk (fun t ht => ?_) h
  split
  · exact ht
  exact memOk_raise ht

theorem nextOk_execHeaderLatch {r nd p} {s : State} (h : s.memOk) : nextOk (execHeaderLatch r nd p s) := by
  simp only [execHeaderLatch]
  split
  · exact h
  split
  · split
    · split
      · exact memOk_takeHeader h
      exact h
    exact h
  · split
    · split
      · exact memOk_takeHeader h
      exact h
    exact h
  · exact memOk_headerSection h
  · split
    · split
      · exact memOk_takeHeader h
      exact h
    exact h
  · exact h
  exact h

/-! ### Barriers -/

theorem memOk_publishCores {r l} {s : State} (h : s.memOk) : (publishCores r l s).memOk := by
  induction l generalizing s with
  | nil => exact h
  | cons a t ih =>
    simp only [publishCores]
    split
    · next e => exact ih (MemRes.memOk_of_eq e (memOk_publish h))
    · next e => exact (MemRes.memOk_of_eq e (memOk_publish h) :)
    · next e => exact (MemRes.memOk_of_eq e (memOk_publish h) :)

theorem memOk_completeBar {r n sys b} {s : State} (h : s.memOk) : (completeBar r n sys b s).memOk := by
  simp only [completeBar]
  split
  · exact h
  · next e => exact memOk_raise (MemRes.memOk_of_eq e (memOk_publishCores h))
  · next s1 e =>
      have h1 : s1.memOk := MemRes.memOk_of_eq e (memOk_publishCores h)
      refine State.memOk_modRegion (memOk_foldl (fun _ _ ht => ht) (memOk_foldl (fun _ _ ht => ht) ?_))
      split
      · exact memOk_writeThrough h1
      exact h1

theorem memOk_arrive {n sys e} {s : State} (h : s.memOk) : (arrive n sys e s).memOk := by
  simp only [arrive]
  split
  · split
    · exact h
    exact memOk_completeBar h
  exact h

theorem nextOk_barrierWord {n : State → BarName} {sys g d a} {s : State} (h : s.memOk) : nextOk (barrierWord n sys g d a s) := by
  unfold barrierWord
  refine nextOk_issue (fun t ht => ?_) h
  cases t.here.prog with
  | arrived | released _ => exact ht
  | fresh | published | accepted | answered _ _ =>
    dsimp only
    split
    · exact memOk_failSpace ht
    split
    · exact memOk_failSpace ht
    split
    · exact ht
    exact memOk_arrive ht

/-! ### Decision diagrams -/

theorem memOk_sendDd {classA ds op fn a b c rcd} {s : State} (h : s.memOk) : (sendDd classA ds op fn a b c rcd s).memOk := by
  simp only [sendDd]
  split
  · exact memOk_retire h
  split
  · exact memOk_fail h
  split
  · exact memOk_parkAt (State.memOk_modHere (State.memOk_modHereR (memOk_launch h)))
  exact memOk_retire (State.memOk_modHere (State.memOk_modHereR (memOk_launch h)))

theorem nextOk_ddWord {classA g srcs ds op fn a b c} {s : State} (h : s.memOk) : nextOk (ddWord classA g srcs ds op fn a b c s) := by
  unfold ddWord
  exact nextOk_issue (fun _ ht => memOk_sendDd ht) h

theorem memOk_sendCfg {d fn a} {s : State} (h : s.memOk) : (sendCfg d fn a s).memOk := by
  simp only [sendCfg]
  split
  · exact memOk_failSpace h
  split
  · exact memOk_fail h
  exact memOk_withGRecord (fun _ _ ht => memOk_sendDd ht) h

theorem nextOk_execDdwcount {g d a b c} {s : State} (h : s.memOk) : nextOk (execDdwcount g d a b c s) := by
  unfold execDdwcount
  refine nextOk_issue (fun t ht => ?_) h
  split
  · exact memOk_failSpace ht
  exact memOk_sendDd ht

theorem memOk_sendEnum {d fn a b c} {s : State} (h : s.memOk) : (sendEnum d fn a b c s).memOk := by
  unfold sendEnum
  split
  · exact memOk_failSpace h
  exact memOk_sendDd h

theorem memOk_readWeights {c r off T l} {s : State} (h : s.memOk) : (readWeights c r off T l s).memOk := by
  induction l generalizing s with
  | nil => exact h
  | cons a t ih =>
    exact MemRes.memOk_bind (memOk_gRead h) (fun _ _ ht => MemRes.memOk_bind (ih ht) (fun _ _ ht1 => ht1))

theorem memOk_ddWeighted {c r a off n} {s : State} (h : s.memOk) : (ddWeighted c r a off n s).memOk := by
  simp only [ddWeighted]
  split
  · exact h
  split
  · exact h
  split
  · exact h
  split
  · exact h
  split
  · exact h
  exact MemRes.memOk_bind (memOk_readWeights h) (fun _ _ ht => ht)

theorem memOk_writeMid {c r mid bs} {s : State} (h : s.memOk) : (writeMid c r mid bs s).memOk := by
  unfold writeMid
  refine XRes.memOk_bind (memOk_stage2 h) (fun v t ht => ?_)
  split
  · exact ht
  exact XRes.memOk_lift (memOk_tileWrite ht)

theorem memOk_writeTiles {c r base} {f : Nat → List Byte} {l} {s : State} (h : s.memOk) : (writeTiles c r base f l s).memOk := by
  induction l generalizing s with
  | nil => exact h
  | cons a t ih =>
    exact XRes.memOk_bind (memOk_writeMid h) (fun _ _ ht => ih ht)

theorem memOk_ddWriteback {c r zero T} {s : State} (h : s.memOk) : (ddWriteback c r zero T s).memOk := by
  simp only [ddWriteback]
  refine XRes.memOk_bind (memOk_writeTiles h) (fun v t ht => XRes.memOk_bind (memOk_writeTiles ht) (fun v1 t1 ht1 => ?_))
  split <;> exact memOk_writeTiles ht1

theorem memOk_ddStore {c r op fn T} {s : State} (h : s.memOk) : (ddStore c r op fn T s).memOk := by
  simp only [ddStore]
  split
  · exact memOk_ddWriteback h
  exact h

theorem memOk_readMids {c r l} {s : State} (h : s.memOk) : (readMids c r l s).memOk := by
  induction l generalizing s with
  | nil => exact h
  | cons a t ih =>
    exact XRes.memOk_bind (memOk_readMid h) (fun _ _ ht => ih ht)

theorem memOk_ddFetch {c r} {s : State} (h : s.memOk) : (ddFetch c r s).memOk := by
  simp only [ddFetch]
  split
  · exact h
  exact memOk_readMids h

theorem memOk_endDd {r x vals fl} {s : State} (h : s.memOk) : (endDd r x vals fl s).memOk := by
  simp only [endDd]
  split <;> exact h

theorem memOk_trapFull {r x} {s : State} (h : s.memOk) : (trapFull r x s).memOk := by
  simp only [trapFull]
  refine memOk_takeTrap ?_
  split <;> exact h

theorem memOk_putTable {asid T} {s : State} (h : s.memOk) : (putTable asid T s).memOk := State.memOk_modCtx h

theorem memOk_leaveTable {r c T} {s : State} (h : s.memOk) : (leaveTable r c T s).memOk := State.memOk_modCtx h

theorem memOk_ddAccess {α : Type} {r x} {f : StopRec → StopRec} {k : α → State → State} {s : State} {res : XRes α}
    (hk : ∀ v t, t.memOk → (k v t).memOk) (h : s.memOk) (hres : res.memOk) :
    (ddAccess r x f k s res).memOk := by
  simp only [ddAccess]
  split
  · exact hk _ _ hres
  · exact h
  · exact memOk_raise hres
  exact memOk_raise hres

theorem memOk_ddFinish {c r op fn x} {onLeft : State → State} {onFull : DdTable → State → State}
    {onBeats : Nat → List Beat → DdTable → State → State} {done : List Nat → Flg → State → State} {o} {s : State}
    (honLeft : ∀ t, t.memOk → (onLeft t).memOk) (honFull : ∀ v t, t.memOk → (onFull v t).memOk) (honBeats : ∀ v v1 v2 t, t.memOk →
    (onBeats v v1 v2 t).memOk) (hdone : ∀ v v1 t, t.memOk → (done v v1 t).memOk) (h : s.memOk) :
    (ddFinish c r op fn x onLeft onFull onBeats done o s).memOk := by
  simp only [ddFinish]
  split
  · exact memOk_ddAccess (fun _ _ ht => hdone _ _ _ (memOk_putTable ht)) h (memOk_ddStore h)
  · split
    · exact honLeft _ (memOk_leaveTable h)
    exact honFull _ _ h
  · exact memOk_raise h
  · exact memOk_raise h
  exact honBeats _ _ _ _ h

theorem memOk_ddOutcome {c r x op fn a b cc rcd} {k : DdOut → State → State} {s : State} (hk : ∀ v t, t.memOk → (k v t).memOk)
    (h : s.memOk) :
    (ddOutcome c r x op fn a b cc rcd k s).memOk := by
  simp only [ddOutcome]
  refine memOk_ddAccess (fun v t ht => ?_) h (memOk_ddFetch h)
  split
  · exact memOk_ddAccess hk h (XRes.memOk_lift (memOk_ddWeighted ht))
  exact hk _ _ ht

theorem memOk_performDd {r x c} {s : State} (h : s.memOk) : (performDd r x c s).memOk := by
  simp only [performDd]
  exact memOk_ddOutcome (fun _ _ ht => memOk_ddFinish (fun _ ht1 => ht1) (fun _ _ ht1 => memOk_trapFull (memOk_putTable
    (memOk_charge ht1))) (fun _ _ _ _ ht1 => State.memOk_modRegion (memOk_putTable (memOk_charge ht1))) (fun _ _ _ ht1 => memOk_endDd
    (memOk_charge ht1)) ht) h

theorem memOk_pushDd {r x ones} {s : State} (h : s.memOk) : (pushDd r x ones s).memOk := by
  simp only [pushDd]
  split
  · exact memOk_endDd h
  split
  · split
    · exact h
    split
    · exact memOk_endDd h
    exact h
  split
  · exact h
  split
  · exact memOk_endDd h
  exact h

theorem memOk_runDd {r k} {s : State} (h : s.memOk) : (runDd r k s).memOk := by
  simp only [runDd]
  split
  · split
    · exact h
    split
    · exact memOk_pushDd h
    split
    · exact h
    exact memOk_readChkBy (fun _ ht => memOk_performDd ht) h
  exact h

theorem nextOk_execDdeCommandPerform {r k} {s : State} (h : s.memOk) : nextOk (execDdeCommandPerform r k s) := by
  simp only [execDdeCommandPerform]
  split
  · exact h
  split
  · exact h
  split
  · exact h
  split
  · exact memOk_runDd h
  split
  · exact h
  exact memOk_runDd h

theorem memOk_batchDone {r n x c nd v} {s0 : State} {s : State} (h : s0.memOk) (h1 : s.memOk) : (batchDone r n x c nd v s0 s).memOk := by
  simp only [batchDone]
  exact memOk_ddAccess (fun _ _ ht => State.memOk_modGraph (memOk_charge ht)) h (XRes.memOk_lift (memOk_gWrite h1))

theorem memOk_performEntry {r n c nd e} {s : State} (h : s.memOk) : (performEntry r n c nd e s).memOk := by
  simp only [performEntry]
  split
  · exact memOk_raise h
  exact memOk_ddOutcome (fun _ _ ht => memOk_ddFinish (fun _ ht1 => ht1) (fun _ _ ht1 => memOk_raise (memOk_putTable ht1))
    (fun _ _ _ _ ht1 => ht1) (fun _ _ _ ht1 => memOk_batchDone h ht1) ht) h

theorem nextOk_execDdeBatchEntry {r n} {s : State} (h : s.memOk) : nextOk (execDdeBatchEntry r n s) := by
  simp only [execDdeBatchEntry]
  split
  · split
    · exact h
    split
    · exact h
    exact memOk_readChkBy (fun _ ht => memOk_performEntry ht) h
  exact h

/-! ### Loading a graph -/

theorem memOk_seqAccess {α : Type} {r} {k : α → State → State} {s : State} {res : MemRes α} (hk : ∀ v t, t.memOk → (k v t).memOk)
    (h : s.memOk) (hres : res.memOk) :
    (seqAccess r k s res).memOk := by
  unfold seqAccess
  split
  · exact hk _ _ hres
  · exact h
  exact memOk_raise hres

theorem nextOk_execFabricLoadStart {r} {s : State} (h : s.memOk) : nextOk (execFabricLoadStart r s) := by
  simp only [execFabricLoadStart]
  split
  · exact h
  split
  · exact h
  split
  · exact h
  exact State.memOk_modCtx h

theorem memOk_frameAt {c r l k} {s : State} (h : s.memOk) : (frameAt c r l k s).memOk := by
  simp only [frameAt]
  split
  · exact h
  exact MemRes.memOk_bind (memOk_gRead h) (fun _ _ ht => ht)

theorem nextOk_execConfigFrame {r} {s : State} (h : s.memOk) : nextOk (execConfigFrame r s) := by
  simp only [execConfigFrame]
  split
  · split
    · exact h
    refine memOk_seqAccess (fun v2 t ht => ?_) h (memOk_frameAt h)
    repeat' split
    all_goals exact ht
  exact h

theorem nextOk_execEndFrame {r} {s : State} (h : s.memOk) : nextOk (execEndFrame r s) := by
  simp only [execEndFrame]
  split
  · split
    · exact h
    split
    · exact h
    refine memOk_seqAccess (fun v3 t ht => ?_) h (memOk_frameAt h)
    split
    · split <;> exact memOk_raise ht
    split
    · exact ht
    split
    · exact memOk_raise ht
    · exact memOk_raise ht
    split
    · exact memOk_raise ht
    exact ht
  exact h

theorem memOk_freeRing {c r l} {s : State} (h : s.memOk) : (freeRing c r l s).memOk := by
  induction l generalizing s with
  | nil => exact h
  | cons a t ih =>
    simp only [freeRing]
    refine ih ?_
    split
    · next e => exact MemRes.memOk_of_eq e (MemRes.memOk_bind (memOk_gRead h) (fun _ _ ht => memOk_gWrite ht))
    · exact h
    exact h

theorem memOk_thenDdBack {c r} {k : State → State} {s : State} (hk : ∀ t, t.memOk → (k t).memOk) (h : s.memOk) :
    (thenDdBack c r k s).memOk := by
  unfold thenDdBack
  split
  · exact hk _ h
  exact memOk_ddAccess (fun _ _ ht => hk _ ht) h (memOk_ddWriteback h)

theorem memOk_passToken {r n} {s : State} (h : s.memOk) : (passToken r n s).memOk := by
  simp only [passToken]
  split
  · split
    · exact h
    · next e2 => exact memOk_raise (MemRes.memOk_of_eq e2 (memOk_publishCores h))
    · next s1 e2 =>
        have h1 : s1.memOk := MemRes.memOk_of_eq e2 (memOk_publishCores h)
        refine memOk_thenDdBack (fun t1 ht => State.memOk_modGraph (State.memOk_modRegion (memOk_dropRewrites ?_))) h1
        split
        · exact State.memOk_modCtx (memOk_freeRing ht)
        exact memOk_freeRing ht
  exact h

/-! ### Spill rings -/

theorem memOk_ringWrite {c r base x v l} {s : State} (h : s.memOk) : (ringWrite c r base x v l s).memOk := by
  induction l generalizing v s with
  | nil => exact h
  | cons a t ih =>
    simp only [ringWrite]
    split
    · exact ih h
    exact MemRes.memOk_bind (memOk_gWrite h) (fun _ _ ht => ih ht)

theorem memOk_ringRead {c r base x i b} {s : State} (h : s.memOk) : (ringRead c r base x i b s).memOk := by
  unfold ringRead
  split
  · exact h
  exact MemRes.memOk_bind (memOk_gRead h) (fun _ _ ht => ht)

theorem memOk_ringAccess {α : Type} {r k position} {go : α → State → State} {s : State} {res : MemRes α}
    (hgo : ∀ v t, t.memOk → (go v t).memOk) (h : s.memOk) (hres : res.memOk) :
    (ringAccess r k position go s res).memOk := by
  unfold ringAccess
  split
  · exact hgo _ _ hres
  · exact h
  exact memOk_raise hres

theorem memOk_spillArc {r k a a1} {s : State} (h : s.memOk) : (spillArc r k a a1 s).memOk := by
  simp only [spillArc]
  split
  · exact h
  · exact h
  exact memOk_ringAccess (fun _ _ ht => ht) h (memOk_ringWrite h)

theorem nextOk_execArcBeat {r u e} {s : State} (h : s.memOk) : nextOk (execArcBeat r u e s) := by
  simp only [execArcBeat]
  split
  · exact h
  split
  · exact h
  split
  · exact h
  refine memOk_readChk (fun t1 ht => ?_) h
  split
  · exact memOk_spillArc ht
  · exact memOk_raise ht
  exact memOk_raise ht

theorem nextOk_execSpillReturn {r u e} {s : State} (h : s.memOk) : nextOk (execSpillReturn r u e s) := by
  simp only [execSpillReturn]
  split
  · exact h
  split
  · split
    · exact h
    split
    · exact memOk_ringAccess (fun _ _ ht => ht) h (memOk_ringRead h)
    exact h
  exact h

/-! ### The blotter -/

theorem nextOk_execBlotterQuiescence {r} {s : State} (h : s.memOk) : nextOk (execBlotterQuiescence r s) := by
  simp only [execBlotterQuiescence]
  split
  · exact h
  split
  · exact h
  split
  · exact h
  split
  · exact memOk_passToken h
  split
  · exact h
  exact memOk_raise h

/-! ### Copies -/

theorem nextOk_execCopy {g d a} {s : State} (h : s.memOk) : nextOk (execCopy g d a s) := by
  simp only [execCopy]
  refine nextOk_issue (fun t ht => ?_) h
  split
  · exact memOk_failSpace ht
  split
  · exact memOk_fail ht
  refine memOk_withGRecord (fun v t1 ht1 => ?_) ht
  split <;> exact ht1

theorem nextOk_execCopyWait {g d a} {s : State} (h : s.memOk) : nextOk (execCopyWait g d a s) := by
  simp only [execCopyWait]
  refine nextOk_issue (fun t ht => ?_) h
  split
  · exact memOk_failSpace ht
  split <;> exact ht

theorem nextOk_execXexpect {g d a id} {s : State} (h : s.memOk) : nextOk (execXexpect g d a id s) := by
  simp only [execXexpect]
  refine nextOk_issue (fun t ht => ?_) h
  split
  · exact memOk_failSpace ht
  split
  · exact memOk_raise ht
  exact ht

theorem nextOk_execXwait {g d id} {s : State} (h : s.memOk) : nextOk (execXwait g d id s) := by
  simp only [execXwait]
  refine nextOk_issue (fun t ht => ?_) h
  split <;> exact ht

theorem memOk_slotXlate {α : Type} {tid} {k : α → State → State} {s : State} {res : XRes α} (hk : ∀ v t, t.memOk → (k v t).memOk)
    (h : s.memOk) (hres : res.memOk) :
    (slotXlate tid k s res).memOk := by
  simp only [slotXlate]
  split
  · exact hk _ _ hres
  · exact h
  · exact memOk_raise hres
  exact memOk_raise hres

theorem memOk_withName {tid} {k : State → State} {s : State} (hk : ∀ t, t.memOk → (k t).memOk) (h : s.memOk) :
    (withName tid k s).memOk := by
  unfold withName
  split
  · exact memOk_failSpace h
  split
  · exact memOk_failSpace h
  refine memOk_slotXlate (fun v1 t ht => ?_) h (memOk_tensorName h)
  split
  · exact memOk_failSpace ht
  · exact hk _ ht
  exact hk _ ht

theorem nextOk_execTinv {g d a b} {s : State} (h : s.memOk) : nextOk (execTinv g d a b s) := by
  simp only [execTinv]
  refine nextOk_issue (fun t ht => ?_) h
  split
  · exact memOk_failSpace ht
  exact memOk_withName (fun _ ht1 => ht1) ht

theorem nextOk_execTinvWait {g d} {s : State} (h : s.memOk) : nextOk (execTinvWait g d s) := by
  unfold execTinvWait
  refine nextOk_issue (fun t ht => ?_) h
  split <;> exact ht

theorem nextOk_execTinvComplete {r k} {s : State} (h : s.memOk) : nextOk (execTinvComplete r k s) := by
  simp only [execTinvComplete]
  repeat' split
  all_goals exact h

theorem memOk_lookup {a b} {k : Look → State → State} {s : State} (hk : ∀ v t, t.memOk → (k v t).memOk) (h : s.memOk) :
    (lookup a b k s).memOk := by
  unfold lookup
  extract_lets tid soft
  have hsoft {α : Type} {go : α → State → State} {res : XRes α} (hgo : ∀ v t, t.memOk → (go v t).memOk) (hres : res.memOk) :
      (soft go res).memOk := by
    cases res with
    | ok v s1 => exact hgo v s1 hres
    | wait _ => exact h
    | miss _ s1 => exact hk _ _ hres
    | fail x s1 =>
      simp only [soft]
      split
      · exact hk _ _ hres
      exact memOk_slotXlate (fun _ _ ht => ht) h hres
  clear_value soft
  split
  · exact memOk_failSpace h
  split
  · exact hk _ _ h
  refine hsoft (fun n s1 h1 => ?_) (memOk_tensorName h)
  cases n with
  | tensor tn =>
    dsimp only
    split
    · exact hk _ _ h1
    exact hsoft (fun _ _ ht => hk _ _ ht) (memOk_stage1 h1)
  | absent => exact hk _ _ h1
  | malformed => exact hk _ _ h1

theorem memOk_sideTensor {c r x} {s : State} (h : s.memOk) : (sideTensor c r x s).memOk := by
  unfold sideTensor
  split
  · exact h
  exact XRes.memOk_bind (memOk_tensorFor h) (fun _ _ ht => ht)

theorem memOk_withSides {r x c} {k : Option Tensor → Option Tensor → State → State} {s : State}
    (hk : ∀ v v1 t, t.memOk → (k v v1 t).memOk) (h : s.memOk) :
    (withSides r x c k s).memOk := by
  simp only [withSides]
  exact memOk_serve (fun _ _ ht => ht) (fun _ _ ht => memOk_serve (fun _ _ ht1 => ht1) (fun _ _ ht1 => hk _ _ _ ht1)
    (memOk_sideTensor ht) ht) (memOk_sideTensor h) h

theorem nextOk_execCopyStart {r k} {s : State} (h : s.memOk) : nextOk (execCopyStart r k s) := by
  simp only [execCopyStart]
  split
  · split
    · exact h
    split
    · exact memOk_raise h
    refine memOk_withSides (fun v3 v4 t ht => ?_) h
    split
    · split
      · split
        · exact memOk_raise ht
        exact ht
      split
      · exact memOk_raise ht
      exact ht
    split
    · split
      · exact memOk_raise ht
      exact ht
    split
    · exact memOk_raise ht
    exact ht
  exact h

theorem memOk_readSource {c r d st l} {s : State} (h : s.memOk) : (readSource c r d st l s).memOk := by
  induction l generalizing s with
  | nil => exact h
  | cons a t ih =>
    simp only [readSource]
    refine XRes.memOk_bind ?_ (fun _ _ ht => XRes.memOk_bind (ih ht) (fun _ _ ht1 => ht1))
    split
    · exact h
    split
    · exact h
    exact memOk_tensorRead h

theorem memOk_gatherSource {c r x st} {k : List Nat → State → State} {l} {s : State} (hk : ∀ v t, t.memOk → (k v t).memOk) (h : s.memOk) :
    (gatherSource c r x st k l s).memOk := by
  induction l generalizing k s with
  | nil => exact hk _ _ h
  | cons a t ih =>
    exact memOk_serve (fun _ _ ht => ht) (fun _ _ ht => ih (fun _ _ ht1 => hk _ _ ht1) ht) (memOk_readSource h) h

theorem memOk_creditBarrier {r x n} {s : State} (h : s.memOk) : (creditBarrier r x n s).memOk := by
  simp only [creditBarrier]
  split
  · exact h
  split
  · exact h
  exact memOk_raise h

theorem memOk_endCopy {r x} {s : State} (h : s.memOk) : (endCopy r x s).memOk := by
  simp only [endCopy]
  split <;> exact h

theorem memOk_finishUnit {r x fl bytes} {s : State} (h : s.memOk) : (finishUnit r x fl bytes s).memOk := by
  simp only [finishUnit]
  split
  · exact memOk_creditBarrier (memOk_charge h)
  split
  · exact memOk_endCopy (memOk_creditBarrier (memOk_charge h))
  exact memOk_creditBarrier (memOk_charge h)

theorem memOk_noteAhead {c r x unit} {s : State} (h : s.memOk) : (noteAhead c r x unit s).memOk := by
  unfold noteAhead
  repeat' split
  all_goals exact h

theorem nextOk_execCopyUnitComplete {r k} {s : State} (h : s.memOk) : nextOk (execCopyUnitComplete r k s) := by
  simp only [execCopyUnitComplete]
  split
  · split
    · exact h
    split
    · exact h
    refine memOk_withSides (fun v4 v5 t ht => memOk_piecesChk (fun t1 ht1 => memOk_gatherSource (fun v6 t2 ht2 => ?_) ht1) ht) h
    split
    · exact memOk_finishUnit (State.memOk_sWriteEach ht2)
    exact memOk_serve (fun _ _ ht3 => ht3) (fun _ _ ht3 => memOk_finishUnit (memOk_noteAhead ht3)) (memOk_tensorWrite ht2) ht2
  exact h

/-! ### Gang operations -/

theorem State.memOk_modGang {gid} {f : Gang → Gang} {s : State} (h : s.memOk) : (State.modGang gid f s).memOk :=
  State.memOk_of_eq h (State.modGang_smem ..) (State.modGang_lmem ..) (State.modGang_tmem ..) (State.modGang_hostMem ..)

theorem memOk_tellPeers {c code} {s : State} (h : s.memOk) : (tellPeers c code s).memOk := by
  unfold tellPeers
  split
  · exact State.memOk_modGang h
  exact h

theorem memOk_reportVacated {gid} {s : State} (h : s.memOk) : (reportVacated gid s).memOk := State.memOk_modGang h

theorem memOk_startSlice {c} {s : State} (h : s.memOk) : (startSlice c s).memOk := by
  unfold startSlice
  split
  · exact State.memOk_modGang h
  exact h

theorem memOk_startPreempt {r migrate c} {s : State} (h : s.memOk) : (startPreempt r migrate c s).memOk := by
  simp only [startPreempt]
  refine memOk_tellPeers (memOk_tellPeers ?_)
  split
  · exact State.memOk_modGang (State.memOk_modCtx h)
  exact State.memOk_modCtx h

/-! ### Launch -/

theorem memOk_recount {r} {s : State} (h : s.memOk) : (recount r s).memOk := h

theorem memOk_readArms {c r a n} {s : State} (h : s.memOk) : (readArms c r a n s).memOk := by
  induction n generalizing a s with
  | zero =>
    exact h
  | succ m ih =>
    exact MemRes.memOk_bind (memOk_gRead h) (fun _ _ ht => MemRes.memOk_bind (ih ht) (fun _ _ ht1 => ht1))

theorem memOk_readNodes {c r d v n} {s : State} (h : s.memOk) : (readNodes c r d v n s).memOk := by
  induction n generalizing v s with
  | zero =>
    exact h
  | succ m ih =>
    simp only [readNodes]
    refine MemRes.memOk_bind (memOk_gRead h) (fun v1 t ht => ?_)
    split
    · exact ht
    refine MemRes.memOk_bind (memOk_readArms ht) (fun v3 t1 ht1 => ?_)
    split
    · exact ht1
    split
    · exact ht1
    refine MemRes.memOk_bind (ih ht1) (fun v4 t2 ht2 => ?_)
    split <;> exact ht2

theorem memOk_readEntries {c r a n} {s : State} (h : s.memOk) : (readEntries c r a n s).memOk := by
  induction n generalizing a s with
  | zero =>
    exact h
  | succ m ih =>
    exact MemRes.memOk_bind (memOk_gRead h) (fun _ _ ht => MemRes.memOk_bind (ih ht) (fun _ _ ht1 => ht1))

theorem memOk_readList {c r d} {s : State} (h : s.memOk) : (readList c r d s).memOk := by
  simp only [readList]
  split
  · exact h
  split
  · exact h
  refine MemRes.memOk_bind (memOk_gRead h) (fun v t ht => ?_)
  split
  · exact ht
  split
  · exact ht
  exact MemRes.memOk_bind (memOk_readEntries ht) (fun _ _ ht1 => ht1)

theorem memOk_setGraph {r g} {s : State} (h : s.memOk) : (setGraph r g s).memOk := h

theorem memOk_beginAccess {α : Type} {r} {none' : State → State} {k : α → State → State} {s : State} {res : MemRes α}
    (hnone' : ∀ t, t.memOk → (none' t).memOk) (hk : ∀ v t, t.memOk → (k v t).memOk) (h : s.memOk) (hres : res.memOk) :
    (beginAccess r none' k s res).memOk := by
  unfold beginAccess
  split
  · exact hk _ _ hres
  · exact h
  exact memOk_raise (hnone' _ hres)

theorem memOk_acceptRecord {r x c} {s : State} (h : s.memOk) : (acceptRecord r x c s).memOk := by
  simp only [acceptRecord]
  split
  · exact memOk_raise (memOk_setGraph (State.memOk_modRegion (State.memOk_modCtx (memOk_startSlice h))))
  refine memOk_beginAccess (fun _ ht => ht) (fun v1 t ht => ?_) h (memOk_readList (State.memOk_modRegion (State.memOk_modCtx
    (memOk_startSlice h))))
  split
  · exact memOk_raise ht
  refine memOk_beginAccess (fun _ ht1 => ht1) (fun v1 t1 ht1 => ?_) h (memOk_readNodes ht)
  split
  · exact memOk_raise ht1
  split
  · exact memOk_raise ht1
  exact ht1

theorem nextOk_execSchedulerSelect {r} {s : State} (h : s.memOk) : nextOk (execSchedulerSelect r s) := by
  simp only [execSchedulerSelect]
  split
  · exact h
  split
  · split
    · exact h
    split
    · exact h
    split
    · exact memOk_acceptRecord h
    split
    · exact h
    exact memOk_reportVacated h
  repeat' split
  all_goals exact h

theorem memOk_readBatch {c r a n} {s : State} (h : s.memOk) : (readBatch c r a n s).memOk := by
  induction n generalizing a s with
  | zero =>
    exact h
  | succ m ih =>
    exact MemRes.memOk_bind (memOk_gRead h) (fun _ _ ht => MemRes.memOk_bind (memOk_gRead ht) (fun _ _ ht1 => MemRes.memOk_bind
      (memOk_gRead ht1) (fun _ _ ht2 => MemRes.memOk_bind (memOk_gRead ht2) (fun _ _ ht3 => MemRes.memOk_bind (ih ht3)
      (fun _ _ ht4 => ht4)))))

theorem memOk_startBatch {r n x c} {s : State} (h : s.memOk) : (startBatch r n x c s).memOk := by
  simp only [startBatch]
  split
  · exact memOk_raise h
  refine memOk_ddAccess (fun v t ht => ?_) h (XRes.memOk_lift (memOk_readBatch h))
  split
  · exact memOk_raise ht
  exact ht

theorem memOk_startCopy {r n x c} {s : State} (h : s.memOk) : (startCopy r n x c s).memOk := by
  simp only [startCopy]
  exact memOk_seqAccess (fun _ _ ht => ht) h (memOk_gRead h)

theorem nextOk_execGraphNodeStart {r n} {s : State} (h : s.memOk) : nextOk (execGraphNodeStart r n s) := by
  simp only [execGraphNodeStart]
  split
  · split
    · exact h
    split
    · exact memOk_startCopy h
    · exact memOk_startBatch h
    · exact h
    exact h
  exact h

theorem nextOk_execSuccessorLaunch {r n} {s : State} (h : s.memOk) : nextOk (execSuccessorLaunch r n s) := by
  simp only [execSuccessorLaunch]
  split
  · split
    · exact h
    split
    · exact h
    refine memOk_seqAccess (fun v4 t ht => ?_) h (memOk_gRead h)
    repeat' split
    all_goals exact ht
  exact h

theorem memOk_submitRecord {q d c bs} {s : State} (h : s.memOk) : (submitRecord q d c bs s).memOk := by
  simp only [submitRecord]
  split
  · split
    · exact h
    split
    · exact memOk_failSpace h
    exact h
  repeat' split
  all_goals exact h

theorem nextOk_launchRecord {q g d a} {s : State} (h : s.memOk) : nextOk (launchRecord q g d a s) := by
  simp only [launchRecord]
  refine nextOk_issue (fun t ht => ?_) h
  split
  · exact memOk_failSpace ht
  split
  · exact memOk_beginPublish ht
  split
  · exact memOk_failSpace ht
  exact memOk_slotAccess (fun _ _ ht1 => memOk_submitRecord ht1) ht (memOk_gRead ht)

theorem memOk_writeDone {r g c} {s : State} (h : s.memOk) : (writeDone r g c s).memOk := by
  simp only [writeDone]
  exact memOk_seqAccess (fun _ _ ht => State.memOk_modRegion (memOk_setGraph (memOk_msix (memOk_writebackKey ht)))) h (memOk_gWrite
    (memOk_writeThrough h))

theorem nextOk_execGraphComplete {r} {s : State} (h : s.memOk) : nextOk (execGraphComplete r s) := by
  simp only [execGraphComplete]
  split
  · split
    · exact h
    split
    · split
      · exact memOk_raise h
      exact h
    split
    · split <;> exact h
    exact memOk_writeDone h
  exact h

theorem nextOk_execWatchdog {r} {s : State} (h : s.memOk) : nextOk (execWatchdog r s) := by
  simp only [execWatchdog]
  split
  · exact h
  split
  · exact h
  exact memOk_raise h

/-! ### The host's doorbells and queues -/

theorem State.memOk_modQueue {f q} {g : Queue → Queue} {s : State} (h : s.memOk) : (State.modQueue f q g s).memOk := h

theorem nextOk_execDoorbellWrite {f q v} {s : State} (h : s.memOk) : nextOk (execDoorbellWrite f q v s) := by
  simp only [execDoorbellWrite]
  repeat' split
  all_goals exact h

theorem nextOk_execLaunchRecordFetch {f q rec} {s : State} (h : s.memOk) : nextOk (execLaunchRecordFetch f q rec s) := by
  simp only [execLaunchRecordFetch]
  repeat' split
  all_goals exact h

theorem nextOk_execQcfgWrite {f q v} {s : State} (h : s.memOk) : nextOk (execQcfgWrite f q v s) := by
  unfold execQcfgWrite
  split <;> exact h

theorem nextOk_execQstatClear {f q v} {s : State} (h : s.memOk) : nextOk (execQstatClear f q v s) := by
  unfold execQstatClear
  split <;> exact h

theorem nextOk_execFcfgWrite {f v} {s : State} (h : s.memOk) : nextOk (execFcfgWrite f v s) := by
  unfold execFcfgWrite
  split <;> exact h

theorem nextOk_execFridxWrite {f v} {s : State} (h : s.memOk) : nextOk (execFridxWrite f v s) := by
  simp only [execFridxWrite]
  split <;> exact h

theorem nextOk_execFrespRetry {f tag} {s : State} (h : s.memOk) : nextOk (execFrespRetry f tag s) := by
  unfold execFrespRetry
  split <;> exact h

theorem nextOk_execFrespAbort {f tag} {s : State} (h : s.memOk) : nextOk (execFrespAbort f tag s) := by
  unfold execFrespAbort
  split
  · exact memOk_raise h
  exact h

theorem nextOk_execAdminDoorbell {v} {s : State} (h : s.memOk) : nextOk (execAdminDoorbell v s) := by
  simp only [execAdminDoorbell]
  repeat' split
  all_goals exact h

theorem nextOk_execHostRegisterWrite {f off v} {s : State} (h : s.memOk) : nextOk (execHostRegisterWrite f off v s) := by
  simp only [execHostRegisterWrite]
  repeat' split
  all_goals exact h

/-! ### Scrubbing and the wiping of units -/

theorem memOk_scrubUnits {r} {s : State} (h : s.memOk) : (scrubUnits r s).memOk :=
  let ⟨hs, hl, rest⟩ := h
  ⟨VMem.wf_wipe hs, VMem.wf_wipe hl, rest⟩

theorem memOk_dropKeyTiles {key} {s : State} (h : s.memOk) : (dropKeyTiles key s).memOk := by
  unfold dropKeyTiles
  exact memOk_foldl (fun _ _ ht => ht) (memOk_writebackKey h)

theorem someOk_freshTile {c r off} {s : State} (h : s.memOk) : someOk (freshTile c r off s) := by
  simp only [freshTile]
  split
  next dev s1 e =>
    have h1 : s1.memOk := MemRes.memOk_of_eq e (memOk_gTile h)
    split
    · trivial
    split
    · exact h1
    obtain ⟨hs, hl, ht, hh⟩ := memOk_freshMeta (ptn := (placeOf s1 dev c.keyId).ptn) (memOk_dropHeld h1)
    exact ⟨hs, hl, VMem.wf_wipe ht, hh⟩
  · trivial
  next x s1 e => exact (MemRes.memOk_of_eq e (memOk_gTile h) :)

theorem someOk_freshSpill {c r l} {s : State} (h : s.memOk) : someOk (freshSpill c r l s) := by
  induction l generalizing s with
  | nil => exact h
  | cons a t ih =>
    exact someOk_bind (someOk_freshTile h) (fun _ ht => ih ht)

theorem someOk_dropTable {r c} {s : State} (h : s.memOk) : someOk (dropTable r c s) := by
  simp only [dropTable]
  split
  · exact h
  split
  · next s1 e1 =>
      have h1 : s1.memOk := XRes.memOk_of_eq e1 (memOk_ddWriteback h)
      split
      · exact h1
      exact State.memOk_modCtx h1
  · next s1 e1 =>
      have h1 : s1.memOk := XRes.memOk_of_eq e1 (memOk_ddWriteback h)
      split
      · exact h1
      exact State.memOk_modCtx h1
  · trivial
  · next s1 e1 =>
      have h1 : s1.memOk := XRes.memOk_of_eq e1 (memOk_ddWriteback h)
      split
      · exact h1
      exact State.memOk_modCtx h1

theorem someOk_scrubContext {r c} {s : State} (h : s.memOk) : someOk (scrubContext r c s) := by
  simp only [scrubContext]
  exact someOk_bind (someOk_dropTable h) (fun _ ht => someOk_map (someOk_freshSpill (memOk_dropKeyTiles ht)) (fun _ ht1 => ht1))

theorem someOk_scrubLeaving {r} {s : State} (h : s.memOk) : someOk (scrubLeaving r s) := by
  unfold scrubLeaving
  split
  · exact h
  refine someOk_map ?_ (fun _ ht => ht)
  split
  · exact someOk_scrubContext h
  exact h

theorem someOk_scrubAll {r} {s : State} (h : s.memOk) : someOk (scrubAll r s) := by
  unfold scrubAll
  split
  · exact someOk_map (someOk_scrubContext h) (fun _ ht => memOk_scrubUnits ht)
  exact someOk_map (someOk_scrubLeaving h) (fun _ ht => memOk_scrubUnits ht)

theorem memOk_leaveRegion {old new} {s : State} (h : s.memOk) : (leaveRegion old new s).memOk := by
  unfold leaveRegion
  split
  · exact h
  exact State.memOk_modCtx h

theorem memOk_scrubbed {r x} {s : State} {s1 : State} (h1 : s1.memOk) : (scrubbed r x s s1).memOk := by
  simp only [scrubbed]
  refine State.memOk_modCtx ?_
  split
  · split
    · exact memOk_leaveRegion h1
    exact h1
  split
  · exact memOk_leaveRegion h1
  exact h1

theorem memOk_takeWaiting {r c x} {s : State} (h : s.memOk) : (takeWaiting r c x s).memOk := State.memOk_modCtx h

theorem memOk_stopWaiting {r c x rank} {s : State} (h : s.memOk) : (stopWaiting r c x rank s).memOk := by
  simp only [stopWaiting]
  split
  · exact memOk_startSlice (memOk_raise (memOk_takeWaiting h))
  exact memOk_raise (memOk_takeWaiting h)

theorem memOk_stopDue {r x} {s : State} (h : s.memOk) : (stopDue r x s).memOk := by
  unfold stopDue
  split
  · exact h
  split
  · exact memOk_stopWaiting (State.memOk_modGang h)
  exact h

theorem nextOk_execScrub {r bad} {s : State} (h : s.memOk) : nextOk (execScrub r bad s) := by
  simp only [execScrub]
  split
  · exact h
  split
  · exact h
  split
  · exact h
  split
  · next e2 => exact memOk_stopDue (memOk_scrubbed (someOk_of_eq e2 (someOk_scrubAll h)))
  exact h

theorem nextOk_execColophonWritten {r} {s : State} (h : s.memOk) : nextOk (execColophonWritten r s) := by
  simp only [execColophonWritten]
  split
  · exact h
  split
  · exact h
  split
  · exact h
  split
  · exact h
  · next e3 => exact memOk_raise (MemRes.memOk_of_eq e3 (memOk_gWrite h))
  · next e3 => exact State.memOk_modRegion (memOk_writebackKey (MemRes.memOk_of_eq e3 (memOk_gWrite h)))

theorem nextOk_execCheckRun2Start {q} {s : State} (h : s.memOk) : nextOk (execCheckRun2Start q s) := by
  simp only [execCheckRun2Start]
  split
  · split
    · exact h
    split
    · exact h
    split
    · next e4 => exact State.memOk_modCtx (someOk_of_eq e4 (someOk_scrubAll h))
    exact h
  exact h

theorem memOk_wipePackage {st} {s : State} (h : s.memOk) : (wipePackage st s).memOk :=
  let ⟨_, _, _, hh⟩ := h
  ⟨rfl, rfl, rfl, hh⟩

theorem nextOk_execLifecycleChange {st} {s : State} (h : s.memOk) : nextOk (execLifecycleChange st s) := by
  unfold execLifecycleChange
  dsimp only
  split
  · exact memOk_wipePackage (st := st) (s := s) h
  exact h

/-! ### Administration -/

theorem memOk_adminDone {x refused} {s : State} (h : s.memOk) : (adminDone x refused s).memOk := by
  simp only [adminDone]
  split
  · exact h
  · exact h
  exact memOk_msix (State.memOk_hostWrite h)

theorem nextOk_adminStep {x refused} {f : State → State} {s : State} (hf : ∀ t, t.memOk → (f t).memOk) (h : s.memOk) :
    nextOk (adminStep x refused f s) := by
  unfold adminStep
  split
  · exact h
  split
  · exact h
  refine memOk_adminDone ?_
  split
  · exact h
  exact hf _ h

theorem memOk_flushIf {b} {s : State} (h : s.memOk) : (flushIf b s).memOk := by
  unfold flushIf
  split <;> exact h

theorem memOk_allotKey {k} {s : State} (h : s.memOk) : (allotKey k s).memOk := by
  unfold allotKey
  split <;> exact h

theorem memOk_freeKeySlot {key} {s : State} (h : s.memOk) : (freeKeySlot key s).memOk := by
  obtain ⟨hs, hl, ht, hh⟩ := memOk_foldl (l := tilesOf s key) (fun _ q ht => memOk_freshMeta (ptn := q.2) (memOk_dropHeld ht)) h
  exact ⟨hs, hl, VMem.wf_foldl_wipe _ ht, hh⟩

theorem memOk_removed {c} {s : State} (h : s.memOk) : (removed c s).memOk := by
  simp only [removed]
  split
  · exact memOk_foldl (fun _ _ ht => ht) h
  exact memOk_freeKeySlot (memOk_foldl (fun _ _ ht => ht) h)

theorem nextOk_execRemoveContext {x asid} {s : State} (h : s.memOk) : nextOk (execRemoveContext x asid s) := by
  unfold execRemoveContext
  refine nextOk_adminStep (fun t ht => ?_) h
  split
  · exact memOk_removed ht
  exact ht

theorem nextOk_execBindQueue {x f q a} {s : State} (h : s.memOk) : nextOk (execBindQueue x f q a s) := by
  simp only [execBindQueue]
  refine nextOk_adminStep (fun t ht => State.memOk_modQueue ?_) h
  split <;> exact ht

theorem nextOk_execStopContext {x asid} {s : State} (h : s.memOk) : nextOk (execStopContext x asid s) := by
  unfold execStopContext
  refine nextOk_adminStep (fun t ht => ?_) h
  split
  · exact memOk_raise ht
  exact ht

theorem nextOk_execPreemptContext {x asid migrate} {s : State} (h : s.memOk) : nextOk (execPreemptContext x asid migrate s) := by
  simp only [execPreemptContext]
  refine nextOk_adminStep (fun t ht => ?_) h
  split
  · exact ht
  split
  · exact memOk_startPreempt ht
  exact memOk_tellPeers ht

theorem memOk_spoilTile {word} {s : State} (h : s.memOk) : (spoilTile word s).memOk := by
  simp only [spoilTile]
  split <;> exact h

theorem memOk_spoilMeta {level m} {s : State} (h : s.memOk) : (spoilMeta level m s).memOk := by
  simp only [spoilMeta]
  split <;> exact h

theorem nextOk_execSoftError {site} {s : State} (h : s.memOk) : nextOk (execSoftError site s) := by
  unfold execSoftError
  split
  · exact memOk_spoilTile h
  split
  · split
    · exact memOk_spoilMeta h
    exact h
  repeat' split
  all_goals exact h

theorem nextOk_execExpanderLinkFailure {port} {s : State} (h : s.memOk) : nextOk (execExpanderLinkFailure port s) := by
  unfold execExpanderLinkFailure
  split <;> exact h

/-! ### Branches -/

theorem memOk_jumpTo {i} {f : Slot → Slot} {s : State} (h : s.memOk) : (jumpTo i f s).memOk := by
  unfold jumpTo
  split
  · exact memOk_failIllegal h
  exact h

theorem memOk_takeBranch {disp} {f : Slot → Slot} {s : State} (h : s.memOk) : (takeBranch disp f s).memOk := memOk_jumpTo h

theorem nextOk_execBr {g c disp} {s : State} (h : s.memOk) : nextOk (execBr g c disp s) := by
  unfold execBr
  refine nextOk_issue (fun t ht => ?_) h
  split
  · exact memOk_takeBranch ht
  exact ht

theorem nextOk_execCall {g l disp} {s : State} (h : s.memOk) : nextOk (execCall g l disp s) := by
  simp only [execCall]
  refine nextOk_issue (fun t ht => ?_) h
  split
  · exact memOk_failIllegal ht
  exact memOk_takeBranch ht

theorem nextOk_execLoop {g c disp} {s : State} (h : s.memOk) : nextOk (execLoop g c disp s) := by
  simp only [execLoop]
  refine nextOk_issue (fun t ht => ?_) h
  split
  · exact memOk_takeBranch ht
  exact ht

/-! ### Collectives -/

theorem memOk_collAccess {α : Type} {r x tid write} {k : α → State → State} {s : State} {res : XRes α}
    (hk : ∀ v t, t.memOk → (k v t).memOk) (h : s.memOk) (hres : res.memOk) :
    (collAccess r x tid write k s res).memOk := by
  simp only [collAccess]
  split
  · exact hk _ _ hres
  · exact memOk_raise hres
  · exact h
  exact memOk_raise hres

theorem memOk_collTensor {c r x n} {s : State} (h : s.memOk) : (collTensor c r x n s).memOk := by
  unfold collTensor
  split
  · exact h
  exact memOk_sideTensor h

theorem memOk_readElem {c r f x i} {s : State} (h : s.memOk) : (readElem c r f x i s).memOk := by
  simp only [readElem]
  split
  · exact h
  exact XRes.memOk_bind (memOk_tensorFor h) (fun _ _ ht => XRes.memOk_bind (memOk_tensorRead ht) (fun _ _ ht1 => ht1))

theorem memOk_readElems {c r f x n v} {s : State} (h : s.memOk) : (readElems c r f x n v s).memOk := by
  induction n generalizing v s with
  | zero =>
    exact h
  | succ m ih =>
    exact XRes.memOk_bind (memOk_readElem h) (fun _ _ ht => XRes.memOk_bind (ih ht) (fun _ _ ht1 => ht1))

theorem memOk_writeElem {c r f x i v} {s : State} (h : s.memOk) : (writeElem c r f x i v s).memOk := by
  simp only [writeElem]
  split
  · exact State.memOk_sWriteEach h
  refine XRes.memOk_bind (memOk_tensorFor h) (fun v1 t ht => ?_)
  split
  · exact ht
  exact memOk_tensorWrite ht

theorem memOk_writeElems {c r f x l} {s : State} (h : s.memOk) : (writeElems c r f x l s).memOk := by
  induction l generalizing s with
  | nil => exact h
  | cons a t ih =>
    exact XRes.memOk_bind (memOk_writeElem h) (fun _ _ ht => ih ht)

theorem memOk_endColl {r x} {s : State} (h : s.memOk) : (endColl r x s).memOk := by
  simp only [endColl]
  split <;> exact h

theorem memOk_commitColl {r c m w} {s : State} (h : s.memOk) : (commitColl r c m w s).memOk := by
  simp only [commitColl]
  refine memOk_collAccess (fun v t ht => ?_) h (memOk_writeElems h)
  split
  · exact State.memOk_modCtx ht
  exact memOk_endColl (State.memOk_modCtx ht)

theorem memOk_startColl {r c x} {s : State} (h : s.memOk) : (startColl r c x s).memOk := by
  simp only [startColl]
  split
  · exact memOk_raise h
  refine memOk_collAccess (fun v1 t ht => ?_) h (memOk_readElems h)
  split
  · exact memOk_raise ht
  exact memOk_commitColl ht

theorem memOk_drainColl {r c x} {s : State} (h : s.memOk) : (drainColl r c x s).memOk := by
  simp only [drainColl]
  split
  · exact memOk_raise h
  exact memOk_commitColl h

theorem memOk_goColls {r c n} {s : State} (h : s.memOk) : (goColls r c n s).memOk := by
  induction n generalizing s with
  | zero =>
    exact h
  | succ m ih =>
    simp only [goColls]
    split
    · split
      · exact h
      split
      · exact ih (memOk_startColl h)
      split
      · exact h
      exact ih (memOk_drainColl h)
    exact h

theorem memOk_sendColl {op tree d off desc c} {s : State} (h : s.memOk) : (sendColl op tree d off desc c s).memOk := by
  simp only [sendColl]
  split
  · exact h
  exact memOk_goColls (memOk_retire (State.memOk_modCtx h))

theorem memOk_checkColl {op tree d off desc c} {s : State} (h : s.memOk) : (checkColl op tree d off desc c s).memOk := by
  simp only [checkColl]
  split
  · exact memOk_raise h
  split
  · exact memOk_raise h
  split
  · next s1 e2 =>
      have h1 : s1.memOk := XRes.memOk_of_eq e2 (memOk_collTensor h)
      split
      · next s11 e3 =>
          have h2 : s11.memOk := XRes.memOk_of_eq e3 (memOk_collTensor h1)
          split
          · exact memOk_raise h2
          exact memOk_sendColl h2
      · next e3 => exact memOk_raise (XRes.memOk_of_eq e3 (memOk_collTensor h1))
      · exact h1
      · next e3 => exact memOk_raise (XRes.memOk_of_eq e3 (memOk_collTensor h1))
  · next e2 => exact memOk_raise (XRes.memOk_of_eq e2 (memOk_collTensor h))
  · exact h
  · next e2 => exact memOk_raise (XRes.memOk_of_eq e2 (memOk_collTensor h))

theorem nextOk_collWord {op tree g d a} {s : State} (h : s.memOk) : nextOk (collWord op tree g d a s) := by
  simp only [collWord]
  refine nextOk_issue (fun t ht => ?_) h
  split
  · exact memOk_raise ht
  split
  · exact memOk_raise ht
  split
  · exact memOk_failSpace ht
  exact memOk_withGRecord (fun _ _ ht1 => memOk_checkColl ht1) ht

theorem memOk_keepBeat {asid b} {s : State} (h : s.memOk) : (keepBeat asid b s).memOk := State.memOk_modCtx h

theorem nextOk_execCollBeatArrival {asid b} {s : State} (h : s.memOk) : nextOk (execCollBeatArrival asid b s) := by
  simp only [execCollBeatArrival]
  split
  · exact h
  split
  · exact memOk_keepBeat h
  split
  · exact h
  split
  · exact memOk_keepBeat h
  split
  · refine memOk_goColls ?_
    split
    · exact memOk_keepBeat h
    exact h
  exact memOk_goColls h

theorem memOk_resumeColls {r asid} {s : State} (h : s.memOk) : (resumeColls r asid s).memOk := by
  unfold resumeColls
  split
  · exact memOk_goColls (State.memOk_modCtx h)
  exact h

theorem nextOk_execLiftFlitArrival {asid rank} {s : State} (h : s.memOk) : nextOk (execLiftFlitArrival asid rank s) := by
  simp only [execLiftFlitArrival]
  split
  · exact h
  split
  · exact h
  split
  · exact h
  · exact State.memOk_modGang h
  exact h

theorem memOk_cutRegion {s : State} {r} (h : s.memOk) : (cutRegion s r).memOk := by
  unfold cutRegion
  split
  · exact h
  split
  · exact memOk_raise h
  exact h

theorem nextOk_execLinkDown {port peers} {s : State} (h : s.memOk) : nextOk (execLinkDown port peers s) := by
  simp only [execLinkDown]
  split
  · exact h
  exact memOk_foldl (fun _ _ ht => memOk_cutRegion ht) h

/-! ### Gangs -/

theorem memOk_recallPending {asid} {s : State} (h : s.memOk) : (recallPending asid s).memOk := by
  unfold recallPending
  repeat' split
  all_goals exact h

theorem memOk_recountOf {asid} {s : State} (h : s.memOk) : (recountOf asid s).memOk := by
  unfold recountOf
  split <;> exact h

theorem nextOk_execFormGang {x a} {s : State} (h : s.memOk) : nextOk (execFormGang x a s) := by
  simp only [execFormGang]
  refine nextOk_adminStep (fun t ht => ?_) h
  split
  · exact ht
  exact memOk_recountOf (memOk_recallPending (State.memOk_modCtx ht))

theorem nextOk_execDissolveGang {x a} {s : State} (h : s.memOk) : nextOk (execDissolveGang x a s) := by
  simp only [execDissolveGang]
  refine nextOk_adminStep (fun t ht => ?_) h
  split
  · exact ht
  exact State.memOk_modCtx ht

theorem nextOk_execSliceRequest {gid slice dl} {s : State} (h : s.memOk) : nextOk (execSliceRequest gid slice dl s) := by
  simp only [execSliceRequest]
  split
  · exact h
  split
  · exact h
  split
  · exact State.memOk_modGang h
  split
  · exact memOk_startPreempt (State.memOk_modGang h)
  exact State.memOk_modGang h

theorem nextOk_execVacatedMessage {gid rank slice} {s : State} (h : s.memOk) : nextOk (execVacatedMessage gid rank slice s) := by
  unfold execVacatedMessage
  split
  · exact h
  split
  · exact h
  exact State.memOk_modGang h

theorem memOk_abortSlice {gid G sl} {s : State} (h : s.memOk) : (abortSlice gid G sl s).memOk := by
  simp only [abortSlice]
  refine State.memOk_modGang (memOk_recallPending ?_)
  split
  · exact h
  split
  · exact memOk_raise h
  exact h

theorem nextOk_execGangDeadline {gid} {s : State} (h : s.memOk) : nextOk (execGangDeadline gid s) := by
  unfold execGangDeadline
  split
  · exact h
  split
  · exact h
  split
  · exact h
  exact State.memOk_modGang (memOk_abortSlice h)

theorem nextOk_execAbortMessage {gid slice} {s : State} (h : s.memOk) : nextOk (execAbortMessage gid slice s) := by
  unfold execAbortMessage
  split
  · exact h
  split
  · split
    · exact h
    exact memOk_abortSlice h
  split
  · exact h
  exact memOk_abortSlice h

theorem nextOk_execPeerStopMessage {gid rank} {s : State} (h : s.memOk) : nextOk (execPeerStopMessage gid rank s) := by
  simp only [execPeerStopMessage]
  split
  · exact h
  split
  · exact h
  split
  · exact memOk_stopWaiting h
  split
  · exact State.memOk_modGang h
  split
  · exact memOk_raise h
  exact h

/-! ### Integer words -/

theorem nextOk_intBin {f : Word → Word → Word} {g d a b} {s : State} (h : s.memOk) : nextOk (intBin f g d a b s) := by
  unfold intBin
  exact nextOk_issue (fun _ ht => ht) h

theorem nextOk_intUn {f : Word → Word} {g d a} {s : State} (h : s.memOk) : nextOk (intUn f g d a s) := by
  unfold intUn
  exact nextOk_issue (fun _ ht => ht) h

theorem nextOk_intOvf {sat} {f : Word → Word → Int} {g d a b} {s : State} (h : s.memOk) : nextOk (intOvf sat f g d a b s) := by
  unfold intOvf
  exact nextOk_issue (fun _ ht => ht) h

theorem nextOk_intLong {f : Word → Word → Word} {g d a b} {s : State} (h : s.memOk) : nextOk (intLong f g d a b s) := by
  unfold intLong
  exact nextOk_issue (fun _ ht => ht) h

theorem nextOk_intImm {f : Word → Word} {g d a} {s : State} (h : s.memOk) : nextOk (intImm f g d a s) := nextOk_intUn h

theorem nextOk_intImmOvf {f : Word → Int} {g d a} {s : State} (h : s.memOk) : nextOk (intImmOvf f g d a s) := by
  unfold intImmOvf
  exact nextOk_issue (fun _ ht => ht) h

theorem nextOk_intCmp {f : Word → Word → Bool} {g p a b} {s : State} (h : s.memOk) : nextOk (intCmp f g p a b s) := by
  unfold intCmp
  exact nextOk_issue (fun _ ht => ht) h

theorem nextOk_intCmpImm {f : Word → Bool} {g p a} {s : State} (h : s.memOk) : nextOk (intCmpImm f g p a s) := by
  unfold intCmpImm
  exact nextOk_issue (fun _ ht => ht) h

theorem nextOk_predOp {f : Bool → Bool → Bool} {g p x y nx ny} {s : State} (h : s.memOk) : nextOk (predOp f g p x y nx ny s) := by
  unfold predOp
  exact nextOk_issue (fun _ ht => ht) h

/-! ### The save area -/

theorem memOk_writeArea {c r v l} {s : State} (h : s.memOk) : (writeArea c r v l s).memOk := by
  induction l generalizing v s with
  | nil => exact h
  | cons a t ih =>
    exact XRes.memOk_bind (memOk_writeMid h) (fun _ _ ht => ih ht)

theorem memOk_writeHeader {c r i} {s : State} (h : s.memOk) : (writeHeader c r i s).memOk := by
  unfold writeHeader
  exact XRes.memOk_bind (memOk_writeMid h) (fun _ _ ht => memOk_writebackKey ht)

theorem memOk_writeImage {c r R i} {s : State} (h : s.memOk) : (writeImage c r R i s).memOk := by
  unfold writeImage
  exact XRes.memOk_bind (memOk_writeArea h) (fun _ _ ht => memOk_writeHeader (memOk_writebackKey ht))

/-! ### Preemption: saving and restoring an image -/

theorem memOk_nodeReads {r nd} {k : State → State} {s : State} (hk : ∀ t, t.memOk → (k t).memOk) (h : s.memOk) :
    (nodeReads r nd k s).memOk := by
  simp only [nodeReads]
  split
  · exact memOk_nodeChk (fun _ ht => memOk_fifosChk hk ht) h
  exact memOk_fifosChk hk h

theorem memOk_saveNodes {r l} {s : State} (h : s.memOk) : (saveNodes r l s).memOk := by
  induction l generalizing s with
  | nil => exact h
  | cons a t ih =>
    exact memOk_nodeReads (fun _ ht => ih ht) h

theorem nextOk_execLiftMarkerSave {r nd} {s : State} (h : s.memOk) : nextOk (execLiftMarkerSave r nd s) := by
  simp only [execLiftMarkerSave]
  split
  · exact memOk_saveNodes h
  exact h

theorem nextOk_execForcedMarker {r} {s : State} (h : s.memOk) : nextOk (execForcedMarker r s) := by
  simp only [execForcedMarker]
  split
  · exact h
  split
  · split
    · exact memOk_atomPerform h
    exact h
  exact memOk_saveNodes h

theorem memOk_saveChk {r l} {k : State → State} {s : State} (hk : ∀ t, t.memOk → (k t).memOk)
    (h : s.memOk) : (saveChk r l k s).memOk := by
  simp only [saveChk]
  split
  · exact memOk_raise h
  exact hk _ h

theorem nextOk_execSaveImageComplete {r} {s : State} (h : s.memOk) : nextOk (execSaveImageComplete r s) := by
  unfold execSaveImageComplete
  extract_lets R
  split
  · split
    · exact h
    refine memOk_saveChk (fun t ht => memOk_thenDdBack (fun t1 ht1 => ?_) ht) h
    extract_lets i
    clear_value i
    split
    · exact h
    · next e => exact memOk_raise (XRes.memOk_of_eq e (memOk_writeImage ht1))
    · next e => exact memOk_raise (XRes.memOk_of_eq e (memOk_writeImage ht1))
    · next e => exact memOk_recount (State.memOk_modCtx (XRes.memOk_of_eq e (memOk_writeImage ht1)))
  · exact h

theorem memOk_readArea {c r n v} {s : State} (h : s.memOk) : (readArea c r n v s).memOk := by
  induction n generalizing v s with
  | zero =>
    exact h
  | succ m ih =>
    simp only [readArea]
    split
    · next e => exact XRes.memOk_bind (ih (XRes.memOk_of_eq e (memOk_readMid h))) (fun _ _ ht => ht)
    · next e => exact (XRes.memOk_of_eq e (memOk_readMid h) :)
    · next e => exact (XRes.memOk_of_eq e (memOk_readMid h) :)
    · next e => exact (XRes.memOk_of_eq e (memOk_readMid h) :)

theorem memOk_readFrames {c r base n v} {s : State} (h : s.memOk) : (readFrames c r base n v s).memOk := by
  induction n generalizing v s with
  | zero =>
    exact h
  | succ m ih =>
    simp only [readFrames]
    refine MemRes.memOk_bind (memOk_frameAt h) (fun v1 t ht => ?_)
    split
    · exact ht
    split
    · exact ht
    exact MemRes.memOk_bind (ih ht) (fun _ _ ht1 => ht1)

theorem memOk_damage {r x c e} {s : State} (h : s.memOk) : (damage r x c e s).memOk := by
  unfold damage
  extract_lets hd rc thenGo B g
  have hgo {q : MemRes Unit} {k : State → State} (hq : q.memOk) (hk : ∀ t, t.memOk → (k t).memOk) : (thenGo q k).memOk := by
    cases q with
    | ok _ s1 => exact hk s1 hq
    | wait _ => exact h
    | fail _ s1 => exact hk s1 hq
  clear_value thenGo
  refine hgo (memOk_gWriteLines h) fun s1 h1 => hgo (memOk_gWriteLines h1) fun s2 h2 => hgo ?_ fun s3 h3 => ?_
  · split
    · exact memOk_gWrite (memOk_writebackKey h2)
    exact memOk_writebackKey h2
  refine memOk_recount (State.memOk_modCtx (State.memOk_modRegion (memOk_tellPeers ?_)))
  split
  · exact memOk_startSlice (memOk_msix (memOk_writebackKey h3))
  exact memOk_msix (memOk_writebackKey h3)

theorem memOk_repost {c r} {s : State} {e} (h : s.memOk) : (repost c r s e).memOk := by
  unfold repost
  split
  · next e1 => exact Posted.memOk_of_eq e1 (memOk_postFault h)
  · exact h
  exact h

theorem memOk_layMemories {r i ps bs} {s : State} (h : s.memOk) : (layMemories r i ps bs s).memOk :=
  let ⟨hs, hl, rest⟩ := h
  ⟨VMem.wf_lay _ hs, VMem.wf_lay _ hl, rest⟩

theorem memOk_resume {r x c i I ps bs} {s : State} (h : s.memOk) : (resume r x c i I ps bs s).memOk := by
  simp only [resume]
  exact memOk_resumeColls (memOk_foldl (fun _ _ ht => memOk_repost ht) (State.memOk_modCtx (State.memOk_setRegion (memOk_layMemories h))))

theorem memOk_withConfig {r x c h} {k : Image → State → State} {s : State} (hk : ∀ v t, t.memOk → (k v t).memOk) (h1 : s.memOk) :
    (withConfig r x c h k s).memOk := by
  unfold withConfig
  split
  · exact hk _ _ h1
  split
  · exact h1
  · next e1 => exact memOk_damage (MemRes.memOk_of_eq e1 (memOk_readFrames h1))
  · next s1 e1 =>
      have h2 : s1.memOk := MemRes.memOk_of_eq e1 (memOk_readFrames h1)
      split
      · exact memOk_damage h2
      exact hk _ _ h2

theorem memOk_withTiles {r x c i n} {k : List Byte → State → State} {s : State} (hk : ∀ v t, t.memOk → (k v t).memOk) (h : s.memOk) :
    (withTiles r x c i n k s).memOk := by
  unfold withTiles
  split
  · exact h
  · next e => exact memOk_damage (XRes.memOk_of_eq e (memOk_readArea h))
  · next e => exact memOk_damage (XRes.memOk_of_eq e (memOk_readArea h))
  · next e => exact hk _ _ (XRes.memOk_of_eq e (memOk_readArea h))

theorem memOk_withImage {r x c i} {k : Image → List (Nat × Part) → List Byte → State → State} {s : State}
    (hk : ∀ v v1 v2 t, t.memOk → (k v v1 v2 t).memOk) (h : s.memOk) :
    (withImage r x c i k s).memOk := by
  simp only [withImage]
  refine memOk_withTiles (fun v t ht => ?_) h
  split
  · exact memOk_damage ht
  refine memOk_withTiles (fun v2 t1 ht1 => ?_) ht
  split
  · exact memOk_damage ht1
  split
  · exact memOk_damage ht1
  refine memOk_withConfig (fun v4 t2 ht2 => ?_) ht1
  split
  · exact memOk_damage ht2
  exact hk _ _ _ _ ht2

theorem nextOk_execRestore {r} {s : State} (h : s.memOk) : nextOk (execRestore r s) := by
  simp only [execRestore]
  split
  · exact h
  split
  · exact h
  split
  · exact h
  split
  · exact h
  split
  · exact memOk_withImage (fun _ _ _ _ ht => memOk_resume ht) h
  split
  · exact memOk_withImage (fun _ _ _ _ ht => memOk_resume (memOk_startSlice ht)) h
  split
  · exact memOk_withImage (fun _ _ _ _ ht => memOk_reportVacated ht) h
  exact h

/-! ### Slots -/

theorem memOk_selectSlot {r u k} {s : State} (h : s.memOk) : (selectSlot r u k s).memOk := h

theorem nextOk_execIssueSelect {r u} {s : State} (h : s.memOk) : nextOk (execIssueSelect r u s) := by
  simp only [execIssueSelect]
  split
  · exact h
  split
  · exact memOk_selectSlot (memOk_deliver h)
  exact memOk_deliver h

/-! ### Stops and dumps -/

theorem memOk_writeStop {r R c} {s : State} (h : s.memOk) : (writeStop r R c s).memOk := by
  simp only [writeStop]
  exact MemRes.memOk_bind (memOk_gWriteLines h) (fun _ _ ht => memOk_gWriteLines ht)

theorem someOk_markAbandoned {r c} {s : State} (h : s.memOk) : someOk (markAbandoned r c s) := by
  simp only [markAbandoned]
  split
  · split
    · exact h
    split
    · next e2 => exact State.memOk_modCtx (XRes.memOk_of_eq e2 (memOk_writeMid h))
    · next e2 => exact State.memOk_modCtx (XRes.memOk_of_eq e2 (memOk_writeMid h))
    · trivial
    · next e2 => exact State.memOk_modCtx (XRes.memOk_of_eq e2 (memOk_writeMid h))
  exact h

theorem memOk_recorded {r c} {s : State} (h : s.memOk) : (recorded r c s).memOk := by
  unfold recorded
  refine State.memOk_modCtx (State.memOk_modRegion ?_)
  split
  · exact h
  exact memOk_tellPeers h

theorem someOk_stopTable {r c} {s : State} (h : s.memOk) : someOk (stopTable r c s) := by
  unfold stopTable
  split
  · exact h
  split
  · next e1 => exact (XRes.memOk_of_eq e1 (memOk_ddWriteback h) :)
  · next e1 => exact (XRes.memOk_of_eq e1 (memOk_ddWriteback h) :)
  · trivial
  · next e1 => exact (XRes.memOk_of_eq e1 (memOk_ddWriteback h) :)

theorem nextOk_execStopRecordsWritten {r} {s : State} (h : s.memOk) : nextOk (execStopRecordsWritten r s) := by
  simp only [execStopRecordsWritten]
  split
  · exact h
  split
  · exact h
  split
  · exact h
  · next s0 e2 =>
      have h1 : s0.memOk := someOk_of_eq e2 (someOk_bind (someOk_stopTable h) (fun _ ht => someOk_markAbandoned ht))
      split
      · exact h
      · next e3 => exact memOk_recorded (MemRes.memOk_of_eq e3 (memOk_writeStop h1))
      · next e3 => exact memOk_recorded (memOk_writebackKey (MemRes.memOk_of_eq e3 (memOk_writeStop h1)))

theorem memOk_dumped {r c i} {s : State} (h : s.memOk) : (dumped r c i s).memOk := State.memOk_modCtx h

theorem nextOk_execDumpWritten {r ok} {s : State} (h : s.memOk) : nextOk (execDumpWritten r ok s) := by
  unfold execDumpWritten
  extract_lets R
  split
  · exact h
  next c _ =>
  split
  · exact h
  extract_lets i bad
  clear_value bad i
  have hw : (if ok then writeImage c r R i s else writeHeader c r bad s).memOk := by
    split
    · exact memOk_writeImage h
    exact memOk_writeHeader h
  split
  · exact h
  · next e => exact memOk_dumped (XRes.memOk_of_eq e hw)
  · next e => exact memOk_dumped (XRes.memOk_of_eq e hw)
  next e => exact memOk_dumped (XRes.memOk_of_eq e hw)

theorem someOk_stopDone {r R c} {s : State} (h : s.memOk) : someOk (stopDone r R c s) := by
  simp only [stopDone]
  split
  · exact h
  split
  · exact memOk_msix (memOk_writebackKey h)
  split
  · next e2 => exact State.memOk_modRegion (memOk_msix (memOk_writebackKey (MemRes.memOk_of_eq e2 (memOk_gWrite h))))
  · trivial
  · next e2 => exact memOk_msix (memOk_writebackKey (MemRes.memOk_of_eq e2 (memOk_gWrite h)))

theorem nextOk_execWhitewashLoad {r} {s : State} (h : s.memOk) : nextOk (execWhitewashLoad r s) := by
  simp only [execWhitewashLoad]
  split
  · split <;> exact h
  split
  · exact h
  split
  · exact h
  · next e2 => exact memOk_dropRewrites (someOk_of_eq e2 (someOk_stopDone h))

theorem nextOk_execRegionRelease {q} {s : State} (h : s.memOk) : nextOk (execRegionRelease q s) := by
  simp only [execRegionRelease]
  split
  · exact h
  split
  · exact h
  split
  · exact h
  split
  · exact h
  · next s0 e3 =>
      have h1 : s0.memOk := someOk_of_eq e3 (someOk_scrubAll h)
      split
      · exact State.memOk_modCtx h1
      exact h1

theorem nextOk_execWhitewashTimeout {r} {s : State} (h : s.memOk) : nextOk (execWhitewashTimeout r s) := by
  simp only [execWhitewashTimeout]
  repeat' split
  all_goals exact h

/-! ### System words -/

theorem nextOk_execMfsr {g d y} {s : State} (h : s.memOk) : nextOk (execMfsr g d y s) := by
  unfold execMfsr
  refine nextOk_issue (fun t ht => ?_) h
  split <;> exact ht

theorem nextOk_execMtsr {g y a} {s : State} (h : s.memOk) : nextOk (execMtsr g y a s) := by
  simp only [execMtsr]
  refine nextOk_issue (fun t ht => ?_) h
  split
  · split <;> exact ht
  · split
    · exact memOk_failSpace ht
    exact ht
  · exact ht
  · exact memOk_failIllegal ht
  · exact memOk_failIllegal ht
  · exact memOk_failIllegal ht
  · exact memOk_failIllegal ht
  · exact memOk_failIllegal ht
  · exact memOk_failIllegal ht
  · exact memOk_failIllegal ht
  · exact memOk_failIllegal ht
  · exact memOk_failIllegal ht
  · exact memOk_failIllegal ht
  · exact memOk_failIllegal ht
  exact memOk_failIllegal ht

theorem nextOk_execFenceWait {g} {s : State} (h : s.memOk) : nextOk (execFenceWait g s) := by
  unfold execFenceWait
  refine nextOk_issue (fun t ht => ?_) h
  split <;> exact ht

theorem nextOk_execFenceRel {g sc} {s : State} (h : s.memOk) : nextOk (execFenceRel g sc s) := by
  unfold execFenceRel
  refine nextOk_issue (fun t ht => ?_) h
  split
  · exact ht
  exact memOk_beginPublish ht

theorem nextOk_execFenceAcq {g sc} {s : State} (h : s.memOk) : nextOk (execFenceAcq g sc s) := by
  unfold execFenceAcq
  refine nextOk_issue (fun t ht => ?_) h
  split <;> exact ht

theorem nextOk_execFenceAcqrel {g sc} {s : State} (h : s.memOk) : nextOk (execFenceAcqrel g sc s) := by
  unfold execFenceAcqrel
  refine nextOk_issue (fun t ht => ?_) h
  split
  · exact ht
  exact memOk_beginPublish ht

theorem nextOk_execDigestOut {g a b c} {s : State} (h : s.memOk) : nextOk (execDigestOut g a b c s) := by
  simp only [execDigestOut]
  refine nextOk_issue (fun t ht => ?_) h
  split
  · split
    · split
      · exact memOk_digestStream ht
      exact memOk_retire (memOk_digestStream ht)
    split
    · exact memOk_digestStream ht
    exact memOk_retire (memOk_digestStream ht)
  exact ht

/-! ### Tasks -/

theorem nextOk_execTwait {g d a} {s : State} (h : s.memOk) : nextOk (execTwait g d a s) := by
  simp only [execTwait]
  refine nextOk_issue (fun t ht => ?_) h
  split
  · split
    · exact memOk_failSpace ht
    split <;> exact ht
  split
  · exact memOk_failSpace ht
  split <;> exact ht

theorem nextOk_execTrun {g d a b c} {s : State} (h : s.memOk) : nextOk (execTrun g d a b c s) := by
  simp only [execTrun]
  refine nextOk_issue (fun t ht => ?_) h
  split
  · exact memOk_failSpace ht
  split
  · exact memOk_failSpace ht
  split <;> exact ht

theorem nextOk_execTend {g} {s : State} (h : s.memOk) : nextOk (execTend g s) := by
  simp only [execTend]
  refine nextOk_issue (fun t ht => ?_) h
  split
  · exact ht
  split
  · exact memOk_deliver ht
  exact ht

/-! ### Tiles: filling, writing back, migrating -/

theorem nextOk_execSealFill {asid tile} {s : State} (h : s.memOk) : nextOk (execSealFill asid tile s) := by
  unfold execSealFill
  split
  · exact h
  split
  · next e1 => exact (MemRes.memOk_of_eq e1 (memOk_openTile h) :)
  · exact h
  exact h

theorem memOk_evict {ptn n} {s : State} (h : s.memOk) : (evict ptn n s).memOk := by
  unfold evict
  repeat' split
  all_goals exact h

theorem memOk_evictAbove {ptn n} {s : State} (h : s.memOk) : (evictAbove ptn n s).memOk := by
  unfold evictAbove
  refine memOk_foldl (fun t v ht => ?_) h
  split
  · exact memOk_evictMeta ht
  exact ht

theorem nextOk_execSealWriteback {tile} {s : State} (h : s.memOk) : nextOk (execSealWriteback tile s) := by
  simp only [execSealWriteback]
  split
  · exact h
  exact memOk_evictAbove (memOk_evict (memOk_writeback h))

theorem nextOk_execRekey {asid} {s : State} (h : s.memOk) : nextOk (execRekey asid s) := by
  simp only [execRekey]
  split
  · exact h
  split
  · exact h
  split
  · exact h
  exact memOk_foldl (fun _ _ ht => memOk_rekeyTile ht) h

theorem nextOk_execTileMigrationStart {tile} {s : State} (h : s.memOk) : nextOk (execTileMigrationStart tile s) := by
  simp only [execTileMigrationStart]
  split
  · exact h
  split
  · exact h
  exact memOk_writeback h

theorem memOk_reseal {key dev old n} {s0 : State} (h : s0.memOk) : (reseal key dev old n s0).memOk := by
  simp only [reseal]
  refine memOk_setMeta (memOk_clearTier (memOk_clearTier (memOk_unspoil (memOk_unspoil ?_))))
  split
  · exact memOk_setMeta (memOk_fetchMeta (memOk_fetchMeta h))
  split
  · exact memOk_setMeta (memOk_fetchMeta (memOk_fetchMeta h))
  exact memOk_store (memOk_fetchMeta (memOk_fetchMeta h))

theorem nextOk_execTileMigrationEnd {tile ptn} {s : State} (h : s.memOk) : nextOk (execTileMigrationEnd tile ptn s) := by
  unfold execTileMigrationEnd
  split
  · exact h
  split
  · exact h
  extract_lets s1
  have h1 : s1.memOk := memOk_reseal h
  clear_value s1
  exact h1

/-! ### Turns, moves and the step -/

theorem memOk_tick {s : State} (h : s.memOk) : (tick s).memOk := h

theorem memOk_coRaise {m} {s : State} {r} (h : s.memOk) : (coRaise m s r).memOk := by
  simp only [coRaise]
  repeat' split
  all_goals exact h

theorem memOk_coRaised {m} {s : State} (h : s.memOk) : (coRaised m s).memOk := by
  unfold coRaised
  exact memOk_foldl (fun _ _ ht => memOk_coRaise ht) h

/-- Every instruction keeps the form: the lemma of its meaning, instructions of one meaning together. -/
theorem nextOk_exec {i : Instr} {s : State} (h : s.memOk) : nextOk (exec i s) := by
  unfold exec
  cases i
  case add | addSat | sub | subSat | mul | mulSat | shl | shlSat => exact nextOk_intOvf h
  case mulh | mulhu | and | or | xor | andn | shr | sra | rotr | min | max | minu | maxu | lea => exact nextOk_intBin h
  case div | divu | rem | remu => exact nextOk_intLong h
  case clz | ctz | popc => exact nextOk_intUn h
  case addi | shli => exact nextOk_intImmOvf h
  case andi | ori | xori | shri | srai | lui => exact nextOk_intImm h
  case sel | fcmp | fcvt | fclass | empty | fullq | yield | rdtime | rdtimeCyc | digest | seed | colchk | mscaleMx | tinvAll
      | collRank => exact nextOk_issue (fun _ ht => ht) h
  case ceq | cne | clt | cle | cltu | cleu => exact nextOk_intCmp h
  case ceqi | clti => exact nextOk_intCmpImm h
  case pand | por | pxor => exact nextOk_predOp h
  case fadd | fsub | fmul | ffma => exact nextOk_fpArith h
  case fdiv | fsqrt => exact nextOk_fpLong h
  case fmin | fmax => exact nextOk_fpMinMax h
  case ldl => exact nextOk_execLdl h
  case stl => exact nextOk_execStl h
  case ldr => exact nextOk_execLdr h
  case str => exact nextOk_execStr h
  case lds => exact nextOk_execLds h
  case sts => exact nextOk_execSts h
  case ldg => exact nextOk_execLdg h
  case ldgAcq | ldgSc => exact nextOk_onControl (fun _ ht => nextOk_orderedLoad ht) h
  case stg => exact nextOk_execStg h
  case stgRel | stgSc => exact nextOk_onControl (fun _ ht => nextOk_orderedStore ht) h
  case ats | atsv => exact nextOk_atomS h
  case atg | atgv => exact nextOk_onControl (fun _ ht => nextOk_atomG ht) h
  case recv => exact nextOk_execRecv h
  case send => exact nextOk_execSend h
  case sendRel => exact nextOk_execSendRel h
  case peek => exact nextOk_execPeek h
  case peekQ => exact nextOk_execPeekQ h
  case br => exact nextOk_execBr h
  case jmp => exact nextOk_issue (fun _ ht => memOk_takeBranch ht) h
  case call => exact nextOk_execCall h
  case loop => exact nextOk_execLoop h
  case twait => exact nextOk_execTwait h
  case trun => exact nextOk_execTrun h
  case tend => exact nextOk_execTend h
  case trap => exact nextOk_issue (fun _ ht => memOk_takeTrap ht) h
  case halt => exact nextOk_issue (fun _ ht => memOk_raise ht) h
  case mfsr => exact nextOk_execMfsr h
  case mtsr => exact nextOk_execMtsr h
  case fenceWait => exact nextOk_execFenceWait h
  case fenceRel => exact nextOk_execFenceRel h
  case fenceAcq => exact nextOk_execFenceAcq h
  case fenceAcqrel => exact nextOk_execFenceAcqrel h
  case digestOut => exact nextOk_execDigestOut h
  case vadd | vsub | vmul | vfma | vmac | vdot4 | vabs | vneg | vmin | vmax | vminp | vmaxp | vclamp | vand | vor | vxor | vshl | vshr
      | vsra | vcmp | vsel | vcvt | vscale | vamax | vsf | vsum | vscan | vperm | vperm2 | vbcast | vslide | vtap | vexpand | vcompress
      | vsteer | vmerge | vnrw | vnrwStream | vmov => exact nextOk_fireStage h
  case chain => exact nextOk_execChain h
  case cwait => exact nextOk_execCwait h
  case cwaitFlags => exact nextOk_execCwaitFlags h
  case cwaitMag => exact nextOk_onCompute (fun _ ht => nextOk_issue (fun _ ht1 => ht1) ht) h
  case sbind => exact nextOk_execSbind h
  case sclose => exact nextOk_execSclose h
  case scloseAbort => exact nextOk_execScloseAbort h
  case sbar => exact nextOk_execSbar h
  case sbarWait => exact nextOk_execSbarWait h
  case cbar | phase => exact nextOk_barrierWord h
  case xformCvt | xformScale | xformFill | xformAdd | xformAmax => exact nextOk_xformWord h
  case mscale => exact nextOk_execMscale h
  case mwload => exact nextOk_execMwload h
  case mwloadP => exact nextOk_execMwloadP h
  case marm => exact nextOk_execMarm h
  case marmQ => exact nextOk_execMarmQ h
  case marmWait => exact nextOk_execMarmWait h
  case marmFlags => exact nextOk_execMarmFlags h
  case crun => exact nextOk_execCrun h
  case crunWait => exact nextOk_execCrunWait h
  case cedge => exact nextOk_execCedge h
  case copy => exact nextOk_execCopy h
  case copyWait => exact nextOk_execCopyWait h
  case xexpect => exact nextOk_execXexpect h
  case xwait => exact nextOk_execXwait h
  case tinv => exact nextOk_execTinv h
  case tinvT => exact nextOk_issue (fun _ ht => memOk_withName (fun _ ht1 => ht1) ht) h
  case tinvWait => exact nextOk_execTinvWait h
  case xlook | xlookO => exact nextOk_issue (fun _ ht => memOk_lookup (fun _ _ ht1 => ht1) ht) h
  case glaunch | glaunchQ => exact nextOk_launchRecord h
  case garm => exact nextOk_execGarm h
  case garmQ => exact nextOk_execGarmQ h
  case collReduceRing | collReduceTree | collAllreduceRing | collAllreduceTree | collGather | collScatter => exact nextOk_collWord h
  case ddcfg | ddcfgGrow => exact nextOk_issue (fun _ ht => memOk_sendCfg ht) h
  case ddvar | ddvarLvl | ddvarVar | ddite | ddapply | ddrestrict | ddquantEx | ddquantAll | ddcompose | ddsat | ddref | ddderef | ddgc
      | ddswap | ddnode | ddstat => exact nextOk_ddWord h
  case ddwcount => exact nextOk_execDdwcount h
  case ddenum | ddenumE => exact nextOk_issue (fun _ ht => memOk_sendEnum ht) h
  case issueSelect => exact nextOk_execIssueSelect h
  case producerCompletion => exact nextOk_execProducerCompletion h
  case channelWordArrival => exact nextOk_execChannelWordArrival h
  case atomicPerform => exact nextOk_execAtomicPerform h
  case nodeFiringCommit => exact nextOk_execNodeFiringCommit h
  case eoiHandling => exact nextOk_execEoiHandling h
  case chainStart => exact nextOk_execChainStart h
  case chainEnd => exact nextOk_execChainEnd h
  case arcBeat => exact nextOk_execArcBeat h
  case spillReturn => exact nextOk_execSpillReturn h
  case headerLatch => exact nextOk_execHeaderLatch h
  case steerNodeFiring => exact nextOk_execSteerNodeFiring h
  case mergeNodeFiring => exact nextOk_execMergeNodeFiring h
  case streamReadBeat => exact nextOk_execStreamReadBeat h
  case streamWriteBeat => exact nextOk_execStreamWriteBeat h
  case streamCommandComplete => exact nextOk_execStreamCommandComplete h
  case portCloseReached => exact nextOk_execPortCloseReached h
  case streamBarrierPass => exact nextOk_execStreamBarrierPass h
  case coatFiring => exact nextOk_execCoatFiring h
  case coatDrain => exact nextOk_execCoatDrain h
  case coatPassStart => exact nextOk_execCoatPassStart h
  case mxFiring => exact nextOk_execMxFiring h
  case panelLoadStart => exact nextOk_execPanelLoadStart h
  case panelUnitArrival => exact nextOk_execPanelUnitArrival h
  case panelLoadEnd => exact nextOk_execPanelLoadEnd h
  case input4EoiDrop => exact nextOk_execInput4EoiDrop h
  case garmCheck => exact nextOk_execGarmCheck h
  case copyStart => exact nextOk_execCopyStart h
  case copyUnitComplete => exact nextOk_execCopyUnitComplete h
  case budgetRefill => exact State.memOk_modCtx h
  case ddeBatchEntry => exact nextOk_execDdeBatchEntry h
  case sealFill => exact nextOk_execSealFill h
  case sealWriteback => exact nextOk_execSealWriteback h
  case rekey => exact nextOk_execRekey h
  case tileMigrationStart => exact nextOk_execTileMigrationStart h
  case tileMigrationEnd => exact nextOk_execTileMigrationEnd h
  case doorbellWrite => exact nextOk_execDoorbellWrite h
  case launchRecordFetch => exact nextOk_execLaunchRecordFetch h
  case qcfgWrite => exact nextOk_execQcfgWrite h
  case qstatClear => exact nextOk_execQstatClear h
  case fcfgWrite => exact nextOk_execFcfgWrite h
  case fridxWrite => exact nextOk_execFridxWrite h
  case frespRetry => exact nextOk_execFrespRetry h
  case frespAbort => exact nextOk_execFrespAbort h
  case acfgWrite | astatClear | thermalThrottle => exact h
  case adminDoorbell => exact nextOk_execAdminDoorbell h
  case hostRegisterWrite => exact nextOk_execHostRegisterWrite h
  case createRegion | setSecondStageRoot | secondStageInvalidate | readCertificateChain => exact nextOk_adminStep (fun _ ht => ht) h
  case destroyRegion => exact nextOk_adminStep (fun _ ht => memOk_scrubUnits ht) h
  case createContext => exact nextOk_adminStep (fun _ ht => memOk_allotKey (memOk_flushIf ht)) h
  case removeContext => exact nextOk_execRemoveContext h
  case bindQueue => exact nextOk_execBindQueue h
  case stopContext => exact nextOk_execStopContext h
  case preemptContext => exact nextOk_execPreemptContext h
  case formGang => exact nextOk_execFormGang h
  case dissolveGang => exact nextOk_execDissolveGang h
  case schedulerSelect => exact nextOk_execSchedulerSelect h
  case fabricLoadStart => exact nextOk_execFabricLoadStart h
  case configFrame => exact nextOk_execConfigFrame h
  case endFrame => exact nextOk_execEndFrame h
  case graphNodeStart => exact nextOk_execGraphNodeStart h
  case successorLaunch => exact nextOk_execSuccessorLaunch h
  case blotterQuiescence => exact nextOk_execBlotterQuiescence h
  case checkRun2Start => exact nextOk_execCheckRun2Start h
  case graphComplete => exact nextOk_execGraphComplete h
  case watchdog => exact nextOk_execWatchdog h
  case stopRecordsWritten => exact nextOk_execStopRecordsWritten h
  case dumpWritten => exact nextOk_execDumpWritten h
  case whitewashLoad => exact nextOk_execWhitewashLoad h
  case regionRelease => exact nextOk_execRegionRelease h
  case whitewashTimeout => exact nextOk_execWhitewashTimeout h
  case liftMarkerSave => exact nextOk_execLiftMarkerSave h
  case forcedMarker => exact nextOk_execForcedMarker h
  case saveImageComplete => exact nextOk_execSaveImageComplete h
  case restore => exact nextOk_execRestore h
  case scrub => exact nextOk_execScrub h
  case colophonWritten => exact nextOk_execColophonWritten h
  case reset => exact memOk_wipePackage h
  case lifecycleChange => exact nextOk_execLifecycleChange h
  case sliceRequest => exact nextOk_execSliceRequest h
  case vacatedMessage => exact nextOk_execVacatedMessage h
  case goMessage => exact State.memOk_modGang h
  case gangDeadline => exact nextOk_execGangDeadline h
  case abortMessage => exact nextOk_execAbortMessage h
  case peerStopMessage => exact nextOk_execPeerStopMessage h
  case collBeatArrival => exact nextOk_execCollBeatArrival h
  case liftFlitArrival => exact nextOk_execLiftFlitArrival h
  case linkDown => exact nextOk_execLinkDown h
  case publishComplete => exact nextOk_execPublishComplete h
  case xformComplete => exact nextOk_execXformComplete h
  case tinvComplete => exact nextOk_execTinvComplete h
  case ddeCommandPerform => exact nextOk_execDdeCommandPerform h
  case softError => exact nextOk_execSoftError h
  case expanderLinkFailure => exact nextOk_execExpanderLinkFailure h

theorem nextOk_runWord {w s} (h : s.memOk) : nextOk (runWord w s) := by
  unfold runWord
  split
  · exact memOk_failIllegal h
  split
  · exact memOk_failIllegal h
  exact nextOk_exec h

theorem nextOk_runStage {s : State} (h : s.memOk) : nextOk (runStage s) := by
  unfold runStage
  split
  · exact h
  split
  · exact h
  split
  · exact nextOk_exec h
  exact h

theorem nextOk_runMove {m s} (h : s.memOk) : nextOk (runMove m s) := by
  unfold runMove
  split
  · split
    · exact nextOk_exec h
    exact h
  exact h

theorem nextOk_runTurn {s : State} (h : s.memOk) : nextOk (runTurn s) := by
  unfold runTurn
  split
  · have hf := memOk_fetch (s := { s with turn := .none }) h
    split
    · next e => exact nextOk_runWord (memOk_of_pair e hf)
    next e => exact memOk_of_pair e hf
  · exact nextOk_runStage (s := { s with turn := .none }) h
  exact h

/-- A turn starts from the state after `tick`, a move from the one after what it raises beside a halt: both keep the form. -/
theorem nextOk_step {s : State} (h : s.memOk) : nextOk (step s) := by
  unfold step
  dsimp only
  split
  · exact nextOk_runTurn (memOk_tick h)
  · exact nextOk_runTurn (memOk_tick h)
  split
  · exact nextOk_runMove (memOk_coRaised h)
  exact nextOk_runMove (memOk_coRaised h)

/-- Settles O59: each operation that writes a memory writes it by the operations of `VMem` and `Assoc` that keep the form, and every
other one leaves the four memories as they stand. -/
theorem stepKeepsMemoryForm : Obligations.StepKeepsMemoryForm := fun _ _ h e => nextOk_of_eq e (nextOk_step h)

end Sys2Proof.Machine

end

section

namespace Sys2Proof.Machine

open Sys2Proof.Claims

/-! ## Beats, lift flits and link failures of collectives (R14, R463 to R471)

A beat that arrives joins the collective it is for; `goColls` then lets the first collective of the region drain what it has received.
The first part says when `goColls` has nothing to do and what one drain does; the parts after it take the three events in turn. -/

theorem exec_collBeatArrival (asid : Nat) (b : CollMsg) (s : State) : exec (.collBeatArrival asid b) s = execCollBeatArrival asid b s := rfl
theorem exec_liftFlitArrival (asid rank : Nat) (s : State) : exec (.liftFlitArrival asid rank) s = execLiftFlitArrival asid rank s := rfl
theorem exec_linkDown (port : Nat) (peers : RankList) (s : State) : exec (.linkDown port peers) s = execLinkDown port peers s := rfl

/-! ### Reading the state after the operations of a collective -/

/-- A region is looked up in the list of regions alone. -/
theorem State.region_congr {s t : State} (h : t.regions = s.regions) (q : Nat) : t.region q = s.region q := by
  simp only [State.region, h]
@[simp] theorem State.region_modCtx (a q : Nat) (f : Context → Context) (s : State) : (s.modCtx a f).region q = s.region q :=
  State.region_congr (State.modCtx_regions a f s) q
theorem State.find_modGang_same (g : Nat) (f : Gang → Gang) (s : State) :
    Assoc.find g (s.modGang g f).gangs = (Assoc.find g s.gangs).map f := by
  unfold State.modGang
  cases h : Assoc.find g s.gangs <;> simp [h]
/-- A core is not touched by a change of its region that leaves the cores. -/
theorem State.core_modRegion {f : Region → Region} (h : ∀ R, (f R).cores = R.cores) (r q u : Nat) (s : State) :
    (s.modRegion r f).core q u = s.core q u := by
  simp only [State.core, State.region_modRegion]
  split
  · next e => subst e; simp only [Region.core, h]
  · rfl

@[simp] theorem setColl_region (r : Nat) (x : Coll) (s : State) :
    (setColl r x s).region r = { s.region r with colls := (s.region r).colls.map (fun y => if y.id = x.id then x else y) } :=
  State.region_modRegion_same _ _ _
@[simp] theorem setColl_core (r q u : Nat) (x : Coll) (s : State) : (setColl r x s).core q u = s.core q u :=
  State.core_modRegion (f := fun R => { R with colls := R.colls.map (fun y => if y.id = x.id then x else y) }) (fun _ => rfl) r q u s
@[simp] theorem State.core_modCtx (a q u : Nat) (f : Context → Context) (s : State) : (s.modCtx a f).core q u = s.core q u := by
  simp only [State.core, State.region_modCtx]
@[simp] theorem received_region (r : Nat) (y : Coll) (b : CollMsg) (s : State) :
    (received r y b s).region r = { s.region r with
      colls := (s.region r).colls.map (fun z => if z.id = y.id then { y with inbox := y.inbox ++ [b] } else z) } :=
  State.region_modRegion_same _ _ _
@[simp] theorem received_core (r q u : Nat) (y : Coll) (b : CollMsg) (s : State) : (received r y b s).core q u = s.core q u :=
  setColl_core r q u { y with inbox := y.inbox ++ [b] } s
/-- What a collective is put back as stands wherever its number stood, so an earlier putting back leaves no trace. -/
theorem map_replace_twice {x y : Coll} (h : x.id = y.id) (l : List Coll) :
    (l.map (fun z => if z.id = x.id then x else z)).map (fun z => if z.id = y.id then y else z)
      = l.map (fun z => if z.id = y.id then y else z) := by
  rw [List.map_map]
  refine List.map_congr_left (fun z _ => ?_)
  by_cases e : z.id = y.id <;> simp [h, e]

/-! ### The course of a region's collectives -/

/-- Nothing goes on on region `R`: it is halted or being pre-empted, or its first collective waits for beats. -/
def CollsWait (R : Region) : Prop :=
  R.halt = true ∨ R.preempt.isSome = true ∨ ∀ x, R.colls.head? = some x → x.started = true ∧ x.inbox = []

theorem goColls_of_wait {r : Nat} {c : Context} {s : State} (n : Nat) (h : CollsWait (s.region r)) : goColls r c n s = s := by
  cases n with
  | zero => rfl
  | succ n =>
    cases e : (s.region r).colls with
    | nil => simp [goColls, e]
    | cons x l =>
      rcases h with h | h | h
      · simp [goColls, e, h]
      · simp [goColls, e, h]
      · obtain ⟨h1, h2⟩ := h x (by simp [e])
        simp [goColls, e, h1, h2]

/-- A first collective that has begun and has received beats drains them. -/
theorem goColls_drain {r : Nat} {c : Context} {s : State} {x : Coll} {l : List Coll} (n : Nat) (hc : (s.region r).colls = x :: l)
    (hh : (s.region r).halt = false) (hp : (s.region r).preempt = none) (hs : x.started = true) (hi : x.inbox ≠ []) :
    goColls r c (n + 1) s = goColls r c n (drainColl r c x s) := by
  simp [goColls, hc, hh, hp, hs, hi]

/-- A beat from a member whose descriptor differs is SPACE (R463). -/
theorem drainColl_differs {r : Nat} {c : Context} {x : Coll} {b : CollMsg} {s : State} (h : b.terms ≠ collTerms x) :
    drainColl r c { x with inbox := [b] } s = raise r (collRec 0x03 x 1) s := by
  have hd : differs { x with inbox := [b] } = true := by
    simp only [differs, List.any_cons, List.any_nil, Bool.or_false, decide_eq_true_eq]
    exact h
  simp only [drainColl, hd, if_true]
  rfl

/-- A beat from one whose descriptor agrees is taken, and the work is done. -/
theorem drainColl_agrees {r : Nat} {c : Context} {x : Coll} {b : CollMsg} {s : State} (h : b.terms = collTerms x) (hi : x.inbox = []) :
    drainColl r c { x with inbox := [b] } s =
      commitColl r c (teamOf s c) (collTake (teamOf s c) (regionSeed r s) { x := x, writes := [], out := [] } b) s := by
  have hd : differs { x with inbox := [b] } = false := by
    simp only [differs, List.any_cons, List.any_nil, Bool.or_false, decide_eq_false_iff_not, not_not]
    exact h
  have hx : { x with inbox := [] } = x := by cases x; simp_all
  simp only [drainColl, hd, List.foldl_cons, List.foldl_nil, hx]
  simp

/-- The work of member `w` is written in the state `t`, and its beats are on their way. -/
def committed (r : Nat) (c : Context) (w : CollWork) (t : State) : State :=
  (setColl r w.x t).modCtx c.attr.asid (fun c => { c with outbox := c.outbox ++ w.out })

/-- While an element, or a member's terms, are still to come, the collective goes on. -/
theorem commitColl_unfinished {r : Nat} {c : Context} {m : Team} {w : CollWork} {s t : State}
    (hw : writeElems c r (collFmt w.x.desc.toNat) (collDst w.x.desc.toNat) w.writes s = .ok () t)
    (h : w.x.done.length < collParts m w.x ∨ w.x.heads.length + 1 < m.size) : commitColl r c m w s = committed r c w t := by
  simp only [commitColl, hw, collAccess, if_pos h]
  rfl

/-- With neither to come it is over (R467). -/
theorem commitColl_finished {r : Nat} {c : Context} {m : Team} {w : CollWork} {s t : State}
    (hw : writeElems c r (collFmt w.x.desc.toNat) (collDst w.x.desc.toNat) w.writes s = .ok () t)
    (h1 : collParts m w.x ≤ w.x.done.length) (h2 : m.size ≤ w.x.heads.length + 1) :
    commitColl r c m w s = endColl r w.x (committed r c w t) := by
  have h : ¬ (w.x.done.length < collParts m w.x ∨ w.x.heads.length + 1 < m.size) := by omega
  simp only [commitColl, hw, collAccess, if_neg h]
  rfl

@[simp] theorem committed_region (r : Nat) (c : Context) (w : CollWork) (t : State) : (committed r c w t).region r =
    { t.region r with colls := (t.region r).colls.map (fun y => if y.id = w.x.id then w.x else y) } := by
  simp [committed]
@[simp] theorem committed_core (r q u : Nat) (c : Context) (w : CollWork) (t : State) : (committed r c w t).core q u = t.core q u := by
  simp [committed]
@[simp] theorem committed_smem (r : Nat) (c : Context) (w : CollWork) (t : State) : (committed r c w t).smem = t.smem := by
  simp [committed, setColl]
@[simp] theorem committed_lmem (r : Nat) (c : Context) (w : CollWork) (t : State) : (committed r c w t).lmem = t.lmem := by
  simp [committed, setColl]
@[simp] theorem committed_tmem (r : Nat) (c : Context) (w : CollWork) (t : State) : (committed r c w t).tmem = t.tmem := by
  simp [committed, setColl]

/-- A collective that ends leaves the engine, and its producer completes with the count and the flags (R467). -/
theorem endColl_of_producer {r : Nat} {x : Coll} {p : Producer} {s : State}
    (hp : (s.core r x.unit).producers.find? (fun q => decide (q.id = x.id)) = some p) :
    endColl r x s = complete r x.unit p [BitVec.ofNat 64 (x.written * 2 ^ 32 + x.flags.toNat)] x.flags
      (s.modRegion r (fun R => { R with colls := R.colls.filter (fun y => y.id ≠ x.id) })) := by
  have hc := State.core_modRegion (f := fun R => { R with colls := R.colls.filter (fun y => y.id ≠ x.id) }) (fun _ => rfl) r r x.unit s
  simp only [endColl, hc, hp]
  rfl

@[simp] theorem complete_colls (r u : Nat) (p : Producer) (vs : List Word) (fl : BitVec 5) (s : State) :
    ((complete r u p vs fl s).region r).colls = (s.region r).colls := by
  simp [complete, State.modSlot]
/-- A producer of one register: it holds the value and is full (R27). -/
theorem complete_reg {r u : Nat} {p : Producer} {d : Reg} {v : Word} {fl : BitVec 5} {s : State} (hp : p.dests = [d]) (hd : d ≠ 0) :
    ((complete r u p [v] fl s).slot r u p.slot).rd d = v ∧ ((complete r u p [v] fl s).slot r u p.slot).fill d = .full := by
  rw [complete_slot, hp]
  exact ⟨Slot.rd_wr_same hd v _, by
    show ((s.slot r u p.slot).wr d v).fill d = .full
    rw [Slot.fill_wr, if_pos rfl]⟩

/-! ### A beat arrives (R463 to R469) -/

theorem colls_of_collAt {asid r : Nat} {c : Context} {x : Coll} {l : List Coll} {s : State} (h : CollAt asid r c x l s) :
    (s.region r).colls = x :: l := by
  obtain ⟨-, -, -, -, -, -, -, hc⟩ := h
  exact hc
theorem halt_of_collAt {asid r : Nat} {c : Context} {x : Coll} {l : List Coll} {s : State} (h : CollAt asid r c x l s) :
    (s.region r).halt = false := by
  obtain ⟨-, -, -, -, -, hh, -, -⟩ := h
  exact hh

/-- A beat for a collective that this member has accepted joins its beats, and the collectives go on. -/
theorem beat_received {asid r : Nat} {c : Context} {x y : Coll} {l : List Coll} {b : CollMsg} {s : State} (h : CollAt asid r c x l s)
    (hy : (x :: l).find? (fun z => decide (z.seq = b.seq)) = some y) :
    Gives (.collBeatArrival asid b) s (goColls r c 9 (received r y b s)) := by
  obtain ⟨hf, -, hr, hst, hres, hh, hg, hc⟩ := h
  subst hr
  have hg' : (s.region c.attr.region).graph.isNone = false := by simpa [Option.isSome_iff_ne_none] using hg
  unfold Gives
  rw [exec_collBeatArrival]
  simp [execCollBeatArrival, hf, hst, hres, hh, hg', hc, hy, nx, received, setColl]

/-- It is kept while an earlier collective waits for beats, and during a pre-emption (R469). -/
theorem beat_kept {asid r : Nat} {c : Context} {x y : Coll} {l : List Coll} {b : CollMsg} {s : State} (h : CollAt asid r c x l s)
    (hy : (x :: l).find? (fun z => decide (z.seq = b.seq)) = some y)
    (hw : (s.region r).preempt.isSome = true ∨ (y.id ≠ x.id ∧ x.started = true ∧ x.inbox = [])) :
    Gives (.collBeatArrival asid b) s (received r y b s) := by
  have hgo : CollsWait ((received r y b s).region r) := by
    rw [received_region]
    rcases hw with hp | ⟨hne, hs, hi⟩
    · exact .inr (.inl hp)
    · have hhead : (s.region r).colls.map (fun z => if z.id = y.id then { y with inbox := y.inbox ++ [b] } else z)
          = x :: l.map (fun z => if z.id = y.id then { y with inbox := y.inbox ++ [b] } else z) := by
        simp [colls_of_collAt h, Ne.symm hne]
      refine .inr (.inr (fun z hz => ?_))
      simp only [hhead, List.head?_cons, Option.some.injEq] at hz
      exact hz ▸ ⟨hs, hi⟩
  rw [← goColls_of_wait (c := c) 9 hgo]
  exact beat_received h hy

section FirstCollective

/- The first collective of the region has begun and has consumed its beats; beat `b` comes for it, and no pre-emption is under way. -/
variable {asid r : Nat} {c : Context} {x : Coll} {l : List Coll} {b : CollMsg} {s : State}
  (hat : CollAt asid r c x l s) (hseq : x.seq = b.seq) (hs : x.started = true) (hi : x.inbox = []) (hp : (s.region r).preempt = none)

include hat hseq hs hi hp

/-- The collective drains the beat at once. -/
theorem beat_drained :
    Gives (.collBeatArrival asid b) s (goColls r c 8 (drainColl r c { x with inbox := [b] } (received r x b s))) := by
  have hc : ((received r x b s).region r).colls = { x with inbox := [b] } ::
      l.map (fun z => if z.id = x.id then { x with inbox := x.inbox ++ [b] } else z) := by
    simp [colls_of_collAt hat, hi]
  have hh : ((received r x b s).region r).halt = false := by
    simp [halt_of_collAt hat]
  rw [← goColls_drain 8 hc hh (by simp [hp]) hs (by simp)]
  exact beat_received hat (by simp [hseq])

theorem beat_differs (ht : b.terms ≠ collTerms x) :
    Gives (.collBeatArrival asid b) s (raise r (collRec 0x03 x 1) (received r x b s)) := by
  have h := beat_drained hat hseq hs hi hp
  rwa [drainColl_differs ht, goColls_of_wait 8 (.inl (raise_halt _ _ _))] at h

/-- A beat whose terms agree: the member takes it and commits its work. -/
theorem beat_taken (ht : b.terms = collTerms x) :
    Gives (.collBeatArrival asid b) s (goColls r c 8 (commitColl r c (teamOf s c)
      (collTake (teamOf s c) (regionSeed r (received r x b s)) { x := x, writes := [], out := [] } b) (received r x b s))) := by
  have h := beat_drained hat hseq hs hi hp
  rwa [drainColl_agrees ht hi] at h

/-- With work `w` of which parts are still to come, the state is the committed one; the collective stands in the engine as `w` has it. -/
theorem beat_unfinished {w : CollWork} {s1 : State} (ht : b.terms = collTerms x)
    (hw : collTake (teamOf s c) (regionSeed r (received r x b s)) { x := x, writes := [], out := [] } b = w)
    (hid : w.x.id = x.id) (hws : w.x.started = true) (hwi : w.x.inbox = [])
    (hok : writeElems c r (collFmt w.x.desc.toNat) (collDst w.x.desc.toNat) w.writes (received r x b s) = .ok () s1)
    (hreg : s1.regions = (received r x b s).regions)
    (h : w.x.done.length < collParts (teamOf s c) w.x ∨ w.x.heads.length + 1 < (teamOf s c).size) :
    Gives (.collBeatArrival asid b) s (committed r c w s1) ∧
      ((committed r c w s1).region r).colls = (x :: l).map (fun z => if z.id = x.id then w.x else z) := by
  have hcolls : ((committed r c w s1).region r).colls = (x :: l).map (fun z => if z.id = x.id then w.x else z) := by
    have hm := map_replace_twice (x := { x with inbox := x.inbox ++ [b] }) (y := w.x) hid.symm (x :: l)
    rw [committed_region, State.region_congr hreg, received_region, colls_of_collAt hat]
    simpa only [hid] using hm
  have hwait : CollsWait ((committed r c w s1).region r) := .inr (.inr (fun z hz => by
    rw [hcolls] at hz
    simp only [List.map_cons, if_true, List.head?_cons, Option.some.injEq] at hz
    exact hz ▸ ⟨hws, hwi⟩))
  have hg := beat_taken hat hseq hs hi hp ht
  rw [hw, commitColl_unfinished hok h, goColls_of_wait 8 hwait] at hg
  exact ⟨hg, hcolls⟩

/-- A beat of terms alone counts its sender (R463). -/
theorem beat_head (ht : b.terms = collTerms x) (hb : b.head = true)
    (hn : x.done.length < collParts (teamOf s c) x ∨ x.heads.length + 2 < (teamOf s c).size) :
    ∃ t h, Gives (.collBeatArrival asid b) s t ∧ t.smem = s.smem ∧ t.lmem = s.lmem ∧ t.tmem = s.tmem ∧ (∀ k, k ∈ h ↔ k = b.src ∨ k ∈ x.heads) ∧
      (t.region r).colls = (x :: l).map (fun z => if z.id = x.id then { x with heads := h } else z) := by
  have hlen : (x.heads.insert b.src).length ≤ x.heads.length + 1 := by
    by_cases e : b.src ∈ x.heads <;> simp [e]
  have hw : collTake (teamOf s c) (regionSeed r (received r x b s)) { x := x, writes := [], out := [] } b
      = { x := { x with heads := x.heads.insert b.src }, writes := [], out := [] } := by
    simp only [collTake, hb, if_true]; rfl
  obtain ⟨hg, hcolls⟩ := beat_unfinished hat hseq hs hi hp ht hw rfl hs hi rfl rfl
    (hn.imp id (fun hn => by show (x.heads.insert b.src).length + 1 < _; omega))
  exact ⟨_, _, hg, by simp [received], by simp [received], by simp [received], fun _ => List.mem_insert_iff, hcolls⟩

/-- What a member of a gather or scatter makes of a block's beat (R466): it writes the element the beat is for. -/
def blockWork (x : Coll) (b : CollMsg) : CollWork :=
  { x := { x with written := x.written + 1, done := blockElem x b :: x.done }, writes := [(blockElem x b, b.val.toNat)], out := [] }

omit hat hseq hs hi hp in
theorem collTake_block {m : Team} {seed : Word} (hb : b.head = false) (hm : x.op.moves = true) :
    collTake m seed { x := x, writes := [], out := [] } b = blockWork x b := by
  simp only [collTake, hb, hm, moveTake, blockWork, blockElem, Bool.false_eq_true, if_false, if_true]
  cases hop : x.op with
  | gather => simp [hop, CollWork.write, CollWork.over]
  | scatter => simp [hop, CollWork.write, CollWork.over]
  | reduce => simp [hop, CollOp.moves] at hm
  | allReduce => simp [hop, CollOp.moves] at hm

/-- A block's beat is written; with parts to come the collective goes on. -/
theorem beat_block_unfinished {s1 : State} (ht : b.terms = collTerms x) (hb : b.head = false) (hm : x.op.moves = true)
    (hok : writeElems c r (collFmt x.desc.toNat) (collDst x.desc.toNat) [(blockElem x b, b.val.toNat)] (received r x b s) = .ok () s1)
    (hreg : s1.regions = (received r x b s).regions)
    (hn : x.done.length + 1 < collParts (teamOf s c) x ∨ x.heads.length + 1 < (teamOf s c).size) :
    ∃ t, Gives (.collBeatArrival asid b) s t ∧ t.smem = s1.smem ∧ t.lmem = s1.lmem ∧ t.tmem = s1.tmem ∧
      (t.region r).colls = (x :: l).map (fun z => if z.id = x.id then
        { x with written := x.written + 1, done := blockElem x b :: x.done } else z) := by
  obtain ⟨hg, hcolls⟩ := beat_unfinished hat hseq hs hi hp ht (collTake_block hb hm) rfl hs hi hok hreg hn
  exact ⟨_, hg, committed_smem .., committed_lmem .., committed_tmem .., hcolls⟩

/-- The last one ends the only collective of the region: its register holds the count and the flags (R467). -/
theorem beat_block_last {s1 : State} {p : Producer} {d : Reg} (ht : b.terms = collTerms x) (hb : b.head = false) (hm : x.op.moves = true)
    (hok : writeElems c r (collFmt x.desc.toNat) (collDst x.desc.toNat) [(blockElem x b, b.val.toNat)] (received r x b s) = .ok () s1)
    (hreg : s1.regions = (received r x b s).regions) (hn : collParts (teamOf s c) x ≤ x.done.length + 1)
    (hsz : (teamOf s c).size ≤ x.heads.length + 1) (hl : l = [])
    (hprod : (s.core r x.unit).producers.find? (fun q => decide (q.id = x.id)) = some p) (hdst : p.dests = [d]) (hd : d ≠ 0) :
    ∃ t, Gives (.collBeatArrival asid b) s t ∧ t.smem = s1.smem ∧ t.tmem = s1.tmem ∧ (t.region r).colls = [] ∧
      (t.slot r x.unit p.slot).rd d = BitVec.ofNat 64 ((x.written + 1) * 2 ^ 32 + x.flags.toNat) ∧ (t.slot r x.unit p.slot).fill d = .full := by
  have hprod1 : ((committed r c (blockWork x b) s1).core r x.unit).producers.find? (fun q => decide (q.id = x.id)) = some p := by
    rw [committed_core, State.core, State.region_congr hreg, ← State.core, received_core, hprod]
  have hend := endColl_of_producer (x := (blockWork x b).x) hprod1
  have hempty : ((endColl r (blockWork x b).x (committed r c (blockWork x b) s1)).region r).colls = [] := by
    rw [hend, complete_colls, State.region_modRegion_same, committed_region, State.region_congr hreg, received_region,
      colls_of_collAt hat, hl]
    simp [blockWork]
  have hwait : CollsWait ((endColl r (blockWork x b).x (committed r c (blockWork x b) s1)).region r) :=
    .inr (.inr (fun z hz => by simp [hempty] at hz))
  have hg := beat_taken hat hseq hs hi hp ht
  rw [collTake_block hb hm, commitColl_finished hok hn hsz, goColls_of_wait 8 hwait] at hg
  refine ⟨_, hg, ?_, ?_, hempty, ?_⟩
  · rw [hend, complete_smem, State.modRegion_smem, committed_smem]
  · rw [hend, complete_tmem, State.modRegion_tmem, committed_tmem]
  · rw [hend]
    exact complete_reg hdst hd

end FirstCollective

section Member

/- The context `asid` of region `r`. -/
variable {asid r : Nat} {c : Context} {s : State} (hf : Assoc.find asid s.contexts = some c) (hr : c.attr.region = r)

include hf hr

omit hr in
/-- A beat of a saved context is kept with it (R469). -/
theorem beat_of_saved (hst : c.st = .preempted) (b : CollMsg) : Gives (.collBeatArrival asid b) s (keepBeat asid b s) := by
  unfold Gives
  rw [exec_collBeatArrival]
  simp [execCollBeatArrival, hf, hst, nx]

/-- Once the member's pre-emption is over a lift flit has no effect (R469). -/
theorem flit_of_saved (rank : Nat) (hst : c.st = .preempted) : Gives (.liftFlitArrival asid rank) s s := by
  unfold Gives
  rw [exec_liftFlitArrival]
  simp only [execLiftFlitArrival, residentRegion, hf, hr]
  by_cases hres : (s.region r).resident = some asid ∧ (s.region r).halt = false
  · simp only [hres, and_self, if_true, hst]; rfl
  · simp only [hres, if_false]; rfl

section Resident

variable (hst : c.st ≠ .preempted) (hres : (s.region r).resident = some asid) (hh : (s.region r).halt = false)

include hst hres hh

/-- A beat that comes before the member's launch has begun is kept with the context (R459). -/
theorem beat_before_launch (b : CollMsg) (hg : (s.region r).graph = none) : Gives (.collBeatArrival asid b) s (keepBeat asid b s) := by
  subst hr
  unfold Gives
  rw [exec_collBeatArrival]
  simp [execCollBeatArrival, hf, hst, hres, hh, hg, nx]

/-- So is one for a collective that the member has not issued yet (R469). -/
theorem beat_before_issue (b : CollMsg) (hg : (s.region r).graph.isSome = true) (hnone : ∀ y ∈ (s.region r).colls, y.seq ≠ b.seq)
    (hseq : c.collSeq ≤ b.seq)
    (hw : (s.region r).preempt.isSome = true ∨ ∀ y, (s.region r).colls.head? = some y → y.started = true ∧ y.inbox = []) :
    Gives (.collBeatArrival asid b) s (keepBeat asid b s) := by
  subst hr
  have hg' : (s.region c.attr.region).graph.isNone = false := by simpa [Option.isSome_iff_ne_none] using hg
  have hfind : (s.region c.attr.region).colls.find? (fun z => decide (z.seq = b.seq)) = none :=
    List.find?_eq_none.mpr (fun y hy => by simp [hnone y hy])
  have hwait : CollsWait ((keepBeat asid b s).region c.attr.region) := by
    rw [keepBeat, State.region_modCtx]
    exact .inr hw
  unfold Gives
  rw [exec_collBeatArrival, ← goColls_of_wait (c := c) 9 hwait]
  simp [execCollBeatArrival, hf, hst, hres, hh, hg', hfind, hseq, nx]

/-- A lift flit during the pre-emption is noted with it (R469). -/
theorem flit_during_preemption {rank : Nat} {p : Preempt} (hp : (s.region r).preempt = some p) (hn : p.flits.contains rank = false) :
    ∃ t, Gives (.liftFlitArrival asid rank) s t ∧ (t.region r).preempt = some { p with flits := rank :: p.flits } ∧ t.contexts = s.contexts := by
  refine ⟨s.modRegion r (fun R => { R with preempt := R.preempt.map (fun p => { p with flits := p.flits.insert rank }) }), ?_, ?_, rfl⟩
  · subst hr
    unfold Gives
    rw [exec_liftFlitArrival]
    simp only [execLiftFlitArrival, residentRegion, hf, hres, hh, hst, hp, and_self, if_true, if_false]
    rfl
  · rw [State.region_modRegion_same, hp, Option.map_some, List.insert_of_not_mem (by simpa using hn)]

/-- One that comes before it is noted with the gang (R469). -/
theorem flit_before_preemption {rank gid : Nat} {G : Gang} (hp : (s.region r).preempt = none) (hgang : c.gang = some gid)
    (hG : Assoc.find gid s.gangs = some G) (hn : G.lifts.contains rank = false) :
    ∃ t, Gives (.liftFlitArrival asid rank) s t ∧ Assoc.find gid t.gangs = some { G with lifts := rank :: G.lifts } ∧ t.regions = s.regions := by
  refine ⟨s.modGang gid (fun G => { G with lifts := G.lifts.insert rank }), ?_, ?_, State.modGang_regions ..⟩
  · subst hr
    unfold Gives
    rw [exec_liftFlitArrival]
    simp only [execLiftFlitArrival, residentRegion, hf, hres, hh, hst, hp, hgang, and_self, if_true, if_false]
    rfl
  · rw [State.find_modGang_same, hG, Option.map_some, List.insert_of_not_mem (by simpa using hn)]

end Resident

end Member

/-! ### A link goes down (R14, R470) -/

theorem linkDown_beyond {port : Nat} (peers : RankList) (s : State) (h : 18 ≤ port) : Gives (.linkDown port peers) s s := by
  unfold Gives
  rw [exec_linkDown, execLinkDown, if_pos h]
  rfl

/-- The packages are lost, and each region in turn sees whether a collective of its own is cut off. -/
theorem linkDown_eq {port : Nat} (peers : RankList) (s : State) (h : port < 18) :
    Gives (.linkDown port peers) s ((s.regions.map (fun q => q.1)).foldl cutRegion (lost port peers s)) := by
  unfold Gives
  rw [exec_linkDown, execLinkDown, if_neg (by omega)]
  rfl

theorem cutRegion_of_connected {s : State} {r : Nat}
    (h : ∀ c, s.ctxOf (s.region r) = some c → ∀ x ∈ (s.region r).colls, cutOff s c x = none) : cutRegion s r = s := by
  unfold cutRegion
  cases hc : s.ctxOf (s.region r) with
  | none => rfl
  | some c =>
    have hnone : (s.region r).colls.findSome? (fun x => (cutOff s c x).map (fun q => (x, q))) = none :=
      List.findSome?_eq_none_iff.mpr (fun x hx => by simp [h c hc x hx])
    simp only [hnone]

/-- A first collective that is cut off raises LINK (R471). -/
theorem cutRegion_of_cut {s : State} {r : Nat} {c : Context} {x : Coll} {l : List Coll} {q : Nat × Nat} (hc : s.ctxOf (s.region r) = some c)
    (hx : (s.region r).colls = x :: l) (hq : cutOff s c x = some q) : cutRegion s r = raise r (linkRec x q) s := by
  simp only [cutRegion, hc, hx, List.findSome?_cons, hq, Option.map_some]

theorem linkDown_connected {port : Nat} {peers : RankList} {s : State} (hport : port < 18)
    (h : ∀ q ∈ s.regions, ∀ c, s.ctxOf (s.region q.1) = some c → ∀ x ∈ (s.region q.1).colls, cutOff (lost port peers s) c x = none) :
    Gives (.linkDown port peers) s (lost port peers s) := by
  have hfold : (s.regions.map (fun q => q.1)).foldl cutRegion (lost port peers s) = lost port peers s :=
    List.foldlRecOn (motive := fun t => t = lost port peers s) _ _ rfl (fun t ht r hr => by
      obtain ⟨q, hq, rfl⟩ := List.mem_map.mp hr
      rw [ht]
      exact cutRegion_of_connected (h q hq))
  have hg := linkDown_eq peers s hport
  rwa [hfold] at hg

theorem linkDown_cut {port : Nat} {peers : RankList} {s : State} {r : Nat} {R : Region} {x : Coll} {l : List Coll} {c : Context} {q : Nat × Nat}
    (hport : port < 18) (hregs : s.regions = [(r, R)]) (hx : R.colls = x :: l) (hc : s.ctxOf R = some c)
    (hq : cutOff (lost port peers s) c x = some q) : Gives (.linkDown port peers) s (raise r (linkRec x q) (lost port peers s)) := by
  have hR : (lost port peers s).region r = R := by
    show Assoc.get Region.absent r s.regions = R
    simp [hregs, Assoc.get]
  have hg := linkDown_eq peers s hport
  rw [hregs] at hg
  simp only [List.map_cons, List.map_nil, List.foldl_cons, List.foldl_nil] at hg
  rwa [cutRegion_of_cut (c := c) (by rw [hR]; exact hc) (by rw [hR]; exact hx) hq] at hg

/-- Settles O44: the events of collectives, one lemma above for each clause. -/
theorem collectiveEvents : Obligations.CollectiveEvents := by
  refine ⟨fun asid r c x l b s hat => ⟨fun y hy => beat_kept hat hy, fun hseq hs hi hp => ⟨beat_differs hat hseq hs hi hp,
    beat_head hat hseq hs hi hp, ?_⟩⟩, fun asid rank r c s hf hr => ⟨?_, ?_⟩, fun port peers s => ⟨linkDown_beyond peers s, ?_⟩⟩
  · intro ht hb hm i n s0 s1 hok hreg _
    exact ⟨beat_block_unfinished hat hseq hs hi hp ht hb hm hok hreg,
      fun hn hsz hl _ _ => beat_block_last hat hseq hs hi hp ht hb hm hok hreg hn hsz hl⟩
  · exact fun hst => ⟨flit_of_saved hf hr rank hst, beat_of_saved hf hst⟩
  · exact fun hst hres hh => ⟨beat_before_launch hf hr hst hres hh, beat_before_issue hf hr hst hres hh,
      fun _ => flit_during_preemption hf hr hst hres hh, fun _ _ => flit_before_preemption hf hr hst hres hh⟩
  · exact fun hport => ⟨linkDown_connected hport, fun _ _ _ _ _ _ _ hregs hx hc => linkDown_cut hport hregs hx hc⟩

end Sys2Proof.Machine

end

section

namespace Sys2Proof

/-! ## Words and instructions: what `decode` reads from a word that `encode` gives (R22 to R44)

A word is a row of fields, each in the bits that its format gives it; a field that fits its bits reads back (`layout_field`). So at a packed
word the decoder's field readers give the packed fields, the opcode selects the reading, and the codes in the fields read back as what they
encode. -/

/-! ### Fields side by side -/

/-- A number made of fields, each a width and a value, the lowest first. -/
def layout : List (Nat × Nat) → Nat
  | [] => 0
  | p :: t => p.2 + 2 ^ p.1 * layout t
/-- Every value fits its width. -/
def FieldsFit (l : List (Nat × Nat)) : Prop := ∀ p ∈ l, p.2 < 2 ^ p.1

@[simp] theorem fieldsFit_nil : FieldsFit [] := by simp [FieldsFit]
@[simp] theorem fieldsFit_cons {p : Nat × Nat} {t : List (Nat × Nat)} : FieldsFit (p :: t) ↔ p.2 < 2 ^ p.1 ∧ FieldsFit t := by
  simp [FieldsFit]

theorem layout_lt {l : List (Nat × Nat)} (h : FieldsFit l) : layout l < 2 ^ (l.map Prod.fst).sum := by
  induction l with
  | nil => simp [layout]
  | cons p t ih =>
    obtain ⟨hp, ht⟩ := fieldsFit_cons.mp h
    calc layout (p :: t) < 2 ^ p.1 * (layout t + 1) := by rw [layout, Nat.mul_add]; omega
      _ ≤ 2 ^ p.1 * 2 ^ (t.map Prod.fst).sum := Nat.mul_le_mul_left _ (ih ht)
      _ = 2 ^ ((p :: t).map Prod.fst).sum := by rw [← Nat.pow_add, List.map_cons, List.sum_cons]

/-- Field `j` reads back at the place that the fields below it leave to it. -/
theorem layout_field {l : List (Nat × Nat)} (h : FieldsFit l) (j : Nat) {p : Nat × Nat} (hj : l[j]? = some p) :
    layout l / 2 ^ ((l.take j).map Prod.fst).sum % 2 ^ p.1 = p.2 := by
  induction l generalizing j with
  | nil => simp at hj
  | cons q t ih =>
    obtain ⟨hq, ht⟩ := fieldsFit_cons.mp h
    cases j with
    | zero =>
      obtain rfl : q = p := by simpa using hj
      simp [layout, Nat.mod_eq_of_lt hq]
    | succ j =>
      rw [List.take_succ_cons, List.map_cons, List.sum_cons, Nat.pow_add, ← Nat.div_div_eq_div_mul, layout,
        Nat.add_mul_div_left _ _ (Nat.two_pow_pos _), Nat.div_eq_of_lt hq, Nat.zero_add]
      exact ih ht j (by simpa using hj)

@[simp] theorem b2n_le_one (b : Bool) : b2n b ≤ 1 := by cases b <;> decide
theorem bit_of_div {w i : Nat} {b : Bool} (h : w / 2 ^ i % 2 = b2n b) : bit w i = b := by
  rw [bit, h]; cases b <;> rfl

/-! ### The formats (R22, R31 to R37) -/

/-- Format R or C, the lowest field first (R31, R36). -/
def RFields.fields (f : RFields) : List (Nat × Nat) :=
  [(16, f.imm), (9, f.fn), (1, b2n f.tc), (1, b2n f.tb), (1, b2n f.ta), (6, f.c), (6, f.b), (6, f.a), (6, f.dest), (3, f.g.pred.toNat),
    (1, b2n f.g.neg), (8, f.op)]
/-- Format I or B (R32, R35). -/
def IFields.fields (f : IFields) : List (Nat × Nat) :=
  [(32, f.imm), (7, 0), (1, b2n f.ta), (6, f.a), (6, f.dest), (3, f.g.pred.toNat), (1, b2n f.g.neg), (8, f.op)]
/-- Format M (R33). -/
def MFields.fields (f : MFields) : List (Nat × Nat) :=
  [(32, f.off), (1, 0), (3, f.order), (1, b2n f.sx), (1, b2n f.t), (2, f.size), (6, f.base), (6, f.data), (3, f.g.pred.toNat), (1, b2n f.g.neg),
    (8, f.op)]
/-- Format V (R37). -/
def vFields (op : Nat) (v : VWord) : List (Nat × Nat) :=
  [(1, b2n v.sat), (3, rndCode v.rnd), (6, v.fn.toNat), (4, v.kC.toNat), (7, v.selC.toNat), (4, v.kB.toNat), (7, v.selB.toNat), (4, v.kA.toNat),
    (7, v.selA.toNat), (5, v.dest.toNat), (4, fmtCode v.ty), (4, 0), (8, op)]

theorem packR_eq_layout (f : RFields) : packR f = BitVec.ofNat 64 (layout f.fields) := by
  simp only [packR, packHead, RFields.fields, layout]
  refine congrArg (BitVec.ofNat 64) ?_
  ring
theorem packI_eq_layout (f : IFields) : packI f = BitVec.ofNat 64 (layout f.fields) := by
  simp only [packI, packHead, IFields.fields, layout]
  refine congrArg (BitVec.ofNat 64) ?_
  ring
theorem packM_eq_layout (f : MFields) : packM f = BitVec.ofNat 64 (layout f.fields) := by
  simp only [packM, packHead, MFields.fields, layout]
  refine congrArg (BitVec.ofNat 64) ?_
  ring
theorem packV_eq_layout (op : Nat) (v : VWord) : packV op v = BitVec.ofNat 64 (layout (vFields op v)) := by
  simp only [packV, vFields, layout]
  refine congrArg (BitVec.ofNat 64) ?_
  ring

theorem toNat_ofNat_layout {l : List (Nat × Nat)} (h : FieldsFit l) (hw : (l.map Prod.fst).sum = 64) :
    (BitVec.ofNat 64 (layout l)).toNat = layout l := by
  rw [BitVec.toNat_ofNat, Nat.mod_eq_of_lt (hw ▸ layout_lt h)]

/-- The decoder's field readers give the fields `f` at the word `w` (R31, R36). -/
structure RFields.ReadAt (f : RFields) (w : Nat) : Prop where
  op : w / 2 ^ 56 = f.op
  guard : wGuard w = f.g
  dest : wD w = BitVec.ofNat 5 f.dest
  pdest : wPD w = BitVec.ofNat 3 f.dest
  a : wA w = f.a
  b : wB w = f.b
  c : wC w = f.c
  srcA : wSrcA w = { r := BitVec.ofNat 5 f.a, et := f.ta }
  srcB : wSrcB w = { r := BitVec.ofNat 5 f.b, et := f.tb }
  srcC : wSrcC w = { r := BitVec.ofNat 5 f.c, et := f.tc }
  fn : wFn w = f.fn
  imm : wI16 w = f.imm
  mask : BitVec.ofNat 16 w = BitVec.ofNat 16 f.imm

theorem wGuard_eq {w : Nat} {g : Guard} (hn : w / 2 ^ 55 % 2 = b2n g.neg) (hp : w / 2 ^ 52 % 2 ^ 3 = g.pred.toNat) : wGuard w = g := by
  have hb : bits w 54 52 = g.pred.toNat := hp
  simp [wGuard, bit_of_div hn, hb]

theorem div_eq_of_lt_mul {w n m v : Nat} (hw : w < n * m) (h : w / n % m = v) : w / n = v := by
  rw [← h, Nat.mod_eq_of_lt (Nat.div_lt_of_lt_mul hw)]

theorem readAt_packR {f : RFields} (h : FieldsFit f.fields) : f.ReadAt (packR f).toNat := by
  have hlt := (packR f).isLt
  rw [packR_eq_layout, toNat_ofNat_layout h rfl] at hlt ⊢
  have hA : wA (layout f.fields) = f.a := layout_field h 7 rfl
  have hB : wB (layout f.fields) = f.b := layout_field h 6 rfl
  have hC : wC (layout f.fields) = f.c := layout_field h 5 rfl
  have hD : bits (layout f.fields) 51 46 = f.dest := layout_field h 8 rfl
  have hI : wI16 (layout f.fields) = f.imm := layout_field h 0 rfl
  refine { op := div_eq_of_lt_mul hlt (layout_field h 11 rfl), guard := wGuard_eq (layout_field h 10 rfl) (layout_field h 9 rfl),
           dest := ?_, pdest := ?_, a := hA, b := hB, c := hC,
           srcA := ?_, srcB := ?_, srcC := ?_, fn := layout_field h 1 rfl, imm := hI, mask := ?_ }
  · rw [wD, hD]
  · rw [wPD, hD]
  · rw [wSrcA, hA, bit_of_div (i := 27) (layout_field h 4 rfl)]
  · rw [wSrcB, hB, bit_of_div (i := 26) (layout_field h 3 rfl)]
  · rw [wSrcC, hC, bit_of_div (i := 25) (layout_field h 2 rfl)]
  · rw [← hI]
    simp [wI16, bits, BitVec.toNat_eq]

/-- The same at a word of format I or B (R32, R35). -/
structure IFields.ReadAt (f : IFields) (w : Nat) : Prop where
  op : w / 2 ^ 56 = f.op
  guard : wGuard w = f.g
  dest : wD w = BitVec.ofNat 5 f.dest
  pdest : wPD w = BitVec.ofNat 3 f.dest
  srcI : wSrcI w = { r := BitVec.ofNat 5 f.a, et := f.ta }
  low : w % 2 ^ 32 = f.imm
  imm : wImm w = BitVec.ofNat 32 f.imm
  shift : BitVec.ofNat 6 w = BitVec.ofNat 6 f.imm

/-- The same at a word of format M (R33). -/
structure MFields.ReadAt (f : MFields) (w : Nat) : Prop where
  op : w / 2 ^ 56 = f.op
  guard : wGuard w = f.g
  data : wD w = BitVec.ofNat 5 f.data
  base : wA w = f.base
  order : wOrder w = f.order
  load : wLoad w = { size := sizeOf f.size, t := f.t, sx := f.sx, off := BitVec.ofNat 32 f.off }
  store : wStore w = { size := sizeOf f.size, t := f.t, off := BitVec.ofNat 32 f.off }

theorem readAt_packI {f : IFields} (h : FieldsFit f.fields) : f.ReadAt (packI f).toNat := by
  have hlt := (packI f).isLt
  rw [packI_eq_layout, toNat_ofNat_layout h rfl] at hlt ⊢
  have hA : wA (layout f.fields) = f.a := layout_field h 3 rfl
  have hD : bits (layout f.fields) 51 46 = f.dest := layout_field h 4 rfl
  have hI : layout f.fields % 2 ^ 32 = f.imm := by simpa using layout_field h 0 rfl
  refine { op := div_eq_of_lt_mul hlt (layout_field h 7 rfl), guard := wGuard_eq (layout_field h 6 rfl) (layout_field h 5 rfl),
           dest := ?_, pdest := ?_, srcI := ?_, low := hI, imm := ?_, shift := ?_ }
  · rw [wD, hD]
  · rw [wPD, hD]
  · rw [wSrcI, hA, bit_of_div (i := 39) (layout_field h 2 rfl)]
  · rw [← hI]; simp [wImm, BitVec.toNat_eq]
  · rw [← hI]; simp [BitVec.toNat_eq]

theorem readAt_packM {f : MFields} (h : FieldsFit f.fields) : f.ReadAt (packM f).toNat := by
  have hlt := (packM f).isLt
  rw [packM_eq_layout, toNat_ofNat_layout h rfl] at hlt ⊢
  have hD : bits (layout f.fields) 51 46 = f.data := layout_field h 7 rfl
  have hS : bits (layout f.fields) 39 38 = f.size := layout_field h 5 rfl
  have hO : BitVec.ofNat 32 (layout f.fields) = BitVec.ofNat 32 f.off := by
    have : layout f.fields % 2 ^ 32 = f.off := by simpa using layout_field h 0 rfl
    rw [← this]; simp [BitVec.toNat_eq]
  have hT : bit (layout f.fields) 37 = f.t := bit_of_div (layout_field h 4 rfl)
  have hX : bit (layout f.fields) 36 = f.sx := bit_of_div (layout_field h 3 rfl)
  exact { op := div_eq_of_lt_mul hlt (layout_field h 10 rfl), guard := wGuard_eq (layout_field h 9 rfl) (layout_field h 8 rfl),
          data := by rw [wD, hD], base := layout_field h 6 rfl, order := layout_field h 2 rfl,
          load := by rw [wLoad, hS, hT, hX, hO], store := by rw [wStore, hS, hT, hO] }

@[simp] theorem rndOf_rndCode (r : Rnd) : rndOf (rndCode r) = r := by cases r <;> rfl
@[simp] theorem fmtOf_fmtCode (f : Fmt) : fmtOf (fmtCode f) = f := by cases f <;> rfl

theorem readAt_packV {op : Nat} {v : VWord} (h : FieldsFit (vFields op v)) :
    (packV op v).toNat / 2 ^ 56 = op ∧ wV (packV op v).toNat = v := by
  have hlt := (packV op v).isLt
  rw [packV_eq_layout, toNat_ofNat_layout h rfl] at hlt ⊢
  refine ⟨div_eq_of_lt_mul hlt (layout_field h 12 rfl), ?_⟩
  have hty : bits (layout (vFields op v)) 51 48 = fmtCode v.ty := layout_field h 10 rfl
  have hdest : bits (layout (vFields op v)) 47 43 = v.dest.toNat := layout_field h 9 rfl
  have hselA : bits (layout (vFields op v)) 42 36 = v.selA.toNat := layout_field h 8 rfl
  have hkA : bits (layout (vFields op v)) 35 32 = v.kA.toNat := layout_field h 7 rfl
  have hselB : bits (layout (vFields op v)) 31 25 = v.selB.toNat := layout_field h 6 rfl
  have hkB : bits (layout (vFields op v)) 24 21 = v.kB.toNat := layout_field h 5 rfl
  have hselC : bits (layout (vFields op v)) 20 14 = v.selC.toNat := layout_field h 4 rfl
  have hkC : bits (layout (vFields op v)) 13 10 = v.kC.toNat := layout_field h 3 rfl
  have hfn : bits (layout (vFields op v)) 9 4 = v.fn.toNat := layout_field h 2 rfl
  have hrnd : bits (layout (vFields op v)) 3 1 = rndCode v.rnd := layout_field h 1 rfl
  have hsat : bit (layout (vFields op v)) 0 = v.sat := bit_of_div (layout_field h 0 rfl)
  simp [wV, hty, hdest, hselA, hkA, hselB, hkB, hselC, hkC, hfn, hrnd, hsat]

/-! ### Which reading an opcode selects (R40) -/

theorem decodeRaw_eq {w op : Nat} (h : w / 2 ^ 56 = op) : decodeRaw w =
    if op ≤ 0x17 then decodeInt op w
    else if op ≤ 0x34 then decodeImm op w
    else if op ≤ 0x42 then decodeFp op w
    else if op ≤ 0x56 then decodeMem op w
    else if op ≤ 0x6B then decodeCtl op w
    else if op ≤ 0xA4 then decodeVec op w
    else if op ≤ 0xD7 then decodeCmd op w
    else if op ≤ 0xEF then decodeDde op w
    else if op ≤ 0xF6 then decodeSys op w
    else none := by
  subst h; rfl

section Ladder
variable {w op : Nat} (h : w / 2 ^ 56 = op)
include h
theorem decodeRaw_int (h1 : decide (op ≤ 0x17) = true) : decodeRaw w = decodeInt op w := by
  rw [decodeRaw_eq h, if_pos (of_decide_eq_true h1)]
theorem decodeRaw_imm (h1 : decide (0x17 < op ∧ op ≤ 0x34) = true) : decodeRaw w = decodeImm op w := by
  obtain ⟨lo, hi⟩ := of_decide_eq_true h1
  rw [decodeRaw_eq h, if_neg (by omega), if_pos hi]
theorem decodeRaw_fp (h1 : decide (0x34 < op ∧ op ≤ 0x42) = true) : decodeRaw w = decodeFp op w := by
  obtain ⟨lo, hi⟩ := of_decide_eq_true h1
  rw [decodeRaw_eq h, if_neg (by omega), if_neg (by omega), if_pos hi]
theorem decodeRaw_mem (h1 : decide (0x42 < op ∧ op ≤ 0x56) = true) : decodeRaw w = decodeMem op w := by
  obtain ⟨lo, hi⟩ := of_decide_eq_true h1
  rw [decodeRaw_eq h, if_neg (by omega), if_neg (by omega), if_neg (by omega), if_pos hi]
theorem decodeRaw_ctl (h1 : decide (0x56 < op ∧ op ≤ 0x6B) = true) : decodeRaw w = decodeCtl op w := by
  obtain ⟨lo, hi⟩ := of_decide_eq_true h1
  rw [decodeRaw_eq h, if_neg (by omega), if_neg (by omega), if_neg (by omega), if_neg (by omega), if_pos hi]
theorem decodeRaw_vec (h1 : decide (0x6B < op ∧ op ≤ 0xA4) = true) : decodeRaw w = decodeVec op w := by
  obtain ⟨lo, hi⟩ := of_decide_eq_true h1
  rw [decodeRaw_eq h, if_neg (by omega), if_neg (by omega), if_neg (by omega), if_neg (by omega), if_neg (by omega), if_pos hi]
theorem decodeRaw_cmd (h1 : decide (0xA4 < op ∧ op ≤ 0xD7) = true) : decodeRaw w = decodeCmd op w := by
  obtain ⟨lo, hi⟩ := of_decide_eq_true h1
  rw [decodeRaw_eq h, if_neg (by omega), if_neg (by omega), if_neg (by omega), if_neg (by omega), if_neg (by omega), if_neg (by omega),
    if_pos hi]
theorem decodeRaw_dde (h1 : decide (0xD7 < op ∧ op ≤ 0xEF) = true) : decodeRaw w = decodeDde op w := by
  obtain ⟨lo, hi⟩ := of_decide_eq_true h1
  rw [decodeRaw_eq h, if_neg (by omega), if_neg (by omega), if_neg (by omega), if_neg (by omega), if_neg (by omega), if_neg (by omega),
    if_neg (by omega), if_pos hi]
theorem decodeRaw_sys (h1 : decide (0xEF < op ∧ op ≤ 0xF6) = true) : decodeRaw w = decodeSys op w := by
  obtain ⟨lo, hi⟩ := of_decide_eq_true h1
  rw [decodeRaw_eq h, if_neg (by omega), if_neg (by omega), if_neg (by omega), if_neg (by omega), if_neg (by omega), if_neg (by omega),
    if_neg (by omega), if_neg (by omega), if_pos hi]
end Ladder

/-! ### Codes and their readings -/

@[simp] theorem reg_lt (d : Reg) : d.toNat < 64 := by omega
@[simp] theorem imm_lt (x : Imm) : x.toNat < 4294967296 := x.isLt
@[simp] theorem mask_lt (x : Mask16) : x.toNat < 65536 := x.isLt
@[simp] theorem predCode_lt (p : PReg) : 32 + p.toNat < 64 := by omega
@[simp] theorem chanCode_lt (j : CReg) : 48 + j.toNat < 64 := by omega
@[simp] theorem ofNat_predCode (p : PReg) : BitVec.ofNat 3 (32 + p.toNat) = p := by
  apply BitVec.eq_of_toNat_eq; simp; omega
@[simp] theorem ofNat_chanCode (j : CReg) : BitVec.ofNat 4 (48 + j.toNat) = j := by
  apply BitVec.eq_of_toNat_eq; simp; omega

theorem rndCode_lt (r : Rnd) : rndCode r < 6 := by cases r <;> decide
theorem fmtCode_lt (f : Fmt) : fmtCode f < 16 := by cases f <;> decide
theorem rmodeCode_lt (m : RMode) : rmodeCode m < 8 := by
  cases m with
  | fixed r => exact (rndCode_lt r).trans (by decide)
  | dyn => decide
theorem precCode_le (p : Prec) : precCode p ≤ 1 := by cases p <;> decide
theorem fcondCode_lt (c : FCond) : fcondCode c < 4 := by cases c <;> decide
theorem fkindCode_lt (k : FKind) : fkindCode k < 4 := by cases k <;> decide
theorem sizeCode_lt (z : Size) : sizeCode z < 4 := by cases z <;> decide
theorem atomCode_lt (op : AtomOp) : atomCode op < 9 := by cases op <;> decide
theorem atomVCode_lt (op : AtomVOp) : atomVCode op < 3 := by cases op <;> decide
theorem scopeCode_lt (sc : Scope) : scopeCode sc < 5 := by cases sc <;> decide
theorem sysCode_lt (y : SysReg) : sysCode y < 49 := by cases y <;> decide

theorem rndOf_of_mod {n : Nat} {r : Rnd} (h : n % 8 = rndCode r) : rndOf n = r := by rw [rndOf, h]; cases r <;> rfl
theorem fmtOf_of_mod {n : Nat} {f : Fmt} (h : n % 16 = fmtCode f) : fmtOf n = f := by rw [fmtOf, h]; cases f <;> rfl
theorem rmodeOf_of_mod {n : Nat} {m : RMode} (h : n % 8 = rmodeCode m) : rmodeOf n = m := by
  cases m with
  | fixed r =>
    have hr := rndCode_lt r
    have h7 : n % 8 ≠ 7 := by rw [h, rmodeCode]; omega
    rw [rmodeOf, if_neg h7, rndOf_of_mod h]
  | dyn => rw [rmodeOf, if_pos (show n % 8 = 7 from h)]
theorem precOf_of_mod {n : Nat} {p : Prec} (h : n % 2 = precCode p) : precOf n = p := by rw [precOf, h]; cases p <;> rfl
theorem fkindOf_of_mod {n : Nat} {k : FKind} (h : n % 4 = fkindCode k) : fkindOf n = k := by rw [fkindOf, h]; cases k <;> rfl
theorem scopeOf_of_mod {n : Nat} {sc : Scope} (h : n % 8 = scopeCode sc) : scopeOf n = sc := by rw [scopeOf, h]; cases sc <;> rfl
@[simp] theorem fcondOf_fcondCode (c : FCond) : fcondOf (fcondCode c) = c := by cases c <;> rfl
@[simp] theorem sizeOf_sizeCode (z : Size) : sizeOf (sizeCode z) = z := by cases z <;> rfl
@[simp] theorem atomOf_atomCode (op : AtomOp) : atomOf (atomCode op) = op := by cases op <;> rfl
@[simp] theorem atomVOf_atomVCode (op : AtomVOp) : atomVOf (atomVCode op) = op := by cases op <;> rfl
@[simp] theorem sysOf_sysCode (y : SysReg) : sysOf (sysCode y) = y := by cases y <;> rfl
@[simp] theorem precOf_precCode (p : Prec) : precOf (precCode p) = p := by cases p <;> rfl
@[simp] theorem scopeOf_scopeCode (sc : Scope) : scopeOf (scopeCode sc) = sc := by cases sc <;> rfl
@[simp] theorem precCode_lt (p : Prec) : precCode p < 512 := (Nat.lt_succ_of_le (precCode_le p)).trans (by decide)
@[simp] theorem scopeCode_lt_fn (sc : Scope) : scopeCode sc < 512 := (scopeCode_lt sc).trans (by decide)

/-- The function field of the predicate forms (R95). -/
@[simp] theorem predFn (nx ny : Bool) :
    b2n nx + 2 * b2n ny < 512 ∧ bit (b2n nx + 2 * b2n ny) 0 = nx ∧ bit (b2n nx + 2 * b2n ny) 1 = ny := by
  cases nx <;> cases ny <;> decide

@[simp] theorem fmodeCode_lt (f : FMode) : fmodeCode f < 512 := by
  have h1 := precCode_le f.prec
  have h2 := rmodeCode_lt f.rm
  have h3 := b2n_le_one f.sat
  rw [fmodeCode]; omega
@[simp] theorem fmodeOf_fmodeCode (f : FMode) : fmodeOf (fmodeCode f) = f := by
  have h1 := precCode_le f.prec
  have h2 := rmodeCode_lt f.rm
  have h3 := b2n_le_one f.sat
  have hp : precOf (fmodeCode f) = f.prec := precOf_of_mod (by rw [fmodeCode]; omega)
  have hr : rmodeOf (fmodeCode f / 2) = f.rm := rmodeOf_of_mod (by rw [fmodeCode]; omega)
  have hs : bit (fmodeCode f) 4 = f.sat := bit_of_div (by rw [fmodeCode]; omega)
  rw [fmodeOf, hp, hr, hs]

@[simp] theorem ofNat_low4 (x : BitVec 4) (m : Nat) : BitVec.ofNat 4 (x.toNat + 16 * m) = x := by
  apply BitVec.eq_of_toNat_eq; simp; omega

/-- What the immediate field of SBIND holds (R228). -/
theorem sbindImm (pat : Tmpl) (ag eoi : Bool) (port : Three) :
    let n := pat.toNat + 16 * b2n ag + 32 * port.toNat + 256 * b2n eoi
    n < 65536 ∧ bit n 8 = eoi ∧ BitVec.ofNat 3 (n / 32) = port ∧ bit n 4 = ag ∧ BitVec.ofNat 4 n = pat := by
  have h1 := b2n_le_one ag
  have h2 := b2n_le_one eoi
  refine ⟨by omega, bit_of_div (by omega), ?_, bit_of_div (by omega), ?_⟩
  · apply BitVec.eq_of_toNat_eq; rw [BitVec.toNat_ofNat]; omega
  · apply BitVec.eq_of_toNat_eq; rw [BitVec.toNat_ofNat]; omega

@[simp] theorem scopeOf_fenceFn {k : Nat} (hk : k < 4) (sc : Scope) : scopeOf ((k + 4 * scopeCode sc) / 4) = sc :=
  scopeOf_of_mod (by have := scopeCode_lt sc; omega)
/-- What the immediate field of XFORM holds (R224): the command, the format, a second format, the rounding and the saturation. -/
theorem xformImm {k e r : Nat} (hk : k < 8) (he : e < 16) (hr : r < 6) (f : Fmt) (sat : Bool) :
    let n := k + 8 * fmtCode f + 128 * e + 2048 * r + 16384 * b2n sat
    n < 65536 ∧ n % 8 = k ∧ fmtOf (n / 8) = f ∧ n / 128 % 16 = e ∧ n / 2048 % 8 = r ∧ bit n 14 = sat := by
  have hf := fmtCode_lt f
  have hs := b2n_le_one sat
  exact ⟨by omega, by omega, fmtOf_of_mod (by omega), by omega, by omega, bit_of_div (by omega)⟩

/-! ### Reading the word of an instruction back -/

/-- Every field but the opcode fits the bits that format R or C gives it. -/
def RFields.Fits (f : RFields) : Prop := f.dest < 64 ∧ f.a < 64 ∧ f.b < 64 ∧ f.c < 64 ∧ f.fn < 512 ∧ f.imm < 65536
/-- The same in format I or B. -/
def IFields.Fits (f : IFields) : Prop := f.dest < 64 ∧ f.a < 64 ∧ f.imm < 4294967296
/-- The same in format M. -/
def MFields.Fits (f : MFields) : Prop := f.order < 8 ∧ f.size < 4 ∧ f.base < 64 ∧ f.data < 64 ∧ f.off < 4294967296

/-- The word that `encode` gives `i`, if it gives one, reads as `i` before the check of `decode`. -/
def Reads (i : Instr) (o : Option IWord) : Prop := ∀ w, o = some w → decodeRaw w.toNat = some i

theorem reads_none {i : Instr} : Reads i none := fun _ h => nomatch h
theorem reads_packR {f : RFields} {i : Instr} (hop : decide (f.op < 256) = true) (hf : f.Fits)
    (h : ∀ w, f.ReadAt w → decodeRaw w = some i) : Reads i (some (packR f)) := by
  intro w e
  obtain rfl := Option.some.inj e
  obtain ⟨hd, ha, hb, hc, hfn, hi⟩ := hf
  refine h _ (readAt_packR ?_)
  simp [RFields.fields, hd, ha, hb, hc, hfn, hi, of_decide_eq_true hop, f.g.pred.isLt]
theorem reads_packI {f : IFields} {i : Instr} (hop : decide (f.op < 256) = true) (hf : f.Fits)
    (h : ∀ w, f.ReadAt w → decodeRaw w = some i) : Reads i (some (packI f)) := by
  intro w e
  obtain rfl := Option.some.inj e
  obtain ⟨hd, ha, hi⟩ := hf
  refine h _ (readAt_packI ?_)
  simp [IFields.fields, hd, ha, hi, of_decide_eq_true hop, f.g.pred.isLt]
theorem reads_packM {f : MFields} {i : Instr} (hop : decide (f.op < 256) = true) (hf : f.Fits)
    (h : ∀ w, f.ReadAt w → decodeRaw w = some i) : Reads i (some (packM f)) := by
  intro w e
  obtain rfl := Option.some.inj e
  obtain ⟨ho, hs, hb, hd, hi⟩ := hf
  refine h _ (readAt_packM ?_)
  simp [MFields.fields, ho, hs, hb, hd, hi, of_decide_eq_true hop, f.g.pred.isLt]
theorem reads_packV {op : Nat} {v : VWord} {i : Instr} (hop : decide (0x6B < op ∧ op ≤ 0xA4) = true)
    (h : ∀ w, wV w = v → decodeVec op w = some i) : Reads i (some (packV op v)) := by
  intro w e
  obtain rfl := Option.some.inj e
  have hr := rndCode_lt v.rnd
  have hf : FieldsFit (vFields op v) := by
    have := (of_decide_eq_true hop).2
    simp [vFields, fmtCode_lt]
    omega
  obtain ⟨hw, hv⟩ := readAt_packV hf
  rw [decodeRaw_vec hw hop]
  exact h _ hv

theorem reads_fcmp {g : Guard} {p : PReg} {a b : Src} {pr : Prec} {c : FCond} :
    Reads (.fcmp g p a b pr c) (encode (.fcmp g p a b pr c)) := by
  have h1 := precCode_le pr
  have h2 := fcondCode_lt c
  have hp : precOf (precCode pr + 32 * fcondCode c) = pr := precOf_of_mod (by omega)
  have hc : (precCode pr + 32 * fcondCode c) / 32 = fcondCode c := by omega
  exact reads_packR rfl (by simp [RFields.Fits]; omega) fun w h => by
    rw [decodeRaw_fp h.op rfl]
    simp [decodeFp, h.guard, h.pdest, h.srcA, h.srcB, h.fn, hp, hc]
theorem reads_fcvt {g : Guard} {d : Reg} {a : Src} {sk dk : FKind} {rm : RMode} {sat : Bool} :
    Reads (.fcvt g d a sk dk rm sat) (encode (.fcvt g d a sk dk rm sat)) := by
  have h1 := fkindCode_lt sk
  have h2 := fkindCode_lt dk
  have h3 := rmodeCode_lt rm
  have h4 := b2n_le_one sat
  exact reads_packR rfl (by simp [RFields.Fits]; omega) fun w h => by
    rw [decodeRaw_fp h.op rfl]
    have hfn := h.fn
    dsimp only at hfn
    have hs : fkindOf (wFn w / 128) = sk := fkindOf_of_mod (by omega)
    have hd : fkindOf (wFn w / 32) = dk := fkindOf_of_mod (by omega)
    have hr : rmodeOf (wFn w / 2) = rm := rmodeOf_of_mod (by omega)
    have ht : bit (wFn w) 4 = sat := bit_of_div (by omega)
    simp [decodeFp, h.guard, h.dest, h.srcA, hs, hd, hr, ht]
theorem reads_xformCvt {g : Guard} {d : Reg} {a b : Src} {fmt dfmt : Fmt} {rnd : Rnd} {sat : Bool} :
    Reads (.xformCvt g d a b fmt dfmt rnd sat) (encode (.xformCvt g d a b fmt dfmt rnd sat)) := by
  obtain ⟨hlt, hk, hf, hd, hr, hs⟩ := xformImm (k := 0) (by decide) (fmtCode_lt dfmt) (rndCode_lt rnd) fmt sat
  simp only [Nat.zero_add] at hlt hk hf hd hr hs
  exact reads_packR rfl (by simp [RFields.Fits, hlt]) fun w h => by
    rw [decodeRaw_cmd h.op rfl]
    simp only [decodeCmd, h.imm, hk, hf, fmtOf_of_mod hd, rndOf_of_mod hr, hs]
    simp [h.guard, h.dest, h.srcA, h.srcB]
theorem reads_xformScale {g : Guard} {d : Reg} {a b c : Src} {fmt : Fmt} {rnd : Rnd} {sat : Bool} :
    Reads (.xformScale g d a b c fmt rnd sat) (encode (.xformScale g d a b c fmt rnd sat)) := by
  obtain ⟨hlt, hk, hf, hd, hr, hs⟩ := xformImm (k := 1) (by decide) (show 0 < 16 by decide) (rndCode_lt rnd) fmt sat
  simp only [Nat.mul_zero, Nat.add_zero] at hlt hk hf hd hr hs
  exact reads_packR rfl (by simp [RFields.Fits, hlt]) fun w h => by
    rw [decodeRaw_cmd h.op rfl]
    simp only [decodeCmd, h.imm, hk, hf, rndOf_of_mod hr, hs]
    simp [h.guard, h.dest, h.srcA, h.srcB, h.srcC]
theorem reads_xformFill {g : Guard} {d : Reg} {a b c : Src} {fmt : Fmt} {sat : Bool} :
    Reads (.xformFill g d a b c fmt sat) (encode (.xformFill g d a b c fmt sat)) := by
  obtain ⟨hlt, hk, hf, hd, hr, hs⟩ := xformImm (k := 2) (by decide) (show 0 < 16 by decide) (show 0 < 6 by decide) fmt sat
  simp only [Nat.mul_zero, Nat.add_zero] at hlt hk hf hd hr hs
  exact reads_packR rfl (by simp [RFields.Fits, hlt]) fun w h => by
    rw [decodeRaw_cmd h.op rfl]
    simp only [decodeCmd, h.imm, hk, hf, hs]
    simp [h.guard, h.dest, h.srcA, h.srcB, h.srcC]
theorem reads_xformAdd {g : Guard} {d : Reg} {a b c : Src} {fmt : Fmt} {rnd : Rnd} {sat : Bool} :
    Reads (.xformAdd g d a b c fmt rnd sat) (encode (.xformAdd g d a b c fmt rnd sat)) := by
  obtain ⟨hlt, hk, hf, hd, hr, hs⟩ := xformImm (k := 3) (by decide) (show 0 < 16 by decide) (rndCode_lt rnd) fmt sat
  simp only [Nat.mul_zero, Nat.add_zero] at hlt hk hf hd hr hs
  exact reads_packR rfl (by simp [RFields.Fits, hlt]) fun w h => by
    rw [decodeRaw_cmd h.op rfl]
    simp only [decodeCmd, h.imm, hk, hf, rndOf_of_mod hr, hs]
    simp [h.guard, h.dest, h.srcA, h.srcB, h.srcC]
theorem reads_xformAmax {g : Guard} {d : Reg} {a b : Src} {fmt : Fmt} {sat : Bool} :
    Reads (.xformAmax g d a b fmt sat) (encode (.xformAmax g d a b fmt sat)) := by
  obtain ⟨hlt, hk, hf, hd, hr, hs⟩ := xformImm (k := 4) (by decide) (show 0 < 16 by decide) (show 0 < 6 by decide) fmt sat
  simp only [Nat.mul_zero, Nat.add_zero] at hlt hk hf hd hr hs
  exact reads_packR rfl (by simp [RFields.Fits, hlt]) fun w h => by
    rw [decodeRaw_cmd h.op rfl]
    simp only [decodeCmd, h.imm, hk, hf, hs]
    simp [h.guard, h.dest, h.srcA, h.srcB]
theorem reads_sbind {g : Guard} {d : Reg} {a b : Src} {eoi : Bool} {port : Three} {ag : Bool} {pat : Tmpl} :
    Reads (.sbind g d a b eoi port ag pat) (encode (.sbind g d a b eoi port ag pat)) := by
  obtain ⟨hlt, he, hp, ha, ht⟩ := sbindImm pat ag eoi port
  exact reads_packR rfl (by simp [RFields.Fits, hlt]) fun w h => by
    rw [decodeRaw_cmd h.op rfl]
    simp [decodeCmd, h.guard, h.dest, h.srcA, h.srcB, h.imm, he, hp, ha, ht]

/-- The word of a well-formed instruction reads as that instruction: one block for each reading and each make-up of the fields. -/
theorem reads_encode (i : Instr) (hi : i.wf = true) : Reads i (encode i) := by
  unfold encode
  cases i
  case add | addSat | sub | subSat | mul | mulSat | mulh | mulhu | div | divu | rem | remu | and | or | xor | andn | shl | shlSat | shr | sra
      | rotr | min | max | minu | maxu | clz | ctz | popc =>
    exact reads_packR rfl (by simp [RFields.Fits]) fun w h => by
      rw [decodeRaw_int h.op rfl]
      simp [decodeInt, h.guard, h.dest, h.srcA, h.srcB, h.fn]
  case addi | andi | ori | xori | lui | ceqi | clti =>
    exact reads_packI rfl (by simp [IFields.Fits]) fun w h => by
      rw [decodeRaw_imm h.op rfl]
      simp [decodeImm, h.guard, h.dest, h.pdest, h.srcI, h.imm]
  case shli | shri | srai =>
    exact reads_packI rfl (by simp [IFields.Fits]; omega) fun w h => by
      rw [decodeRaw_imm h.op rfl]
      simp [decodeImm, h.guard, h.dest, h.srcI, h.shift]
  case lea =>
    exact reads_packR rfl (by simp [RFields.Fits]; omega) fun w h => by
      rw [decodeRaw_imm h.op rfl]
      simp [decodeImm, h.guard, h.dest, h.srcA, h.srcB, h.fn]
  case sel | ceq | cne | clt | cle | cltu | cleu | pand | por | pxor =>
    exact reads_packR rfl (by simp [RFields.Fits]) fun w h => by
      rw [decodeRaw_imm h.op rfl]
      simp [decodeImm, h.guard, h.dest, h.pdest, h.a, h.b, h.c, h.srcA, h.srcB, h.fn]
  case fadd | fsub | fmul | ffma | fdiv | fsqrt | fmin | fmax | fclass =>
    exact reads_packR rfl (by simp [RFields.Fits]) fun w h => by
      rw [decodeRaw_fp h.op rfl]
      simp [decodeFp, h.guard, h.dest, h.srcA, h.srcB, h.srcC, h.fn]
  case ldl | stl | ldr | str | lds | sts | ldg | ldgAcq | ldgSc | stg | stgRel | stgSc =>
    exact reads_packM rfl (by simp [MFields.Fits, sizeCode_lt]) fun w h => by
      rw [decodeRaw_mem h.op rfl]
      simp [decodeMem, h.guard, h.data, h.base, h.order, h.load, h.store]
  case ats g a b op dbl | atg g a b op dbl =>
    have h1 := atomCode_lt op
    have h2 := b2n_le_one dbl
    have hop : (32 * atomCode op + 16 + 8 * b2n dbl) / 32 = atomCode op := by omega
    have hd : bit (32 * atomCode op + 16 + 8 * b2n dbl) 3 = dbl := bit_of_div (by omega)
    exact reads_packR rfl (by simp [RFields.Fits]; omega) fun w h => by
      rw [decodeRaw_mem h.op rfl]
      simp [decodeMem, h.guard, h.srcA, h.srcB, h.fn, hop, hd]
  case atsv g d a b c op dbl | atgv g d a b c op dbl =>
    have h1 := atomVCode_lt op
    have h2 := b2n_le_one dbl
    have hop : (32 * atomVCode op + 16 + 8 * b2n dbl) / 32 = atomVCode op := by omega
    have hd : bit (32 * atomVCode op + 16 + 8 * b2n dbl) 3 = dbl := bit_of_div (by omega)
    exact reads_packR rfl (by simp [RFields.Fits]; omega) fun w h => by
      rw [decodeRaw_mem h.op rfl]
      simp [decodeMem, h.guard, h.dest, h.srcA, h.srcB, h.srcC, h.fn, hop, hd]
  case recv | send | peek | peekQ =>
    exact reads_packR rfl (by simp [RFields.Fits]) fun w h => by
      rw [decodeRaw_mem h.op rfl]
      simp [decodeMem, wCA, h.guard, h.dest, h.pdest, h.a, h.srcA, h.srcB, h.fn]
  case sendRel g a b sc =>
    have h1 := scopeCode_lt sc
    have hsc : scopeOf ((1 + 2 * scopeCode sc) / 2) = sc := scopeOf_of_mod (by omega)
    exact reads_packR rfl (by simp [RFields.Fits]; omega) fun w h => by
      rw [decodeRaw_mem h.op rfl]
      simp [decodeMem, h.guard, h.srcA, h.srcB, h.fn, hsc]
  case br | jmp | call | loop | trap | halt =>
    exact reads_packI rfl (by simp [IFields.Fits]) fun w h => by
      rw [decodeRaw_ctl h.op rfl]
      simp [decodeCtl, h.guard, h.dest, h.srcI, h.imm]
  case twait | trun | tend | empty | fullq | yield =>
    exact reads_packR rfl (by simp [RFields.Fits]) fun w h => by
      rw [decodeRaw_ctl h.op rfl]
      simp [decodeCtl, h.guard, h.dest, h.pdest, h.a, h.srcA, h.srcB, h.srcC]
  case vadd | vsub | vmul | vfma | vmac | vdot4 | vabs | vneg | vmin | vmax | vminp | vmaxp | vclamp | vand | vor | vxor | vshl | vshr
      | vsra | vcmp | vsel | vcvt | vscale | vamax | vsf | vsum | vscan | vbcast | vslide | vtap | vexpand | vcompress | vsteer | vmerge
      | vmov =>
    exact reads_packV rfl fun w h => by simp [decodeVec, h]
  case vperm v =>
    have hfn : v.fn = 0 := by simp [Instr.wf] at hi; exact hi.2
    exact reads_packV rfl fun w h => by simp [decodeVec, h, hfn]
  case vperm2 v =>
    have hfn : v.fn = 1 := by simp [Instr.wf] at hi; exact hi.2
    exact reads_packV rfl fun w h => by simp [decodeVec, h, hfn]
  case vnrw v =>
    have hfn : bit v.fn.toNat 3 = false := by simp [Instr.wf] at hi; exact hi.2.2
    exact reads_packV rfl fun w h => by simp [decodeVec, h, hfn]
  case vnrwStream v =>
    have hfn : bit v.fn.toNat 3 = true := by
      simp [Instr.wf] at hi
      rcases hi.2 with e | e <;> rw [e] <;> rfl
    exact reads_packV rfl fun w h => by simp [decodeVec, h, hfn]
  case cwait | mscale | mscaleMx | mwload | mwloadP | copy | copyWait | tinv | tinvT | tinvAll | tinvWait | xlook | xlookO | glaunch | glaunchQ
      | collReduceRing | collReduceTree | collAllreduceRing | collAllreduceTree | collGather | collScatter | collRank =>
    exact reads_packR rfl (by simp [RFields.Fits]) fun w h => by
      rw [decodeRaw_cmd h.op rfl]
      simp [decodeCmd, h.guard, h.dest, h.srcA, h.srcB, h.srcC, h.fn]
  case cwaitFlags | cbar | phase | marm | marmQ | marmWait | marmFlags | crun | crunWait | cedge | xexpect | xwait | garm | garmQ =>
    exact reads_packR rfl (by simp [RFields.Fits]; omega) fun w h => by
      rw [decodeRaw_cmd h.op rfl]
      simp [decodeCmd, h.guard, h.dest, h.srcA, h.srcB, h.fn, h.imm]
  case sbar | sbarWait =>
    exact reads_packR rfl (by simp [RFields.Fits]) fun w h => by
      rw [decodeRaw_cmd h.op rfl]
      simp [decodeCmd, h.guard, h.fn, h.mask]
  case chain g d a b t eoi =>
    have h1 := b2n_le_one eoi
    have he : bit (t.toNat + 16 * b2n eoi) 4 = eoi := bit_of_div (by omega)
    exact reads_packR rfl (by simp [RFields.Fits]; omega) fun w h => by
      rw [decodeRaw_cmd h.op rfl]
      simp [decodeCmd, h.guard, h.dest, h.srcA, h.srcB, h.imm, he]
  case cwaitMag g d t m =>
    have hm : (t.toNat + 16 * m.toNat) / 16 = m.toNat := by omega
    exact reads_packR rfl (by simp [RFields.Fits]; omega) fun w h => by
      rw [decodeRaw_cmd h.op rfl]
      simp [decodeCmd, h.guard, h.dest, h.fn, h.imm, hm]
  case sclose g d port ag | scloseAbort g d port ag =>
    have h1 := b2n_le_one ag
    have hp : (16 * b2n ag + 32 * port.toNat) / 32 = port.toNat := by omega
    have ha : bit (16 * b2n ag + 32 * port.toNat) 4 = ag := bit_of_div (by omega)
    exact reads_packR rfl (by simp [RFields.Fits]; omega) fun w h => by
      rw [decodeRaw_cmd h.op rfl]
      simp [decodeCmd, h.guard, h.dest, h.fn, h.imm, hp, ha]
  case ddcfg | ddcfgGrow | ddvar | ddvarLvl | ddvarVar | ddite | ddrestrict | ddquantEx | ddquantAll | ddcompose | ddwcount | ddsat | ddenum
      | ddenumE | ddref | ddderef | ddgc | ddswap | ddnode =>
    exact reads_packR rfl (by simp [RFields.Fits]) fun w h => by
      rw [decodeRaw_dde h.op rfl]
      simp [decodeDde, h.guard, h.dest, h.srcA, h.srcB, h.srcC, h.fn]
  case ddapply | ddstat =>
    exact reads_packR rfl (by simp [RFields.Fits]; omega) fun w h => by
      rw [decodeRaw_dde h.op rfl]
      simp [decodeDde, h.guard, h.dest, h.srcA, h.srcB, h.fn]
  case mfsr g d y | mtsr g y d =>
    have hy := sysCode_lt y
    exact reads_packI rfl (by simp [IFields.Fits]; omega) fun w h => by
      rw [decodeRaw_sys h.op rfl]
      simp only [decodeSys, h.guard, h.dest, h.srcI, h.low, sysOf_sysCode]
      simp
  case fenceWait | rdtime | rdtimeCyc | digest | digestOut | seed | colchk =>
    exact reads_packR rfl (by simp [RFields.Fits]) fun w h => by
      rw [decodeRaw_sys h.op rfl]
      simp [decodeSys, h.guard, h.dest, h.srcA, h.srcB, h.srcC, h.fn]
  case fenceRel g sc | fenceAcq g sc | fenceAcqrel g sc =>
    have h1 := scopeCode_lt sc
    exact reads_packR rfl (by simp [RFields.Fits]; omega) fun w h => by
      rw [decodeRaw_sys h.op rfl]
      simp [decodeSys, h.guard, h.fn, scopeOf_fenceFn]
  case fcmp => exact reads_fcmp
  case fcvt => exact reads_fcvt
  case xformCvt => exact reads_xformCvt
  case xformScale => exact reads_xformScale
  case xformFill => exact reads_xformFill
  case xformAdd => exact reads_xformAdd
  case xformAmax => exact reads_xformAmax
  case sbind => exact reads_sbind
  all_goals exact reads_none

/-- `encode` has a word for exactly the rows that are words. -/
theorem isSome_encode (i : Instr) : (encode i).isSome = !i.isEvent := by
  unfold encode Instr.isEvent
  cases i <;> rfl

theorem decode_of_encode {i : Instr} {w : IWord} (hi : i.wf = true) (h : encode i = some w) : decode w = some i := by
  simp [decode, reads_encode i hi w h, hi, h]

theorem decode_eq_some {w : IWord} {i : Instr} (h : decode w = some i) : i.wf = true ∧ encode i = some w := by
  unfold decode at h
  split at h
  · next j hj =>
    split at h
    · next hc =>
      obtain rfl := Option.some.inj h
      simpa using hc
    · cases h
  · cases h

/-- Settles O58: every field of a packed word reads back (`readAt_packR` and its like), so that the reading of an instruction's word is that
instruction (`reads_encode`); the converse is the check that `decode` makes. -/
theorem encodeDecodeRoundTrip : Obligations.EncodeDecodeRoundTrip := by
  refine ⟨fun i hev hwf => ?_, fun w i h => ?_⟩
  · obtain ⟨w, hw⟩ := Option.isSome_iff_exists.mp (show (encode i).isSome = true by rw [isSome_encode, hev]; rfl)
    exact ⟨w, hw, decode_of_encode hwf hw⟩
  · obtain ⟨hwf, henc⟩ := decode_eq_some h
    have hsome := isSome_encode i
    rw [henc] at hsome
    exact ⟨by simpa using hsome.symm, hwf, henc⟩

end Sys2Proof

end

section

namespace Sys2Proof.Machine

open Sys2Proof.Claims

/-! ## Issuing a word (O14), recoverable traps (O9), branches out of the instruction store (O7)

Each word's `exec` is one `issue` with the guard, sources and destinations of its form; what an attempt to issue does before the word's own
effect is then said once, for every word. -/

/-! ### Every word is an attempt to issue its form -/

/-- `o` is one attempt at `s` to issue a word with this guard, these sources and these destinations (R28). -/
def Attempt (g : Guard) (srcs : List Src) (dests : List Reg) (s : State) (o : Host.Outcome State Fault Refusal) : Prop :=
  ∃ body, o = issue g srcs dests body s
/-- Where a word of form `f` may stand, `o` is an attempt to issue it. -/
def AttemptOf (s : State) (o : Host.Outcome State Fault Refusal) : Option Form → Prop
  | none => True
  | some f => f.Stands s → Attempt f.guard f.srcs f.dests s o

section Shared
variable {g : Guard} {srcs : List Src} {dests : List Reg} {a b c : Src} {d x base : Reg} {p : PReg} {s : State}

theorem attempt_issue {body : State → State} : Attempt g srcs dests s (issue g srcs dests body s) := ⟨body, rfl⟩

theorem attemptOf_anywhere {o : Host.Outcome State Fault Refusal} (h : Attempt g srcs dests s o) :
    AttemptOf s o (some { guard := g, srcs := srcs, dests := dests, place := none }) := fun _ => h
theorem attemptOf_onCompute {k : State → Host.Outcome State Fault Refusal} (h : Attempt g srcs dests s (k s)) :
    AttemptOf s (onCompute k s) (some { guard := g, srcs := srcs, dests := dests, place := some true }) := fun hs => by
  have hu : isCtl s.cur.unit = false := by simpa [Form.Stands] using hs
  simpa [onCompute, hu] using h
theorem attemptOf_onControl {k : State → Host.Outcome State Fault Refusal} (h : Attempt g srcs dests s (k s)) :
    AttemptOf s (onControl k s) (some { guard := g, srcs := srcs, dests := dests, place := some false }) := fun hs => by
  have hu : isCtl s.cur.unit = true := by simpa [Form.Stands] using hs
  simpa [onControl, hu] using h

theorem attempt_intBin {f : Word → Word → Word} : Attempt g [a, b] [d] s (intBin f g d a b s) := attempt_issue
theorem attempt_intUn {f : Word → Word} : Attempt g [a] [d] s (intUn f g d a s) := attempt_issue
theorem attempt_intImm {f : Word → Word} : Attempt g [a] [d] s (intImm f g d a s) := attempt_intUn
theorem attempt_intOvf {sat : Bool} {f : Word → Word → Int} : Attempt g [a, b] [d] s (intOvf sat f g d a b s) := attempt_issue
theorem attempt_intLong {f : Word → Word → Word} : Attempt g [a, b] [d] s (intLong f g d a b s) := attempt_issue
theorem attempt_intImmOvf {f : Word → Int} : Attempt g [a] [d] s (intImmOvf f g d a s) := attempt_issue
theorem attempt_intCmp {f : Word → Word → Bool} : Attempt g [a, b] [] s (intCmp f g p a b s) := attempt_issue
theorem attempt_intCmpImm {f : Word → Bool} : Attempt g [a] [] s (intCmpImm f g p a s) := attempt_issue
theorem attempt_predOp {f : Bool → Bool → Bool} {y z : PReg} {ny nz : Bool} : Attempt g [] [] s (predOp f g p y z ny nz s) := attempt_issue
theorem attempt_fpArith {f : List XNum → XNum × Flg} {m : FMode} : Attempt g srcs [d] s (fpArith f m g d srcs s) := attempt_issue
theorem attempt_fpLong {f : List XNum → XNum × Flg} {m : FMode} : Attempt g srcs [d] s (fpLong f m g d srcs s) := attempt_issue
theorem attempt_fpMinMax {mx : Bool} {pr : Prec} : Attempt g [a, b] [d] s (fpMinMax mx pr g d a b s) := attempt_issue
theorem attempt_atomS {op : AtomKind} {dest : Option Reg} {dbl : Bool} : Attempt g srcs dest.toList s (atomS g a b c srcs op dest dbl s) :=
  attempt_issue
theorem attempt_atomG {op : AtomKind} {dest : Option Reg} {dbl : Bool} : Attempt g srcs dest.toList s (atomG g a b c srcs op dest dbl s) :=
  attempt_issue
theorem attempt_orderedLoad {sc : Bool} {m : LoadOp} : Attempt g (loadSrcs base m) [x] s (orderedLoad sc g x base m s) := attempt_issue
theorem attempt_orderedStore {m : StoreOp} : Attempt g (storeSrcs x base m) [] s (orderedStore g x base m s) := attempt_issue
theorem attempt_barrierWord {n : State → BarName} {sys : Bool} : Attempt g [a] [d] s (barrierWord n sys g d a s) := attempt_issue
theorem attempt_xformWord {cmd : XCmd} {f : Fmt} {rnd : Rnd} {sat : Bool} :
    Attempt g srcs [d] s (xformWord cmd f rnd sat g d a b c srcs s) := attempt_issue
theorem attempt_launchRecord {q : Bool} : Attempt g [a] [d] s (launchRecord q g d a s) := attempt_issue
theorem attempt_collWord {op : CollOp} {tree : Bool} : Attempt g [a] [d] s (collWord op tree g d a s) := attempt_issue
theorem attempt_ddWord {classA : Bool} {op fn : Nat} : Attempt g srcs dests s (ddWord classA g srcs dests op fn a b c s) := attempt_issue

end Shared
/-- Every word is an attempt to issue its form: the lemma of its meaning, words of one meaning together. -/
theorem attemptOf_exec (i : Instr) (s : State) : AttemptOf s (exec i s) (formOf i) := by
  unfold exec formOf
  cases i
  case add | addSat | sub | subSat | mul | mulSat | shl | shlSat => exact attemptOf_anywhere attempt_intOvf
  case mulh | mulhu | and | or | xor | andn | shr | sra | rotr | min | max | minu | maxu | lea => exact attemptOf_anywhere attempt_intBin
  case div | divu | rem | remu => exact attemptOf_anywhere attempt_intLong
  case clz | ctz | popc => exact attemptOf_anywhere attempt_intUn
  case andi | ori | xori | shri | srai | lui => exact attemptOf_anywhere attempt_intImm
  case addi | shli => exact attemptOf_anywhere attempt_intImmOvf
  case ceq | cne | clt | cle | cltu | cleu => exact attemptOf_anywhere attempt_intCmp
  case ceqi | clti => exact attemptOf_anywhere attempt_intCmpImm
  case pand | por | pxor => exact attemptOf_anywhere attempt_predOp
  case fadd | fsub | fmul | ffma => exact attemptOf_anywhere attempt_fpArith
  case fdiv | fsqrt => exact attemptOf_anywhere attempt_fpLong
  case fmin | fmax => exact attemptOf_anywhere attempt_fpMinMax
  case ats | atsv => exact attemptOf_anywhere attempt_atomS
  case atg | atgv => exact attemptOf_onControl attempt_atomG
  case ldgAcq | ldgSc => exact attemptOf_onControl attempt_orderedLoad
  case stgRel | stgSc => exact attemptOf_onControl attempt_orderedStore
  case cbar | phase => exact attemptOf_anywhere attempt_barrierWord
  case xformCvt | xformScale | xformFill | xformAdd | xformAmax => exact attemptOf_anywhere attempt_xformWord
  case glaunch | glaunchQ => exact attemptOf_anywhere attempt_launchRecord
  case collReduceRing | collReduceTree | collAllreduceRing | collAllreduceTree | collGather | collScatter => exact attemptOf_anywhere attempt_collWord
  case ddvar | ddvarLvl | ddvarVar | ddite | ddapply | ddrestrict | ddquantEx | ddquantAll | ddcompose | ddsat | ddref | ddderef | ddgc
      | ddswap | ddnode | ddstat => exact attemptOf_anywhere attempt_ddWord
  case ldl | stl | chain | cwait | cwaitFlags | cwaitMag => exact attemptOf_onCompute attempt_issue
  case ldg | stg => exact attemptOf_onControl attempt_issue
  case sel | fcmp | fcvt | fclass | ldr | str | lds | sts | recv | send | sendRel | peek | peekQ | br | jmp | call | loop | twait | trun
      | tend | trap | empty | fullq | yield | halt | mfsr | mtsr | fenceWait | fenceRel | fenceAcq | fenceAcqrel | rdtime | rdtimeCyc
      | digest | digestOut | seed | colchk | sbind | sclose | scloseAbort | sbar | sbarWait | mscale | mscaleMx | mwload | mwloadP | marm
      | marmQ | marmWait | marmFlags | crun | crunWait | cedge | copy | copyWait | xexpect | xwait | tinv | tinvT | tinvAll | tinvWait
      | xlook | xlookO | garm | garmQ | collRank | ddcfg | ddcfgGrow | ddwcount | ddenum | ddenumE => exact attemptOf_anywhere attempt_issue
  all_goals trivial

theorem attempt_of_form {i : Instr} {f : Form} {s : State} (h : formOf i = some f) (hs : f.Stands s) :
    Attempt f.guard f.srcs f.dests s (exec i s) := by
  have := attemptOf_exec i s
  rw [h] at this
  exact this hs

/-! ### What an attempt to issue does short of the word's own effect (R23, R28) -/

section Issue
variable {g : Guard} {srcs : List Src} {dests : List Reg} {body : State → State} {s : State}

theorem bne_full_iff {x : Src} : (s.here.fill x.r != .full) = true ↔ Claims.Empty s x := by simp [Claims.Empty]

theorem emptySrcs_eq (s : State) (srcs : List Src) :
    emptySrcs s.here srcs = (srcs.filter (fun x => decide (Claims.Empty s x))).map (fun x => x.r.toNat) := by
  refine congrArg (List.map _) (List.filter_congr fun x _ => ?_)
  rw [Bool.eq_iff_iff, bne_full_iff, decide_eq_true_iff]

theorem pendingDests_eq (s : State) (dests : List Reg) :
    pendingDests s.here dests = (dests.filter (fun d => decide (s.here.fill d = .pending))).map (fun d => d.toNat) :=
  congrArg (List.map _) (List.filter_congr fun d _ => by rw [Bool.eq_iff_iff, beq_iff_eq, decide_eq_true_iff])

/-- No source that is empty has its trap bit set. -/
theorem find_trapping_eq_none (h : ∀ x ∈ srcs, x.et = true → ¬ Claims.Empty s x) :
    srcs.find? (fun x => x.et && s.here.fill x.r != .full) = none := by
  rw [List.find?_eq_none]
  intro x hx
  rw [Bool.and_eq_true, bne_full_iff]
  exact fun ⟨het, he⟩ => h x hx het he

/-- The first source that is empty with its trap bit set traps (R84). -/
theorem issue_traps {pre post : List Src} {x : Src} (hg : s.here.allows g = true) (hpre : ∀ y ∈ pre, ¬ (y.et = true ∧ Claims.Empty s y))
    (het : x.et = true) (he : Claims.Empty s x) : issue g (pre ++ x :: post) dests body s = .next (emptyTrap x s) := by
  have hfind : (pre ++ x :: post).find? (fun x => x.et && s.here.fill x.r != .full) = some x := by
    rw [List.find?_append, find_trapping_eq_none fun y hy hyt hye => hpre y hy ⟨hyt, hye⟩]
    simp [het, bne_full_iff.mpr he]
  simp [issue, hg, hfind, nx]

/-- A word with an empty source waits for its empty sources. -/
theorem issue_waits_srcs (hg : s.here.allows g = true) (ht : ∀ x ∈ srcs, x.et = true → ¬ Claims.Empty s x) (he : ∃ x ∈ srcs, Claims.Empty s x) :
    issue g srcs dests body s = .next (park (.regs (emptySrcs s.here srcs) []) s) := by
  obtain ⟨x, hx, hex⟩ := he
  have hne : (emptySrcs s.here srcs).isEmpty = false := by
    rw [emptySrcs_eq, List.isEmpty_eq_false_iff_exists_mem]
    exact ⟨_, List.mem_map_of_mem (List.mem_filter.mpr ⟨hx, decide_eq_true hex⟩)⟩
  simp [issue, hg, find_trapping_eq_none ht, hne, nx]

/-- A word whose sources are full and that has a pending destination waits for its pending destinations. -/
theorem issue_waits_dests (hg : s.here.allows g = true) (hfull : ∀ x ∈ srcs, ¬ Claims.Empty s x) (hp : ∃ d ∈ dests, s.here.fill d = .pending) :
    issue g srcs dests body s = .next (park (.regs [] (pendingDests s.here dests)) s) := by
  obtain ⟨d, hd, hpd⟩ := hp
  have hnone : emptySrcs s.here srcs = [] := by
    rw [emptySrcs_eq, List.map_eq_nil_iff, List.filter_eq_nil_iff]
    exact fun x hx hx' => hfull x hx (of_decide_eq_true hx')
  have hne : (pendingDests s.here dests).isEmpty = false := by
    rw [pendingDests_eq, List.isEmpty_eq_false_iff_exists_mem]
    exact ⟨_, List.mem_map_of_mem (List.mem_filter.mpr ⟨hd, decide_eq_true hpd⟩)⟩
  simp [issue, hg, find_trapping_eq_none fun x hx _ => hfull x hx, hnone, hne, nx]

/-- A word that issues has its own effect. -/
theorem issue_of_issues (h : Issues g srcs dests s) : issue g srcs dests body s = .next (body s) := by
  obtain ⟨hg, hfull, hfree⟩ := h
  exact issue_next hg hfull hfree

end Issue

/-- Settles O14: every word is an attempt to issue its form, and such an attempt ends at its guard or waits before the word's own effect. -/
theorem guardedOff : Obligations.GuardedOff := by
  intro i f s hf hs
  obtain ⟨body, hexec⟩ := attempt_of_form hf hs
  refine ⟨fun hg => hexec.trans (issue_off hg), fun hg ht => ⟨fun he => ?_, fun hfull hp => ?_⟩⟩
  · rw [← emptySrcs_eq]
    exact hexec.trans (issue_waits_srcs hg ht he)
  · rw [← pendingDests_eq]
    exact hexec.trans (issue_waits_dests hg hfull hp)

/-! ### Taking a recoverable trap (R82 to R84) -/

/-- Delivery changes one core at most: nothing else of a region. -/
theorem deliver_halt (r u : Nat) (s : State) : ((deliver r u s).region r).halt = (s.region r).halt := by
  simp only [deliver]
  split
  · split
    · rfl
    · simp [Region.setCore]
  · rfl

/-- What a trapping slot is while its trap waits for delivery. -/
def Trapping (pc : Word) (sl : Slot) : Prop := sl.pc = pc ∧ (sl.st = .waiting .trapDelivery ∨ sl.st = .waiting .trapped)

theorem deliver_trapping {r u k : Nat} {pc : Word} {s : State} (hk : handlerSlot (s.core r u) ≠ k) (h : Trapping pc (s.slot r u k)) :
    Trapping pc ((deliver r u s).slot r u k) := by
  simp only [deliver]
  split
  · next k' _ hk' =>
    split
    · exact h
    · next t ht =>
      simp only [State.slot, State.core_modCore_same, Core.slot, Core.setSlot, Assoc.get_put] at h ⊢
      by_cases e : k = k'
      · subst e
        exact ⟨by simpa [Assoc.get_put, hk.symm] using h.1, .inr (by simp)⟩
      · simpa [e, hk.symm] using h
  · exact h

section TakeTrap
variable {r u k : Nat} {q : TrapReq} {pc w : Word} {s : State}

/-- A trap that the handler slot can take leaves the region running and the slot waiting. -/
theorem takeTrap_recoverable (hon : (s.core r u).trapvec.getLsbD 31 = true) (hk : handlerSlot (s.core r u) ≠ k) (hu : isCtl u = false) :
    ((takeTrap r u k q pc w s).region r).halt = (s.region r).halt ∧ Trapping pc ((takeTrap r u k q pc w s).slot r u k) := by
  have hc : (!handlerOn (s.core r u) || handlerSlot (s.core r u) == k || isCtl u) = false := by simp [handlerOn, hon, hk, hu]
  simp only [takeTrap, hc, Bool.false_eq_true, if_false]
  refine ⟨?_, deliver_trapping ?_ ?_⟩
  · rw [deliver_halt]
    simp [State.modSlot, Region.setCore]
  · simpa [Core.setSlot, handlerSlot] using hk
  · rw [State.slot_modSlot_same]
    exact ⟨rfl, .inl rfl⟩

/-- A trap that no handler slot can take stops the region with its own cause. -/
theorem takeTrap_fatal (h : (s.core r u).trapvec.getLsbD 31 = false ∨ handlerSlot (s.core r u) = k ∨ isCtl u = true)
    (hr : (s.region r).halt = false) :
    ((takeTrap r u k q pc w s).region r).halt = true ∧ ((takeTrap r u k q pc w s).region r).raised.map (fun x => x.cause) = [q.cause] := by
  have hc : (!handlerOn (s.core r u) || handlerSlot (s.core r u) == k || isCtl u) = true := by
    rcases h with h | h | h <;> simp only [handlerOn, h, beq_self_eq_true, Bool.not_false, Bool.true_or, Bool.or_true]
  simp only [takeTrap, hc, if_true, raise_region hr]
  exact ⟨trivial, rfl⟩

end TakeTrap

/-- Settles O9: `takeTrap` either lets the handler slot take the trap or stops the region; TRAP and, at its first empty source whose trap bit
is set, every word take one. -/
theorem recoverableTraps : Obligations.RecoverableTraps := by
  refine ⟨fun r u k q pc w s => ⟨fun hon hk hu _ => ?_, takeTrap_fatal⟩, fun g imm s ⟨h1, h2, h3⟩ => issue_next h1 h2 h3,
    fun i f pre post x s hf hs hg hsrcs hpre het he => ?_⟩
  · obtain ⟨hhalt, hpc, hst⟩ := takeTrap_recoverable (q := q) (pc := pc) (w := w) hon hk hu
    exact ⟨hhalt, hpc, hst⟩
  · obtain ⟨body, hexec⟩ := attempt_of_form hf hs
    rw [hsrcs] at hexec
    exact hexec.trans (issue_traps hg hpre het he)

/-! ### Branches out of the instruction store (R45, R104) -/

theorem pcBad_iff {i : Int} : pcBad i = true ↔ i < 0 ∨ 2047 < i := by simp [pcBad]

theorem jumpTo_outside {i : Int} {f : Slot → Slot} {s : State} (hu : isCtl s.cur.unit = false) (hi : i < 0 ∨ 2047 < i) :
    jumpTo i f s = failIllegal (BitVec.ofInt 64 i) s := by
  simp [jumpTo, hu, pcBad_iff.mpr hi, addrWord]

/-- The record of an ILLEGAL word: the slot at its program counter, with the given detail word. -/
theorem failIllegal_record {w : Word} {s : State} (h : s.hereR.halt = false) : (failIllegal w s).hereR.halt = true ∧
    (failIllegal w s).hereR.raised.map (fun x => (x.cause, x.unit, x.sub, x.position, x.d0)) =
      [(0x01, s.cur.unit, s.cur.slot, s.here.pc, w)] := by
  have hcur : (failIllegal w s).cur = s.cur := raise_cur ..
  rw [State.hereR, hcur, failIllegal, raise_region h]
  exact ⟨rfl, rfl⟩

section Branch
variable {g : Guard} {c : Src} {l : Reg} {disp : Imm} {s : State}
theorem exec_br (h : Issues g [c] [] s) :
    exec (.br g c disp) s = .next (if rv s c ≠ 0 then takeBranch disp id s else retire id s) := by
  rw [show exec (.br g c disp) s = execBr g c disp s from rfl, execBr, issue_of_issues h]
theorem exec_jmp (h : Issues g [] [] s) : exec (.jmp g disp) s = .next (takeBranch disp id s) := issue_of_issues h
theorem exec_call (h : Issues g [] [l] s) : exec (.call g l disp) s =
    .next (if !isCtl s.cur.unit && pcBad (s.here.pc + 1).toNat then failIllegal (s.here.pc + 1) s
           else takeBranch disp (fun sl => sl.wr l (s.here.pc + 1)) s) := by
  rw [show exec (.call g l disp) s = execCall g l disp s from rfl, execCall, issue_of_issues h]
theorem exec_loop (h : Issues g [c] [c.r] s) : exec (.loop g c disp) s =
    .next (if rv s c - 1 ≠ 0 then takeBranch disp (fun sl => sl.wr c.r (rv s c - 1)) s else done c.r (rv s c - 1) s) := by
  rw [show exec (.loop g c disp) s = execLoop g c disp s from rfl, execLoop, issue_of_issues h]
end Branch

/-- Settles O7: a taken branch goes through `jumpTo`, and CALL judges its return index first. -/
theorem branchOutsideTheStore : Obligations.BranchOutsideTheStore := by
  intro g c l disp s i hu
  have hout : ∀ f, i < 0 ∨ 2047 < i → takeBranch disp f s = failIllegal (BitVec.ofInt 64 i) s := fun f hi => jumpTo_outside hu hi
  refine ⟨fun hi => ⟨fun h hc => ?_, fun h => ?_, fun h hpc => ?_, fun h hc => ?_⟩, fun h hpc => ?_, fun w hr => failIllegal_record hr⟩
  · rw [Gives, exec_br h, if_pos hc, hout _ hi]
  · rw [Gives, exec_jmp h, hout _ hi]
  · have hret : (s.here.pc + 1).toNat = s.here.pc.toNat + 1 := by bv_omega
    have hok : pcBad ((s.here.pc + 1).toNat : Int) = false := by
      rw [Bool.eq_false_iff, ne_eq, pcBad_iff]; omega
    rw [Gives, exec_call h, hok, Bool.and_false, if_neg Bool.false_ne_true, hout _ hi]
  · have hv : rv s c - 1 ≠ 0 := fun e => hc (by bv_omega)
    rw [Gives, exec_loop h, if_pos hv, hout _ hi]
  · have hret : s.here.pc + 1 = 2048 := by bv_omega
    rw [Gives, exec_call h, hret, hu]
    rfl

end Sys2Proof.Machine

end

section

namespace Sys2Proof.Machine

open Sys2Proof.Claims

/-! ## System instructions (O12)

Each word's body at a state where it issues (`issue_of_issues`), at the branch that the clause is about. -/

section SystemWord
variable {g : Guard} {d : Reg} {a b c : Src} {y : SysReg} {sc : Scope} {s : State}

/-! ### MFSR, RDTIME, COLCHK -/

theorem awaitFp_eq_false (h : y = .fpflags → FpIdle s) : awaitFp y s = false := by
  by_cases hy : y = .fpflags
  · simp [awaitFp, h hy]
  · simp [awaitFp, hy]

theorem mfsr_gives (h : Issues g [] [d] s) (hy : y = .fpflags → FpIdle s) : Gives (.mfsr g d y) s (done d (sysRead y s) s) := by
  show execMfsr g d y s = _
  rw [execMfsr, issue_of_issues h, if_neg (by simp [awaitFp_eq_false hy])]

theorem rdtime_gives (h : Issues g [] [d] s) : Gives (.rdtime g d) s (done d (toWord s.time) s) := by
  show execRdtime g d s = _
  rw [execRdtime, issue_of_issues h]

/-- RDTIME.cyc counts the core's cycles on by a free number and reads the count. -/
theorem rdtimeCyc_gives (h : Issues g [] [d] s) : Gives (.rdtimeCyc g d) s
    (done d (toWord (s.hereC.cyc + Config.freeCycles s.fresh))
      ({ s with fresh := s.fresh + 1 }.modHereC (fun c => { c with cyc := s.hereC.cyc + Config.freeCycles s.fresh }))) := by
  show execRdtimeCyc g d s = _
  rw [execRdtimeCyc, issue_of_issues h]

theorem colchk_gives (h : Issues g [] [d] s) : Gives (.colchk g d) s (done d (colWord s.hereR.col) s) := by
  show execColchk g d s = _
  rw [execColchk, issue_of_issues h]

theorem Slot.rd_next {sl : Slot} {x : Reg} : sl.next.rd x = sl.rd x := rfl
theorem done_rd {v : Word} (hd : d ≠ 0) : (done d v s).here.rd d = v := by
  rw [done, retire_here, Slot.rd_next, Slot.rd_wr_same hd]
theorem done_hereC_cyc {v : Word} : (done d v s).hereC.cyc = s.hereC.cyc := by simp [done, retire, Core.setSlot]

/-! ### MTSR, SEED -/

theorem mtsr_fpflags_gives (h : Issues g [a] [] s) (hf : FpIdle s) :
    Gives (.mtsr g .fpflags a) s (retire (fun sl => { sl with fpflags := (rv s a).setWidth 5 }) s) := by
  show execMtsr g .fpflags a s = _
  rw [execMtsr, issue_of_issues h]
  simp [awaitFp_eq_false fun _ => hf]

theorem mtsr_fpmode_gives (h : Issues g [a] [] s) (hv : (rv s a).toNat % 8 < 6) :
    Gives (.mtsr g .fpmode a) s (retire (fun sl => { sl with fpmode := (rv s a).setWidth 3 }) s) := by
  show execMtsr g .fpmode a s = _
  rw [execMtsr, issue_of_issues h]
  simp [Nat.not_le.mpr hv]

theorem mtsr_fpmode_fails (h : Issues g [a] [] s) (hv : 6 ≤ (rv s a).toNat % 8) : Gives (.mtsr g .fpmode a) s (failSpace 0 s) := by
  show execMtsr g .fpmode a s = _
  rw [execMtsr, issue_of_issues h]
  simp [hv]

theorem mtsr_trapvec_gives (h : Issues g [a] [] s) : Gives (.mtsr g .trapvec a) s
    (retire id (s.modHereC (fun c => { c with trapvec := (rv s a).setWidth 32 &&& 0x800707FF#32 }))) := by
  show execMtsr g .trapvec a s = _
  rw [execMtsr, issue_of_issues h]
  rfl

theorem seed_gives (h : Issues g [a] [] s) :
    Gives (.seed g a) s (retire id (s.modHereC (fun c => { c with seed := seedRecord c.seed s.cur.slot (rv s a) }))) := by
  show execSeed g a s = _
  rw [execSeed, issue_of_issues h]

theorem retire_hereC_seed {f : Slot → Slot} : (retire f s).hereC.seed = s.hereC.seed := by simp [retire, Core.setSlot]

/-! ### Fences, DIGEST -/

theorem fenceWait_gives (h : Issues g [] [] s) (hw : waitDone s.hereR s.cur.unit s.cur.slot .earlier = true) :
    Gives (.fenceWait g) s (retire id (s.modHereC (Core.fence s.cur.slot))) := by
  show execFenceWait g s = _
  rw [execFenceWait, issue_of_issues h, if_pos hw]

theorem fenceRel_gives (h : Issues g [] [] s) (hp : s.here.prog = .published) : Gives (.fenceRel g sc) s (retire id s) := by
  show execFenceRel g sc s = _
  rw [execFenceRel, issue_of_issues h, if_pos hp]

theorem fenceAcqrel_gives (h : Issues g [] [] s) (hp : s.here.prog = .published) :
    Gives (.fenceAcqrel g sc) s (retire id (refresh s.cur.region s.cur.unit s)) := by
  show execFenceAcqrel g sc s = _
  rw [execFenceAcqrel, issue_of_issues h, if_pos hp]

/-- FENCE.acq refreshes the core at every scope alike. -/
theorem fenceAcq_gives (h : Issues g [] [] s) : Gives (.fenceAcq g sc) s (retire id (refresh s.cur.region s.cur.unit s)) := by
  show execFenceAcq g sc s = _
  rw [execFenceAcq, issue_of_issues h]
  cases sc <;> rfl

theorem digest_gives (h : Issues g [a, b] [d] s) : Gives (.digest g d a b) s (done d (crc (rv s a) (rv s b)) s) := by
  show execDigest g d a b s = _
  rw [execDigest, issue_of_issues h]

theorem digestOut_gives (h : Issues g [a, b, c] [] s) (hc : chkOn s s.hereR = false) : Gives (.digestOut g a b c) s (retire id s) := by
  show execDigestOut g a b c s = _
  rw [execDigestOut, issue_of_issues h]
  simp [hc]

end SystemWord

/-- Settles O12: the lemma of each word, at the condition of its clause. -/
theorem systemWords : Obligations.SystemWords := by
  intro g d a b c y sc s
  refine ⟨fun h => ⟨mfsr_gives h, rdtime_gives h, ?_, colchk_gives h⟩, fun h => ⟨mtsr_fpflags_gives h, mtsr_fpmode_gives h,
      mtsr_fpmode_fails h, mtsr_trapvec_gives h, ?_⟩,
    fun h => ⟨fenceWait_gives h, fun hp => ⟨fenceRel_gives h hp, fenceAcqrel_gives h hp⟩, fenceAcq_gives h⟩, digest_gives, digestOut_gives⟩
  · exact ⟨_, _, rdtimeCyc_gives h, Nat.le_add_right .., done_hereC_cyc.trans (by simp), done_rd⟩
  · refine ⟨_, seed_gives h, by rw [retire_here, State.here_modHereC]; rfl, fun hn => ?_, fun j w hj => ?_⟩
    · simp [retire_hereC_seed, seedRecord, hn]
    · simp [retire_hereC_seed, seedRecord, hj]

end Sys2Proof.Machine

end

section

namespace Sys2Proof.Machine

open Sys2Proof.Claims

/-! ## What a step runs (O56) -/

/-! ### A structure without soft errors reads as it is (R175) -/

/-- Reading words of a structure that has no soft error changes nothing. -/
theorem readChkBy_clean {r code unit lo hi : Nat} {f : Nat → Nat} {x : StopRec} {k : State → State} {s : State} (h : ∀ e ∈ s.errors, e.code ≠ code) :
    readChkBy r code unit lo hi f x k s = k s := by
  have hhits : ∀ e ∈ s.errors, SoftErr.hits r code unit lo hi e = false := fun e he => by simp [SoftErr.hits, h e he]
  have hmine : s.errors.filter (SoftErr.hits r code unit lo hi) = [] := List.filter_eq_nil_iff.mpr fun e he => by simp [hhits e he]
  have hrest : s.errors.filter (fun e => !SoftErr.hits r code unit lo hi e) = s.errors :=
    List.filter_eq_self.mpr fun e he => by simp [hhits e he]
  simp [readChkBy, hmine, hrest]

theorem phaseChk_clean {r u : Nat} {sp : Space} {x : StopRec} {s : State} (h : ∀ e ∈ s.errors, e.code ≠ 3) :
    ∀ (n a : Nat) (k : State → State), phaseChk r u sp a n x k s = k s
  | 0, _, _ => rfl
  | n + 1, a, k => by
    rw [phaseChk, readChkBy_clean h, ite_self, phaseChk_clean h n]

/-! ### Fetching (R45, R104) -/

section Fetch
variable {s : State} {w : IWord}

theorem fetch_compute (hh : s.hereR.halt = false) (hu : isCtl s.cur.unit = false) (hpc : s.here.pc.toNat < 2048)
    (hw : Assoc.find s.here.pc.toNat s.hereC.istore = some w) (he : ∀ e ∈ s.errors, e.code ≠ 1) : fetch s = (some w, s) := by
  have hstore : storeWord s.hereC s.here.pc = w := by rw [storeWord, Assoc.get_eq_find, hw, Option.getD_some]
  simp only [fetch, readChk, readChkBy_clean he, id, hh, hu, Nat.not_le.mpr hpc, hstore, if_false, Bool.false_eq_true]

theorem fetch_control {c : Context} {bs : List Byte} {s1 : State} (hh : s.hereR.halt = false) (hu : isCtl s.cur.unit = true)
    (hc : s.ctxOf s.hereR = some c) (hpc : 8 * s.here.pc.toNat + 8 ≤ segSize c) (he : ∀ e ∈ s.errors, e.code ≠ 3)
    (hr : gRead c s.cur.region (8 * s.here.pc.toNat) 8 s = .ok bs s1) :
    let w := BitVec.ofNat 64 (ofBytesLE (layOver (phaseWord .g (8 * s.here.pc.toNat) (s1.core s.cur.region s.cur.unit).phase) (8 * s.here.pc.toNat) bs))
    fetch s = (some w, keepWord w s1) := by
  have hh' : (s.region s.cur.region).halt = false := hh
  simp only [fetch, phaseChk_clean he, id, hh, hh', hu, hc, Nat.not_lt.mpr hpc, hr, if_false, if_true, Bool.false_eq_true]

end Fetch

/-! ### Running what is fetched or chosen -/

section Run
variable {s u : State}

/-- A word that decodes to an instruction of a slot is that instruction; any other is ILLEGAL. -/
theorem runWord_of_decode {w : IWord} {i : Instr} (hd : decode w = some i) (he : isElemOp w = false) : runWord w s = exec i s := by
  simp only [runWord, hd, he, Bool.false_eq_true, if_false]
theorem runWord_illegal {w : IWord} (h : decode w = none ∨ isElemOp w = true) : runWord w s = .next (failIllegal w s) := by
  unfold runWord
  split
  · rfl
  · next i hd =>
    have he : isElemOp w = true := h.resolve_left (by simp [hd])
    rw [if_pos he]
    rfl

/-- Where a word is fetched at the next step's state, the step runs it. -/
theorem runsWord_of_fetch {w : IWord} (ht : s.turn = .issue) (hf : fetch (ticked s) = (some w, u)) : RunsWord w s u := by
  have hstep : step s = runWord w u := by
    have hturn : (tick s).turn = .issue := ht
    have hf' : fetch { tick s with turn := .none } = (some w, u) := hf
    simp only [step, runTurn, hturn, hf']
  exact ⟨fun i hd he => hstep.trans (runWord_of_decode hd he), fun h => hstep.trans (runWord_illegal h)⟩

theorem step_stage (ht : s.turn = .stage) : step s = runStage (ticked s) := by
  have hturn : (tick s).turn = .stage := ht
  simp only [step, runTurn, hturn]
  rfl

theorem runStage_elem {T : Template} {st : Stage} {i : Instr} (hT : Assoc.find s.cur.tmpl s.hereC.templates = some T)
    (hst : T.stages[s.cur.stage - 1]? = some st) (hd : decode st.word = some i) (he : isElemOp st.word = true) : runStage s = exec i s := by
  have hw : stageWordAt s = some st.word := by simp only [stageWordAt, hT, hst, Option.map_some]
  simp only [runStage, hw, hd, he, if_true]

theorem tick_eq_ticked (ht : s.turn = .none) : tick s = ticked s := by rw [tick, ticked, ← ht]

theorem step_agenda {m : Move} {l : List Move} (ht : s.turn = .none) (ha : s.agenda = m :: l) :
    step s = runMove m (coRaised m { ticked s with agenda := l }) := by
  have ha' : (ticked s).agenda = m :: l := ha
  simp only [step, tick_eq_ticked ht, ha']
  rfl

theorem step_free {m : Move} (ht : s.turn = .none) (ha : s.agenda = []) (hm : Config.freeMove (s.fresh + 1) = m) :
    step s = runMove m (coRaised m { ticked s with fresh := s.fresh + 2 }) := by
  have ha' : (ticked s).agenda = [] := ha
  have hm' : Config.freeMove (ticked s).fresh = m := hm
  simp only [step, tick_eq_ticked ht, ha', hm']
  rfl

theorem runMove_event {i : Instr} (h : i.isEvent = true) : runMove (.event i) s = exec i s := by simp only [runMove, h, if_true]

end Run

/-! ### Regions that did not halt in this cycle (R417, R421) -/

theorem coRaise_eq_self {m : Move} {s : State} {r : Nat}
    (h : (s.region r).halt = false ∨ (s.region r).phase ≠ .halted ∨ (s.region r).haltTime ≠ s.time) : coRaise m s r = s := by
  rw [coRaise, if_neg]
  rcases h with h | h | h <;> simp [h]

theorem coRaised_eq_self {m : Move} {s : State}
    (h : ∀ q ∈ s.regions, (s.region q.1).halt = false ∨ (s.region q.1).phase ≠ .halted ∨ (s.region q.1).haltTime ≠ s.time) : coRaised m s = s := by
  refine List.foldlRecOn (motive := fun t => t = s) _ _ rfl fun t ht r hr => ?_
  obtain ⟨q, hq, rfl⟩ := List.mem_map.mp hr
  rw [ht, coRaise_eq_self (h q hq)]

/-- Settles O56: by what the selection or the last move left to run: a slot's word, a stage, or the next move. -/
theorem stepRunsDecoded : Obligations.StepRunsDecoded := by
  refine fun s => ⟨fun ht hh => ⟨fun w hu hpc hw he => ?_, fun c bs s1 hu hc hpc he hr => ?_⟩, fun ht T st i hT hst hd he => ?_,
    fun ht => ⟨fun l => ⟨fun i ha hi => ?_, fun r u t j ha => ?_⟩, fun i ha hm hi => ?_⟩, fun m => coRaised_eq_self⟩
  · exact runsWord_of_fetch ht (fetch_compute hh hu hpc hw he)
  · exact runsWord_of_fetch ht (fetch_control hh hu hc hpc he hr)
  · exact (step_stage ht).trans (runStage_elem hT hst hd he)
  · exact (step_agenda ht ha).trans (runMove_event hi)
  · exact step_agenda ht ha
  · exact (step_free ht ha hm).trans (runMove_event hi)

end Sys2Proof.Machine

end

section

namespace Sys2Proof.Machine

open Sys2Proof.Claims

/-! ## Integer elements (O25)

An exact integer keeps its sign and its magnitude apart, with denominator 1. `XNum.Denotes` says which integer such a value is: sums, differences
and products of denoting values denote the sums, differences and products, and encoding one is `intResult` on the integer it denotes. -/

/-- The exact value is the integer `i`. -/
def XNum.Denotes (v : XNum) (i : Int) : Prop := (v.isZero = true ∧ i = 0) ∨ (v = .fin (decide (i < 0)) i.natAbs 1 ∧ i ≠ 0)

section Denotes
variable {v x y : XNum} {i m n : Int}

theorem signed_natAbs (i : Int) : (if decide (i < 0) = true then -(i.natAbs : Int) else i.natAbs) = i := by grind

theorem denotes_numOfInt (i : Int) : (numOfInt i).Denotes i := by
  by_cases h : i = 0
  · exact .inl ⟨by simp [numOfInt, h, XNum.isZero], h⟩
  · exact .inr ⟨by simp [numOfInt, h], h⟩

/-- A zero is one of the two zeros, of given or of open sign. -/
theorem XNum.isZero_iff : v.isZero = true ↔ (∃ s, v = .zero s) ∨ v = .szero := by cases v <;> simp [XNum.isZero]

theorem XNum.Denotes.negate (h : v.Denotes i) : v.negate.Denotes (-i) := by
  rcases h with ⟨hz, rfl⟩ | ⟨rfl, hi⟩
  · refine .inl ⟨?_, rfl⟩
    obtain ⟨s, rfl⟩ | rfl := isZero_iff.mp hz <;> rfl
  · have hs : (!decide (i < 0)) = decide (-i < 0) := by grind
    exact .inr ⟨by rw [XNum.negate, hs, Int.natAbs_neg], Int.neg_ne_zero.mpr hi⟩

theorem XNum.Denotes.frac (h : v.Denotes i) : v.frac = (i, 1) := by
  rcases h with ⟨hz, rfl⟩ | ⟨rfl, hi⟩
  · obtain ⟨s, rfl⟩ | rfl := isZero_iff.mp hz <;> rfl
  · rw [XNum.frac, signed_natAbs]

theorem XNum.Denotes.isNaN (h : v.Denotes i) : v.isNaN = false := by
  rcases h with ⟨hz, -⟩ | ⟨rfl, -⟩
  · obtain ⟨s, rfl⟩ | rfl := isZero_iff.mp hz <;> rfl
  · rfl
theorem XNum.Denotes.isInf (h : v.Denotes i) : v.isInf = false := by
  rcases h with ⟨hz, -⟩ | ⟨rfl, -⟩
  · obtain ⟨s, rfl⟩ | rfl := isZero_iff.mp hz <;> rfl
  · rfl
theorem XNum.beq_snan (h : v.isNaN = false) : (v == .snan) = false := by cases v <;> simp_all [XNum.isNaN]
theorem XNum.beq_inf {s : Bool} (h : v.isInf = false) : (v == .inf s) = false := by cases v <;> simp_all [XNum.isInf]

theorem XNum.Denotes.eq_zero (h : v.Denotes i) (hz : v.isZero = true) : i = 0 := by
  rcases h with ⟨-, hi⟩ | ⟨rfl, -⟩
  · exact hi
  · nomatch hz

theorem denotes_numOfFrac (i : Int) : (numOfFrac (i, 1)).Denotes i := by
  by_cases h : i = 0
  · exact .inl ⟨by simp [numOfFrac, h, XNum.isZero], h⟩
  · exact .inr ⟨by simp [numOfFrac, h], h⟩

/-- The sum of two integers denotes their sum and raises nothing: it is a zero where both are, and else the sum of their fractions. -/
theorem denotes_numSum (hx : x.Denotes m) (hy : y.Denotes n) : (numSum [x, y]).1.Denotes (m + n) ∧ (numSum [x, y]).2 = 0 := by
  have hfrac : ([x, y].map XNum.frac).foldl addFrac (0, 1) = (m + n, 1) := by simp [hx.frac, hy.frac, addFrac]
  have hsum : numSum [x, y] = if x.isZero && y.isZero then
      (if x == .zero true && y == .zero true then .zero true else if x == .zero false && y == .zero false then .zero false else .szero, 0)
      else (numOfFrac (m + n, 1), 0) := by
    simp only [numSum, hfrac]
    simp [XNum.beq_snan, XNum.beq_inf, hx.isNaN, hy.isNaN, hx.isInf, hy.isInf, flIf, flNone]
    split_ifs <;> rfl
  rw [hsum]
  split
  · next hz =>
    obtain ⟨hzx, hzy⟩ := Bool.and_eq_true _ _ ▸ hz
    refine ⟨.inl ⟨by split_ifs <;> rfl, ?_⟩, rfl⟩
    rw [hx.eq_zero hzx, hy.eq_zero hzy, add_zero]
  · exact ⟨denotes_numOfFrac _, rfl⟩

/-- The product of two integers denotes their product and raises nothing: it is a zero where one of them is. -/
theorem denotes_numMul (hx : x.Denotes m) (hy : y.Denotes n) : (numMul x y).1.Denotes (m * n) ∧ (numMul x y).2 = 0 := by
  rcases hx with ⟨hzx, rfl⟩ | ⟨rfl, hm⟩
  · have hzero : numMul x y = (.zero (x.neg != y.neg), flNone) := by
      rcases hy with ⟨hzy, -⟩ | ⟨rfl, -⟩
      · obtain ⟨s, rfl⟩ | rfl := XNum.isZero_iff.mp hzx <;> obtain ⟨s', rfl⟩ | rfl := XNum.isZero_iff.mp hzy <;> rfl
      · obtain ⟨s, rfl⟩ | rfl := XNum.isZero_iff.mp hzx <;> rfl
    exact hzero ▸ ⟨.inl ⟨rfl, zero_mul n⟩, rfl⟩
  rcases hy with ⟨hzy, rfl⟩ | ⟨rfl, hn⟩
  · obtain ⟨s, rfl⟩ | rfl := XNum.isZero_iff.mp hzy <;> exact ⟨.inl ⟨rfl, mul_zero m⟩, rfl⟩
  · have hsign : (decide (m < 0) != decide (n < 0)) = decide (m * n < 0) := by
      rcases lt_or_gt_of_ne hm with h1 | h1 <;> rcases lt_or_gt_of_ne hn with h2 | h2 <;> simp [h1, h2, not_lt_of_gt, mul_neg_iff]
    have hmul : numMul (.fin (decide (m < 0)) m.natAbs 1) (.fin (decide (n < 0)) n.natAbs 1) =
      (.fin (decide (m < 0) != decide (n < 0)) (m.natAbs * n.natAbs) 1, flNone) := rfl
    rw [hmul, hsign, ← Int.natAbs_mul]
    exact ⟨.inr ⟨rfl, mul_ne_zero hm hn⟩, rfl⟩

end Denotes

/-! ### Encoding an integer -/

/-- An integer needs no rounding: it is wrapped, or clamped with .sat, into the format (R57). -/
theorem encodeInt_of_denotes {w : Nat} {signed sat : Bool} {rnd : Rnd} {k : Nat} {v : XNum} {i : Int} (h : v.Denotes i) :
    encodeInt w signed true rnd sat k v = intResult w sat (if signed then sMin w else 0) (if signed then sMax w else uMax w) i := by
  rcases h with ⟨hz, rfl⟩ | ⟨rfl, hi⟩
  · have hlo : (if signed then sMin w else 0) ≤ 0 := by split <;> simp [sMin]
    have hhi : 0 ≤ if signed then sMax w else uMax w := by
      have hw := Nat.two_pow_pos w
      have hw' := Nat.two_pow_pos (w - 1)
      split <;> simp only [sMax, uMax] <;> omega
    have hz' : encodeInt w signed true rnd sat k v = (0, flNone) := by obtain ⟨s, rfl⟩ | rfl := XNum.isZero_iff.mp hz <;> rfl
    rw [hz', intResult, if_pos ⟨hlo, hhi⟩]
    simp [wrapN]
  · have hexact : roundUp rnd (decide (i < 0)) (i.natAbs % 2 == 1) 0 1 k = false := rfl
    have hflags : flIf (decide (0 ≠ 0)) flNx = 0#5 := rfl
    simp only [encodeInt, intRound, Nat.div_one, Nat.mod_one, hexact, Bool.false_eq_true, if_false, signed_natAbs, hflags, BitVec.or_zero, if_true]
    exact ite_eq_right_iff.mpr fun hin => (if_pos hin).symm

theorem intResult_eq_intElem {f : Fmt} {signed sat : Bool} {i : Int} (hf : fmtKind f = .int signed) :
    intResult (fmtBits f) sat (if signed then sMin (fmtBits f) else 0) (if signed then sMax (fmtBits f) else uMax (fmtBits f)) i =
      intElem f sat i := by
  have hlo : fmtLo f = if signed then sMin (fmtBits f) else 0 := by cases signed <;> simp [fmtLo, hf, sMin]
  have hhi : fmtHi f = if signed then sMax (fmtBits f) else uMax (fmtBits f) := by cases signed <;> simp [fmtHi, hf, sMax, uMax]
  rw [intElem, hlo, hhi, intResult]
  cases sat <;> rfl

theorem fmtInt_of_kind {f : Fmt} {signed : Bool} (hf : fmtKind f = .int signed) : fmtInt f = true := by
  cases f <;> simp_all [fmtKind, fmtInt]

theorem denotes_decodeNum {f : Fmt} {signed : Bool} {e : Nat} (hf : fmtKind f = .int signed) : (decodeNum f e).Denotes (codeInt f e) := by
  cases signed <;> simpa [decodeNum, codeInt, hf] using denotes_numOfInt _

theorem laneOf_of_denotes {x : FireIn} {signed : Bool} {j : Nat} {r : XNum × Flg} {i : Int} (hf : fmtKind x.v.ty = .int signed)
    (h : r.1.Denotes i ∧ r.2 = 0) : laneOf x j r.1 r.2 = intElem x.v.ty x.v.sat i := by
  obtain ⟨hv, hfl⟩ := h
  simp only [laneOf, encodeNum, hf, fmtInt_of_kind hf, encodeInt_of_denotes hv, intResult_eq_intElem hf, hfl]
  exact Prod.ext rfl (BitVec.zero_or ..)

/-- Settles O25: the operands denote integers, so their sum, difference and product do, and an integer is encoded by wrapping or clamping. -/
theorem integerElements : Obligations.IntegerElements := by
  rintro x i a b ⟨signed, hf⟩ - -
  have hm := denotes_decodeNum (e := a) hf
  have hn := denotes_decodeNum (e := b) hf
  exact ⟨laneOf_of_denotes hf (denotes_numSum hm hn), laneOf_of_denotes hf (denotes_numSum hm hn.negate), laneOf_of_denotes hf (denotes_numMul hm hn)⟩

end Sys2Proof.Machine

end

section

namespace Sys2Proof.Machine

open Sys2Proof.Claims

/-! ## Scalar floating point (O5)

The word issues, so it has its own effect (`issue_of_issues`); one lemma serves every once-rounded form and one every long-latency form. -/

section FloatingPoint
variable {fn : List XNum → XNum × Flg} {f : FMode} {g : Guard} {d : Reg} {a b : Src} {srcs : List Src} {mx : Bool} {pr : Prec} {s : State}

theorem fpArith_of_issues (h : Issues g srcs [d] s) :
    fpArith fn f g d srcs s = .next (fpDone d f (fn (srcs.map (fun x => fpVal f.prec (rv s x)))) s) := issue_of_issues h

theorem fpLong_of_issues (h : Issues g srcs [d] s) :
    fpLong fn f g d srcs s = .next (fpStarted d f (fn (srcs.map (fun x => fpVal f.prec (rv s x)))) s) := issue_of_issues h

theorem fpMinMax_of_issues (h : Issues g [a, b] [d] s) :
    let r := minMaxCode (precFmt pr) mx true (precBits pr (rv s a)) (precBits pr (rv s b))
    fpMinMax mx pr g d a b s = .next (doneFl d (toWord r.1) r.2 s) := issue_of_issues h

end FloatingPoint

section FloatingPoint
variable {f : FMode} {pr : Prec} {cond : FCond} {sk dk : FKind} {rm : RMode} {sat : Bool} {g : Guard} {d : Reg} {p : PReg} {a b c : Src} {s : State}

theorem fadd_gives (h : Issues g [a, b] [d] s) :
    Gives (.fadd g d a b f) s (fpDone d f (numSum [fpVal f.prec (rv s a), fpVal f.prec (rv s b)]) s) :=
  fpArith_of_issues (fn := fun l => numSum [nth l 0, nth l 1]) h
theorem fsub_gives (h : Issues g [a, b] [d] s) :
    Gives (.fsub g d a b f) s (fpDone d f (numSum [fpVal f.prec (rv s a), (fpVal f.prec (rv s b)).negate]) s) :=
  fpArith_of_issues (fn := fun l => numSum [nth l 0, (nth l 1).negate]) h
theorem fmul_gives (h : Issues g [a, b] [d] s) :
    Gives (.fmul g d a b f) s (fpDone d f (numMul (fpVal f.prec (rv s a)) (fpVal f.prec (rv s b))) s) :=
  fpArith_of_issues (fn := fun l => numMul (nth l 0) (nth l 1)) h
theorem ffma_gives (h : Issues g [a, b, c] [d] s) :
    Gives (.ffma g d a b c f) s (fpDone d f (numFma (fpVal f.prec (rv s a)) (fpVal f.prec (rv s b)) (fpVal f.prec (rv s c))) s) :=
  fpArith_of_issues (fn := fun l => numFma (nth l 0) (nth l 1) (nth l 2)) h
theorem fdiv_gives (h : Issues g [a, b] [d] s) :
    Gives (.fdiv g d a b f) s (fpStarted d f (numDiv (fpVal f.prec (rv s a)) (fpVal f.prec (rv s b))) s) :=
  fpLong_of_issues (fn := fun l => numDiv (nth l 0) (nth l 1)) h
theorem fsqrt_gives (h : Issues g [a] [d] s) : Gives (.fsqrt g d a f) s (fpStarted d f (numSqrt (fpVal f.prec (rv s a))) s) :=
  fpLong_of_issues (fn := fun l => numSqrt (nth l 0)) h
theorem fmin_gives (h : Issues g [a, b] [d] s) :
    let r := minMaxCode (precFmt pr) false true (precBits pr (rv s a)) (precBits pr (rv s b))
    Gives (.fmin g d a b pr) s (doneFl d (toWord r.1) r.2 s) := fpMinMax_of_issues h
theorem fmax_gives (h : Issues g [a, b] [d] s) :
    let r := minMaxCode (precFmt pr) true true (precBits pr (rv s a)) (precBits pr (rv s b))
    Gives (.fmax g d a b pr) s (doneFl d (toWord r.1) r.2 s) := fpMinMax_of_issues h
theorem fclass_gives (h : Issues g [a] [d] s) : Gives (.fclass g d a pr) s (done d (toWord (fpClass pr (precBits pr (rv s a)))) s) := by
  show execFclass g d a pr s = _
  rw [execFclass, issue_of_issues h]
theorem fcvt_gives (h : Issues g [a] [d] s) :
    let r := fcvtCode dk (effMode rm s) sat (slotMix s) (fcvtVal sk (rv s a))
    Gives (.fcvt g d a sk dk rm sat) s (retire (fun sl => ((sl.wr d (toWord r.1)).flag r.2).drew (effMode rm s)) s) := by
  show execFcvt g d a sk dk rm sat s = _
  rw [execFcvt, issue_of_issues h]
theorem fcmp_gives (h : Issues g [a, b] [] s) :
    let r := fpCompare cond (fpVal pr (rv s a)) (fpVal pr (rv s b))
    Gives (.fcmp g p a b pr cond) s (donePFl p r.1 r.2 s) := by
  show execFcmp g p a b pr cond s = _
  rw [execFcmp, issue_of_issues h]

end FloatingPoint

/-- Settles O5: the lemma of each word, at the operands that the clause names. -/
theorem floatingPoint : Obligations.FloatingPoint := by
  intro g d p a b c f pr cond sk dk rm sat s x y
  exact ⟨fun h => ⟨fadd_gives h, fsub_gives h, fmul_gives h, fdiv_gives h, fmin_gives h, fmax_gives h⟩, ffma_gives,
    fun h => ⟨fsqrt_gives h, fclass_gives h, fcvt_gives h⟩, fcmp_gives⟩

end Sys2Proof.Machine

end

section

namespace Sys2Proof.Machine

open Sys2Proof.Claims

/-! ## CHAIN and CWAIT (O30)

Each word on a compute core where it issues, at the branch that the clause is about. -/

theorem onCompute_of_compute {k : State → Host.Outcome State Fault Refusal} {s : State} (hu : OnCompute s) : onCompute k s = k s := by
  simp [onCompute, hu]

/-- A count of 0 or above 2^20, one that is no multiple of the template's rates, or a descriptor with more than six fields breaks R156. -/
theorem chainBad_of_count {c : Core} {T : Template} {x n : Nat} (h : x / 2 ^ 96 ≠ 0 ∨ n = 0 ∨ 2 ^ 20 < n ∨ n % rateProduct c.modes T ≠ 0) :
    chainBad c T x n = true := by
  simp only [chainBad, Bool.or_eq_true, decide_eq_true_eq, beq_iff_eq]
  exact .inl (.inl (by tauto))

section ChainWord
variable {g : Guard} {d : Reg} {a b : Src} {t : Tmpl} {eoi : Bool} {m : Two} {s : State} {T : Template} (hu : OnCompute s)
include hu

/-! ### CHAIN -/

theorem chain_absent_gives (h : Issues g [a, b] [d] s) (hT : Assoc.find t.toNat s.hereC.templates = none) :
    Gives (.chain g d a b t eoi) s (failSpace (rv s a) s) := by
  show execChain g d a b t eoi s = _
  rw [execChain, onCompute_of_compute hu, issue_of_issues h]
  simp only [hT]

theorem chain_space_gives (h : Issues g [a, b] [d] s) (hT : Assoc.find t.toNat s.hereC.templates = some T)
    (hbad : T.res = true ∨ (rv s a).toNat % 16 ≠ 0 ∨ 2 ^ 16 < (rv s a).toNat + 16) :
    Gives (.chain g d a b t eoi) s (failSpace (rv s a) s) := by
  have hbad' : T.res = true ∨ (rv s a).toNat % 16 ≠ 0 ∨ 0xFFF0 < (rv s a).toNat := hbad.imp_right (Or.imp_right fun h => by omega)
  show execChain g d a b t eoi s = _
  rw [execChain, onCompute_of_compute hu, issue_of_issues h]
  simp only [hT, if_pos hbad']

section Descriptor
variable (h : Issues g [a, b] [d] s) (he : s.errors = []) (hT : Assoc.find t.toNat s.hereC.templates = some T) (hres : T.res = false)
  (hal : (rv s a).toNat % 16 = 0) (hfit : (rv s a).toNat + 16 ≤ 2 ^ 16)
include h he hT hres hal hfit

/-- An issued template with an aligned descriptor in the local store: the descriptor is read, judged and queued (R156). -/
theorem exec_chain_of_descriptor :
    let desc := ofBytesLE (s.lmem.reads (lKey s.cur.region s.cur.unit (rv s a).toNat) 16)
    exec (.chain g d a b t eoi) s = .next (if chainBad s.hereC T desc (rv s b).toNat then failSpace (rv s a) s
      else if 4 ≤ s.hereC.chains.length then park .chainQueue s
      else done d (toWord (s.hereC.nextTicket % 2 ^ 16)) (s.modHereC (fun c =>
        { c with chains := c.chains ++ [queuedChain t.toNat (chainFields desc) (rv s b).toNat eoi s], nextTicket := c.nextTicket + 1 }))) := by
  have hok : ¬ (T.res = true ∨ (rv s a).toNat % 16 ≠ 0 ∨ 0xFFF0 < (rv s a).toNat) := by
    simp only [hres, Bool.false_eq_true, false_or]
    omega
  have hclean : ∀ e ∈ s.errors, e.code ≠ 0 := by simp [he]
  show execChain g d a b t eoi s = _
  rw [execChain, onCompute_of_compute hu, issue_of_issues h]
  simp only [hT, if_neg hok, readChk, readChkBy_clean hclean]
  rfl

theorem chain_bad_gives
    (hbad : chainBad s.hereC T (ofBytesLE (s.lmem.reads (lKey s.cur.region s.cur.unit (rv s a).toNat) 16)) (rv s b).toNat = true) :
    Gives (.chain g d a b t eoi) s (failSpace (rv s a) s) := by
  rw [Gives, exec_chain_of_descriptor hu h he hT hres hal hfit, if_pos hbad]

variable (hgood : chainBad s.hereC T (ofBytesLE (s.lmem.reads (lKey s.cur.region s.cur.unit (rv s a).toNat) 16)) (rv s b).toNat = false)
include hgood

theorem chain_waits_gives (hlen : 4 ≤ s.hereC.chains.length) : Gives (.chain g d a b t eoi) s (park .chainQueue s) := by
  rw [Gives, exec_chain_of_descriptor hu h he hT hres hal hfit, hgood, if_neg Bool.false_ne_true, if_pos hlen]

theorem chain_queues_gives (hlen : s.hereC.chains.length < 4) :
    let desc := ofBytesLE (s.lmem.reads (lKey s.cur.region s.cur.unit (rv s a).toNat) 16)
    Gives (.chain g d a b t eoi) s (done d (toWord (s.hereC.nextTicket % 2 ^ 16)) (s.modHereC (fun c =>
      { c with chains := c.chains ++ [queuedChain t.toNat (chainFields desc) (rv s b).toNat eoi s], nextTicket := c.nextTicket + 1 }))) := by
  intro desc
  rw [Gives, exec_chain_of_descriptor hu h he hT hres hal hfit, hgood, if_neg Bool.false_ne_true, if_neg (Nat.not_le.mpr hlen)]

end Descriptor

/-! ### CWAIT -/

/-- A ticket that is no 16-bit number, or that was not given (R158). -/
theorem cwait_space_gives (h : Issues g [a] [d] s)
    (hbad : 2 ^ 16 ≤ (rv s a).toNat ∨ s.hereC.nextTicket ≤ age (s.hereC.nextTicket + 2 ^ 16 - 1) (rv s a).toNat) :
    Gives (.cwait g d a) s (failSpace 0 s) := by
  show execCwait g d a s = _
  rw [execCwait, onCompute_of_compute hu, issue_of_issues h]
  simp only [if_pos hbad]

/-- A ticket that was given: an old one answers 0, one of the window waits for its chain and every earlier one, then answers its status. -/
theorem exec_cwait_given (h : Issues g [a] [d] s) (hn : (rv s a).toNat < 2 ^ 16)
    (hback : age (s.hereC.nextTicket + 2 ^ 16 - 1) (rv s a).toNat < s.hereC.nextTicket) :
    let n := (rv s a).toNat
    exec (.cwait g d a) s = .next (if 2 ^ 15 ≤ age (s.hereC.nextTicket + 2 ^ 16 - 1) n then done d 0 s
      else if s.hereC.chains.any (fun q => decide (age n q.ticket < 2 ^ 15)) then park (.chain n) s
      else doneFl d (Assoc.get 0 n s.hereC.ended) ((Assoc.get 0 n s.hereC.ended).setWidth 5) s) := by
  have hok : ¬ (2 ^ 16 ≤ (rv s a).toNat ∨ s.hereC.nextTicket ≤ age (s.hereC.nextTicket + 2 ^ 16 - 1) (rv s a).toNat) := by omega
  show execCwait g d a s = _
  rw [execCwait, onCompute_of_compute hu, issue_of_issues h]
  simp only [if_neg hok, BitVec.ofNat_toNat]
  rfl

theorem cwaitFlags_gives (h : Issues g [] [d] s) (hT : Assoc.find t.toNat s.hereC.templates = some T) :
    Gives (.cwaitFlags g d t) s (done d (toWord T.flags.toNat)
      (s.modHereC (fun c => { c with templates := Assoc.put t.toNat { T with flags := 0 } c.templates }))) := by
  show execCwaitFlags g d t s = _
  rw [execCwaitFlags, onCompute_of_compute hu, issue_of_issues h]
  simp only [hT]

theorem cwaitMag_gives (h : Issues g [] [d] s) (hT : Assoc.find t.toNat s.hereC.templates = some T) :
    Gives (.cwaitMag g d t m) s (done d ((T.mags.getD m.toNat 0).setWidth 64) s) := by
  show execCwaitMag g d t m s = _
  rw [execCwaitMag, onCompute_of_compute hu, issue_of_issues h]
  simp only [hT, toWord, BitVec.ofNat_toNat]

end ChainWord

/-! ### What a word that writes one register leaves of its core -/

theorem done_hereC {d : Reg} {v : Word} {s : State} : (done d v s).hereC = s.hereC.setSlot s.cur.slot ((s.here.wr d v).next) := State.hereC_modHere ..
theorem done_pc {d : Reg} {v : Word} {s : State} : (done d v s).here.pc = s.here.pc + 1 := by
  rw [done, retire_here]
  exact congrArg (· + 1) (Slot.wr_pc ..)
/-- A change of the core that leaves its slots leaves the slot under the cursor. -/
theorem here_modHereC_of_slots {f : Core → Core} {s : State} (hf : (f s.hereC).slots = s.hereC.slots) : (s.modHereC f).here = s.here := by
  rw [State.here_modHereC, Core.slot, hf]
  rfl

/-- Settles O30: the lemma of each word, at the condition of its clause. -/
theorem chainWords : Obligations.ChainWords := by
  intro g d a b t eoi m s hu
  refine ⟨fun h he T hT => ⟨fun hres hal hfit hgood => ⟨fun hlen => ?queues, chain_waits_gives hu h he hT hres hal hfit hgood⟩,
      chain_bad_gives hu h he hT, chain_space_gives hu h hT⟩, chain_absent_gives hu, fun c T x n => chainBad_of_count,
    fun h => ⟨fun hn => cwait_space_gives hu h (.inl hn), fun _ hback => cwait_space_gives hu h (.inr hback), fun hn hback =>
      ⟨fun hold => ?old, fun hwin => ⟨fun hall => ?ended, fun hex => ?waits⟩⟩⟩,
    fun h T hT => ⟨?flags, cwaitMag_gives hu h hT⟩⟩
  case queues =>
    refine ⟨_, chain_queues_gives hu h he hT hres hal hfit hgood hlen, ?_, ?_, done_rd, ?_⟩
    · simp [done_hereC, Core.setSlot]
    · rw [done_pc, here_modHereC_of_slots rfl]
    · simp [done_hereC, Core.setSlot, chainFields]
  case old => rw [Gives, exec_cwait_given hu h hn hback, if_pos hold]
  case ended =>
    have hnone : s.hereC.chains.any (fun q => decide (age (rv s a).toNat q.ticket < 2 ^ 15)) = false := by
      simpa [List.any_eq_false] using hall
    rw [Gives, exec_cwait_given hu h hn hback, if_neg (Nat.not_le.mpr hwin), hnone, if_neg Bool.false_ne_true]
  case waits =>
    have hsome : s.hereC.chains.any (fun q => decide (age (rv s a).toNat q.ticket < 2 ^ 15)) = true := by
      simpa [List.any_eq_true] using hex
    rw [Gives, exec_cwait_given hu h hn hback, if_neg (Nat.not_le.mpr hwin), if_pos hsome]
  case flags =>
    refine ⟨_, cwaitFlags_gives hu h hT, fun hd => ?_, ?_, ?_⟩
    · rw [done_rd hd, toWord, BitVec.ofNat_toNat]
    · rw [done_pc, here_modHereC_of_slots rfl]
    · simp [done_hereC, Core.setSlot]

end Sys2Proof.Machine

end

section

namespace Sys2Proof.Machine

open Sys2Proof.Claims

/-! ## Arcs carry beats (O29)

The switch's step on one beat of an arc's inbox is `Arc.step`; where its beats go is `Arc.put`; whether the ring's memory is accessed is
`spillArc`. Each is said once below, for the beat of one clause. -/

/-! ### Where a beat of an arc goes (R196, R197, R201) -/

section ArcStep
variable {seed : Word} {k : Nat} {b : Inbound} {x : Beat} {a : Arc}

theorem Arc.put_fifo (h : a.route.spill = false ∨ (a.ring = [] ∧ a.fifo.length < a.route.depth)) :
    Arc.put [x] a = some { a with fifo := a.fifo ++ [x] } := by
  have hno : (a.route.spill && (!a.ring.isEmpty || decide (a.route.depth ≤ a.fifo.length))) = false := by
    rcases h with h | ⟨hr, hf⟩
    · simp [h]
    · simp [hr, hf]
  rw [Arc.put, hno, if_neg Bool.false_ne_true, Arc.put]

/-- A full FIFO of a spillable arc. -/
theorem Arc.spills (hs : a.route.spill = true) (hf : a.route.depth ≤ a.fifo.length) :
    (a.route.spill && (!a.ring.isEmpty || decide (a.route.depth ≤ a.fifo.length))) = true := by simp [hs, hf]
theorem Arc.put_ring (hs : a.route.spill = true) (hf : a.route.depth ≤ a.fifo.length) (hr : (ringBeats a.ring).length < a.route.ringSize) :
    Arc.put [x] a = some { a with ring := a.ring ++ [x] } := by
  rw [Arc.put, if_pos (Arc.spills hs hf), if_pos hr, Arc.put]
theorem Arc.put_full (hs : a.route.spill = true) (hf : a.route.depth ≤ a.fifo.length) (hr : a.route.ringSize ≤ (ringBeats a.ring).length) :
    Arc.put [x] a = none := by
  rw [Arc.put, if_pos (Arc.spills hs hf), if_neg (Nat.not_lt.mpr hr)]

theorem Beat.lift_of_isData (h : x.isData = true) : x.lift = false := by
  simp only [Beat.isData, Beat.marker, Bool.and_eq_true, Bool.not_eq_true', Bool.or_eq_false_iff] at h
  exact h.1.2
theorem Beat.isData_of_eoi (h : x.eoi = true) : x.isData = false := by simp [Beat.isData, Beat.marker, h]

/-- A data beat of an arc without a conversion is counted and passes unchanged. -/
theorem Arc.step_data (hd : b.beat.isData = true) (hc : a.route.converts = false) :
    Arc.step seed k b a = .ofPut (Arc.put [b.beat] { a with count := a.count + 1 }) := by
  simp [Arc.step, Beat.lift_of_isData hd, hd, Arc.convert, hc]

/-- An eoi marker behind no partly filled beat restarts the count and passes unchanged. -/
theorem Arc.step_eoi (he : b.beat.eoi = true) (hl : b.beat.lift = false) (hh : b.beat.hdr = false) (hp : a.part = []) :
    Arc.step seed k b a = .ofPut (Arc.put [b.beat] { a.unpart with count := 0, latch := 127 }) := by
  simp [Arc.step, hl, Beat.isData_of_eoi he, hh, he, Arc.padded, hp]

/-! The outcome of the step on a data beat: the FIFO, the ring, or a full ring; and on a marker of an arc that does not spill. -/

theorem Arc.step_data_fifo (hd : b.beat.isData = true) (hc : a.route.converts = false)
    (h : a.route.spill = false ∨ (a.ring = [] ∧ a.fifo.length < a.route.depth)) :
    Arc.step seed k b a = .ok { a with fifo := a.fifo ++ [b.beat], count := a.count + 1 } :=
  (Arc.step_data hd hc).trans (congrArg ArcRes.ofPut (Arc.put_fifo (a := { a with count := a.count + 1 }) h))
theorem Arc.step_data_ring (hd : b.beat.isData = true) (hc : a.route.converts = false) (hs : a.route.spill = true)
    (hf : a.route.depth ≤ a.fifo.length) (hr : (ringBeats a.ring).length < a.route.ringSize) :
    Arc.step seed k b a = .ok { a with ring := a.ring ++ [b.beat], count := a.count + 1 } :=
  (Arc.step_data hd hc).trans (congrArg ArcRes.ofPut (Arc.put_ring (a := { a with count := a.count + 1 }) hs hf hr))
theorem Arc.step_data_full (hd : b.beat.isData = true) (hc : a.route.converts = false) (hs : a.route.spill = true)
    (hf : a.route.depth ≤ a.fifo.length) (hr : a.route.ringSize ≤ (ringBeats a.ring).length) :
    Arc.step seed k b a = .full :=
  (Arc.step_data hd hc).trans (congrArg ArcRes.ofPut (Arc.put_full (a := { a with count := a.count + 1 }) hs hf hr))
theorem Arc.step_eoi_fifo (he : b.beat.eoi = true) (hl : b.beat.lift = false) (hh : b.beat.hdr = false) (hp : a.part = [])
    (hs : a.route.spill = false) :
    Arc.step seed k b a = .ok { a.unpart with count := 0, latch := 127, fifo := a.fifo ++ [b.beat] } :=
  (Arc.step_eoi he hl hh hp).trans (congrArg ArcRes.ofPut (Arc.put_fifo (a := { a.unpart with count := 0, latch := 127 }) (.inl hs)))

end ArcStep

/-! ### The ring's memory (R201) -/

section Ring
variable {r k u e : Nat} {a a1 : Arc} {b : Inbound} {rest : List Inbound} {c : Context} {s s1 : State} {x : StopRec}

/-- A beat that went to the FIFO touches no memory. -/
theorem spillArc_of_same_ring (h : a1.ring = a.ring) : spillArc r k a a1 s = s.modRegion r (fun R => R.setArc k a1) := by
  simp only [spillArc, h, List.drop_length]
  rfl

/-- A beat that went to the ring is written at its place. -/
theorem spillArc_of_ring (hc : s.ctxOf (s.region r) = some c) (hb : b.beat.lift = false) (h : a1.ring = a.ring ++ [b.beat]) :
    spillArc r k a a1 s = ringAccess r k a.count (fun _ s1 => s1.modRegion r (fun R => R.setArc k a1)) s
      ((gWrite c r (ringSlot (s.region r) k a (ringBeats a.ring).length) (ringBytes s.fresh) { s with fresh := s.fresh + 64 }).bind
        (fun _ s1 => .ok () s1)) := by
  have hnew : a1.ring.drop a.ring.length = [b.beat] := by simp [h]
  simp only [spillArc, hnew, hc, ringWrite, hb, Bool.false_eq_true, if_false]
  rfl

variable (hh : (s.region r).halt = false) (ha : Assoc.find (arcKey u e) (s.region r).arcs = some a)
include hh ha

/-- The switch's step on the oldest beat of the inbox decides. -/
theorem arcBeat_gives_of_ok (he : s.errors = []) (hin : a.inbox = b :: rest)
    (hstep : Arc.step (regionSeed r s) (arcKey u e) b { a with inbox := rest } = .ok a1) :
    Gives (.arcBeat r u e) s (spillArc r (arcKey u e) a a1 s) := by
  have hclean : ∀ x ∈ s.errors, x.code ≠ 5 := by simp [he]
  show execArcBeat r u e s = _
  simp only [execArcBeat, hh, ha, hin, hstep, readChk, readChkBy_clean hclean, Bool.false_eq_true, if_false, nx]
/-- A beat that does not go to the ring. -/
theorem arcBeat_gives_of_same_ring (he : s.errors = []) (hin : a.inbox = b :: rest)
    (hstep : Arc.step (regionSeed r s) (arcKey u e) b { a with inbox := rest } = .ok a1) (hring : a1.ring = a.ring) :
    Gives (.arcBeat r u e) s (s.modRegion r (fun R => R.setArc (arcKey u e) a1)) := by
  rw [← spillArc_of_same_ring hring]
  exact arcBeat_gives_of_ok hh ha he hin hstep
theorem arcBeat_gives_of_full (he : s.errors = []) (hin : a.inbox = b :: rest)
    (hstep : Arc.step (regionSeed r s) (arcKey u e) b { a with inbox := rest } = .full) :
    Gives (.arcBeat r u e) s (raise r (switchRec 0x16 (arcKey u e) (BitVec.ofNat 64 a.count) (BitVec.ofNat 64 e)) s) := by
  have hclean : ∀ x ∈ s.errors, x.code ≠ 5 := by simp [he]
  show execArcBeat r u e s = _
  simp only [execArcBeat, hh, ha, hin, hstep, readChk, readChkBy_clean hclean, Bool.false_eq_true, if_false, nx, toWord]

/-- The oldest beat of a ring is read at its place (R201). -/
theorem spillReturn_gives {x : Beat} {ring : List Beat} (hc : s.ctxOf (s.region r) = some c) (hr : a.ring = x :: ring) (hx : x.lift = false)
    (hf : a.fifo.length < a.route.depth) :
    Gives (.spillReturn r u e) s (ringAccess r (arcKey u e) a.count
      (fun d s1 => s1.modRegion r (fun R => R.setArc (arcKey u e) (a.unspill d ring))) s
      ((gRead c r (ringSlot (s.region r) (arcKey u e) a 0) 64 s).bind (fun _ s1 => .ok x s1))) := by
  show execSpillReturn r u e s = _
  simp only [execSpillReturn, hh, ha, hc, hr, hf, ringRead, hx, Bool.false_eq_true, if_false, if_true, nx]
  rfl

end Ring

/-- Settles O29: where `Arc.step` puts the beat decides whether the ring's memory is accessed; an access that fails is raised at the arc. -/
theorem arcsCarryBeats : Obligations.ArcsCarryBeats := by
  intro r u e a s hh he ha
  refine ⟨fun b rest hin hpart => ⟨fun hd hc => ⟨fun hroom => ?fifo, fun c hctx hs hf hr => ?ring, fun hs hf hr => ?full⟩, fun heoi hl hhdr hs => ?eoi⟩,
    fun c b rest hctx hr hb hf => ?back⟩
  case fifo => exact arcBeat_gives_of_same_ring hh ha he hin (Arc.step_data_fifo (a := { a with inbox := rest }) hd hc hroom) rfl
  case ring =>
    have hgo := (arcBeat_gives_of_ok hh ha he hin (Arc.step_data_ring (a := { a with inbox := rest }) hd hc hs hf hr)).trans
      (congrArg _ (spillArc_of_ring hctx (Beat.lift_of_isData hd) rfl))
    exact ⟨fun s1 hw => hgo.trans (by rw [hw]; rfl), fun x s1 hw => hgo.trans (by rw [hw]; rfl)⟩
  case full => exact arcBeat_gives_of_full hh ha he hin (Arc.step_data_full (a := { a with inbox := rest }) hd hc hs hf hr)
  case eoi =>
    exact ⟨_, arcBeat_gives_of_same_ring hh ha he hin (Arc.step_eoi_fifo (a := { a with inbox := rest }) heoi hl hhdr hpart hs) rfl,
      rfl, rfl, rfl, rfl⟩
  case back =>
    have hgo := spillReturn_gives hh ha hctx hr hb hf
    have hun : a.unspill b rest = { a with ring := rest, rpos := (a.rpos + 1) % (64 * 2 ^ a.route.ring), fifo := a.fifo ++ [b] } := by
      rw [Arc.unspill, hb, if_neg Bool.false_ne_true, Route.ringSize]
    exact ⟨fun bs s1 hw => hgo.trans (by rw [hw, ← hun]; rfl), fun x s1 hw => hgo.trans (by rw [hw]; rfl)⟩

end Sys2Proof.Machine

end

section

namespace Sys2Proof

/-! ## Replacing the value at a listed key (for O27)

In a sorted list `put` at a listed key leaves every other entry in its place, so a search that does not tell the two values apart finds the
same entry. -/

variable {α : Type}

theorem Assoc.mem_of_find {k : Nat} {a : α} {l : Assoc α} (h : Assoc.find k l = some a) : (k, a) ∈ l := by
  induction l with
  | nil => simp at h
  | cons p t ih =>
    obtain ⟨k', v'⟩ := p
    rw [Assoc.find] at h
    split at h
    · next e =>
      cases e
      cases h
      exact List.mem_cons_self
    · exact List.mem_cons_of_mem _ (ih h)

/-- The map over a list that replaces the value at `k`. -/
def Assoc.replaceAt (k : Nat) (v : α) (e : Nat × α) : Nat × α := if e.1 = k then (k, v) else e

theorem Assoc.find?_put {k : Nat} {v a : α} {l : Assoc α} {q : Nat × α → Bool} (hs : Assoc.sorted l = true) (hf : Assoc.find k l = some a)
    (hq : q (k, v) = q (k, a)) : (Assoc.put k v l).find? q = (l.find? q).map (Assoc.replaceAt k v) := by
  induction l with
  | nil => simp at hf
  | cons p t ih =>
    obtain ⟨habove, ht⟩ := Assoc.sorted_cons.mp hs
    obtain ⟨k', v'⟩ := p
    rw [Assoc.find] at hf
    by_cases e : k' = k
    · subst e
      obtain rfl : v' = a := by simpa using hf
      have hrest : (t.find? q).map (Assoc.replaceAt k' v) = t.find? q := by
        cases hx : t.find? q with
        | none => rfl
        | some x => exact congrArg some (if_neg (Nat.ne_of_gt (habove x (List.mem_of_find?_eq_some hx))))
      rw [Assoc.put, if_neg (Nat.lt_irrefl _), if_pos rfl, List.find?_cons, List.find?_cons, hq]
      cases q (k', v')
      · exact hrest.symm
      · simp [Assoc.replaceAt]
    · rw [if_neg e] at hf
      have hlt : k' < k := habove _ (Assoc.mem_of_find hf)
      rw [Assoc.put, if_neg (Nat.lt_asymm hlt), if_neg e, List.find?_cons, List.find?_cons, ih ht hf]
      cases q (k', v')
      · rfl
      · simp [Assoc.replaceAt, e]

/-! ### Replacing an entry of a list -/

theorem listSet_eq_set {n : Nat} {v : α} {l : List α} : listSet n v l = l.set n v := by
  induction l generalizing n with
  | nil => cases n <;> rfl
  | cons x t ih => cases n <;> simp [listSet, ih]

end Sys2Proof

end

section

namespace Sys2Proof.Machine

open Sys2Proof.Claims

/-! ## Ends of invocation and headers (O27)

An end of invocation pops the marker of every input, unlatches the inputs, pushes a marker on every output port, and resets the stage. Each of
these leaves the cores alone but the last, and none but the unlatching changes an arc's scale. -/

/-! ### Input arcs under the region's operations (R67, R80) -/

section InArc
variable {R : Region} {u p q n k : Nat} {a a' : Arc} {b : Beat}

/-- The scale that the consumer at an input port holds is 2^0. -/
def Region.HoldsOne (R : Region) (u p : Nat) : Prop := ∀ k a, R.inArc u p = some (k, a) → a.held = 127

theorem find_of_inArc (hs : Assoc.sorted R.arcs = true) (h : R.inArc u p = some (k, a)) : Assoc.find k R.arcs = some a :=
  Assoc.find_of_mem hs (List.mem_of_find?_eq_some h)

theorem inArc_setArc (hs : Assoc.sorted R.arcs = true) (h : Assoc.find k R.arcs = some a) (hr : a'.route = a.route) :
    (R.setArc k a').inArc u p = (R.inArc u p).map (Assoc.replaceAt k a') := Assoc.find?_put hs h (by rw [hr])

theorem sorted_popIn (hs : Assoc.sorted R.arcs = true) : Assoc.sorted (R.popIn u p n).arcs = true := by
  unfold Region.popIn
  split
  · exact Assoc.sorted_put hs
  · exact hs
theorem sorted_unlatch (hs : Assoc.sorted R.arcs = true) : Assoc.sorted (R.unlatch u p).arcs = true := by
  unfold Region.unlatch
  split
  · exact Assoc.sorted_put hs
  · exact hs

theorem holdsOne_of_none (h : R.inArc u p = none) : R.HoldsOne u p := fun k a h' => by
  rw [h] at h'
  nomatch h'

/-- Unlatching an input sets its scale, and leaves every other. -/
theorem holdsOne_unlatch (hs : Assoc.sorted R.arcs = true) (h : q = p ∨ R.HoldsOne u q) : (R.unlatch u p).HoldsOne u q := by
  cases he : R.inArc u p with
  | none =>
    have hun : R.unlatch u p = R := by simp only [Region.unlatch, he]
    rw [hun]
    exact h.elim (fun e => e ▸ holdsOne_of_none he) id
  | some e =>
    obtain ⟨k, a⟩ := e
    have hun : R.unlatch u p = R.setArc k { a with held := 127 } := by simp only [Region.unlatch, he]
    intro k' a' h'
    rw [hun, inArc_setArc (a' := { a with held := 127 }) hs (find_of_inArc hs he) rfl, Option.map_eq_some_iff] at h'
    obtain ⟨⟨j, x⟩, hx, heq⟩ := h'
    by_cases hj : j = k
    · rw [Assoc.replaceAt, if_pos hj] at heq
      cases heq
      rfl
    · rw [Assoc.replaceAt, if_neg hj] at heq
      cases heq
      refine h.elim (fun e => ?_) (fun h => h _ _ hx)
      rw [e, he] at hx
      cases hx
      exact absurd rfl hj

theorem holdsOne_unlatchAll_of_holdsOne {ps : List Nat} {R : Region} (hs : Assoc.sorted R.arcs = true) (h : R.HoldsOne u q) :
    (R.unlatchAll u ps).HoldsOne u q := by
  induction ps generalizing R with
  | nil => exact h
  | cons p t ih => exact ih (sorted_unlatch hs) (holdsOne_unlatch hs (.inr h))
theorem holdsOne_unlatchAll {ps : List Nat} {R : Region} (hs : Assoc.sorted R.arcs = true) (h : q ∈ ps) : (R.unlatchAll u ps).HoldsOne u q := by
  induction ps generalizing R with
  | nil => nomatch h
  | cons p t ih =>
    rcases List.mem_cons.mp h with rfl | h
    · exact holdsOne_unlatchAll_of_holdsOne (R := R.unlatch u q) (sorted_unlatch hs) (holdsOne_unlatch hs (.inl rfl))
    · exact ih (sorted_unlatch hs) h

/-- A pushed beat changes no arc's scale. -/
theorem holdsOne_pushOut {v : Nat} {bs : List Beat} (h : R.HoldsOne u q) : (R.pushOut v p bs).HoldsOne u q := by
  intro k a h'
  rw [Region.inArc, Region.pushOut, List.find?_map, Option.map_eq_some_iff] at h'
  obtain ⟨⟨j, x⟩, hx, heq⟩ := h'
  have hin : R.inArc u q = some (j, x) := by
    rw [← hx, Region.inArc]
    congr 1
    funext e
    simp only [Function.comp_apply]
    split <;> rfl
  have hheld : a.held = x.held := by
    split at heq <;> cases heq <;> rfl
  rw [hheld]
  exact h j x hin

theorem cores_popIn : (R.popIn u p n).cores = R.cores := by
  unfold Region.popIn
  split <;> rfl
theorem cores_unlatch : (R.unlatch u p).cores = R.cores := by
  unfold Region.unlatch
  split <;> rfl
theorem cores_coatEoi {t j : Nat} {ps : List Nat} : (coatEoi u t j ps R).cores = R.cores := by
  unfold coatEoi
  split <;> rfl
theorem arcs_coatEoi {t j : Nat} {ps : List Nat} : (coatEoi u t j ps R).arcs = R.arcs := by
  unfold coatEoi
  split <;> rfl

end InArc

/-! ### The action (R80) -/

/-- The region once a stage has taken its inputs' markers, which stand at these places, and has put its own on its output ports. -/
def eoiTaken (u : Nat) (place : Nat → Nat) (w : IWord) (R : Region) : Region :=
  (outPorts w).foldl (fun R p => R.pushOut u p [eoiBeat])
    (((uniq (inPorts w)).foldl (fun R p => R.popIn u p (place p + 1)) R).unlatchAll u (inPorts w))
/-- The template once stage `j` has taken the markers of the internal arcs from `inner` and has put its own on those to its readers. -/
def eoiTemplate (inner : List Nat) (j : Nat) (st : Stage) (T : Template) : Template :=
  (({ T with arcs := inner.foldl (fun l p => Assoc.set [] (innerKey p j) ((T.inner p j).drop 1) l) T.arcs, mags := magsReset st.word T.mags } :
    Template).setStage j { st with pos := 0, carry := 0, served := [] }).pushInner j [eoiBeat]

section EoiTaken
variable {R : Region} {u : Nat} {place : Nat → Nat} {w : IWord}

theorem cores_eoiTaken : (eoiTaken u place w R).cores = R.cores := by
  have hpop : ((uniq (inPorts w)).foldl (fun R p => R.popIn u p (place p + 1)) R).cores = R.cores :=
    List.foldlRecOn (motive := fun R' : Region => R'.cores = R.cores) _ _ rfl fun R' h p _ => cores_popIn.trans h
  have hun : (((uniq (inPorts w)).foldl (fun R p => R.popIn u p (place p + 1)) R).unlatchAll u (inPorts w)).cores = R.cores :=
    List.foldlRecOn (motive := fun R' : Region => R'.cores = R.cores) _ _ hpop fun R' h p _ => cores_unlatch.trans h
  exact List.foldlRecOn (motive := fun R' : Region => R'.cores = R.cores) _ _ hun fun R' h p _ => h

theorem holdsOne_eoiTaken {p : Nat} (hs : Assoc.sorted R.arcs = true) (h : p ∈ inPorts w) : (eoiTaken u place w R).HoldsOne u p := by
  have hsorted : Assoc.sorted ((uniq (inPorts w)).foldl (fun R p => R.popIn u p (place p + 1)) R).arcs = true :=
    List.foldlRecOn (motive := fun R' : Region => Assoc.sorted R'.arcs = true) _ _ hs fun R' h p _ => sorted_popIn h
  exact List.foldlRecOn (motive := fun R' : Region => R'.HoldsOne u p) _ _ (holdsOne_unlatchAll hsorted h) fun R' h p _ => holdsOne_pushOut h

end EoiTaken

section EoiTemplate
variable {inner : List Nat} {i j : Nat} {st st' : Stage} {T : Template}

theorem stage_pushInner {bs : List Beat} : (T.pushInner j bs).stage i = T.stage i := rfl
theorem stage_setStage_same (h : T.stage j = some st) : (T.setStage j st').stage j = some st' := by
  unfold Template.stage at h ⊢
  split at h
  · nomatch h
  · next hj =>
    obtain ⟨hlt, -⟩ := List.getElem?_eq_some_iff.mp h
    simp [hj, Template.setStage, listSet_eq_set, hlt]
theorem stage_setStage_other (hj : j ≠ 0) (h : i ≠ j) : (T.setStage j st').stage i = T.stage i := by
  unfold Template.stage
  split
  · rfl
  · next hi => rw [Template.setStage, listSet_eq_set, List.getElem?_set_ne (by omega)]
theorem stage_ne_zero (h : T.stage j = some st) : j ≠ 0 := fun e => by
  rw [e] at h
  nomatch h

theorem stage_eoiTemplate_same (h : T.stage j = some st) :
    (eoiTemplate inner j st T).stage j = some { st with pos := 0, carry := 0, served := [] } := stage_setStage_same (st := st) h
theorem stage_eoiTemplate_other (hj : j ≠ 0) (h : i ≠ j) : (eoiTemplate inner j st T).stage i = T.stage i := stage_setStage_other hj h
theorem mags_eoiTemplate (h : wordOp st.word ≠ 0x97) : (eoiTemplate inner j st T).mags = T.mags := if_neg h

end EoiTemplate

/-! ### Reading the words of FIFOs without soft errors (R207) -/

theorem fifosChk_clean {r : Nat} {k : State → State} {s : State} (he : s.errors = []) (l : List (Nat × Nat × Nat)) : fifosChk r l k s = k s := by
  have hclean : ∀ x ∈ s.errors, x.code ≠ 4 := by simp [he]
  induction l with
  | nil => rfl
  | cons e t ih =>
    obtain ⟨e, i, n⟩ := e
    rw [fifosChk, readChkBy_clean hclean, ih, ite_self]

/-! ### The end of invocation of a stage -/

/-- The state once stage `j` of template `t` has handled its end of invocation. -/
def eoiHandled (r u t j : Nat) (inner : List Nat) (T : Template) (st : Stage) (s : State) : State :=
  s.setRegion r (coatEoi u t j (outPorts st.word) ((eoiTaken u (stageMarkAt (s.region r) u st) st.word (s.region r)).setCore u
    { s.core r u with templates := Assoc.put t (eoiTemplate inner j st T) (s.core r u).templates }))

section Eoi
variable {r u t j : Nat} {inner : List Nat} {T : Template} {st : Stage} {s : State}

theorem core_eoiHandled (v : Nat) : (eoiHandled r u t j inner T st s).core r v =
    if v = u then { s.core r u with templates := Assoc.put t (eoiTemplate inner j st T) (s.core r u).templates } else s.core r v := by
  rw [State.core, eoiHandled, State.region_setRegion_same, Region.core, cores_coatEoi, ← Region.core, Region.core_setCore, Region.core, cores_eoiTaken]
  rfl
theorem templates_eoiHandled :
    ((eoiHandled r u t j inner T st s).core r u).templates = Assoc.put t (eoiTemplate inner j st T) (s.core r u).templates := by
  rw [core_eoiHandled, if_pos rfl]
theorem slotsKept_eoiHandled : SlotsKept r s (eoiHandled r u t j inner T st s) := by
  refine ⟨fun v => ?_, rfl, rfl⟩
  rw [core_eoiHandled]
  split
  · next e => rw [e]
  · rfl
theorem holdsOne_eoiHandled {p : Nat} (hs : Assoc.sorted (s.region r).arcs = true) (hp : p ∈ inPorts st.word) :
    ((eoiHandled r u t j inner T st s).region r).HoldsOne u p := by
  rw [eoiHandled, State.region_setRegion_same, Region.HoldsOne, Region.inArc, arcs_coatEoi]
  exact holdsOne_eoiTaken hs hp

/-- The conditions under which a stage handles its end of invocation. -/
structure EoiStands (r u t j : Nat) (T : Template) (st : Stage) (s : State) : Prop where
  halt : (s.region r).halt = false
  preempt : (s.region r).preempt = none
  errors : s.errors = []
  template : Assoc.find t (s.core r u).templates = some T
  stage : T.stage j = some st
  res : T.res = true
  firing : st.firing = none
  ready : eoiReady (s.region r) u t T j st = true
  roomOut : ∀ p ∈ outPorts st.word, (s.region r).roomOutMark u p = true
  roomInner : T.roomInner (s.core r u).modes j 1 = true

theorem eoiHandling_gives (h : EoiStands r u t j T st s) : ∃ inner,
    Gives (.eoiHandling r (.stage u t j)) s (if markHeadersOk (s.region r) u st (uniq (inPorts st.word)) = false then raise r (firingRec 0x03 u t st) s
      else eoiHandled r u t j inner T st s) := by
  have hT : Assoc.find t ((s.region r).core u).templates = some T := h.template
  have hmay : (T.res && st.firing.isNone && !false && eoiReady (s.region r) u t T j st && (outPorts st.word).all ((s.region r).roomOutMark u) &&
      T.roomInner ((s.region r).core u).modes j 1) = true := by
    simp only [h.res, h.firing, h.ready, List.all_eq_true.mpr h.roomOut, Option.isNone, Bool.not_false, Bool.and_self, Bool.true_and]
    exact h.roomInner
  refine ⟨markedInner (match (s.region r).coatAt u t with
    | some (_, _, c) => c.head
    | none => false) T j, ?_⟩
  show execEoiHandling r (.stage u t j) s = _
  simp only [execEoiHandling, eoiStage, Region.frozen, h.halt, h.preempt, hT, h.stage, hmay, fifosChk_clean h.errors, Bool.or_self,
    Bool.false_eq_true, if_false, if_true, nx]
  cases markHeadersOk (s.region r) u st (uniq (inPorts st.word)) <;> rfl

end Eoi

/-! ### A header before the data of an input (R67) -/

section Header
variable {r u t j p i k n : Nat} {T : Template} {st : Stage} {a : Arc} {b : Beat} {x : StopRec} {s : State}

/-- The state once a header has been taken off arc `k` and its scale latched. -/
def headerTaken (r k i : Nat) (a : Arc) (b : Beat) (s : State) : State :=
  (shiftWords r k i s).modRegion r (fun R => R.setArc k { a with fifo := listDrop i a.fifo, out := a.out + 1, held := headerScale b })

theorem takeHeader_eq (he : s.errors = []) (ha : (s.region r).inArc u p = some (k, a)) (hi : headerPlace 0 n a.fifo = some i)
    (hb : a.fifo[i]? = some b) : takeHeader r u p n x s = if headerOk b then headerTaken r k i a b s else raise r x s := by
  simp only [takeHeader, ha, hi, hb, fifosChk_clean he]
  rfl

theorem slotsKept_headerTaken : SlotsKept r s (headerTaken r k i a b s) := by
  refine ⟨fun v => congrArg Core.slots ?_, rfl, rfl⟩
  exact State.core_modRegion (f := fun R => R.setArc k _) (fun _ => rfl) r r v (shiftWords r k i s)
theorem find_headerTaken : Assoc.find k ((headerTaken r k i a b s).region r).arcs =
    some { a with fifo := listDrop i a.fifo, out := a.out + 1, held := headerScale b } := by
  rw [headerTaken, State.region_modRegion_same, Region.setArc, Assoc.find_put_same]

theorem headerLatch_gives (hh : (s.region r).halt = false) (hp : (s.region r).preempt = none)
    (hT : Assoc.find t (s.core r u).templates = some T) (hst : T.stage j = some st)
    (hruns : T.res = true ∨ ∃ q, (s.core r u).chainOf t = some q ∧ q.short = false) (hmem : memField ((s.core r u).chainOf t) p = none)
    (hin : (inPorts st.word).contains p = true) :
    Gives (.headerLatch r (.stage u t j) p) s (takeHeader r u p (stageRate st.word p) (firingRec 0x03 u t st) s) := by
  have hT' : Assoc.find t ((s.region r).core u).templates = some T := hT
  have hmem' : memField (((s.region r).core u).chainOf t) p = none := hmem
  have hreads : (T.res || (((s.region r).core u).chainOf t).any (fun q => !q.short)) = true := by
    rcases hruns with h | ⟨q, hq, hshort⟩
    · rw [h, Bool.true_or]
    · have hq' : ((s.region r).core u).chainOf t = some q := hq
      rw [hq', Option.any_some, hshort, Bool.not_false, Bool.or_true]
  show execHeaderLatch r (.stage u t j) p s = _
  simp only [execHeaderLatch, Region.frozen, hh, hp, hT', Option.bind_some, hreads, hst, hin, hmem', Option.isNone, Bool.or_self, Bool.and_self,
    Bool.false_eq_true, if_false, if_true, nx]

end Header

/-- Settles O27: the action on the region and the template, and the header taken off. -/
theorem endsOfInvocation : Obligations.EndsOfInvocation := by
  intro r u t j T st s hh hp he hT hst
  refine ⟨fun hres hfire hready hout hroom => ?eoi, fun p k a i b hruns hmem hin ha hi hb => ?header⟩
  case eoi =>
    obtain ⟨inner, hgives⟩ := eoiHandling_gives ⟨hh, hp, he, hT, hst, hres, hfire, hready, hout, hroom⟩
    refine ⟨fun hm => by rw [Gives, hgives, if_pos hm], fun hm => ?_⟩
    rw [hm, if_neg Bool.true_eq_false.mp] at hgives
    refine ⟨_, _, _, hgives, by rw [templates_eoiHandled, Assoc.find_put_same], stage_eoiTemplate_same hst, rfl, rfl, rfl, hfire, rfl,
      fun i hi => stage_eoiTemplate_other (stage_ne_zero hst) hi, mags_eoiTemplate, slotsKept_eoiHandled, rfl,
      fun hs p k a hpin => holdsOne_eoiHandled hs (List.contains_iff_mem.mp hpin) k a⟩
  case header =>
    have hgo := (headerLatch_gives hh hp hT hst hruns hmem hin).trans (congrArg _ (takeHeader_eq he ha hi hb))
    exact ⟨fun hok => ⟨_, hgo.trans (congrArg _ (if_pos hok)), slotsKept_headerTaken, find_headerTaken⟩,
      fun hbad => hgo.trans (congrArg _ (if_neg (by rw [hbad]; exact Bool.false_ne_true)))⟩

end Sys2Proof.Machine

end

section

namespace Sys2Proof

/-- Reading a list whose values a function has changed that leaves the default (for O8). -/
theorem Assoc.get_map {α : Type} {d : α} {f : α → α} {k : Nat} {l : Assoc α} (hd : f d = d) :
    Assoc.get d k (l.map (fun p => (p.1, f p.2))) = f (Assoc.get d k l) := by
  induction l with
  | nil => exact hd.symm
  | cons p t ih =>
    rw [List.map_cons, Assoc.get, Assoc.get]
    split
    · rfl
    · exact ih

end Sys2Proof

end

section

namespace Sys2Proof.Machine

open Sys2Proof.Claims

/-! ## Task control (O8)

Each word's body at a state where it issues, at the branch that the clause is about. -/

section TaskWord
variable {g : Guard} {d x : Reg} {a b c : Src} {p : PReg} {imm : Imm} {m : BitVec 16} {s : State} {j k : Nat}

/-! ### TWAIT (R105) -/

theorem firstWord_eq_some {c : Core} (hj : j < 16) (hm : m.getLsbD j = true) (hw : (c.chan j).words ≠ [])
    (hlow : ∀ i, i < j → m.getLsbD i = true → ¬ (c.chan i).words ≠ []) : firstWord c m = some j := by
  rw [firstWord, List.find?_range_eq_some]
  refine ⟨by simp [hm, hw], List.mem_range.mpr hj, fun i hi => ?_⟩
  cases h : m.getLsbD i with
  | false => rfl
  | true => simp [not_not.mp (hlow i hi h)]

theorem firstWord_eq_none {c : Core} (hnone : ∀ i, i < 16 → m.getLsbD i = true → ¬ (c.chan i).words ≠ []) : firstWord c m = none := by
  rw [firstWord, List.find?_eq_none]
  intro i hi
  rw [List.mem_range] at hi
  cases h : m.getLsbD i with
  | false => simp
  | true => simp [not_not.mp (hnone i hi h)]

theorem twait_gives_channel (h : Issues g [a] [d] s) (hm : twaitMask a s ≠ 0) (hj : j < 16) (hbit : (twaitMask a s).getLsbD j = true)
    (hw : Holds s j) (hlow : ∀ i, i < j → (twaitMask a s).getLsbD i = true → ¬ Holds s i) :
    Gives (.twait g d a) s (done d (BitVec.ofNat 64 j) s) := by
  have hfirst := firstWord_eq_some hj hbit hw hlow
  rw [twaitMask] at hm hfirst
  show execTwait g d a s = _
  rw [execTwait, issue_of_issues h]
  simp only [if_neg hm, hfirst, toWord]
theorem twait_waits (h : Issues g [a] [d] s) (hm : twaitMask a s ≠ 0)
    (hnone : ∀ i, i < 16 → (twaitMask a s).getLsbD i = true → ¬ Holds s i) : Gives (.twait g d a) s (park (.word s.here.chbind) s) := by
  have hfirst := firstWord_eq_none hnone
  rw [twaitMask] at hm hfirst
  show execTwait g d a s = _
  rw [execTwait, issue_of_issues h]
  simp only [if_neg hm, hfirst]

/-! ### TRUN (R70, R106) -/

/-- What the binding of channels to slot `k` leaves of a slot: all but its bound channels. -/
theorem slot_bindChannels (c : Core) : (bindChannels c k m).slot j =
    { c.slot j with chbind := if j = k then (c.slot k).chbind ||| m else (c.slot j).chbind &&& ~~~m } := by
  have hmap : ∀ j, Core.slot { c with slots := c.slots.map (fun p => (p.1, { p.2 with chbind := p.2.chbind &&& ~~~m })) } j =
      { c.slot j with chbind := (c.slot j).chbind &&& ~~~m } := fun j =>
    Assoc.get_map (f := fun sl : Slot => { sl with chbind := sl.chbind &&& ~~~m }) (by simp [Slot.init])
  rw [bindChannels, Core.slot_setSlot, hmap k, hmap j]
  split
  · next e => rw [e]
  · rfl

theorem slot_startTask {e : Word} (c : Core) : (startTask k e m c).slot j =
    if j = k then { c.slot k with chbind := (c.slot k).chbind ||| m, pc := e, count := 0, st := .runnable, prog := .fresh }
    else { c.slot j with chbind := (c.slot j).chbind &&& ~~~m } := by
  rw [startTask, Core.slot_setSlot]
  split
  · simp [slot_bindChannels]
  · next hj => simp [slot_bindChannels, hj]

theorem boundElsewhere_eq_false {c : Core} {u me : Nat} (h : ∀ j, j < slotCount u → j ≠ k → j ≠ me → (c.slot j).chbind &&& m = 0) :
    boundElsewhere c u k me m = false := by
  rw [boundElsewhere, List.any_eq_false]
  intro j hj
  rw [List.mem_range] at hj
  simp only [Bool.and_eq_true, decide_eq_true_eq, not_and, not_not]
  exact fun ⟨hk, hme⟩ => h j hj hk hme

/-! #### A slot, an entry word and channels that TRUN may name -/

section Trun
variable (h : Issues g [a, b, c] [d] s) (hk : (rv s a).toNat < slotCount s.cur.unit) (he : OnControl s ∨ (rv s b).toNat ≤ 2047)
  (hb : ∀ j, j < slotCount s.cur.unit → j ≠ (rv s a).toNat → j ≠ s.cur.slot → (s.hereC.slot j).chbind &&& (rv s c).setWidth 16 = 0)

include hk he in
theorem trun_operands_ok : ¬ (slotCount s.cur.unit ≤ (rv s a).toNat ∨ (!isCtl s.cur.unit ∧ 2047 < (rv s b).toNat)) := by
  rintro (hle | ⟨hu, hgt⟩)
  · omega
  · exact he.elim (fun hctl => by simp [hctl] at hu) (fun hle => by omega)

include h hk he hb

theorem trun_starts (hst : (s.hereC.slot (rv s a).toNat).st = .idle) :
    Gives (.trun g d a b c) s (done d 0 (s.modHereC (startTask (rv s a).toNat (rv s b) ((rv s c).setWidth 16)))) := by
  show execTrun g d a b c s = _
  rw [execTrun, issue_of_issues h]
  simp only [if_neg (trun_operands_ok hk he), boundElsewhere_eq_false hb, Bool.false_eq_true, if_false, hst]

theorem trun_resumes (hst : (s.hereC.slot (rv s a).toNat).st = .waiting .trapped) :
    Gives (.trun g d a b c) s (done d 1 (resumeTrapped s.cur.region s.cur.unit (rv s a).toNat s)) := by
  show execTrun g d a b c s = _
  rw [execTrun, issue_of_issues h]
  simp only [if_neg (trun_operands_ok hk he), boundElsewhere_eq_false hb, Bool.false_eq_true, if_false, hst]

/-- A slot that is neither idle nor trapped: of the word's three cases the last is left. -/
theorem trun_changes_nothing (hidle : (s.hereC.slot (rv s a).toNat).st ≠ .idle) (htrapped : (s.hereC.slot (rv s a).toNat).st ≠ .waiting .trapped) :
    Gives (.trun g d a b c) s (done d 2 s) := by
  show execTrun g d a b c s = _
  rw [execTrun, issue_of_issues h]
  simp only [if_neg (trun_operands_ok hk he), boundElsewhere_eq_false hb, Bool.false_eq_true, if_false]

end Trun

/-! #### The slots after a task has been started -/

theorem done_slot {v : Word} (hj : j ≠ s.cur.slot) : (done d v s).hereC.slot j = s.hereC.slot j := by
  rw [done_hereC, Core.slot_setSlot, if_neg hj]
theorem slot_started {e v : Word} (hk : k ≠ s.cur.slot) : (done d v (s.modHereC (startTask k e m))).hereC.slot k =
    { s.hereC.slot k with chbind := (s.hereC.slot k).chbind ||| m, pc := e, count := 0, st := .runnable, prog := .fresh } := by
  rw [done_slot (s := s.modHereC (startTask k e m)) hk, State.hereC_modHereC, slot_startTask, if_pos rfl]
theorem here_startTask {e : Word} (hk : k ≠ s.cur.slot) :
    (s.modHereC (startTask k e m)).here = { s.here with chbind := s.here.chbind &&& ~~~m } := by
  rw [State.here_modHereC, slot_startTask, if_neg (Ne.symm hk)]
  rfl

/-! ### TEND, EMPTY, FULLQ, YIELD, HALT (R107 to R111) -/

theorem tend_gives (h : Issues g [] [] s) (hp : s.here.anyPending = false) (hh : handlerSlot s.hereC ≠ s.cur.slot ∨ OnControl s) :
    Gives (.tend g) s (s.modHere (fun sl => { sl with pc := sl.pc + 1, st := .idle, prog := .fresh, roster := false })) := by
  have hno : ¬ (handlerSlot (s.modHere (fun sl => { sl with pc := sl.pc + 1, st := .idle, prog := .fresh, roster := false })).hereC = s.cur.slot ∧
      !isCtl s.cur.unit) := by
    rw [State.hereC_modHere, handlerSlot, Core.setSlot_trapvec]
    exact fun ⟨heq, hu⟩ => hh.elim (fun hne => hne heq) (fun hctl => by simp [hctl] at hu)
  show execTend g s = _
  rw [execTend, issue_of_issues h]
  simp only [hp, Bool.false_eq_true, if_false, if_neg hno]

theorem empty_gives (h : Issues g [] [d] s) : Gives (.empty g d) s (retire (Slot.setFill d .cleared) s) := by
  show execEmpty g d s = _
  rw [execEmpty, issue_of_issues h]
theorem fullq_gives (h : Issues g [] [] s) : Gives (.fullq g p x) s (doneP p (decide (s.here.fill x = .full)) s) := by
  show execFullq g p x s = _
  rw [execFullq, issue_of_issues h, ← Bool.beq_eq_decide_eq]
theorem yield_gives (h : Issues g [] [] s) : Gives (.yield g) s (retire id s) := by
  show execYield g s = _
  rw [execYield, issue_of_issues h]
theorem halt_gives (h : Issues g [] [] s) :
    Gives (.halt g imm) s (raise s.cur.region (slotRec 0x1A (BitVec.ofNat 64 imm.toNat) 0 0 s) s) := by
  show execHalt g imm s = _
  rw [execHalt, issue_of_issues h, toWord]

end TaskWord

/-- Settles O8: the lemma of each word, at the condition of its clause; TRUN's tells what becomes of the slot that it names. -/
theorem taskWords : Obligations.TaskWords := by
  intro g d a b c p x imm s
  refine ⟨fun h hm => ⟨fun j hj => twait_gives_channel h hm hj, twait_waits h hm⟩, fun h => ?trun,
    fun h => ⟨tend_gives h, fullq_gives h, yield_gives h, halt_gives h⟩, empty_gives⟩
  case trun =>
    intro k m hk he hb hne
    refine ⟨fun hst => ⟨_, trun_starts h hk he hb hst, ?_⟩, trun_resumes h hk he hb, trun_changes_nothing h hk he hb⟩
    rw [slot_started hne, done_pc, here_startTask hne]
    exact ⟨rfl, rfl, rfl, rfl, rfl, rfl, fun hd => done_rd hd⟩

end Sys2Proof.Machine

end

section

namespace Sys2Proof.Machine

open Sys2Proof.Claims

/-! ## Trap delivery (O10)

A trap that the handler can take at once is two changes of the core: the slot waits for delivery with its request, and the delivery enters
the handler. -/

/-- Slot `k` once it has trapped with the request `q`, to go on at `pc` (R83). -/
def Slot.trapping (q : TrapReq) (pc : Word) (sl : Slot) : Slot := { sl with st := .waiting .trapDelivery, trap := some q, pc := pc, prog := .fresh }
/-- The core once the trap `q` of slot `k` has been delivered to the handler slot (R83, R84). -/
def Core.delivered (k : Nat) (q : TrapReq) (c : Core) : Core :=
  (c.setSlot (handlerSlot c) { c.slot (handlerSlot c) with trapinfo := trapInfo k q q.pc, pc := handlerPc c, st := .runnable, prog := .fresh }).setSlot k
    { c.slot k with st := .waiting .trapped, trap := none }

theorem State.core_modCore_other {r u v : Nat} {f : Core → Core} {s : State} (h : v ≠ u) : (s.modCore r u f).core r v = s.core r v := by
  rw [State.core, State.region_modCore_same, Region.core_setCore, if_neg h]
  rfl

section Delivery
variable {r u k j : Nat} {q : TrapReq} {pc w : Word} {c : Core} {s : State}

theorem awaits_setSlot_trapping {sl : Slot} : (c.setSlot k (sl.trapping q pc)).awaits k = true := by
  rw [Core.awaits, Core.slot_setSlot_same]
  rfl
theorem awaits_setSlot_other {sl : Slot} (h : j ≠ k) : (c.setSlot k sl).awaits j = c.awaits j := by
  rw [Core.awaits, Core.slot_setSlot, if_neg h]
  rfl

/-- The lowest slot that waits for delivery is the one whose trap an idle handler takes. -/
theorem deliver_lowest (hidle : ((s.core r u).slot (handlerSlot (s.core r u))).st = .idle) (hne : handlerSlot (s.core r u) ≠ k) (hk : k < 8)
    (haw : (s.core r u).awaits k = true) (hlow : ∀ j, j < k → (s.core r u).awaits j = false) (ht : ((s.core r u).slot k).trap = some q) :
    deliver r u s = s.modCore r u (Core.delivered k q) := by
  have hfind : (List.range 8).find? (fun k => (s.core r u).awaits k) = some k := by
    rw [List.find?_range_eq_some]
    exact ⟨haw, List.mem_range.mpr hk, fun j hj => by rw [hlow j hj]; rfl⟩
  simp only [deliver, hidle, hfind, ht]
  simp only [State.modCore, State.modRegion, Core.delivered, Core.slot_setSlot, if_neg hne.symm]
  rfl

/-- A trap that an idle handler takes at once. -/
theorem takeTrap_delivers (hon : (s.core r u).trapvec.getLsbD 31 = true) (hne : handlerSlot (s.core r u) ≠ k) (hu : isCtl u = false) (hk : k < 8)
    (hidle : ((s.core r u).slot (handlerSlot (s.core r u))).st = .idle) (hlow : ∀ j, j < k → (s.core r u).awaits j = false) :
    takeTrap r u k q pc w s = (s.modSlot r u k (Slot.trapping q pc)).modCore r u (Core.delivered k q) := by
  have hc : (!handlerOn (s.core r u) || handlerSlot (s.core r u) == k || isCtl u) = false := by simp [handlerOn, hon, hne, hu]
  have hcore : (s.modSlot r u k (Slot.trapping q pc)).core r u = (s.core r u).setSlot k (Slot.trapping q pc ((s.core r u).slot k)) :=
    State.core_modSlot_same ..
  have hh : handlerSlot ((s.modSlot r u k (Slot.trapping q pc)).core r u) = handlerSlot (s.core r u) := by
    rw [hcore, handlerSlot, Core.setSlot_trapvec, handlerSlot]
  simp only [takeTrap, hc, Bool.false_eq_true, if_false]
  show deliver r u (s.modSlot r u k (Slot.trapping q pc)) = _
  refine deliver_lowest ?_ (hh ▸ hne) hk ?_ (fun j hj => ?_) ?_
  · rw [hh, hcore, Core.slot_setSlot, if_neg hne]
    exact hidle
  · rw [hcore]
    exact awaits_setSlot_trapping
  · rw [hcore, awaits_setSlot_other (Nat.ne_of_lt hj)]
    exact hlow j hj
  · rw [hcore, Core.slot_setSlot_same]
    rfl

theorem slot_delivered (hne : handlerSlot c ≠ k) : (Core.delivered k q (c.setSlot k (Slot.trapping q pc (c.slot k)))).slot j =
    if j = k then { c.slot k with st := .waiting .trapped, trap := none, pc := pc, prog := .fresh }
    else if j = handlerSlot c then { c.slot (handlerSlot c) with trapinfo := trapInfo k q q.pc, pc := handlerPc c, st := .runnable, prog := .fresh }
    else c.slot j := by
  have hh : handlerSlot (c.setSlot k (Slot.trapping q pc (c.slot k))) = handlerSlot c := by rw [handlerSlot, Core.setSlot_trapvec, handlerSlot]
  have hpc : handlerPc (c.setSlot k (Slot.trapping q pc (c.slot k))) = handlerPc c := by rw [handlerPc, Core.setSlot_trapvec, handlerPc]
  rw [Core.delivered, Core.slot_setSlot, Core.slot_setSlot, Core.slot_setSlot, Core.slot_setSlot, Core.slot_setSlot, hh, hpc, if_pos rfl, if_neg hne]
  by_cases hj : j = k
  · rw [if_pos hj, if_pos hj]
    rfl
  · rw [if_neg hj, if_neg hj, if_neg hj]

theorem trapInfo_eq (hk : k < 8) : trapInfo k q q.pc = BitVec.ofNat 64
    (q.detail.toNat * 2 ^ 32 + q.operand % 64 * 2 ^ 24 + q.pc.toNat % 2048 * 2 ^ 12 + k * 2 ^ 8 + q.cause % 256) := by
  rw [trapInfo, Nat.mod_eq_of_lt hk]
theorem handlerPc_eq : handlerPc c = BitVec.ofNat 64 (c.trapvec.toNat % 2048) := by
  rw [handlerPc, bits, Nat.pow_zero, Nat.div_one]
  rfl

/-- TRUN of a trapped slot by another slot of its compute core lets the trapped one go on where it stands (R83, R106). -/
theorem trun_resumes_trapped {g : Guard} {d : Reg} {x y z : Src} (h : Issues g [x, y, z] [d] s) (hu : isCtl s.cur.unit = false) (hx : (rv s x).toNat = k)
    (hk : k < 8) (hy : (rv s y).toNat ≤ 2047) (hne : k ≠ s.cur.slot)
    (hb : ∀ j, j < 8 → j ≠ k → j ≠ s.cur.slot → (s.hereC.slot j).chbind &&& (rv s z).setWidth 16 = 0)
    (hst : (s.hereC.slot k).st = .waiting .trapped) :
    ∃ t, Gives (.trun g d x y z) s t ∧ t.slot s.cur.region s.cur.unit k = { s.hereC.slot k with st := .runnable } := by
  have hcount : slotCount s.cur.unit = 8 := by rw [slotCount, hu, if_neg Bool.false_ne_true]
  subst hx
  refine ⟨_, trun_resumes h (hcount ▸ hk) (.inr hy) (hcount ▸ hb) hst, ?_⟩
  exact (done_slot (s := resumeTrapped s.cur.region s.cur.unit (rv s x).toNat s) hne).trans (State.slot_modSlot_same ..)

end Delivery

/-- Settles O10: the slots of the core after the delivery, and TRUN on the trapped one. -/
theorem trapDelivery : Obligations.TrapDelivery := by
  intro r u k q pc w s c h hon hne hu hk hidle hlow t
  have ht : t = (s.modSlot r u k (Slot.trapping q pc)).modCore r u (Core.delivered k q) := takeTrap_delivers hon hne hu hk hidle hlow
  have hslot : ∀ j, t.slot r u j = (Core.delivered k q (c.setSlot k (Slot.trapping q pc (c.slot k)))).slot j := fun j => by
    rw [ht, State.slot, State.core_modCore_same, State.core_modSlot_same]
  have htrapped : t.slot r u k = { c.slot k with st := .waiting .trapped, trap := none, pc := pc, prog := .fresh } := by
    rw [hslot, slot_delivered hne, if_pos rfl]
  have hhandler : t.slot r u h = { c.slot h with trapinfo := trapInfo k q q.pc, pc := handlerPc c, st := .runnable, prog := .fresh } := by
    rw [hslot, slot_delivered hne, if_neg hne, if_pos rfl]
  refine ⟨by rw [htrapped], by rw [htrapped], by rw [htrapped], by rw [hhandler], by rw [hhandler, handlerPc_eq],
    by rw [hhandler, trapInfo_eq hk], fun j hj hjh => by rw [hslot, slot_delivered hne, if_neg hj, if_neg hjh],
    fun v hv => by rw [ht, State.core_modCore_other hv, State.modSlot, State.core_modCore_other hv],
    fun g d x y z v hr hunit hslotv hkept hissues hx hy hb => ?_⟩
  subst hr hunit
  have hkept' : v.hereC.slot k = t.slot v.cur.region v.cur.unit k := hkept
  obtain ⟨w', hgives, hw'⟩ := trun_resumes_trapped hissues hu hx hk hy (hslotv ▸ hne.symm) (hslotv ▸ hb) (by rw [hkept', htrapped])
  refine ⟨w', hgives, ?_⟩
  rw [hw', hkept', htrapped]
  exact ⟨rfl, rfl, rfl⟩

end Sys2Proof.Machine

end

section

namespace Sys2Proof

/-- A property of the default and of every listed value holds of what is read (for O13). -/
theorem Assoc.get_of_forall {α : Type} {d : α} {k : Nat} {l : Assoc α} {P : α → Prop} (hd : P d) (h : ∀ p ∈ l, P p.2) : P (Assoc.get d k l) := by
  induction l with
  | nil => exact hd
  | cons p t ih =>
    rw [Assoc.get]
    split
    · exact h p List.mem_cons_self
    · exact ih fun q hq => h q (List.mem_cons_of_mem _ hq)

end Sys2Proof

end

section

namespace Sys2Proof.Machine

open Sys2Proof.Claims

/-! ## Which slot issues (O13) -/

theorem mayIssue_iff {sl : Slot} : sl.mayIssue = true ↔ sl.st = .runnable ∨ sl.st = .running := by
  rw [Slot.mayIssue, Bool.or_eq_true, beq_iff_eq, beq_iff_eq]

section Selection
variable {r u n : Nat} {c : Core} {s : State}

/-- The first slot that may issue, counted from the one after the slot that issued last (R75). -/
theorem slotOrder_find_eq_some (hu : isCtl u = false) (h1 : 1 ≤ n) (h8 : n ≤ 8) (hmay : (c.slot ((c.last + n) % 8)).mayIssue = true)
    (hlow : ∀ i, 1 ≤ i → i < n → (c.slot ((c.last + i) % 8)).mayIssue = false) :
    (slotOrder c u).find? (fun k => (c.slot k).mayIssue) = some ((c.last + n) % 8) := by
  have hn : c.last + 1 + (n - 1) = c.last + n := by omega
  rw [slotOrder, hu, if_neg Bool.false_ne_true, List.find?_map, Option.map_eq_some_iff]
  refine ⟨n - 1, List.find?_range_eq_some.mpr ⟨?_, List.mem_range.mpr (by omega), fun i hi => ?_⟩, by rw [hn]⟩
  · rw [Function.comp_apply, hn]
    exact hmay
  · rw [Function.comp_apply, Nat.add_assoc, hlow (1 + i) (by omega) (by omega)]
    rfl

theorem slotOrder_find_eq_none (hu : isCtl u = false) (hnone : ∀ k, k < 8 → (c.slot k).mayIssue = false) :
    (slotOrder c u).find? (fun k => (c.slot k).mayIssue) = none := by
  rw [slotOrder, hu, if_neg Bool.false_ne_true, List.find?_eq_none]
  intro k hk
  obtain ⟨i, -, rfl⟩ := List.mem_map.mp hk
  rw [hnone _ (Nat.mod_lt _ (by decide))]
  exact Bool.false_ne_true

/-- The state in which a selection looks at the slots: the waits that are over have ended and a waiting trap has been delivered (R83). -/
def woken (r u : Nat) (s : State) : State := deliver r u (wake r u s)

variable (hcore : isCoreUnit (s.region r) u = true) (hh : (s.region r).halt = false) (hf : (s.region r).frozen (.unit u) = false)
include hcore hh hf

theorem issueSelect_selects {k : Nat}
    (hfind : (slotOrder ((woken r u s).core r u) u).find? (fun k => (((woken r u s).core r u).slot k).mayIssue) = some k) :
    Gives (.issueSelect r u) s (selectSlot r u k (woken r u s)) := by
  show execIssueSelect r u s = _
  rw [woken] at hfind
  simp only [execIssueSelect, hcore, hh, hf, hfind, Bool.not_true, Bool.or_self, Bool.false_eq_true, if_false]
  rfl
theorem issueSelect_none
    (hfind : (slotOrder ((woken r u s).core r u) u).find? (fun k => (((woken r u s).core r u).slot k).mayIssue) = none) :
    Gives (.issueSelect r u) s (woken r u s) := by
  show execIssueSelect r u s = _
  rw [woken] at hfind
  simp only [execIssueSelect, hcore, hh, hf, hfind, Bool.not_true, Bool.or_self, Bool.false_eq_true, if_false]
  rfl

end Selection

/-- The selected slot runs where it stands and counts as the latest. -/
theorem core_selectSlot (r u k : Nat) (s : State) : (selectSlot r u k s).core r u =
    { (s.core r u).setSlot k { (s.core r u).slot k with st := .running } with last := k } :=
  State.core_modCore_same r u (fun c => { c.setSlot k { c.slot k with st := .running } with last := k }) s
theorem slot_selectSlot (r u k : Nat) (s : State) : (selectSlot r u k s).slot r u k = { s.slot r u k with st := .running } := by
  rw [State.slot, core_selectSlot]
  exact Core.slot_setSlot_same ..

/-! ### The slot that counts as the latest after a load (R75, R312) -/

theorem firstLast_of_ne {run n : Nat} (h : run ≠ 2) : firstLast run n = 7 := if_neg h

/-- A core when a load takes effect, at this moment and with this slot as the latest (R75, R214). -/
def Core.restarted (moment last : Nat) (c : Core) : Core :=
  { c with refresh := moment, seen := [], own := [], shared := [], every := [], passed := [], last := last }

section Load
variable {r u : Nat} {I : Image} {l : Load} {arms : List Word} {g : Graph} {s : State}

/-- A load sets the latest slot of every core that it keeps, and a core that nothing has named is as at reset. -/
theorem last_takeEffect (hg : (s.region r).graph = some g) (hrun : g.run ≠ 2) : ((takeEffect r I l arms s).core r u).last = 7 := by
  have hrun' : (((install I (s.region r)).graph.map (fun g => g.run)).getD 0) = g.run := by
    rw [show (install I (s.region r)).graph = (s.region r).graph from rfl, hg]
    rfl
  have hcore : (takeEffect r I l arms s).core r u = Assoc.get Core.init u ((arms.foldl applyArm (install I (s.region r))).cores.map
      (fun q => (q.1, q.2.restarted s.moment (firstLast (((install I (s.region r)).graph.map (fun g => g.run)).getD 0) s.draw.1)))) :=
    (State.core_modRegion (f := fun R => { R with graph := R.graph.map _ }) (fun _ => rfl) r r u _).trans
      (congrArg (Region.core · u) (State.region_setRegion_same ..))
  rw [hcore, hrun', firstLast_of_ne hrun]
  refine Assoc.get_of_forall (P := fun c : Core => c.last = 7) rfl fun p hp => ?_
  obtain ⟨q, -, rfl⟩ := List.mem_map.mp hp
  rfl

theorem endFrame_takes_effect {c : Context} {x : Nat} {s1 : State} (hg : (s.region r).graph = some g) (hc : s.ctxOf (s.region r) = some c)
    (hh : (s.region r).halt = false) (hl : g.load = some l) (hx : frameAt c r l l.frames.length s = .ok (some x) s1) (hclass : bits x 255 252 = 15)
    (hbad : firstBad (s.region r) (imageOf l.frames) (bits g.bits 319 256) (bits g.bits 351 320) = none)
    (hend : endReason { pos := l.frames.length, x := x, k := 0 } = none)
    (harms : ∀ y, g.nodes[l.node]? = some y → ∀ v ∈ y.arms, armMissing (install (imageOf l.frames) (s.region r)) v = false) :
    Gives (.endFrame r) s (takeEffect r (imageOf l.frames) l (((g.nodes[l.node]?).map (fun x => x.arms)).getD []) s1) := by
  have hno : (((g.nodes[l.node]?).map (fun x => x.arms)).getD []).any (armMissing (install (imageOf l.frames) (s.region r))) = false := by
    rw [List.any_eq_false]
    cases hy : g.nodes[l.node]? with
    | none => exact fun v hv => nomatch hv
    | some y => exact fun v hv => by rw [harms y hy v hv]; exact Bool.false_ne_true
  show execEndFrame r s = _
  simp only [execEndFrame, hg, hc, hh, hl, hx, seqAccess, hclass, hbad, hend, hno, Bool.false_eq_true, if_false, ne_eq, not_true_eq_false, nx]

end Load

/-- Settles O13: the first slot in the order that may issue is selected; and every core of a load starts with 7 as its latest slot. -/
theorem slotSelection : Obligations.SlotSelection := by
  refine ⟨fun r u s => ?select, fun sl => mayIssue_iff, fun r x g c l s s1 hg hc hh hl hx hregions hclass hbad hend harms hrun => ?load⟩
  case select =>
    intro v hcore hu hh hf
    refine ⟨fun n h1 h8 => ?_, fun hnone => issueSelect_none hcore hh hf (slotOrder_find_eq_none hu hnone)⟩
    intro k hmay hlow
    exact ⟨selectSlot r u k v, issueSelect_selects hcore hh hf (slotOrder_find_eq_some hu h1 h8 hmay hlow), rfl, rfl, rfl, rfl,
      by rw [core_selectSlot], by rw [slot_selectSlot], by rw [slot_selectSlot]⟩
  case load =>
    have hg1 : (s1.region r).graph = some g := by rw [State.region_congr hregions, hg]
    exact ⟨_, endFrame_takes_effect hg hc hh hl hx hclass hbad hend harms, fun u => last_takeEffect hg1 hrun⟩

end Sys2Proof.Machine

end

section

namespace Sys2Proof.Machine

open Sys2Proof.Claims

/-! ## A firing's start shows nothing (O24)

The start of a firing draws free values, puts the firing at its stage, keeps what a memory stream has fetched at its chain, and counts a coat's
begun block. None of these shows outside the pipeline. -/

/-- Nothing that is visible outside the pipelines of region `r` has changed (R78). -/
structure ShowsNothing (r : Nat) (s t : State) : Prop where
  smem : t.smem = s.smem
  lmem : t.lmem = s.lmem
  tmem : t.tmem = s.tmem
  contexts : t.contexts = s.contexts
  regions : ∀ q, q ≠ r → t.region q = s.region q
  arcs : (t.region r).arcs = (s.region r).arcs
  cores : ∀ u, (t.core r u).slots = (s.core r u).slots ∧ (t.core r u).accs = (s.core r u).accs ∧ (t.core r u).phase = (s.core r u).phase

section ShowsNothing
variable {r u : Nat} {s t v : State}

theorem ShowsNothing.refl (r : Nat) (s : State) : ShowsNothing r s s := ⟨rfl, rfl, rfl, rfl, fun _ _ => rfl, rfl, fun _ => ⟨rfl, rfl, rfl⟩⟩
theorem ShowsNothing.trans (h : ShowsNothing r s t) (h' : ShowsNothing r t v) : ShowsNothing r s v where
  smem := h'.smem.trans h.smem
  lmem := h'.lmem.trans h.lmem
  tmem := h'.tmem.trans h.tmem
  contexts := h'.contexts.trans h.contexts
  regions q hq := (h'.regions q hq).trans (h.regions q hq)
  arcs := h'.arcs.trans h.arcs
  cores u := by
    obtain ⟨hslots, haccs, hphase⟩ := h.cores u
    obtain ⟨hslots', haccs', hphase'⟩ := h'.cores u
    exact ⟨hslots'.trans hslots, haccs'.trans haccs, hphase'.trans hphase⟩

/-- A free value that is drawn. -/
theorem showsNothing_draw : ShowsNothing r s s.draw.2 := ⟨rfl, rfl, rfl, rfl, fun _ _ => rfl, rfl, fun _ => ⟨rfl, rfl, rfl⟩⟩

/-- A change of the region that leaves its arcs and its cores. -/
theorem showsNothing_modRegion {f : Region → Region} (harcs : ∀ R, (f R).arcs = R.arcs) (hcores : ∀ R, (f R).cores = R.cores) :
    ShowsNothing r s (s.modRegion r f) where
  smem := rfl
  lmem := rfl
  tmem := rfl
  contexts := rfl
  regions q hq := by rw [State.region_modRegion, if_neg hq]
  arcs := by rw [State.region_modRegion_same, harcs]
  cores u := by rw [State.core_modRegion hcores]; exact ⟨rfl, rfl, rfl⟩

/-- A change of a core that leaves its slots, accumulators and phase buffer. -/
theorem showsNothing_modCore {f : Core → Core} (hf : ∀ c, (f c).slots = c.slots ∧ (f c).accs = c.accs ∧ (f c).phase = c.phase) :
    ShowsNothing r s (s.modCore r u f) where
  smem := rfl
  lmem := rfl
  tmem := rfl
  contexts := rfl
  regions q hq := by rw [State.modCore, State.region_modRegion, if_neg hq]
  arcs := by rw [State.region_modCore_same, Region.setCore_arcs]
  cores v := by
    by_cases hv : v = u
    · rw [hv, State.core_modCore_same]
      exact hf _
    · rw [State.core_modCore_other hv]
      exact ⟨rfl, rfl, rfl⟩

/-! ### Reading the operands (R77, R159) -/

theorem showsNothing_readBlocks {lo : Nat} (l : List Nat) (s : State) : ShowsNothing r s (readBlocks r u lo l s).2 := by
  induction l generalizing s with
  | nil => exact .refl r s
  | cons a t ih => exact showsNothing_draw.trans (ih s.draw.2)

theorem showsNothing_gather1 {tm j : Nat} {st : Stage} {f : Fmt} {o : Opnd} : ShowsNothing r s (gather1 r u tm j st f o s).2 := by
  simp only [gather1]
  split
  · exact .refl r s
  · split
    · exact .refl r s
    · split
      · exact showsNothing_readBlocks ..
      · exact .refl r s

theorem showsNothing_gather {tm j : Nat} {st : Stage} (l : List (Opnd × Fmt)) (s : State) : ShowsNothing r s (gather r u tm j st l s).2 := by
  induction l generalizing s with
  | nil => exact .refl r s
  | cons e rest ih =>
    have hstep := showsNothing_gather1.trans (ih (gather1 r u tm j st e.2 e.1 s).2)
    simp only [gather]
    split <;> exact hstep

end ShowsNothing

theorem blocksChk_clean {r u : Nat} {x : StopRec} {k : State → State} {s : State} (he : s.errors = []) (l : List Nat) :
    blocksChk r u x l k s = k s := by
  have hclean : ∀ e ∈ s.errors, e.code ≠ 0 := by simp [he]
  induction l with
  | nil => rfl
  | cons a t ih => rw [blocksChk, readChk, readChkBy_clean hclean, ih]

/-! ### The start of a firing (R78) -/

/-- The operands are read and the firing is put at its stage. -/
theorem showsNothing_stored {r u tm j : Nat} {st : Stage} {l : List (Opnd × Fmt)} {s : State} {f : Core → Core}
    (hf : ∀ c, (f c).slots = c.slots ∧ (f c).accs = c.accs ∧ (f c).phase = c.phase) :
    ShowsNothing r s ((gather r u tm j st l s).2.modCore r u f) :=
  (showsNothing_gather l s).trans (showsNothing_modCore hf)

theorem showsNothing_recordFiring {w : IWord} {f : FireIn → FireOut} {s : State} (he : s.errors = []) :
    ShowsNothing s.cur.region s (recordFiring w f s) := by
  simp only [recordFiring]
  split
  · exact .refl _ s
  · rw [blocksChk_clean he, fifosChk_clean he]
    split
    · split
      · exact (showsNothing_stored fun c => by split <;> exact ⟨rfl, rfl, rfl⟩).trans (showsNothing_modRegion (fun _ => rfl) (fun _ => rfl))
      · exact showsNothing_stored fun c => by split <;> exact ⟨rfl, rfl, rfl⟩
    · exact showsNothing_stored fun c => by split <;> exact ⟨rfl, rfl, rfl⟩

theorem showsNothing_fireStage {op : Nat} {v : VWord} {f : FireIn → FireOut} {s t : State} (he : s.errors = [])
    (h : fireStage op v f s = .next t) : ShowsNothing s.cur.region s t := by
  rw [fireStage] at h
  split at h
  · cases h
    exact showsNothing_recordFiring he
  · cases h
    exact .refl _ _

/-- Every element operation is the start of a firing at its stage. -/
theorem exec_of_vectorOf {i : Instr} {v : VWord} (h : vectorOf i = some v) (s : State) : ∃ op f, exec i s = fireStage op v f s := by
  cases i
  case vadd | vsub | vmul | vfma | vmac | vdot4 | vabs | vneg | vmin | vmax | vminp | vmaxp | vclamp | vand | vor | vxor | vshl | vshr | vsra
      | vcmp | vsel | vcvt | vscale | vamax | vsf | vsum | vscan | vperm | vperm2 | vbcast | vslide | vtap | vexpand | vcompress | vsteer
      | vmerge | vnrw | vnrwStream | vmov =>
    cases h
    exact ⟨_, _, rfl⟩
  all_goals nomatch h

/-- Settles O24: an element operation starts a firing, which shows nothing. -/
theorem firingStartFrame : Obligations.FiringStartFrame := by
  intro i v s t hv hgives he
  obtain ⟨op, f, hexec⟩ := exec_of_vectorOf hv s
  have h := showsNothing_fireStage he (hexec.symm.trans hgives)
  exact ⟨h.smem, h.lmem, h.tmem, h.contexts, h.regions, h.arcs, h.cores⟩

end Sys2Proof.Machine

end

section

namespace Sys2Proof

/-- Finding after a map that keeps the keys (for O26). -/
theorem Assoc.find_map {α β : Type} {g : Nat × α → Nat × β} (hg : ∀ e, (g e).1 = e.1) {k : Nat} {l : Assoc α} :
    Assoc.find k (l.map g) = (Assoc.find k l).map (fun a => (g (k, a)).2) := by
  induction l with
  | nil => rfl
  | cons e t ih =>
    have hcons : g e = (e.1, (g e).2) := Prod.ext (hg e) rfl
    rw [List.map_cons, hcons, Assoc.find, Assoc.find]
    by_cases h : e.1 = k
    · subst h
      simp
    · rw [if_neg h, if_neg h, ih]

end Sys2Proof

end

section

namespace Sys2Proof.Machine

open Sys2Proof.Claims

/-! ## The commit of a firing (O26)

`finishFiring` takes the beats (`takeOne`), pushes the outputs on the ports and on the arcs to the stages that read it, and puts the stage back.
What taking keeps is said once (`Work.Keeps`); what pushing does to an arc is said for one port and for all; the rest is `Finished`. -/

/-! ### Taking the beats of a firing (R78, R81, R173) -/

/-- Arc `k` is as before but for the beats that have left its FIFO. -/
def SameInbox (k : Nat) (R R' : Region) : Prop :=
  ∀ a, Assoc.find k R.arcs = some a → ∃ a', Assoc.find k R'.arcs = some a' ∧ a'.route = a.route ∧ a'.inbox = a.inbox

/-- What taking beats leaves of what a commit works on. -/
structure Work.Keeps (w w' : Work) : Prop where
  cores : w'.R.cores = w.R.cores
  mxs : w'.R.mxs = w.R.mxs
  stages : w'.T.stages = w.T.stages
  flags : w'.T.flags = w.T.flags
  mags : w'.T.mags = w.T.mags
  word : w'.st.word = w.st.word
  chain : w.ch = none → w'.ch = none
  sorted : Assoc.sorted w.R.arcs = true → Assoc.sorted w'.R.arcs = true
  inbox : Assoc.sorted w.R.arcs = true → ∀ k, SameInbox k w.R w'.R

section Taking
variable {R R' R'' : Region} {u j k p q n : Nat} {c : Core} {w w' w'' : Work}

theorem SameInbox.refl (k : Nat) (R : Region) : SameInbox k R R := fun a h => ⟨a, h, rfl, rfl⟩
theorem SameInbox.trans (h : SameInbox k R R') (h' : SameInbox k R' R'') : SameInbox k R R'' := fun a ha => by
  obtain ⟨a', ha', hroute, hinbox⟩ := h a ha
  obtain ⟨a'', ha'', hroute', hinbox'⟩ := h' a' ha'
  exact ⟨a'', ha'', hroute'.trans hroute, hinbox'.trans hinbox⟩

theorem sameInbox_popIn (hs : Assoc.sorted R.arcs = true) : SameInbox k R (R.popIn u p n) := by
  intro a ha
  cases he : R.inArc u p with
  | none =>
    have hpop : R.popIn u p n = R := by simp only [Region.popIn, he]
    exact ⟨a, by rw [hpop, ha], rfl, rfl⟩
  | some e =>
    obtain ⟨k', b⟩ := e
    have hpop : R.popIn u p n = R.setArc k' (b.pop n) := by simp only [Region.popIn, he]
    rw [hpop, Region.setArc]
    by_cases hk : k = k'
    · subst hk
      have hab : a = b := Option.some.inj (ha.symm.trans (find_of_inArc hs he))
      exact ⟨b.pop n, Assoc.find_put_same .., by rw [hab]; rfl, by rw [hab]; rfl⟩
    · exact ⟨a, by rw [Assoc.find_put_other hk, ha], rfl, rfl⟩

theorem mxs_popIn : (R.popIn u p n).mxs = R.mxs := by
  unfold Region.popIn
  split <;> rfl

theorem Work.Keeps.refl (w : Work) : w.Keeps w := ⟨rfl, rfl, rfl, rfl, rfl, rfl, id, id, fun _ k => .refl k w.R⟩
theorem Work.Keeps.trans (h : w.Keeps w') (h' : w'.Keeps w'') : w.Keeps w'' where
  cores := h'.cores.trans h.cores
  mxs := h'.mxs.trans h.mxs
  stages := h'.stages.trans h.stages
  flags := h'.flags.trans h.flags
  mags := h'.mags.trans h.mags
  word := h'.word.trans h.word
  chain hw := h'.chain (h.chain hw)
  sorted hs := h'.sorted (h.sorted hs)
  inbox hs k := (h.inbox hs k).trans (h'.inbox (h.sorted hs) k)

theorem takeOne_keeps {x : Nat × Nat} : w.Keeps (takeOne u j c x w) := by
  unfold takeOne
  dsimp only
  split
  · split
    · exact ⟨rfl, rfl, rfl, rfl, rfl, rfl, id, id, fun _ k => .refl k w.R⟩
    · split
      · next q _ hq => exact ⟨rfl, rfl, rfl, rfl, rfl, rfl, fun hn => (nomatch hn.symm.trans hq), id, fun _ k => .refl k w.R⟩
      · exact ⟨cores_popIn, mxs_popIn, rfl, rfl, rfl, rfl, id, sorted_popIn, fun hs k => sameInbox_popIn hs⟩
  · exact ⟨rfl, rfl, rfl, rfl, rfl, rfl, id, id, fun _ k => .refl k w.R⟩

/-- What a commit works on, once every beat of `takes` has been taken. -/
def Work.taken (u j : Nat) (c : Core) (takes : List (Nat × Nat)) (w : Work) : Work := takes.foldl (fun w x => takeOne u j c x w) w

theorem taken_keeps (takes : List (Nat × Nat)) (w : Work) : w.Keeps (w.taken u j c takes) :=
  List.foldlRecOn (motive := fun w' : Work => w.Keeps w') _ _ (.refl w) fun _ h _ _ => h.trans takeOne_keeps

/-- Outside a chain, the beats of a port that is not sticky leave the FIFO of its arc. -/
theorem taken_port (hw : w.ch = none) (hq : q < 4) : (w.taken u j c [(16 * q, n)]).R = w.R.popIn u q n := by
  have hsel : 16 * q / 16 = q := by omega
  have hk : 16 * q % 16 = 0 := by omega
  simp only [Work.taken, List.foldl_cons, List.foldl_nil, takeOne, hsel, hk, hq, hw, memField, if_true, ne_eq, not_true_eq_false, false_and, if_false]

end Taking

/-! ### Pushing the outputs on the ports (R78, R195, R286) -/

/-- The region once these ports have delivered beats: `n` beats of a firing are counted where a coat's last core emits them. -/
def pushedPorts (u t n : Nat) (bs : List Beat) (ps : List Nat) (R : Region) : Region :=
  ps.foldl (fun R p => coatEmits u t p n (R.pushOut u p bs)) R

section Pushing
variable {R : Region} {u t n k p : Nat} {bs : List Beat} {ps : List Nat} {a : Arc}

theorem cores_coatEmits : (coatEmits u t p n R).cores = R.cores := by
  unfold coatEmits
  split
  · split <;> rfl
  · rfl
theorem arcs_coatEmits : (coatEmits u t p n R).arcs = R.arcs := by
  unfold coatEmits
  split
  · split <;> rfl
  · rfl

theorem find_pushOut (h : Assoc.find k R.arcs = some a) : Assoc.find k (R.pushOut u p bs).arcs =
    some (if arcFrom u p k a.route then { a with inbox := a.inbox ++ bs.map (fun b => { beat := b, scale := R.emitScale u }) } else a) := by
  rw [Region.pushOut, Assoc.find_map (fun e => by split <;> rfl), h, Option.map_some]
  congr 1
  split <;> rfl

theorem cores_pushedPorts : (pushedPorts u t n bs ps R).cores = R.cores :=
  List.foldlRecOn (motive := fun R' : Region => R'.cores = R.cores) _ _ rfl fun _ h _ _ => cores_coatEmits.trans h

/-- A push leaves every FIFO. -/
theorem fifo_pushedPorts (h : Assoc.find k R.arcs = some a) : ∃ a', Assoc.find k (pushedPorts u t n bs ps R).arcs = some a' ∧ a'.fifo = a.fifo := by
  refine List.foldlRecOn (motive := fun R' : Region => ∃ a', Assoc.find k R'.arcs = some a' ∧ a'.fifo = a.fifo) _ _ ⟨a, h, rfl⟩ fun R' h p _ => ?_
  obtain ⟨a', ha', hfifo⟩ := h
  refine ⟨_, by rw [arcs_coatEmits, find_pushOut ha'], ?_⟩
  split <;> exact hfifo

theorem find_pushedPort (h : Assoc.find k R.arcs = some a) (hfrom : arcFrom u p k a.route = true) :
    Assoc.find k (pushedPorts u t n bs [p] R).arcs =
      some { a with inbox := a.inbox ++ bs.map (fun b => { beat := b, scale := R.emitScale u }) } := by
  rw [pushedPorts, List.foldl_cons, List.foldl_nil, arcs_coatEmits, find_pushOut h, if_pos hfrom]

end Pushing

/-! ### Pushing the outputs on the arcs inside the template (R131) -/

section Inner
variable {T : Template} {i j : Nat} {bs : List Beat} {l : List Nat} {m : Assoc (List Beat)}

/-- The arcs of a template once these readers of stage `j` have got beats. -/
def pushedReaders (j : Nat) (bs : List Beat) (l : List Nat) (m : Assoc (List Beat)) : Assoc (List Beat) :=
  l.foldl (fun m i => Assoc.set [] (innerKey j i) (Assoc.get [] (innerKey j i) m ++ bs) m) m

theorem get_pushedReaders_of_not_mem (hi : i ∉ l) : Assoc.get [] (innerKey j i) (pushedReaders j bs l m) = Assoc.get [] (innerKey j i) m := by
  induction l generalizing m with
  | nil => rfl
  | cons h t ih =>
    obtain ⟨hne, hi⟩ := not_or.mp (mt List.mem_cons.mpr hi)
    have hkey : innerKey j i ≠ innerKey j h := by simp only [innerKey]; omega
    exact (ih hi).trans (Assoc.get_set_other _ hkey ..)

theorem get_pushedReaders_of_mem (hl : l.Nodup) (hi : i ∈ l) :
    Assoc.get [] (innerKey j i) (pushedReaders j bs l m) = Assoc.get [] (innerKey j i) m ++ bs := by
  induction l generalizing m with
  | nil => nomatch hi
  | cons h t ih =>
    obtain ⟨hnot, hl⟩ := List.nodup_cons.mp hl
    by_cases he : i = h
    · subst he
      exact (get_pushedReaders_of_not_mem hnot).trans (Assoc.get_set_same ..)
    · have hkey : innerKey j i ≠ innerKey j h := by simp only [innerKey]; omega
      refine (ih hl ((List.mem_cons.mp hi).resolve_left he)).trans ?_
      rw [Assoc.get_set_other _ hkey]

theorem nodup_readers : (T.readers j).Nodup := List.Nodup.filter _ List.nodup_range'

theorem inner_pushInner (hi : i ∈ T.readers j) : (T.pushInner j bs).inner j i = T.inner j i ++ bs := get_pushedReaders_of_mem nodup_readers hi

end Inner

/-! ### The state after a commit (R78) -/

/-- What a commit starts to work on. -/
def startWork (r u t : Nat) (T : Template) (st : Stage) (s : State) : Work := { R := s.region r, T := T, st := st, ch := (s.core r u).chainOf t }
/-- What the commit of `f` works on once it has taken the firing's beats. -/
def committing (r u t j : Nat) (T : Template) (st : Stage) (f : Firing) (s : State) : Work :=
  (startWork r u t T st s).taken u j (s.core r u) f.takes
/-- The region once it has delivered the outputs of stage `j` on the ports that are no memory streams. -/
def committedRegion (u t j : Nat) (c : Core) (T : Template) (st : Stage) (f : Firing) (outs : List Line) (w : Work) : Region :=
  pushedPorts u t outs.length (portBeats (lastBeat c T w.ch j st.pos) outs)
    ((firePorts st.word f.steer).filter (fun p => (memField w.ch (4 + p)).isNone)) w.R
/-- The stage once the firing `f` has committed. -/
def committedStage (st : Stage) (f : Firing) (w : Work) : Stage := { w.st with pos := st.pos + 1, carry := f.carry.getD st.carry, firing := none }
/-- The m registers once a firing's greatest magnitude has been merged into one (R69). -/
def mergedMags (f : Firing) (l : List (BitVec 32)) : List (BitVec 32) :=
  match f.mag with
  | some (i, v) => listSet i (magMerge (l.getD i 0) (BitVec.ofNat 32 v)) l
  | none => l
/-- The template once it has the outputs of stage `j` on its arcs; a VSTEER delivers on ports only (R153). -/
def deliveredTemplate (j : Nat) (st : Stage) (outs : List Line) (w : Work) : Template :=
  if wordOp st.word = 0xA1 then w.T else w.T.pushInner j (outs.map dataBeat)
/-- The template once the firing `f` of stage `j` has committed with these outputs and flags. -/
def committedTemplate (j : Nat) (st : Stage) (f : Firing) (outs : List Line) (fl : Flg) (w : Work) : Template :=
  { (deliveredTemplate j st outs w).setStage j (committedStage st f w) with
    flags := (deliveredTemplate j st outs w).flags ||| fl, mags := mergedMags f (deliveredTemplate j st outs w).mags }

/-- A core with this template and these chains. -/
def Core.committed (t : Nat) (T1 : Template) (chains : List Chain) (c : Core) : Core :=
  { c with templates := Assoc.put t T1 c.templates, chains := chains }

/-- `t'` is `s` with this region, but for the core's template and chains, and with other bytes in the local store where a chain runs. -/
structure Finished (r u t : Nat) (R1 : Region) (T1 : Template) (s t' : State) : Prop where
  region : ∃ chains, t'.region r = R1.setCore u ((s.core r u).committed t T1 chains)
  smem : t'.smem = s.smem
  tmem : t'.tmem = s.tmem
  lmem : (s.core r u).chainOf t = none → t'.lmem = s.lmem

section Finish
variable {r u t j k p q n v : Nat} {T T1 : Template} {st : Stage} {f : Firing} {outs : List Line} {fl : Flg} {s t' : State} {R1 : Region} {w : Work}

theorem writeBlocks_frame (a : Nat) (ls : List Line) (s : State) : (writeBlocks r u a ls s).regions = s.regions ∧
    (writeBlocks r u a ls s).smem = s.smem ∧ (writeBlocks r u a ls s).tmem = s.tmem := by
  induction ls generalizing a s with
  | nil => exact ⟨rfl, rfl, rfl⟩
  | cons l ls ih => exact ih (a + 64) (s.lWrite r u a (bytesLE 64 l.toNat))

theorem writeStreams_frame (ms : List (Nat × Nat)) (g : Nat × Nat → Nat) (s : State) :
    (ms.foldl (fun s p => writeBlocks r u (g p) outs s) s).regions = s.regions ∧
    (ms.foldl (fun s p => writeBlocks r u (g p) outs s) s).smem = s.smem ∧ (ms.foldl (fun s p => writeBlocks r u (g p) outs s) s).tmem = s.tmem := by
  induction ms generalizing s with
  | nil => exact ⟨rfl, rfl, rfl⟩
  | cons p ms ih =>
    obtain ⟨hregions, hsmem, htmem⟩ := writeBlocks_frame (r := r) (u := u) (g p) outs s
    obtain ⟨hregions', hsmem', htmem'⟩ := ih (writeBlocks r u (g p) outs s)
    exact ⟨hregions'.trans hregions, hsmem'.trans hsmem, htmem'.trans htmem⟩

theorem committing_keeps : (startWork r u t T st s).Keeps (committing r u t j T st f s) := taken_keeps ..

/-- A commit sets its region once, and then writes the outputs that go to memory streams to the local store. -/
theorem finishFiring_eq (hT : Assoc.find t (s.core r u).templates = some T) (hst : T.stage j = some st) :
    ∃ (chains : List Chain) (ms : List (Nat × Nat)) (g : Nat × Nat → Nat), finishFiring r u t j f outs fl s =
      ms.foldl (fun s p => writeBlocks r u (g p) outs s)
        (s.setRegion r ((committedRegion u t j (s.core r u) T st f outs (committing r u t j T st f s)).setCore u
          ((s.core r u).committed t (committedTemplate j st f outs fl (committing r u t j T st f s)) chains))) ∧
      ((s.core r u).chainOf t = none → ms = []) := by
  have hT' : Assoc.get default t ((s.region r).core u).templates = T := by
    rw [Assoc.get_eq_find, show Assoc.find t ((s.region r).core u).templates = some T from hT, Option.getD_some]
  simp only [finishFiring, hT', hst]
  refine ⟨_, _, _, rfl, fun h => ?_⟩
  have hch : (committing r u t j T st f s).ch = none := committing_keeps.chain h
  rw [List.filterMap_eq_nil_iff]
  exact fun p _ => congrArg (fun ch => (memField ch (4 + p)).map (fun a => (p, a))) hch

theorem finishFiring_finished (hT : Assoc.find t (s.core r u).templates = some T) (hst : T.stage j = some st) :
    Finished r u t (committedRegion u t j (s.core r u) T st f outs (committing r u t j T st f s))
      (committedTemplate j st f outs fl (committing r u t j T st f s)) s (finishFiring r u t j f outs fl s) := by
  obtain ⟨chains, ms, g, heq, hms⟩ := finishFiring_eq (f := f) (outs := outs) (fl := fl) hT hst
  rw [heq]
  obtain ⟨hregions, hsmem, htmem⟩ := writeStreams_frame (r := r) (u := u) (outs := outs) ms g (s.setRegion r _)
  exact ⟨⟨chains, (State.region_congr hregions r).trans (State.region_setRegion_same ..)⟩, hsmem, htmem, fun h => by rw [hms h]; rfl⟩

/-! ### What a commit shows -/

theorem Finished.core (h : Finished r u t R1 T1 s t') (hcores : R1.cores = (s.region r).cores) : ∃ chains, t'.core r v =
    if v = u then (s.core r u).committed t T1 chains else s.core r v := by
  obtain ⟨chains, hregion⟩ := h.region
  refine ⟨chains, ?_⟩
  rw [State.core, hregion, Region.core_setCore, Region.core, hcores]
  rfl

theorem Finished.template (h : Finished r u t R1 T1 s t') : Assoc.find t (t'.core r u).templates = some T1 := by
  obtain ⟨chains, hregion⟩ := h.region
  rw [State.core, hregion, Region.core_setCore_same, Core.committed, Assoc.find_put_same]

theorem Finished.arcs (h : Finished r u t R1 T1 s t') : (t'.region r).arcs = R1.arcs := by
  obtain ⟨chains, hregion⟩ := h.region
  rw [hregion, Region.setCore_arcs]

theorem Finished.slots_accs (h : Finished r u t R1 T1 s t') (hcores : R1.cores = (s.region r).cores) (v : Nat) :
    (t'.core r v).slots = (s.core r v).slots ∧ (t'.core r v).accs = (s.core r v).accs := by
  obtain ⟨chains, hcore⟩ := h.core (v := v) hcores
  rw [hcore]
  split
  · next e =>
    rw [e]
    exact ⟨rfl, rfl⟩
  · exact ⟨rfl, rfl⟩
theorem Finished.slotsKept (h : Finished r u t R1 T1 s t') (hcores : R1.cores = (s.region r).cores) : SlotsKept r s t' :=
  ⟨fun v => (h.slots_accs hcores v).1, h.smem, h.tmem⟩
theorem Finished.accs (h : Finished r u t R1 T1 s t') (hcores : R1.cores = (s.region r).cores) (v : Nat) :
    (t'.core r v).accs = (s.core r v).accs := (h.slots_accs hcores v).2

theorem cores_committedRegion {c : Core} :
    (committedRegion u t j c T st f outs (committing r u t j T st f s)).cores = (s.region r).cores :=
  cores_pushedPorts.trans committing_keeps.cores

/-! #### The stage and its template -/

theorem deliveredTemplate_keeps : (deliveredTemplate j st outs w).stages = w.T.stages ∧ (deliveredTemplate j st outs w).flags = w.T.flags ∧
    (deliveredTemplate j st outs w).mags = w.T.mags := by
  unfold deliveredTemplate
  split <;> exact ⟨rfl, rfl, rfl⟩

theorem stage_congr {T T' : Template} (h : T'.stages = T.stages) (i : Nat) : T'.stage i = T.stage i := by rw [Template.stage, Template.stage, h]

theorem mergedMags_of_some {i m : Nat} {l : List (BitVec 32)} (h : f.mag = some (i, m)) (hi : i < l.length) :
    (mergedMags f l)[i]? = some (magMerge (l.getD i 0) (BitVec.ofNat 32 m)) := by
  simp only [mergedMags, h]
  rw [listSet_eq_set, List.getElem?_set_self hi]
theorem mergedMags_of_none {l : List (BitVec 32)} (h : f.mag = none) : mergedMags f l = l := by simp only [mergedMags, h]

theorem stageCommitted_finishFiring (hT : Assoc.find t (s.core r u).templates = some T) (hst : T.stage j = some st) :
    StageCommitted r u t j T st f fl (finishFiring r u t j f outs fl s) := by
  have hkeeps : (startWork r u t T st s).Keeps (committing r u t j T st f s) := committing_keeps
  obtain ⟨hstages, hflags, hmags⟩ := deliveredTemplate_keeps (j := j) (st := st) (outs := outs) (w := committing r u t j T st f s)
  have hstage := stage_congr (hstages.trans hkeeps.stages)
  have hmags' : (deliveredTemplate j st outs (committing r u t j T st f s)).mags = T.mags := hmags.trans hkeeps.mags
  refine ⟨_, _, (finishFiring_finished hT hst).template, stage_setStage_same (st := st) ((hstage j).trans hst), rfl, rfl, hkeeps.word, rfl,
    congrArg (· ||| fl) (hflags.trans hkeeps.flags), fun i hi => ?_, fun i m hm hi => ?_, fun hm => ?_⟩
  · exact (stage_setStage_other (stage_ne_zero hst) hi).trans (hstage i)
  · rw [committedTemplate, hmags']
    exact mergedMags_of_some hm hi
  · rw [committedTemplate, hmags']
    exact mergedMags_of_none hm

/-! #### Outside a chain: the beats on the arcs -/

section NoChain
variable (hT : Assoc.find t (s.core r u).templates = some T) (hst : T.stage j = some st) (hch : (s.core r u).chainOf t = none)
  (hs : Assoc.sorted (s.region r).arcs = true)
include hT hst hch

/-- Outside a chain every port pushes all its beats, plain. -/
theorem arcs_finishFiring : ((finishFiring r u t j f outs fl s).region r).arcs =
    (pushedPorts u t outs.length (outs.map plainBeat) (firePorts st.word f.steer) (committing r u t j T st f s).R).arcs := by
  have hw : (committing r u t j T st f s).ch = none := committing_keeps.chain hch
  rw [(finishFiring_finished hT hst).arcs, committedRegion, hw]
  simp only [memField, lastBeat, portBeats, Option.isNone, List.filter_true]

include hs in
theorem pushed_finishFiring (hp : firePorts st.word f.steer = [p]) : Pushed r u p outs s (finishFiring r u t j f outs fl s) := by
  have hkeeps : (startWork r u t T st s).Keeps (committing r u t j T st f s) := committing_keeps
  intro k a ha hfrom
  obtain ⟨a', ha', hroute, hinbox⟩ := hkeeps.inbox hs k a ha
  rw [arcs_finishFiring hT hst hch, hp, find_pushedPort ha' (hroute ▸ hfrom)]
  refine ⟨_, rfl, hroute, ?_⟩
  have hscale : (committing r u t j T st f s).R.emitScale u = (s.region r).emitScale u := by
    rw [Region.emitScale, Region.mx, hkeeps.mxs]
    rfl
  rw [hinbox, List.map_map, hscale]
  rfl

theorem popped_finishFiring {a : Arc} (hq : q < 4) (htakes : f.takes = [(16 * q, n)]) (hin : (s.region r).inArc u q = some (k, a)) :
    ∃ a', Assoc.find k ((finishFiring r u t j f outs fl s).region r).arcs = some a' ∧ a'.fifo = a.fifo.drop n := by
  have hR : (committing r u t j T st f s).R = (s.region r).setArc k (a.pop n) := by
    have hpop : (s.region r).popIn u q n = (s.region r).setArc k (a.pop n) := by simp only [Region.popIn, hin]
    rw [committing, htakes, taken_port hch hq]
    exact hpop
  rw [arcs_finishFiring hT hst hch, hR]
  exact fifo_pushedPorts (a := a.pop n) (Assoc.find_put_same ..)

end NoChain

theorem pushedInner_finishFiring (hT : Assoc.find t (s.core r u).templates = some T) (hst : T.stage j = some st) (hop : wordOp st.word ≠ 0xA1)
    (htakes : f.takes = []) : PushedInner r u t j T outs (finishFiring r u t j f outs fl s) := by
  intro i hi _
  have hw : committing r u t j T st f s = startWork r u t T st s := by rw [committing, htakes, Work.taken, List.foldl_nil]
  rw [Assoc.get_eq_find, (finishFiring_finished hT hst).template, Option.getD_some, committedTemplate, hw, deliveredTemplate, if_neg hop]
  exact inner_pushInner hi

end Finish

/-! ### NODE_FIRING_COMMIT (R78, R138) -/

/-- The state once accumulator `n` of core `u` holds `e`, these of its bytes being written (R161, R175). -/
def setAcc (r u n : Nat) (e : AccEntry) (bytes : Nat × Nat) (s : State) : State :=
  { s.modCore r u (fun c => { c with accs := Assoc.put n e c.accs }) with errors := clearErr r 2 u (256 * n + bytes.1) bytes.2 s.errors }

section Commit
variable {r u t j n v : Nat} {T : Template} {st : Stage} {f : Firing} {L : Late} {e : AccEntry} {fl : Flg} {bytes : Nat × Nat} {s : State}

theorem core_setAcc : (setAcc r u n e bytes s).core r v =
    if v = u then { s.core r u with accs := Assoc.put n e (s.core r u).accs } else s.core r v := by
  split
  · next h =>
    rw [h]
    exact State.core_modCore_same r u (fun c => { c with accs := Assoc.put n e c.accs }) s
  · next h => exact State.core_modCore_other (s := s) (f := fun c => { c with accs := Assoc.put n e c.accs }) h
theorem templates_setAcc : ((setAcc r u n e bytes s).core r u).templates = (s.core r u).templates := by rw [core_setAcc, if_pos rfl]
theorem accs_setAcc : ((setAcc r u n e bytes s).core r u).accs = Assoc.put n e (s.core r u).accs := by rw [core_setAcc, if_pos rfl]
theorem slots_setAcc : ((setAcc r u n e bytes s).core r v).slots = (s.core r v).slots := by
  rw [core_setAcc]
  split
  · next h => rw [h]
  · rfl

theorem accChk_clean {x : StopRec} {k : State → State} (he : s.errors = []) : accChk r u n bytes x k s = k s := by
  have hclean : ∀ e ∈ s.errors, e.code ≠ 2 := by simp [he]
  rw [accChk, readChk, readChkBy_clean hclean]

theorem commitWrite_of_some (h : lateWrite (commitIn r u t j st L s) L (Assoc.get AccEntry.init n (s.core r u).accs) = some (e, fl)) :
    ∃ bytes, commitWrite r u t j st f L n s = finishFiring r u t j f [] fl (setAcc r u n e bytes s) := by
  simp only [commitWrite, h]
  exact ⟨_, rfl⟩
theorem commitWrite_of_none (h : lateWrite (commitIn r u t j st L s) L (Assoc.get AccEntry.init n (s.core r u).accs) = none) :
    commitWrite r u t j st f L n s = raise r (firingRec 0x03 u t st) s := by
  simp only [commitWrite, h]

theorem commitRead_of_room (hT : Assoc.find t (s.core r u).templates = some T)
    (hroom : outReady (s.region r) u (s.core r u) T ((s.core r u).chainOf t) j st.word (outPorts st.word) = true) :
    let y := lateRead (commitIn r u t j st L s) L (Assoc.get AccEntry.init n (s.core r u).accs)
    commitRead r u t j st f L n s = finishFiring r u t j f y.1 y.2 s := by
  rw [State.core] at hT hroom
  simp only [commitRead, Assoc.get_eq_find, hT, Option.getD_some, hroom, if_true]
  rfl

section Started
variable (h : HasFiring r u t j T st f s)
include h

theorem commit_gives_early (hl : f.late = none) : Gives (.nodeFiringCommit r u t j) s (finishFiring r u t j f f.outs f.flags s) := by
  obtain ⟨hh, hT, hst, hf⟩ := h
  have hT' : Assoc.find t ((s.region r).core u).templates = some T := hT
  show execNodeFiringCommit r u t j s = _
  simp only [execNodeFiringCommit, hh, hT', Option.bind_some, hst, hf, hl, Bool.false_eq_true, if_false, nx]

theorem commit_gives_write (hl : f.late = some L) (hn : accWritten L.word = some n) (he : s.errors = []) :
    Gives (.nodeFiringCommit r u t j) s (commitWrite r u t j st f L n s) := by
  obtain ⟨hh, hT, hst, hf⟩ := h
  have hT' : Assoc.find t ((s.region r).core u).templates = some T := hT
  show execNodeFiringCommit r u t j s = _
  simp only [execNodeFiringCommit, hh, hT', Option.bind_some, hst, hf, hl, hn, accChk_clean he, Bool.false_eq_true, if_false, ite_self, nx]

theorem commit_gives_read (hl : f.late = some L) (hw : accWritten L.word = none) (hn : accRead L.word = some n) (he : s.errors = [])
    (hroom : outReady (s.region r) u (s.core r u) T ((s.core r u).chainOf t) j st.word (outPorts st.word) = true) :
    let y := lateRead (commitIn r u t j st L s) L (Assoc.get AccEntry.init n (s.core r u).accs)
    Gives (.nodeFiringCommit r u t j) s (finishFiring r u t j f y.1 y.2 s) := by
  obtain ⟨hh, hT, hst, hf⟩ := h
  have hT' : Assoc.find t ((s.region r).core u).templates = some T := hT
  show execNodeFiringCommit r u t j s = _
  simp only [execNodeFiringCommit, hh, hT', Option.bind_some, hst, hf, hl, hw, hn, accChk_clean he, commitRead_of_room hT hroom, Bool.false_eq_true,
    if_false, nx]

end Started

end Commit

/-- Settles O26: an early firing's commit, the commit that writes an accumulator, and that of a VNRW are each one `finishFiring`. -/
theorem firingCommits : Obligations.FiringCommits := by
  intro r u t j T st f s h
  have ⟨_, hT, hst, _⟩ := h
  refine ⟨fun hl => ⟨_, commit_gives_early h hl, stageCommitted_finishFiring hT hst, (finishFiring_finished hT hst).slotsKept cores_committedRegion,
    (finishFiring_finished hT hst).accs cores_committedRegion, fun hch hs => ⟨(finishFiring_finished hT hst).lmem hch,
      fun p => pushed_finishFiring hT hst hch hs, pushedInner_finishFiring hT hst, fun q n k a => popped_finishFiring hT hst hch⟩⟩,
    fun L n hl hn he => ?write, fun L n hl hw hn he => ?read⟩
  case write =>
    have hgives := commit_gives_write h hl hn he
    refine ⟨fun e fl hsome => ?_, fun hnone => commitWrite_of_none (f := f) hnone ▸ hgives⟩
    obtain ⟨bytes, heq⟩ := commitWrite_of_some (f := f) hsome
    have hT' := (congrArg (Assoc.find t) (templates_setAcc (n := n) (e := e) (bytes := bytes))).trans hT
    have hfin := finishFiring_finished (f := f) (outs := []) (fl := fl) hT' hst
    obtain ⟨hslots, hsmem, htmem⟩ := hfin.slotsKept cores_committedRegion
    have haccs := (hfin.accs cores_committedRegion u).trans accs_setAcc
    exact ⟨_, heq ▸ hgives, stageCommitted_finishFiring hT' hst, ⟨fun v => (hslots v).trans slots_setAcc, hsmem, htmem⟩,
      by rw [haccs, Assoc.get_put_same], fun m hm => by rw [haccs, Assoc.get_put_other _ hm]⟩
  case read =>
    intro c hroom y
    have hfin := finishFiring_finished (f := f) (outs := y.1) (fl := y.2) hT hst
    exact ⟨_, commit_gives_read h hl hw hn he hroom, hfin.slotsKept cores_committedRegion, hfin.accs cores_committedRegion u,
      stageCommitted_finishFiring hT hst, fun hch hs => ⟨hfin.lmem hch, fun p => pushed_finishFiring hT hst hch hs, pushedInner_finishFiring hT hst⟩⟩

end Sys2Proof.Machine

end

section

namespace Sys2Proof.Machine

open Sys2Proof.Claims

/-! ## Integer words: register forms, division, immediate forms, compares (O1 to O4)

Every word is one of a few shared forms (`intBin`, `intOvf` and their like). What such a form answers where its word issues is said once, and
each word then needs only its value. -/

/-! ### Exact values, wrapped and clamped (R57, R88) -/

theorem toWord_wrapN (v : Int) : toWord (wrapN 64 v) = BitVec.ofInt 64 v := by
  apply BitVec.eq_of_toNat_eq
  rw [toWord, wrapN, BitVec.toNat_ofNat, BitVec.toNat_ofInt]
  omega

theorem rangeFlags_eq (v : Int) : rangeFlags v = if sMin 64 ≤ v ∧ v ≤ sMax 64 then flNone else flOfNx := rfl
theorem clamped_eq (v : Int) : clamped v =
    if v < sMin 64 then BitVec.ofInt 64 (sMin 64) else if sMax 64 < v then BitVec.ofInt 64 (sMax 64) else BitVec.ofInt 64 v := rfl

theorem clampWord_eq (sat : Bool) (v : Int) : clampWord sat v = (if sat then clamped v else BitVec.ofInt 64 v, rangeFlags v) := by
  by_cases h : sMin 64 ≤ v ∧ v ≤ sMax 64
  · have hin : clamped v = BitVec.ofInt 64 v := by rw [clamped_eq, if_neg (not_lt.mpr h.1), if_neg (not_lt.mpr h.2)]
    simp only [clampWord, intResult, rangeFlags_eq, if_pos h, toWord_wrapN, hin, ite_self]
  · cases sat with
    | false => simp [clampWord, intResult, rangeFlags_eq, h, toWord_wrapN]
    | true =>
      have hout : clamped v = BitVec.ofInt 64 (if v < sMin 64 then sMin 64 else sMax 64) := by
        rw [clamped_eq, apply_ite (BitVec.ofInt 64)]
        split
        · rfl
        · next hlo => rw [if_pos (not_le.mp fun hhi => h ⟨not_lt.mp hlo, hhi⟩)]
      simp only [clampWord, intResult, rangeFlags_eq, if_neg h, if_true, toWord_wrapN, hout]

/-! ### The shared forms where their word issues -/

section Forms
variable {g : Guard} {d : Reg} {p : PReg} {a b : Src} {w : Word} {v : Int} {t : Bool} {s : State}

theorem intBin_gives {f : Word → Word → Word} (h : Issues g [a, b] [d] s) (hw : f (rv s a) (rv s b) = w) :
    intBin f g d a b s = .next (done d w s) := hw ▸ issue_of_issues h
theorem intUn_gives {f : Word → Word} (h : Issues g [a] [d] s) (hw : f (rv s a) = w) : intUn f g d a s = .next (done d w s) :=
  hw ▸ issue_of_issues h
theorem intImm_gives {f : Word → Word} (h : Issues g [a] [d] s) (hw : f (rv s a) = w) : intImm f g d a s = .next (done d w s) :=
  intUn_gives h hw
theorem intLong_gives {f : Word → Word → Word} (h : Issues g [a, b] [d] s) (hw : f (rv s a) (rv s b) = w) :
    intLong f g d a b s = .next (started d w 0 false s) := hw ▸ issue_of_issues h
theorem intCmp_gives {f : Word → Word → Bool} (h : Issues g [a, b] [] s) (ht : f (rv s a) (rv s b) = t) :
    intCmp f g p a b s = .next (doneP p t s) := ht ▸ issue_of_issues h
theorem intCmpImm_gives {f : Word → Bool} (h : Issues g [a] [] s) (ht : f (rv s a) = t) : intCmpImm f g p a s = .next (doneP p t s) :=
  ht ▸ issue_of_issues h
theorem predOp_gives {f : Bool → Bool → Bool} {x y : PReg} {nx ny : Bool} (h : Issues g [] [] s) :
    predOp f g p x y nx ny s = .next (doneP p (f (s.here.rdP x != nx) (s.here.rdP y != ny)) s) := issue_of_issues h

/-- The exact value `v` wraps to `w`. -/
theorem intOvf_wraps {f : Word → Word → Int} (h : Issues g [a, b] [d] s) (hv : f (rv s a) (rv s b) = v) (hw : BitVec.ofInt 64 v = w) :
    intOvf false f g d a b s = .next (doneFl d w (rangeFlags v) s) := by
  rw [intOvf, issue_of_issues h, hv, clampWord_eq, if_neg Bool.false_ne_true, hw]
theorem intOvf_clamps {f : Word → Word → Int} (h : Issues g [a, b] [d] s) (hv : f (rv s a) (rv s b) = v) :
    intOvf true f g d a b s = .next (doneFl d (clamped v) (rangeFlags v) s) := by
  rw [intOvf, issue_of_issues h, hv, clampWord_eq, if_pos rfl]
theorem intImmOvf_wraps {f : Word → Int} (h : Issues g [a] [d] s) (hv : f (rv s a) = v) (hw : BitVec.ofInt 64 v = w) :
    intImmOvf f g d a s = .next (doneFl d w (rangeFlags v) s) := by
  rw [intImmOvf, issue_of_issues h, hv, clampWord_eq, if_neg Bool.false_ne_true, hw]

end Forms

/-! ### Values (R88, R91) -/

section Values
variable (x y : Word)

theorem ofInt_toInt_add : BitVec.ofInt 64 (x.toInt + y.toInt) = x + y := by
  rw [BitVec.ofInt_add, BitVec.ofInt_toInt, BitVec.ofInt_toInt]
theorem ofInt_toInt_sub : BitVec.ofInt 64 (x.toInt - y.toInt) = x - y := by
  rw [Int.sub_eq_add_neg, BitVec.ofInt_add, BitVec.ofInt_neg, BitVec.ofInt_toInt, BitVec.ofInt_toInt, BitVec.sub_eq_add_neg]
theorem ofInt_toInt_mul : BitVec.ofInt 64 (x.toInt * y.toInt) = x * y := by
  rw [BitVec.ofInt_mul, BitVec.ofInt_toInt, BitVec.ofInt_toInt]

theorem shlExact_eq (n : Nat) : shlExact x n = x.toInt * 2 ^ n := by simp [shlExact]
theorem ofInt_toInt_shl (n : Nat) : BitVec.ofInt 64 (x.toInt * 2 ^ n) = x <<< n := by
  have hpow : BitVec.ofInt 64 (2 ^ n) = BitVec.twoPow 64 n := by
    apply BitVec.eq_of_toNat_eq
    rw [show (2 : Int) ^ n = ((2 ^ n : Nat) : Int) by simp, BitVec.ofInt_natCast, BitVec.toNat_ofNat, BitVec.toNat_twoPow]
  rw [BitVec.ofInt_mul, BitVec.ofInt_toInt, hpow, BitVec.shiftLeft_eq_mul_twoPow]
theorem shr_eq_ofNat_div (n : Nat) : x >>> n = BitVec.ofNat 64 (x.toNat / 2 ^ n) := by
  rw [← Nat.shiftRight_eq_div_pow, ← BitVec.toNat_ushiftRight, BitVec.ofNat_toNat, BitVec.setWidth_eq]
theorem sra_eq_ofInt_div (n : Nat) : x.sshiftRight n = BitVec.ofInt 64 (x.toInt / 2 ^ n) := by
  rw [BitVec.sshiftRight, Int.shiftRight_eq_div_pow]; rfl
theorem rotr_eq_or {n : Nat} (hn : n < 64) : x.rotateRight n = x >>> n ||| x <<< (64 - n) := by
  rw [BitVec.rotateRight, Nat.mod_eq_of_lt hn, BitVec.rotateRightAux]

theorem ite_lt_eq_min : (if x.toInt < y.toInt then x else y) = BitVec.ofInt 64 (min x.toInt y.toInt) := by
  rw [min_def_lt, apply_ite (BitVec.ofInt 64), BitVec.ofInt_toInt, BitVec.ofInt_toInt]
theorem ite_lt_eq_max : (if x.toInt < y.toInt then y else x) = BitVec.ofInt 64 (max x.toInt y.toInt) := by
  rw [max_def_lt, apply_ite (BitVec.ofInt 64), BitVec.ofInt_toInt, BitVec.ofInt_toInt]
theorem ite_lt_eq_minu : (if x.toNat < y.toNat then x else y) = BitVec.ofNat 64 (min x.toNat y.toNat) := by
  rw [min_def_lt, apply_ite (BitVec.ofNat 64)]; simp only [BitVec.ofNat_toNat, BitVec.setWidth_eq]
theorem ite_lt_eq_maxu : (if x.toNat < y.toNat then y else x) = BitVec.ofNat 64 (max x.toNat y.toNat) := by
  rw [max_def_lt, apply_ite (BitVec.ofNat 64)]; simp only [BitVec.ofNat_toNat, BitVec.setWidth_eq]

/-- CLZ counts the zero bits above the highest set bit: 63 less the place of that bit. -/
theorem clzWord_spec : let v := toWord (clzWord x)
    (x = 0 → v = 64) ∧ (x ≠ 0 → 2 ^ (63 - v.toNat) ≤ x.toNat ∧ x.toNat < 2 ^ (64 - v.toNat)) := by
  refine ⟨fun h => by rw [clzWord, if_pos h]; rfl, fun h => ?_⟩
  have hx : x.toNat ≠ 0 := fun e => h (BitVec.eq_of_toNat_eq e)
  have hlog : Nat.log2 x.toNat < 64 := (Nat.log2_lt hx).mpr x.isLt
  have hv : (toWord (clzWord x)).toNat = 63 - Nat.log2 x.toNat := by
    rw [clzWord, if_neg h, toWord, BitVec.toNat_ofNat, Nat.mod_eq_of_lt (by omega)]
  rw [hv, show 63 - (63 - Nat.log2 x.toNat) = Nat.log2 x.toNat by omega, show 64 - (63 - Nat.log2 x.toNat) = Nat.log2 x.toNat + 1 by omega]
  exact ⟨Nat.log2_self_le hx, Nat.lt_log2_self⟩

/-- CTZ counts the zero bits below the lowest set bit: the place of that bit. -/
theorem ctzWord_spec : let v := toWord (ctzWord x)
    (x = 0 → v = 64) ∧ (x ≠ 0 → x.getLsbD v.toNat = true ∧ ∀ i, i < v.toNat → x.getLsbD i = false) := by
  cases hfind : (List.range 64).find? (fun i => x.getLsbD i) with
  | none =>
    have hclear : ∀ i < 64, x.getLsbD i = false := by simpa using hfind
    have hx : x = 0 := BitVec.eq_of_getLsbD_eq fun i hi => by rw [hclear i hi]; simp
    exact ⟨fun _ => by rw [ctzWord, hfind]; rfl, fun h => absurd hx h⟩
  | some k =>
    obtain ⟨hk, hmem, hlow⟩ := List.find?_range_eq_some.mp hfind
    have hv : (toWord (ctzWord x)).toNat = k := by
      rw [ctzWord, hfind, Option.getD_some, toWord, BitVec.toNat_ofNat, Nat.mod_eq_of_lt ((List.mem_range.mp hmem).trans (by decide))]
    refine ⟨fun h => ?_, fun _ => ?_⟩
    · simp [h] at hk
    · rw [hv]
      exact ⟨hk, fun i hi => by simpa using hlow i hi⟩

theorem popWord_eq : popWord x = (List.range 64).countP (fun i => x.getLsbD i) := List.countP_eq_length_filter.symm

theorem toInt_immWord (imm : Imm) : (immWord imm).toInt = imm.toInt := BitVec.toInt_signExtend_of_le (by decide)
theorem lui_eq_append (imm : Imm) : toWord (imm.toNat * 2 ^ 32 + x.toNat % 2 ^ 32) = imm ++ x.extractLsb' 0 32 := by
  apply BitVec.eq_of_toNat_eq
  rw [BitVec.toNat_append, Nat.shiftLeft_eq, BitVec.extractLsb'_toNat, Nat.shiftRight_zero, Nat.mul_comm,
    ← Nat.two_pow_add_eq_or_of_lt (Nat.mod_lt _ (by decide)), toWord, BitVec.toNat_ofNat]
  omega
theorem beq_immWord (imm : Imm) : (x == immWord imm) = decide (x.toInt = imm.toInt) := by
  rw [Bool.beq_eq_decide_eq, ← toInt_immWord]
  exact decide_eq_decide.mpr BitVec.toInt_inj.symm

theorem bne_eq_decide : (x != y) = decide (x ≠ y) := by rw [bne, Bool.beq_eq_decide_eq, decide_not]

/-- `divWord` gives the quotient and the remainder of R89: `Int.tmod` is what the truncated quotient leaves. -/
theorem divWord_eq (i j : Int) : divWord i j x = (quotient i j, remainder i j x) := by
  rw [divWord, quotient, remainder, Int.tmod_def]
  split <;> rfl

end Values

/-- Settles O1: each word's value, at its shared form. -/
theorem integerRegisterForms : Obligations.IntegerRegisterForms := by
  intro g d a b s x y n
  refine ⟨fun h => ⟨
    show execAdd g d a b s = _ from intOvf_wraps h rfl (ofInt_toInt_add x y),
    show execAddSat g d a b s = _ from intOvf_clamps h rfl,
    show execSub g d a b s = _ from intOvf_wraps h rfl (ofInt_toInt_sub x y),
    show execSubSat g d a b s = _ from intOvf_clamps h rfl,
    show execMul g d a b s = _ from intOvf_wraps h rfl (ofInt_toInt_mul x y),
    show execMulSat g d a b s = _ from intOvf_clamps h rfl,
    show execShl g d a b s = _ from intOvf_wraps h (shlExact_eq x n) (ofInt_toInt_shl x n),
    show execShlSat g d a b s = _ from intOvf_clamps h (shlExact_eq x n),
    show execMulh g d a b s = _ from intBin_gives h rfl,
    show execMulhu g d a b s = _ from intBin_gives h rfl,
    show execAnd g d a b s = _ from intBin_gives h rfl,
    show execOr g d a b s = _ from intBin_gives h rfl,
    show execXor g d a b s = _ from intBin_gives h rfl,
    show execAndn g d a b s = _ from intBin_gives h rfl,
    show execShr g d a b s = _ from intBin_gives h (shr_eq_ofNat_div x n),
    show execSra g d a b s = _ from intBin_gives h (sra_eq_ofInt_div x n),
    show execRotr g d a b s = _ from intBin_gives h (rotr_eq_or x (Nat.mod_lt _ (by decide))),
    show execMin g d a b s = _ from intBin_gives h (ite_lt_eq_min x y),
    show execMax g d a b s = _ from intBin_gives h (ite_lt_eq_max x y),
    show execMinu g d a b s = _ from intBin_gives h (ite_lt_eq_minu x y),
    show execMaxu g d a b s = _ from intBin_gives h (ite_lt_eq_maxu x y)⟩,
    fun h => ⟨⟨_, ?clz, clzWord_spec x⟩, ⟨_, ?ctz, ctzWord_spec x⟩, ?popc⟩⟩
  case clz => exact show execClz g d a s = _ from intUn_gives h rfl
  case ctz => exact show execCtz g d a s = _ from intUn_gives h rfl
  case popc => exact show execPopc g d a s = _ from intUn_gives h (congrArg toWord (popWord_eq x))

/-! ### Producers of a value (R27, R89) -/

section Completion
variable {r u k : Nat} {p : Producer} {d : Reg} {v : Word} {vs : List Word} {fl : Flg} {fp : Bool} {s : State}

theorem producerCompletion_gives_value (hr : (s.region r).halt = false) (hp : (s.core r u).producers.find? (fun q => decide (q.id = k)) = some p)
    (hw : p.work = .value vs fl fp) : Gives (.producerCompletion r u k) s (complete r u p vs fl s) := by
  show execProducerCompletion r u k s = _
  simp only [execProducerCompletion, hr, Bool.false_eq_true, if_false, hp, hw, nx]

theorem complete_slot_single (hp : p.dests = [d]) : (complete r u p [v] fl s).slot r u p.slot = ((s.slot r u p.slot).wr d v).flag fl := by
  rw [complete_slot, hp]; rfl

end Completion

/-- Settles O2: the words at their shared form with `divWord`, and the completion of a producer of one value. -/
theorem division : Obligations.Division := by
  intro g d a b s x y
  refine ⟨fun h => ⟨
    show execDiv g d a b s = _ from intLong_gives h (congrArg Prod.fst (divWord_eq x _ _)),
    show execDivu g d a b s = _ from intLong_gives h (congrArg Prod.fst (divWord_eq x _ _)),
    show execRem g d a b s = _ from intLong_gives h (congrArg Prod.snd (divWord_eq x _ _)),
    show execRemu g d a b s = _ from intLong_gives h (congrArg Prod.snd (divWord_eq x _ _))⟩, fun hy => ?least,
    fun r u k p v hr hp hw hd hd0 => ⟨_, producerCompletion_gives_value hr hp hw, ?written⟩⟩
  case least =>
    rw [hy]
    exact ⟨by decide, (if_neg (by decide)).trans (by decide)⟩
  case written =>
    rw [complete_slot_single hd]
    exact ⟨Slot.rd_wr_same hd0 .., (Slot.fill_wr ..).trans (if_pos rfl)⟩

/-- Settles O3: each word's value, at its shared form. -/
theorem immediateForms : Obligations.ImmediateForms := by
  intro g d a b imm sh k p s x y i
  have hi : x.toInt + imm.toInt = x.toInt + i.toInt := congrArg (x.toInt + ·) (toInt_immWord imm).symm
  exact ⟨fun h => ⟨
    show execAddi g d a imm s = _ from intImmOvf_wraps h hi (ofInt_toInt_add x i),
    show execAndi g d a imm s = _ from intImm_gives h rfl,
    show execOri g d a imm s = _ from intImm_gives h rfl,
    show execXori g d a imm s = _ from intImm_gives h rfl,
    show execShli g d a sh s = _ from intImmOvf_wraps h (shlExact_eq x _) (ofInt_toInt_shl x _),
    show execShri g d a sh s = _ from intImm_gives h (shr_eq_ofNat_div x _),
    show execSrai g d a sh s = _ from intImm_gives h (sra_eq_ofInt_div x _),
    show execLui g d a imm s = _ from intImm_gives h (lui_eq_append x imm)⟩, fun h => ⟨
    show execLea g d a b k s = _ from intBin_gives h rfl,
    show execSel g d a b p s = _ from issue_of_issues h⟩⟩

/-! ### Words of the predicate forms (R25, R26, R95) -/

theorem bit_toNat (w : IWord) (i : Nat) : bit w.toNat i = w.getLsbD i := by
  rw [bit, BitVec.getLsbD, Nat.testBit_eq_decide_div_mod_eq, Bool.beq_eq_decide_eq]

/-- No trap bit, and a function value below 4. -/
theorem predWord_fields {op : Nat} {g : Guard} {p u v : PReg} {nu nv : Bool} {w : IWord} (hop : op < 256) (h : predWord op g p u v nu nv = some w) :
    w.getLsbD 27 = false ∧ w.getLsbD 26 = false ∧ w.toNat / 2 ^ 16 % 2 ^ 9 < 4 := by
  obtain rfl := Option.some.inj h
  have hread := readAt_packR (f := { op := op, g := g, dest := 32 + p.toNat, a := 32 + u.toNat, b := 32 + v.toNat, fn := b2n nu + 2 * b2n nv })
    (by simp [RFields.fields, hop, g.pred.isLt])
  have hfn : (packR _).toNat / 2 ^ 16 % 2 ^ 9 = b2n nu + 2 * b2n nv := hread.fn
  have hu := b2n_le_one nu
  have hv := b2n_le_one nv
  rw [← bit_toNat, ← bit_toNat]
  exact ⟨congrArg Src.et hread.srcA, congrArg Src.et hread.srcB, by omega⟩

/-- A word of opcode 0x32 to 0x34 that decodes is the word of a predicate form. -/
theorem predForm_fields_of_decode {w : IWord} {i : Instr} (hlo : 0x32 ≤ w.toNat / 2 ^ 56) (hhi : w.toNat / 2 ^ 56 ≤ 0x34)
    (h : decode w = some i) : w.getLsbD 27 = false ∧ w.getLsbD 26 = false ∧ w.toNat / 2 ^ 16 % 2 ^ 9 < 4 := by
  obtain ⟨hwf, henc⟩ := decode_eq_some h
  have hraw := reads_encode i hwf w henc
  obtain hop | hop | hop : w.toNat / 2 ^ 56 = 0x32 ∨ w.toNat / 2 ^ 56 = 0x33 ∨ w.toNat / 2 ^ 56 = 0x34 := by omega
  all_goals
    rw [decodeRaw_imm hop rfl] at hraw
    obtain rfl := Option.some.inj hraw
    exact predWord_fields (by decide) henc

/-- Settles O4: the words by the definition of `encode`, the illegal ones by the fields of those, and each word's value at its shared form. -/
theorem comparesAndPredicates : Obligations.ComparesAndPredicates := by
  refine ⟨fun g p u v nu nv a b imm => ⟨rfl, rfl, rfl, rfl, rfl, rfl, rfl, rfl, rfl, rfl, rfl⟩, fun w hlo hhi hbad => ?illegal,
    fun x b => Slot.wrP_zero b x, fun g p u v nu nv a b imm s => ?meaning⟩
  case illegal =>
    refine Option.eq_none_iff_forall_ne_some.mpr fun i hi => ?_
    obtain ⟨ha, hb, hfn⟩ := predForm_fields_of_decode hlo hhi hi
    rcases hbad with h | h | h
    · exact Bool.false_ne_true (ha.symm.trans h)
    · exact Bool.false_ne_true (hb.symm.trans h)
    · omega
  case meaning =>
    intro x y
    exact ⟨fun h => ⟨
      show execCeq g p a b s = _ from intCmp_gives h (Bool.beq_eq_decide_eq x y),
      show execCne g p a b s = _ from intCmp_gives h (bne_eq_decide x y),
      show execClt g p a b s = _ from intCmp_gives h rfl,
      show execCle g p a b s = _ from intCmp_gives h rfl,
      show execCltu g p a b s = _ from intCmp_gives h rfl,
      show execCleu g p a b s = _ from intCmp_gives h rfl⟩, fun h => ⟨
      show execCeqi g p a imm s = _ from intCmpImm_gives h (beq_immWord x imm),
      show execClti g p a imm s = _ from intCmpImm_gives h rfl⟩, fun h => ⟨
      show execPand g p u v nu nv s = _ from predOp_gives h,
      show execPor g p u v nu nv s = _ from predOp_gives h,
      show execPxor g p u v nu nv s = _ from predOp_gives h⟩⟩

end Sys2Proof.Machine

end

section

namespace Sys2Proof.Machine

open Sys2Proof.Claims

/-! ## Branches (O6) -/

section Branch
variable {g : Guard} {c : Src} {l : Reg} {disp : Imm} {f : Slot → Slot} {i : Int} {s : State}

theorem outOfStore_eq_false (h : Reachable i s) : (!isCtl s.cur.unit && pcBad i) = false := by
  rcases h with hctl | ⟨hlo, hhi⟩
  · rw [hctl, Bool.not_true, Bool.false_and]
  · rw [Bool.and_eq_false_imp]
    exact fun _ => Bool.eq_false_iff.mpr fun hbad => by rw [pcBad_iff] at hbad; omega

theorem jumpTo_inside (h : Reachable i s) : jumpTo i f s = wentTo i f s := by
  rw [jumpTo, outOfStore_eq_false h, if_neg Bool.false_ne_true]; rfl

end Branch

/-- Settles O6: a taken branch goes through `jumpTo`, and CALL's return index must be in the store too. -/
theorem branches : Obligations.Branches := by
  intro g c l disp s i
  have hin : ∀ f, Reachable i s → takeBranch disp f s = wentTo i f s := fun f hi => jumpTo_inside hi
  refine ⟨fun h => ⟨fun hc => ?_, fun hc hi => ?_⟩, fun h hi => ?_, fun h hi hret => ?_, fun h => ⟨fun hc => ?_, fun hc hi => ?_⟩⟩
  · rw [Gives, exec_br h, if_neg (not_not.mpr hc)]
  · rw [Gives, exec_br h, if_pos hc, hin _ hi]
  · rw [Gives, exec_jmp h, hin _ hi]
  · rw [Gives, exec_call h, outOfStore_eq_false hret, if_neg Bool.false_ne_true, hin _ hi]
  · rw [Gives, exec_loop h, hc]; rfl
  · have hv : rv s c - 1 ≠ 0 := fun e => hc (by bv_omega)
    rw [Gives, exec_loop h, if_pos hv, hin _ hi]

end Sys2Proof.Machine

end

section

namespace Sys2Proof

theorem listDrop_eq_eraseIdx {α : Type} {n : Nat} {l : List α} : listDrop n l = l.eraseIdx n := by
  induction l generalizing n with
  | nil => rw [listDrop, List.eraseIdx_nil]
  | cons x t ih =>
    cases n with
    | zero => rfl
    | succ n => exact congrArg (x :: ·) ih

end Sys2Proof

end

section

namespace Sys2Proof.Machine

open Sys2Proof.Claims

/-! ## Channels (O11)

Each word's body at a state where it issues, at the branch that the clause is about. -/

theorem Core.chan_setChan_other {i j : Nat} {ch : Chan} {c : Core} (h : i ≠ j) : (c.setChan j ch).chan i = c.chan i :=
  Assoc.get_put_other _ h ..

/-! ### RECV and PEEK (R114, R116, R118) -/

/-- The core after RECV has popped channel `j` at moment `now`, before its register is written (R114, R116). -/
def Core.popped (j : Nat) (rest : List (Word × Bool)) (ord : Bool) (now : Nat) (c : Core) : Core :=
  { c.setChan j { c.chan j with words := rest } with refresh := if ord then now else c.refresh }
/-- RECV's state before its register is written. -/
def popped (j : Nat) (rest : List (Word × Bool)) (ord : Bool) (s : State) : State :=
  let s1 := s.modHereC (fun c => c.setChan j { c.chan j with words := rest })
  if ord then refresh s.cur.region s.cur.unit s1 else s1

section Receive
variable {g : Guard} {d : Reg} {p : PReg} {j : CReg} {v : Word} {ord : Bool} {rest : List (Word × Bool)} {s : State}

theorem cur_popped {j : Nat} : (popped j rest ord s).cur = s.cur := by cases ord <;> rfl
theorem hereC_popped {j : Nat} : (popped j rest ord s).hereC = s.hereC.popped j rest ord s.moment := by
  cases ord with
  | false => exact State.hereC_modHereC ..
  | true =>
    show (refresh _ _ (s.modHereC _)).core s.cur.region s.cur.unit = _
    rw [refresh, State.core_modCore_same, State.modHereC, State.core_modCore_same]
    rfl
theorem here_popped {j : Nat} : (popped j rest ord s).here = s.here := by
  rw [State.here_eq, hereC_popped, cur_popped]; rfl

section Bound
variable (hb : s.here.chbind.getLsbD j.toNat = true)
include hb

theorem isBound_of_chbind : isBound j.toNat s = true := hb

theorem recv_gives (h : Issues g [] [d] s) (hw : (s.hereC.chan j.toNat).words = (v, ord) :: rest) :
    Gives (.recv g d j) s (done d v (popped j.toNat rest ord s)) := by
  show execRecv g d j s = _
  rw [execRecv, issue_of_issues h, isBound_of_chbind hb, Bool.not_true, if_neg Bool.false_ne_true, hw]; rfl
theorem recv_waits (h : Issues g [] [d] s) (hw : (s.hereC.chan j.toNat).words = []) :
    Gives (.recv g d j) s (park (.word s.here.chbind) s) := by
  show execRecv g d j s = _
  rw [execRecv, issue_of_issues h, isBound_of_chbind hb, Bool.not_true, if_neg Bool.false_ne_true, hw]
theorem peek_gives (h : Issues g [] [d] s) (hw : (s.hereC.chan j.toNat).words = (v, ord) :: rest) : Gives (.peek g d j) s (done d v s) := by
  show execPeek g d j s = _
  rw [execPeek, issue_of_issues h, isBound_of_chbind hb, Bool.not_true, if_neg Bool.false_ne_true, hw]
theorem peek_waits (h : Issues g [] [d] s) (hw : (s.hereC.chan j.toNat).words = []) :
    Gives (.peek g d j) s (park (.word s.here.chbind) s) := by
  show execPeek g d j s = _
  rw [execPeek, issue_of_issues h, isBound_of_chbind hb, Bool.not_true, if_neg Bool.false_ne_true, hw]
theorem peekQ_gives (h : Issues g [] [] s) : Gives (.peekQ g p j) s (doneP p (decide (Holds s j.toNat)) s) := by
  have hq : (!(s.hereC.chan j.toNat).words.isEmpty) = decide (Holds s j.toNat) := by
    rw [Bool.eq_iff_iff, decide_eq_true_iff, Bool.not_eq_true', List.isEmpty_eq_false_iff]
  show execPeekQ g p j s = _
  rw [execPeekQ, issue_of_issues h, isBound_of_chbind hb, Bool.not_true, if_neg Bool.false_ne_true, hq]

end Bound

/-- What RECV leaves, its register and the channels of its core. -/
theorem received {j : Nat} : let t := done d v (popped j rest ord s)
    (t.hereC.chan j).words = rest ∧ (d ≠ 0 → t.here.rd d = v) ∧ t.here.pc = s.here.pc + 1 ∧
    t.hereC.refresh = (if ord then s.moment else s.hereC.refresh) ∧ ∀ i, i ≠ j → t.hereC.chan i = s.hereC.chan i := by
  have hcore : (done d v (popped j rest ord s)).hereC = (s.hereC.popped j rest ord s.moment).setSlot s.cur.slot (s.here.wr d v).next := by
    rw [done_hereC, hereC_popped, cur_popped, here_popped]
  refine ⟨?_, fun hd => done_rd hd, done_pc.trans (by rw [here_popped]), by rw [hcore]; rfl, fun i hi => ?_⟩
  · rw [hcore]
    exact congrArg Chan.words (Core.chan_setChan_same ..)
  · rw [hcore]
    exact Core.chan_setChan_other hi

end Receive

/-! ### SEND (R115 to R117) -/

section Send
variable {g : Guard} {a b : Src} {sc : Scope} {dst v : Word} {ord : Bool} {rel : Option Scope} {s : State}

theorem sendUnit_eq : bits dst.toNat 15 0 = dst.toNat % 2 ^ 16 := by rw [bits, Nat.pow_zero, Nat.div_one]
theorem sendChan_eq (h : dst.toNat < 2 ^ 20) : bits dst.toNat 19 16 = dst.toNat / 2 ^ 16 := by
  rw [bits, Nat.mod_eq_of_lt]; omega

theorem sendFault_eq_none (hm : MaySend dst s) (hsc : ∀ sc, rel = some sc → inScope sc s.cur.unit (dst.toNat % 2 ^ 16) = true) :
    sendFault dst rel s = none := by
  obtain ⟨hlt, hcore, hdet⟩ := hm
  have hhigh : bits dst.toNat 63 20 = 0 := by rw [bits, Nat.div_eq_of_lt hlt]; rfl
  simp only [sendFault, sendUnit_eq, sendChan_eq hlt, hhigh, hcore]
  cases rel with
  | none => simpa using hdet
  | some sc =>
    simp only [hsc sc rfl]
    simpa using hdet

theorem depart_eq (h : dst.toNat < 2 ^ 20) : depart dst v ord s =
    retire id (s.modHereR (fun R => { R with flying := R.flying ++ [sentWord dst v ord s] })) := by
  rw [depart, sendUnit_eq, sendChan_eq h]; rfl

section Room
variable (hm : MaySend (rv s b) s) (hroom : chanLoad s.hereR ((rv s b).toNat % 2 ^ 16) ((rv s b).toNat / 2 ^ 16) < 4)
include hm hroom

theorem chanLoad_not_full : ¬ 4 ≤ chanLoad s.hereR (bits (rv s b).toNat 15 0) (bits (rv s b).toNat 19 16) := by
  rw [sendUnit_eq, sendChan_eq hm.1]
  exact Nat.not_le.mpr hroom

theorem send_gives (h : Issues g [a, b] [] s) : Gives (.send g a b) s
    (retire id (s.modHereR (fun R => { R with flying := R.flying ++ [sentWord (rv s b) (rv s a) false s] }))) := by
  have hfault : sendFault (rv s b) none s = none := sendFault_eq_none hm fun _ e => nomatch e
  show execSend g a b s = _
  rw [execSend, issue_of_issues h]
  simp only [hfault, if_neg (chanLoad_not_full hm hroom), depart_eq hm.1]
theorem sendRel_gives (h : Issues g [a, b] [] s) (hsc : inScope sc s.cur.unit ((rv s b).toNat % 2 ^ 16) = true) (hp : s.here.prog = .published) :
    Gives (.sendRel g a b sc) s
      (retire id (s.modHereR (fun R => { R with flying := R.flying ++ [sentWord (rv s b) (rv s a) true s] }))) := by
  have hfault : sendFault (rv s b) (some sc) s = none := sendFault_eq_none hm fun _ e => Option.some.inj e ▸ hsc
  show execSendRel g a b sc s = _
  rw [execSendRel, issue_of_issues h]
  simp only [hfault, if_neg (chanLoad_not_full hm hroom), hp, if_true, depart_eq hm.1]

end Room

end Send

/-! ### A word arrives, a publish ends (R113, R120) -/

/-- The core after a word has arrived on channel `j`: slots that wait for one are runnable (R72). -/
def Core.arrived (j : Nat) (x : Word × Bool) (c : Core) : Core :=
  { c.setChan j { c.chan j with words := (c.chan j).words ++ [x] } with slots := c.slots.map (fun p => (p.1, p.2.heard j)) }
/-- The region after the `k`-th word on its way has arrived. -/
def Region.arrived (k : Nat) (f : Flying) (R : Region) : Region :=
  { R with flying := R.flying.eraseIdx k }.setCore f.u ((R.core f.u).arrived f.c (f.data, f.ord))

section Arrival
variable {r k u : Nat} {f : Flying} {s : State}

theorem channelWordArrival_gives (hr : (s.region r).halt = false) (hf : (s.region r).flying[k]? = some f)
    (hfirst : ∀ e ∈ (s.region r).flying.take k, ¬ (e.u = f.u ∧ e.c = f.c ∧ e.su = f.su ∧ e.ss = f.ss)) :
    Gives (.channelWordArrival r k) s (s.setRegion r ((s.region r).arrived k f)) := by
  have hnone : ((s.region r).flying.take k).any
      (fun e => decide (e.u = f.u) && decide (e.c = f.c) && decide (e.su = f.su) && decide (e.ss = f.ss)) = false := by
    rw [List.any_eq_false]
    intro e he hsame
    simp only [Bool.and_eq_true, decide_eq_true_eq, and_assoc] at hsame
    exact hfirst e he hsame
  show execChannelWordArrival r k s = _
  rw [execChannelWordArrival, if_neg (by rw [hr]; exact Bool.false_ne_true)]
  simp only [hf]
  rw [if_neg (by rw [hnone]; exact Bool.false_ne_true), listDrop_eq_eraseIdx]
  rfl

theorem core_arrived {v : Nat} {R : Region} : (R.arrived k f).core v = if v = f.u then (R.core f.u).arrived f.c (f.data, f.ord) else R.core v :=
  Region.core_setCore ..

theorem publishComplete_gives (hr : (s.region r).halt = false) : Gives (.publishComplete r u k) s (s.setRegion r
    { s.region r with publishes := (s.region r).publishes.filter (fun q => ¬ (q.unit = u ∧ q.slot = k)) }) := by
  have hfilter : ∀ q : Publish, (!(decide (q.unit = u) && decide (q.slot = k))) = decide ¬ (q.unit = u ∧ q.slot = k) := fun q => by simp
  show execPublishComplete r u k s = _
  simp only [execPublishComplete, hr, Bool.false_eq_true, if_false, hfilter, nx]

end Arrival

/-- Settles O11: the lemma of each word and event, at the condition of its clause. -/
theorem channelWords : Obligations.ChannelWords := by
  intro g d p j a b sc s
  refine ⟨fun h hb => ⟨fun v ord rest hw => ⟨peek_gives hb h hw, _, recv_gives hb h hw, received⟩,
      fun hw => ⟨recv_waits hb h hw, peek_waits hb h hw⟩⟩,
    fun h hb => peekQ_gives hb h, fun h => ?send,
    fun r k f hr hf hfirst => ⟨_, channelWordArrival_gives hr hf hfirst, ?words, ?flying, fun v hv => ?others⟩,
    fun r u k hr => ⟨_, publishComplete_gives hr, by rw [State.region_setRegion_same]⟩⟩
  case send =>
    intro dst hm hroom
    exact ⟨send_gives hm hroom h, sendRel_gives hm hroom h⟩
  case words =>
    rw [State.core, State.region_setRegion_same, core_arrived, if_pos rfl]
    exact congrArg Chan.words (Core.chan_setChan_same ..)
  case flying => rw [State.region_setRegion_same]; rfl
  case others => rw [State.core, State.region_setRegion_same, core_arrived, if_neg hv]; rfl

end Sys2Proof.Machine

end

section

namespace Sys2Proof

open Machine

/-! ## Words written out in the spec (O57) -/

/-- Settles O57: each word is the encoding of the instruction beside it, and decoding gives an encoded instruction back. -/
theorem decodesSpecWords : Obligations.DecodesSpecWords := by
  unfold Obligations.DecodesSpecWords
  and_intros <;> exact decode_of_encode (by decide) (by decide)

end Sys2Proof

end

section

namespace Sys2Proof.Machine

open Sys2Proof.Claims

/-! ## What the element operations compute (O22, O23)

Each operation of the model starts a firing that computes a function of the operands it has gathered. The claims write that function out
in terms of their own (`laneOf`, `beatOf`, `beatsOf`, `movedBeat`), which are by definition the model's `vRound`, `outElems`, `outBeats` and
`outMoved`; what is left to say, once for all of them, is what the start of a firing does. -/

/-- An instruction whose meaning is the start of a firing starts it where the stage may fire, and does nothing else (R77, R78). -/
theorem starts_of_exec {i : Instr} {op : Nat} {v : VWord} {f : FireIn → FireOut} {s : State} (h : exec i s = fireStage op v f s) :
    Starts i op v f s := by
  refine ⟨fun hfire => ?_, fun hidle => ?_⟩
  · rw [Gives, h, fireStage, if_pos hfire, nx]
  · rw [Gives, h, fireStage, if_neg (Bool.eq_false_iff.mp hidle), nx]

/-- Settles O22: each operation starts the firing of the function that the claim writes out. -/
theorem vectorArithmetic : Obligations.VectorArithmetic := by
  intro v s
  refine ⟨?vadd, ?vsub, ?vmul, ?vfma, ?vabs, ?vneg, ?vmin, ?vmax, ?vminp, ?vmaxp, ?vclamp, ?vcvt, ?vscale, ?vsf, ?vsum, ?vscan, ?vnrwStream⟩
  all_goals exact starts_of_exec rfl

/-- Settles O23: so does each of these. -/
theorem vectorMoves : Obligations.VectorMoves := by
  intro v s
  refine ⟨?vand, ?vor, ?vxor, ?vshl, ?vshr, ?vsra, ?vcmp, ?vsel, ?vperm, ?vperm2, ?vbcast, ?vslide, ?vtap, ?vexpand, ?vcompress, ?vsteer, ?vmerge,
    ?vmov, ?vamax, ?vmac, ?vdot4, ?vnrw⟩
  all_goals exact starts_of_exec rfl

end Sys2Proof.Machine

end

section

namespace Sys2Proof.Machine

open Sys2Proof.Claims

/-! ## The course of a chain (O31)

CHAIN_START and CHAIN_END put one region back: with its core's queue and template changed, and with beats pushed on output ports or popped at
input ports. What pushing and popping do to the arcs is said for lists of ports, what putting a region with one core back does is said once,
and each clause reads its fields off. -/

/-! ### The ports of a chain (R157) -/

theorem nodup_uniq (l : List Nat) : (uniq l).Nodup := by
  induction l with
  | nil => exact .nil
  | cons x t ih =>
    rw [uniq, List.foldr_cons]
    split
    · exact ih
    · next h => exact ih.cons (mt List.contains_iff_mem.mpr h)

theorem Chain.nodup_ports {T : Template} {q : Chain} : (q.ports T).Nodup := (nodup_uniq _).filter _

/-- A chain's markers go to each port once: distinct stream fields are distinct ports. -/
theorem nodup_chainOuts {T : Template} {q : Chain} : (chainOuts T q).Nodup := by
  unfold chainOuts
  split
  · refine (Chain.nodup_ports.filter _).map_on fun f hf g hg h => ?_
    have hf4 := of_decide_eq_true (List.mem_filter.mp hf).2
    have hg4 := of_decide_eq_true (List.mem_filter.mp hg).2
    omega
  · exact .nil

theorem nodup_chainResidents {T : Template} {q : Chain} {p : Nat} : (chainResidents T q p).Nodup := Chain.nodup_ports.filter _

theorem mem_chainResidents {T : Template} {q : Chain} {p f : Nat} :
    f ∈ chainResidents T q p ↔ f ∈ q.ports T ∧ f < 4 ∧ f ≠ p ∧ ∃ st ∈ T.stages, st.resident f = true := by
  simp only [chainResidents, List.mem_filter, Bool.and_eq_true, decide_eq_true_eq, bne_iff_ne, List.any_eq_true, and_assoc]

/-! ### Pushing the same beats on several output ports (R157, R195) -/

/-- The region once these ports have delivered beats. -/
def pushedOuts (u : Nat) (bs : List Beat) (ps : List Nat) (R : Region) : Region := ps.foldl (fun R p => R.pushOut u p bs) R

section PushedOuts
variable {R : Region} {u p k : Nat} {bs : List Beat} {ps : List Nat} {a : Arc}

theorem cores_pushedOuts : (pushedOuts u bs ps R).cores = R.cores :=
  List.foldlRecOn (motive := fun R' : Region => R'.cores = R.cores) _ _ rfl fun _ h _ _ => h

/-- An arc has one producer port. -/
theorem arcFrom_port {x : Route} (h : arcFrom u p k x = true) (q : Nat) : arcFrom u q k x = true ↔ q = p := by
  simp only [arcFrom, Bool.and_eq_true, decide_eq_true_eq] at h ⊢
  obtain ⟨⟨⟨hcl, hkind⟩, hidx⟩, hport⟩ := h
  exact ⟨fun h' => h'.2.symm.trans hport, fun e => ⟨⟨⟨hcl, hkind⟩, hidx⟩, hport.trans e.symm⟩⟩

/-- What the arcs of port `p` take of beats pushed on each of several ports. -/
theorem find_pushedOuts (hps : ps.Nodup) (ha : Assoc.find k R.arcs = some a) (hfrom : arcFrom u p k a.route = true) :
    ∃ a', Assoc.find k (pushedOuts u bs ps R).arcs = some a' ∧
      a'.inbox = a.inbox ++ (if p ∈ ps then bs else []).map (fun b => { beat := b, scale := R.emitScale u }) := by
  induction ps generalizing R a with
  | nil => exact ⟨a, ha, (List.append_nil _).symm⟩
  | cons q ps ih =>
    obtain ⟨hq, hps⟩ := List.nodup_cons.mp hps
    by_cases hqp : q = p
    · subst hqp
      obtain ⟨a', ha', hin⟩ := ih (R := R.pushOut u q bs) hps (find_pushOut ha) (by rw [if_pos hfrom]; exact hfrom)
      refine ⟨a', ha', hin.trans ?_⟩
      rw [if_neg hq, if_pos List.mem_cons_self, if_pos hfrom, List.map_nil, List.append_nil]
    · have hno : ¬ arcFrom u q k a.route = true := mt (arcFrom_port hfrom q).mp hqp
      obtain ⟨a', ha', hin⟩ := ih (R := R.pushOut u q bs) hps (by rw [find_pushOut ha, if_neg hno]) hfrom
      refine ⟨a', ha', hin.trans ?_⟩
      simp only [List.mem_cons, Ne.symm hqp, false_or]
      rfl

end PushedOuts

/-! ### Popping at several input ports (R80, R174) -/

/-- The region once the head beat of each of these inputs has been popped. -/
def poppedHeads (u : Nat) (fs : List Nat) (R : Region) : Region := fs.foldl (fun R f => R.popIn u f 1) R

section Popped
variable {R : Region} {u p f n k : Nat} {fs : List Nat} {a : Arc}

theorem cores_poppedHeads : (poppedHeads u fs R).cores = R.cores :=
  List.foldlRecOn (motive := fun R' : Region => R'.cores = R.cores) _ _ rfl fun _ h _ _ => cores_popIn.trans h
theorem sorted_poppedHeads (hs : Assoc.sorted R.arcs = true) : Assoc.sorted (poppedHeads u fs R).arcs = true :=
  List.foldlRecOn (motive := fun R' : Region => Assoc.sorted R'.arcs = true) _ _ hs fun _ h _ _ => sorted_popIn h

theorem dport_of_inArc (h : R.inArc u p = some (k, a)) : a.route.dport = p := by
  have hroute := List.find?_some h
  simp only [Bool.and_eq_true, decide_eq_true_eq] at hroute
  exact hroute.2

theorem inArc_popIn_same (hs : Assoc.sorted R.arcs = true) (h : R.inArc u p = some (k, a)) :
    (R.popIn u p n).inArc u p = some (k, a.pop n) := by
  have hpop : R.popIn u p n = R.setArc k (a.pop n) := by simp only [Region.popIn, h]
  rw [hpop, inArc_setArc (a' := a.pop n) hs (find_of_inArc hs h) rfl, h, Option.map_some, Assoc.replaceAt, if_pos rfl]
theorem inArc_popIn_other (hs : Assoc.sorted R.arcs = true) (hf : p ≠ f) (h : R.inArc u p = some (k, a)) :
    (R.popIn u f n).inArc u p = some (k, a) := by
  cases hin : R.inArc u f with
  | none =>
    have hpop : R.popIn u f n = R := by simp only [Region.popIn, hin]
    rw [hpop, h]
  | some e =>
    obtain ⟨j, b⟩ := e
    have hpop : R.popIn u f n = R.setArc j (b.pop n) := by simp only [Region.popIn, hin]
    have hkj : k ≠ j := by
      rintro rfl
      have hab : a = b := Option.some.inj ((find_of_inArc hs h).symm.trans (find_of_inArc hs hin))
      exact hf ((dport_of_inArc h).symm.trans (hab ▸ dport_of_inArc hin))
    rw [hpop, inArc_setArc (a' := b.pop n) hs (find_of_inArc hs hin) rfl, h, Option.map_some, Assoc.replaceAt, if_neg hkj]

theorem inArc_poppedHeads_of_not_mem (hs : Assoc.sorted R.arcs = true) (hp : p ∉ fs) (h : R.inArc u p = some (k, a)) :
    (poppedHeads u fs R).inArc u p = some (k, a) := by
  induction fs generalizing R with
  | nil => exact h
  | cons f fs ih =>
    obtain ⟨hne, hp⟩ := not_or.mp (mt List.mem_cons.mpr hp)
    exact ih (R := R.popIn u f 1) (sorted_popIn hs) hp (inArc_popIn_other hs hne h)
theorem inArc_poppedHeads_of_mem (hs : Assoc.sorted R.arcs = true) (hfs : fs.Nodup) (hp : p ∈ fs) (h : R.inArc u p = some (k, a)) :
    (poppedHeads u fs R).inArc u p = some (k, a.pop 1) := by
  induction fs generalizing R with
  | nil => nomatch hp
  | cons f fs ih =>
    obtain ⟨hf, hfs⟩ := List.nodup_cons.mp hfs
    by_cases hpf : p = f
    · subst hpf
      exact inArc_poppedHeads_of_not_mem (R := R.popIn u p 1) (sorted_popIn hs) hf (inArc_popIn_same hs h)
    · exact ih (R := R.popIn u f 1) (sorted_popIn hs) hfs ((List.mem_cons.mp hp).resolve_left hpf) (inArc_popIn_other hs hpf h)

end Popped

/-! ### A region that is put back with one core changed -/

section PutBack
variable {r u v : Nat} {R : Region} {c : Core} {s : State}

theorem Region.core_congr {R' : Region} (h : R'.cores = R.cores) : R'.core u = R.core u := by rw [Region.core, Region.core, h]

theorem core_putBack : (s.setRegion r (R.setCore u c)).core r u = c := by
  rw [State.core, State.region_setRegion_same, Region.core_setCore_same]
theorem slotsKept_putBack (hR : R.cores = (s.region r).cores) (hc : c.slots = (s.core r u).slots) :
    SlotsKept r s (s.setRegion r (R.setCore u c)) := by
  refine ⟨fun v => ?_, rfl, rfl⟩
  rw [State.core, State.region_setRegion_same, Region.core_setCore]
  split
  · next e => rw [hc, e]
  · rw [Region.core_congr hR]
    rfl
/-- A beat pushed on each of several ports has reached the arcs of those ports and no other's. -/
theorem portsTook_putBack {ps : List Nat} {bs : List Beat} (hps : ps.Nodup) :
    PortsTook r u (fun p => if p ∈ ps then bs else []) s (s.setRegion r ((pushedOuts u bs ps (s.region r)).setCore u c)) := by
  intro p e a ha hfrom
  rw [State.region_setRegion_same]
  exact find_pushedOuts hps ha hfrom

end PutBack

/-! ### CHAIN_START (R157) -/

section Start
variable {r u k : Nat} {q : Chain} {s : State}

theorem cores_unlatchAll {ps : List Nat} {R : Region} : (R.unlatchAll u ps).cores = R.cores :=
  List.foldlRecOn (motive := fun R' : Region => R'.cores = R.cores) _ _ rfl fun _ h _ _ => cores_unlatch.trans h

/-- The core once chain `k` of its queue has started. -/
def Core.chainStarted (k : Nat) (q : Chain) (c : Core) : Core :=
  { c with chains := listSet k { q with running := true } c.chains,
           templates := Assoc.put q.tmpl (Assoc.get default q.tmpl c.templates).restart c.templates }
/-- The state then: the header latches of its port streams are open again. -/
def chainStarted (r u k : Nat) (q : Chain) (s : State) : State :=
  s.modRegion r (fun R => (R.setCore u ((s.core r u).chainStarted k q)).unlatchAll u
    ((q.ports (Assoc.get default q.tmpl (s.core r u).templates)).filter (fun f => decide (f < 4))))

theorem core_chainStarted : (chainStarted r u k q s).core r u = (s.core r u).chainStarted k q := by
  rw [State.core, chainStarted, State.region_modRegion_same, Region.core_congr cores_unlatchAll, Region.core_setCore_same]

theorem chainStart_gives (hh : (s.region r).halt = false) (hp : (s.region r).preempt = none) (hq : (s.core r u).chains[k]? = some q)
    (hrun : q.running = false) (hbefore : ∀ p ∈ (s.core r u).chains.take k, p.running = true)
    (hmeet : ∀ p ∈ (s.core r u).chains, p.running = true → chainsMeet (s.core r u) q p = false) :
    Gives (.chainStart r u k) s (chainStarted r u k q s) := by
  have hq' : ((s.region r).core u).chains[k]? = some q := hq
  have hbefore' : (((s.region r).core u).chains.take k).all (fun p => p.running) = true := List.all_eq_true.mpr hbefore
  have hmeet' : ((s.region r).core u).chains.any (fun p => p.running && chainsMeet ((s.region r).core u) q p) = false := by
    rw [List.any_eq_false]
    intro p hp hand
    obtain ⟨hprun, hpmeet⟩ := Bool.and_eq_true_iff.mp hand
    exact Bool.false_ne_true ((hmeet p hp hprun).symm.trans hpmeet)
  show execChainStart r u k s = _
  simp only [execChainStart, Region.frozen, hh, hp, hq', hrun, hbefore', hmeet', Bool.or_self, Bool.not_true, Bool.false_eq_true, if_false, nx]
  rfl

end Start

/-! ### CHAIN_END (R157, R158) -/

/-- The conditions under which a chain may end: it runs, and no stage has a firing. -/
structure ChainEnding (r u k : Nat) (T : Template) (q : Chain) (s : State) : Prop where
  halt : (s.region r).halt = false
  preempt : (s.region r).preempt = none
  errors : s.errors = []
  queued : (s.core r u).chains[k]? = some q
  template : Assoc.get default q.tmpl (s.core r u).templates = T
  running : q.running = true
  quiet : ∀ st ∈ T.stages, st.firing = none

theorem chainDone_iff {c : Core} {T : Template} {q : Chain} :
    chainDone c T q = true ↔ ∀ j x, T.stage j = some x → stageTotal c.modes T j q.n ≤ x.pos := by
  rw [chainDone, List.all_eq_true]
  refine ⟨fun h j x hx => ?_, fun h j _ => ?_⟩
  · have hj : j ∈ List.range' 1 T.stages.length := by
      have hne := stage_ne_zero hx
      rw [Template.stage, if_neg hne] at hx
      obtain ⟨hlt, -⟩ := List.getElem?_eq_some_iff.mp hx
      rw [List.mem_range'_1]
      omega
    have hdone := h j hj
    rw [hx] at hdone
    exact of_decide_eq_true hdone
  · cases hx : T.stage j with
    | none => rfl
    | some x => exact decide_eq_true (h j x hx)

/-- The stage at whose input the marker stands that ends a chain short. -/
theorem exists_of_eoiPort {R : Region} {u p n : Nat} {T : Template} {q : Chain} (h : eoiPort R u T q = some (p, n)) :
    ∃ st ∈ T.stages, (inPorts st.word).contains p = true ∧ stageMarkAt R u st p = n := by
  obtain ⟨st, hst, hmem⟩ := List.mem_flatMap.mp (List.mem_of_find?_eq_some h)
  obtain ⟨f, hf, heq⟩ := List.mem_map.mp hmem
  cases heq
  exact ⟨st, hst, List.contains_iff_mem.mpr (List.mem_filter.mp hf).1, rfl⟩

section Ending
variable {r u k p n : Nat} {T : Template} {q : Chain} {st : Stage} {s : State}

section Move
variable (h : ChainEnding r u k T q s)
include h

/-- The move of a chain that may end: the end or a kept-back beat once it is done, else the cut at a marker that nothing can still reach. -/
theorem exec_chainEnd : exec (.chainEnd r u k) s = .next (
    if q.short || chainDone (s.core r u) T q then (if q.kept.isEmpty then endChain r u k T q s else sendKept r u k q s)
    else (eoiPort (s.region r) u T q).elim s (fun x => if chainAlive r u T q s then s else cutShort r u k T q x.1 x.2 s)) := by
  have hq : ((s.region r).core u).chains[k]? = some q := h.queued
  have hT : Assoc.get default q.tmpl ((s.region r).core u).templates = T := h.template
  have hquiet : T.stages.any (fun st => st.firing.isSome) = false := by simpa [List.any_eq_false] using h.quiet
  show execChainEnd r u k s = _
  simp only [execChainEnd, Region.frozen, h.halt, h.preempt, hq, hT, h.running, hquiet, Bool.or_self, Bool.not_true, Bool.false_eq_true,
    if_false, nx, apply_ite Host.Outcome.next]
  cases eoiPort (s.region r) u T q with
  | none => rfl
  | some x => exact if_congr Iff.rfl rfl (apply_ite Host.Outcome.next _ _ _).symm

theorem chainEnd_gives_of_done (hdone : q.short = true ∨ ∀ j x, T.stage j = some x → stageTotal (s.core r u).modes T j q.n ≤ x.pos) :
    Gives (.chainEnd r u k) s (if q.kept.isEmpty then endChain r u k T q s else sendKept r u k q s) := by
  have hends : (q.short || chainDone (s.core r u) T q) = true := Bool.or_eq_true_iff.mpr (hdone.imp_right chainDone_iff.mpr)
  rw [Gives, exec_chainEnd h, if_pos hends]

theorem chainEnd_gives_of_marker (hshort : q.short = false)
    (hleft : ∃ j x, T.stage j = some x ∧ x.pos < stageTotal (s.core r u).modes T j q.n) (hmark : eoiPort (s.region r) u T q = some (p, n))
    (hdead : chainAlive r u T q s = false) : Gives (.chainEnd r u k) s (cutShort r u k T q p n s) := by
  have hnot : chainDone (s.core r u) T q = false := by
    obtain ⟨j, x, hx, hlt⟩ := hleft
    exact Bool.eq_false_iff.mpr fun hdone => Nat.not_le.mpr hlt (chainDone_iff.mp hdone j x hx)
  rw [Gives, exec_chainEnd h, hshort, hnot, Bool.or_self, if_neg Bool.false_ne_true, hmark, Option.elim_some, hdead, if_neg Bool.false_ne_true]

end Move

/-! #### A beat that was kept back (R286) -/

theorem beatLeft_sendKept {x : Nat × Beat} (hx : q.kept.find? (fun x => (s.region r).roomOut u x.1 1) = some x) :
    BeatLeft r u k q x s (sendKept r u k q s) := by
  have heq : sendKept r u k q s = s.setRegion r ((pushedOuts u [if q.short then x.2 else x.2.withEor] [x.1] (s.region r)).setCore u
      { s.core r u with chains := listSet k { q with kept := List.erase q.kept x } (s.core r u).chains }) := by
    simp only [sendKept, hx]
    rfl
  rw [heq]
  refine ⟨by rw [core_putBack], slotsKept_putBack cores_pushedOuts rfl, ?_⟩
  show PortsTook r u (fun p => if p = x.1 then [if q.short then x.2 else x.2.withEor] else []) s _
  simpa only [List.mem_singleton] using portsTook_putBack (List.nodup_singleton x.1)

/-! #### The end (R157, R158) -/

/-- The core once chain `k` of its queue has ended, its first stage at position `pos`. -/
def Core.chainEnded (k : Nat) (q : Chain) (T : Template) (pos : Nat) (c : Core) : Core :=
  { c with chains := listDrop k c.chains,
           templates := Assoc.put q.tmpl { T with stages := T.stages.map (fun st => { st with served := [], firing := none }), arcs := [] } c.templates,
           ended := Assoc.put q.ticket (chainStatus pos q.short q.flags) c.ended }

theorem endChain_eq (hst : T.stage 1 = some st) (hroom : ∀ p ∈ chainOuts T q, (s.region r).roomOutMark u p = true) :
    endChain r u k T q s = s.setRegion r ((pushedOuts u [eoiBeat] (chainOuts T q) (s.region r)).setCore u
      ((s.core r u).chainEnded k q T st.pos)) := by
  have hroom' : (chainOuts T q).all ((s.region r).roomOutMark u) = true := List.all_eq_true.mpr hroom
  have hcore : (pushedOuts u [eoiBeat] (chainOuts T q) (s.region r)).core u = s.core r u := Region.core_congr cores_pushedOuts
  rw [← hcore]
  simp only [endChain, hroom', hst, Bool.not_true, Bool.false_eq_true, if_false]
  rfl

theorem chainEnded_endChain (hst : T.stage 1 = some st) (hroom : ∀ p ∈ eoiOuts T q, (s.region r).roomOutMark u p = true) :
    ChainEnded r u k T q st s (endChain r u k T q s) := by
  rw [endChain_eq hst hroom]
  refine ⟨by rw [core_putBack]; rfl, slotsKept_putBack cores_pushedOuts rfl, ?_, portsTook_putBack nodup_chainOuts⟩
  rw [core_putBack, Core.chainEnded, Assoc.get_put_same, chainStatus, toWord, b2n, ite_mul, one_mul, zero_mul]

/-! #### Short, at a marker (R80, R157, R174) -/

/-- The core once chain `k` of its queue has been cut short. -/
def Core.chainCut (k : Nat) (q : Chain) (T : Template) (c : Core) : Core :=
  { c with chains := listSet k { q with short := true, held := [] } c.chains,
           templates := Assoc.put q.tmpl { T with stages := T.stages.map (fun st => { st with served := [] }) } c.templates }
/-- The region's inputs then: the marker at place `n` of port `p` has been popped, and the resident token of every other port. -/
def cutInputs (u : Nat) (T : Template) (q : Chain) (p n : Nat) (R : Region) : Region := poppedHeads u (chainResidents T q p) (R.popIn u p (n + 1))

theorem cores_cutInputs {R : Region} : (cutInputs u T q p n R).cores = R.cores := cores_poppedHeads.trans cores_popIn

/-- A stage at whose input the marker stands judges the headers before it. -/
theorem cutShort_eq (he : s.errors = []) (hmark : eoiPort (s.region r) u T q = some (p, n)) :
    ∃ st ∈ T.stages, (inPorts st.word).contains p = true ∧ cutShort r u k T q p n s =
      if markHeadersOk (s.region r) u st [p] then s.setRegion r ((cutInputs u T q p n (s.region r)).setCore u ((s.core r u).chainCut k q T))
      else raise r (firingRec 0x03 u q.tmpl st) s := by
  obtain ⟨x, hx, hpx, hnx⟩ := exists_of_eoiPort hmark
  cases hfind : T.stages.find? (fun st => (inPorts st.word).contains p && decide (stageMarkAt (s.region r) u st p = n)) with
  | none =>
    refine absurd (List.find?_eq_none.mp hfind x hx) ?_
    simp [hnx, List.contains_iff_mem.mp hpx]
  | some st =>
    have hmatch := List.find?_some hfind
    obtain ⟨hp, -⟩ := Bool.and_eq_true_iff.mp hmatch
    refine ⟨st, List.mem_of_find?_eq_some hfind, hp, ?_⟩
    have hcore : (cutInputs u T q p n (s.region r)).core u = s.core r u := Region.core_congr cores_cutInputs
    rw [← hcore]
    simp only [cutShort, hfind, fifosChk_clean he]
    cases markHeadersOk (s.region r) u st [p] <;> rfl

theorem cutShort_of_headers (he : s.errors = []) (hs : Assoc.sorted (s.region r).arcs = true)
    (hmark : eoiPort (s.region r) u T q = some (p, n)) (hok : ∀ x ∈ T.stages, markHeadersOk (s.region r) u x [p] = true) :
    CutShort r u k T q p n s (cutShort r u k T q p n s) := by
  obtain ⟨st, hst, -, heq⟩ := cutShort_eq (k := k) he hmark
  rw [heq, if_pos (hok st hst)]
  have hs' : Assoc.sorted ((s.region r).popIn u p (n + 1)).arcs = true := sorted_popIn hs
  refine ⟨by rw [core_putBack]; rfl, slotsKept_putBack cores_cutInputs rfl, fun e a hin => ?_, fun f hf hf4 hfp hres e a hin => ?_⟩
  · have hp : p ∉ chainResidents T q p := fun h => (mem_chainResidents.mp h).2.2.1 rfl
    have hin' := inArc_poppedHeads_of_not_mem hs' hp (inArc_popIn_same hs hin)
    rw [State.region_setRegion_same]
    exact ⟨_, find_of_inArc (sorted_poppedHeads hs') hin', rfl⟩
  · have hf' : f ∈ chainResidents T q p := mem_chainResidents.mpr ⟨hf, hf4, hfp, hres⟩
    have hin' := inArc_poppedHeads_of_mem hs' nodup_chainResidents hf' (inArc_popIn_other hs hfp hin)
    rw [State.region_setRegion_same]
    exact ⟨_, find_of_inArc (sorted_poppedHeads hs') hin', rfl⟩

end Ending

/-- Settles O31: the start, the end with its kept-back beats, and the cut at a marker, each read off the state that the move gives. -/
theorem chainCourse : Obligations.ChainCourse := by
  intro r u k q s hh hp he hq c T
  refine ⟨fun hrun hbefore hmeet => ?start, fun hrun hquiet hs => ?ending⟩
  case start =>
    obtain ⟨hlt, -⟩ := List.getElem?_eq_some_iff.mp hq
    refine ⟨_, chainStart_gives hh hp hq hrun hbefore hmeet, ?_, fun i hi => ?_, ?_, ?_⟩
    · rw [core_chainStarted, Core.chainStarted, listSet_eq_set, List.getElem?_set_self hlt]
    · rw [core_chainStarted, Core.chainStarted, listSet_eq_set, List.getElem?_set_ne (Ne.symm hi)]
    · rw [core_chainStarted, Core.chainStarted]
    · exact ⟨T.restart, by rw [core_chainStarted, Core.chainStarted, Assoc.find_put_same], rfl, rfl, rfl⟩
  case ending =>
    have hend : ChainEnding r u k T q s := ⟨hh, hp, he, hq, rfl, hrun, hquiet⟩
    refine ⟨fun hdone => ⟨fun x hx => ?kept, fun st hst hkept hroom => ?ended⟩, fun p n hshort hleft hmark hdead => ?marker⟩
    case kept =>
      have hne : ¬ q.kept.isEmpty = true := fun hempty => by
        rw [List.isEmpty_iff.mp hempty] at hx
        nomatch hx
      exact ⟨_, (chainEnd_gives_of_done hend hdone).trans (by rw [if_neg hne]), beatLeft_sendKept hx⟩
    case ended => exact ⟨_, (chainEnd_gives_of_done hend hdone).trans (by rw [hkept]; rfl), chainEnded_endChain hst hroom⟩
    case marker =>
      have hgives := chainEnd_gives_of_marker hend hshort hleft hmark hdead
      refine ⟨fun hok => ⟨_, hgives, cutShort_of_headers he hs hmark hok⟩, fun hbad => ?_⟩
      obtain ⟨x, hx, hpx, heq⟩ := cutShort_eq (k := k) he hmark
      rw [if_neg (Bool.eq_false_iff.mp (hbad x hx hpx))] at heq
      exact ⟨x, hx, heq ▸ hgives⟩

end Sys2Proof.Machine

end

section

namespace Sys2Proof.Machine

open Sys2Proof.Claims

/-! ## Local stores (O15), stores through the phase buffer (O16), loads (O17)

### Addresses and bytes (R2, R167, R213) -/

theorem sizeBytes_cases (z : Size) : sizeBytes z = 1 ∨ sizeBytes z = 2 ∨ sizeBytes z = 4 ∨ sizeBytes z = 8 := by cases z <;> decide
theorem sizeBytes_pos (z : Size) : 0 < sizeBytes z := by cases z <;> decide

/-- The bound of `addrBad` is that of an access's first byte, the bound of `Fits` that of its end. -/
theorem addrBad_of_fits {i : Int} {n top last : Nat} (h : Fits i n top) (hlast : top ≤ last + n) : addrBad i n last = false := by
  obtain ⟨h0, hend, hmod⟩ := h
  have hlo : ¬ i < 0 := by omega
  have hhi : ¬ (last : Int) < i := by omega
  simp [addrBad, hlo, hhi, hmod]

/-- An aligned access lies in one 8-byte word. -/
theorem inWord_of_fits {i : Int} {z : Size} {top : Nat} (h : Fits i (sizeBytes z) top) : i.toNat % 8 + sizeBytes z ≤ 8 := by
  obtain ⟨h0, -, hmod⟩ := h
  rcases sizeBytes_cases z with e | e | e | e <;> rw [e] at hmod ⊢ <;> omega

@[simp] theorem length_bytesLE (n x : Nat) : (bytesLE n x).length = n := by
  induction n generalizing x with
  | zero => rfl
  | succ n ih => rw [bytesLE, List.length_cons, ih]

theorem getElem_bytesLE {n x i : Nat} (h : i < (bytesLE n x).length) : (bytesLE n x)[i] = BitVec.ofNat 8 (x / 2 ^ (8 * i)) := by
  induction n generalizing x i with
  | zero => exact absurd h (Nat.not_lt_zero i)
  | succ n ih =>
    cases i with
    | zero => simp [bytesLE]
    | succ i =>
      simp only [bytesLE, List.getElem_cons_succ, ih]
      rw [Nat.div_div_eq_div_mul, Nat.mul_succ, Nat.pow_add, Nat.mul_comm]

/-- What has been written from `a` upwards reads back. -/
theorem VMem.reads_writes_same {now a : Nat} {bs : List Byte} {m : VMem} : (m.writes now a bs).reads a bs.length = bs := by
  refine List.ext_getElem (by simp [VMem.reads]) fun i hi hi' => ?_
  simp only [VMem.reads, List.getElem_map, List.getElem_range]
  rw [VMem.read_writes_at bs m i hi', List.getD_eq_getElem bs 0 hi']

/-! ### Local stores (R165 to R168, R175) -/

section Local
variable {g : Guard} {x base : Reg} {l : LoadOp} {m : StoreOp} {s : State}

theorem readChk_clean {r code unit lo hi address : Nat} {y : StopRec} {k : State → State} (h : ∀ e ∈ s.errors, e.code ≠ code) :
    readChk r code unit lo hi address y k s = k s := readChkBy_clean h

theorem ldl_gives (hu : OnCompute s) (h : Issues g (loadSrcs base l) [x] s) (he : s.errors = [])
    (hfits : Fits (effAddr (s.here.rd base) l.off) (sizeBytes l.size) 0x10000) :
    Gives (.ldl g x base l) s (done x (extend l.sx (s.lmem.reads
      (lKey s.cur.region s.cur.unit (effAddr (s.here.rd base) l.off).toNat) (sizeBytes l.size))) s) := by
  have hin : addrBad (loadAddr base l s) (sizeBytes l.size) (0x10000 - sizeBytes l.size) = false := addrBad_of_fits hfits (by omega)
  show execLdl g x base l s = _
  rw [execLdl, onCompute_of_compute hu, issue_of_issues h]
  simp only [hin, Bool.false_eq_true, if_false, readChk_clean (s := s) (by simp [he])]
  rfl

/-- The state after STL has stored its bytes at `a` of the issuing core's store. -/
def storedLocally (a : Nat) (bs : List Byte) (s : State) : State :=
  retire id ((s.lWrite s.cur.region s.cur.unit a bs).modHereC (Core.storedLocal s.cur.slot))

theorem stl_gives (hu : OnCompute s) (h : Issues g (storeSrcs x base m) [] s)
    (hfits : Fits (effAddr (s.here.rd base) m.off) (sizeBytes m.size) 0x10000) :
    Gives (.stl g x base m) s (storedLocally (effAddr (s.here.rd base) m.off).toNat (bytesLE (sizeBytes m.size) (s.here.rd x).toNat) s) := by
  have hin : addrBad (storeAddr base m s) (sizeBytes m.size) (0x10000 - sizeBytes m.size) = false := addrBad_of_fits hfits (by omega)
  show execStl g x base m s = _
  rw [execStl, onCompute_of_compute hu, issue_of_issues h]
  simp only [hin, Bool.false_eq_true, if_false]
  rfl

theorem reads_storedLocally_same {a n : Nat} {bs : List Byte} (hn : bs.length = n) :
    (storedLocally a bs s).lmem.reads (lKey s.cur.region s.cur.unit a) n = bs := by
  subst hn
  exact VMem.reads_writes_same

theorem read_storedLocally_other {a b : Nat} {bs : List Byte}
    (hb : b < lKey s.cur.region s.cur.unit a ∨ lKey s.cur.region s.cur.unit a + bs.length ≤ b) : (storedLocally a bs s).lmem.read b = s.lmem.read b :=
  VMem.read_writes_other _ _ (by omega)

theorem here_storedLocally {a : Nat} {bs : List Byte} : (storedLocally a bs s).here = s.here.next := by
  rw [storedLocally, retire_here, State.here_modHereC]
  rfl

end Local

/-- Settles O15: a load reads the store as it is; a store writes its bytes, which then read back, and no other byte. -/
theorem localStores : Obligations.LocalStores := by
  intro g x base l m s hu
  refine ⟨fun h he => ldl_gives hu h he, fun h => ?store⟩
  case store =>
    intro i n hfits
    have hlen : (bytesLE n (s.here.rd x).toNat).length = n := length_bytesLE ..
    exact ⟨_, stl_gives hu h hfits, here_storedLocally, reads_storedLocally_same hlen,
      fun a ha => read_storedLocally_other (hlen.symm ▸ ha), rfl, rfl, rfl, rfl⟩

/-! ### The words of a phase buffer (R169 to R171) -/

section Word
variable {w : PWord} {sp q : Space} {a b n : Nat} {v : Word} {l : List PWord}

/-- Bit `i` of a run of `n` ones above `k` zeros. -/
theorem getLsbD_ofNat_ones {m k i : Nat} (hi : i < m) :
    (BitVec.ofNat m ((2 ^ n - 1) * 2 ^ k)).getLsbD i = decide (k ≤ i ∧ i < k + n) := by
  rw [BitVec.getLsbD_ofNat, Nat.testBit_mul_two_pow, Nat.testBit_two_pow_sub_one, decide_eq_true hi, Bool.true_and, Bool.eq_iff_iff]
  simp only [Bool.and_eq_true, decide_eq_true_iff]
  omega

/-- Bit `j` of a byte of a word. -/
theorem getLsbD_byte {k j : Nat} (hj : j < 8) : (BitVec.ofNat 8 (v.toNat / 2 ^ k)).getLsbD j = v.getLsbD (k + j) := by
  rw [BitVec.getLsbD_ofNat, Nat.testBit_div_two_pow, decide_eq_true hj, Bool.true_and, Nat.add_comm]
  rfl

/-- A byte of a word, where a store has entered it. -/
theorem layByte_enter {i : Nat} {c : Byte} (hin : a % 8 + n ≤ 8) (hi : i < n) :
    layByte (w.enter a n v) (a % 8 + i) c = BitVec.ofNat 8 (v.toNat / 2 ^ (8 * i)) := by
  have hmask : (w.enter a n v).mask.getLsbD (a % 8 + i) = true := by
    rw [PWord.enter, BitVec.getLsbD_or, getLsbD_ofNat_ones (by omega), decide_eq_true (by omega), Bool.or_true]
  rw [layByte, if_pos hmask]
  refine BitVec.eq_of_getLsbD_eq fun j hj => ?_
  have hbit : 8 * (a % 8 + i) + j < 64 := by omega
  have hin' : 8 * (a % 8) ≤ 8 * (a % 8 + i) + j ∧ 8 * (a % 8 + i) + j < 8 * (a % 8) + 8 * n := by omega
  have hshift : 8 * (a % 8 + i) + j - 8 * (a % 8) = 8 * i + j := by omega
  rw [getLsbD_byte hj, getLsbD_byte hj, PWord.enter, BitVec.getLsbD_or, BitVec.getLsbD_and, BitVec.getLsbD_and, BitVec.getLsbD_not,
    getLsbD_ofNat_ones hbit, decide_eq_true hin', BitVec.getLsbD_shiftLeft, hshift, decide_eq_true hbit, decide_eq_false (Nat.not_lt.mpr hin'.1)]
  simp

/-- The bytes that a store has entered lie over whatever memory holds. -/
theorem layOver_enter {bs : List Byte} (hin : a % 8 + n ≤ 8) (hlen : bs.length = n) : layOver (w.enter a n v) a bs = bytesLE n v.toNat := by
  refine List.ext_getElem (by simp [layOver, hlen]) fun i hi hi' => ?_
  rw [length_bytesLE] at hi'
  simp only [layOver, List.getElem_map, List.getElem_range]
  rw [layByte_enter hin hi', getElem_bytesLE]

/-- The entry that `phaseWord` looks for. -/
def PWord.isAt (q : Space) (b : Nat) (w : PWord) : Bool := w.sp == q && w.addr == b

theorem phaseWord_eq : phaseWord q b l = (l.find? (PWord.isAt q b)).getD (PWord.none q b) := by
  show (match l.find? (PWord.isAt q b) with | some w => w | none => PWord.none q b) = _
  cases l.find? (PWord.isAt q b) <;> rfl

theorem isAt_enter : (w.enter a n v).isAt q b = w.isAt q b := rfl

/-- Where the buffer holds the word of a store, its bytes enter that word; else they enter a new one, where there is room (R170, R171). -/
theorem phaseStore_eq : phaseStore sp a n v l =
    if l.any (PWord.isAt sp (a / 8 * 8)) then some (l.map (fun w => if w.isAt sp (a / 8 * 8) then w.enter a n v else w))
    else if l.length < 2048 then some (l ++ [(PWord.none sp (a / 8 * 8)).enter a n v]) else none := rfl

theorem isAt_iff : w.isAt q b = true ↔ w.sp = q ∧ w.addr = b := by rw [PWord.isAt, Bool.and_eq_true, beq_iff_eq, beq_iff_eq]

theorem any_isAt : l.any (PWord.isAt q b) = true ↔ ∃ w ∈ l, w.sp = q ∧ w.addr = b := by simp only [List.any_eq_true, isAt_iff]

theorem isAt_eq_false (hw : w.isAt sp a = true) (h : q ≠ sp ∨ b ≠ a) : w.isAt q b = false := by
  obtain ⟨rfl, rfl⟩ := isAt_iff.mp hw
  exact Bool.eq_false_iff.mpr fun h' => by
    obtain ⟨rfl, rfl⟩ := isAt_iff.mp h'
    simp at h

/-- A store that the buffer takes changes the word at its own place, and no other. -/
theorem phaseWord_phaseStore {l' : List PWord} (h : phaseStore sp a n v l = some l') :
    (∃ w : PWord, phaseWord sp (a / 8 * 8) l' = w.enter a n v) ∧ ∀ q b, (q ≠ sp ∨ b ≠ a / 8 * 8) → phaseWord q b l' = phaseWord q b l := by
  rw [phaseStore_eq] at h
  split at h
  case isTrue hheld =>
    cases h
    have hfind (q b) : (l.map fun w => if w.isAt sp (a / 8 * 8) then w.enter a n v else w).find? (PWord.isAt q b) =
        (l.find? (PWord.isAt q b)).map fun w => if w.isAt sp (a / 8 * 8) then w.enter a n v else w := by
      rw [List.find?_map]
      refine congrArg (fun p => (l.find? p).map _) (funext fun w => ?_)
      show PWord.isAt q b (if _ then _ else _) = _
      split <;> rfl
    obtain ⟨w, hw⟩ := Option.isSome_iff_exists.mp (List.find?_isSome.mpr (List.any_eq_true.mp hheld))
    refine ⟨⟨w, ?_⟩, fun q b hne => ?_⟩
    · rw [phaseWord_eq, hfind, hw, Option.map_some, if_pos (List.find?_some hw), Option.getD_some]
    · rw [phaseWord_eq, phaseWord_eq, hfind]
      cases hx : l.find? (PWord.isAt q b) with
      | none => rfl
      | some x =>
        have hother : x.isAt sp (a / 8 * 8) = false := isAt_eq_false (List.find?_some hx) (hne.imp Ne.symm Ne.symm)
        rw [Option.map_some, hother, if_neg Bool.false_ne_true]
  case isFalse hnew =>
    split at h
    case isTrue =>
      cases h
      have hat : ((PWord.none sp (a / 8 * 8)).enter a n v).isAt sp (a / 8 * 8) = true := isAt_iff.mpr ⟨rfl, rfl⟩
      refine ⟨⟨PWord.none sp (a / 8 * 8), ?_⟩, fun q b hne => ?_⟩
      · have hnone : l.find? (PWord.isAt sp (a / 8 * 8)) = none := by
          rw [← Option.not_isSome_iff_eq_none, List.find?_isSome, ← List.any_eq_true]
          exact hnew
        rw [phaseWord_eq, List.find?_append, hnone, Option.none_or, List.find?_singleton, if_pos hat, Option.getD_some]
      · rw [phaseWord_eq, phaseWord_eq, List.find?_append, List.find?_singleton, if_neg (Bool.eq_false_iff.mp (isAt_eq_false hat hne)), Option.or_none]
    case isFalse => nomatch h

end Word

/-! ### A store enters the buffer, or overflows it (R167 to R171, R175, R212, R213) -/

section Store
variable {g : Guard} {x base : Reg} {m : StoreOp} {sp : Space} {a n : Nat} {v : Word} {l : List PWord} {s : State}

theorem phaseStore_of_room (h : Room sp a s) : ∃ l, phaseStore sp a n v s.hereC.phase = some l := by
  rw [phaseStore_eq]
  split
  · exact ⟨_, rfl⟩
  next hnew => exact ⟨_, if_pos (h.resolve_right fun hheld => hnew (any_isAt.mpr hheld))⟩

theorem phaseStore_of_full (h : ¬ Room sp a s) : phaseStore sp a n v s.hereC.phase = none := by
  obtain ⟨hlen, hnew⟩ := not_or.mp h
  rw [phaseStore_eq, if_neg (fun hheld => hnew (any_isAt.mp hheld)), if_neg hlen]

/-- An error stays where the bytes that were written are none of its word's. -/
theorem mem_coverErrs {sel : SoftErr → BitVec 8} {l : List SoftErr} {e : SoftErr} (he : e ∈ l) (hsel : sel e = 0) (hw : e.wrote ≠ 0xFF) :
    e ∈ coverErrs sel l := by
  have hsame : ({ e with wrote := e.wrote ||| sel e } : SoftErr) = e := by simp [hsel]
  exact List.mem_filter.mpr ⟨List.mem_map.mpr ⟨e, he, hsame⟩, decide_eq_true hw⟩

/-- A store changes the soft errors of its core's buffer only. -/
theorem mem_phaseClear {u r : Nat} {new : Bool} {l : List SoftErr} {e : SoftErr} (he : e ∈ l) (hother : ¬ (e.r = r ∧ e.code = 3 ∧ e.unit = u))
    (hw : e.wrote ≠ 0xFF) : e ∈ phaseClear u sp a n new r l :=
  mem_coverErrs he (if_neg fun ⟨hr, hc, hu, _⟩ => hother ⟨hr, hc, hu⟩) hw

theorem bufferStore_of_room (hin : a % 8 + n ≤ 8) (h : Room sp a s) : Buffered sp a n v s (bufferStore sp a n v s) := by
  obtain ⟨l, hl⟩ := phaseStore_of_room (n := n) (v := v) h
  obtain ⟨⟨w, hw⟩, hothers⟩ := phaseWord_phaseStore hl
  have heq : bufferStore sp a n v s = retire id { s.modHereC (fun c => { c.stored s.cur.slot with phase := l }) with
      errors := phaseClear s.cur.unit sp a n (decide (s.hereC.phase.length < l.length)) s.cur.region s.errors } := by
    rw [bufferStore, hl]
  rw [heq]
  exact ⟨l, _, rfl, fun e he => mem_phaseClear he, fun bs hlen => by rw [hw, layOver_enter hin hlen], hothers, rfl, rfl, rfl⟩

theorem bufferStore_of_full (h : ¬ Room sp a s) : bufferStore sp a n v s = fail 0x0A (toWord a) (toWord (spaceCode sp)) s := by
  rw [bufferStore, phaseStore_of_full h]

/-- A word whose effect is a store to the buffer. -/
theorem storeDone_of_exec {i : Instr} (h : exec i s = .next (bufferStore sp a n v s)) (hin : a % 8 + n ≤ 8) :
    StoreDone i sp (spaceCode sp) a n v s :=
  ⟨fun hroom => ⟨_, h, bufferStore_of_room hin hroom⟩, fun hfull => h.trans (congrArg _ (bufferStore_of_full hfull))⟩

theorem onControl_of_control {k : State → Host.Outcome State Fault Refusal} (hu : OnControl s) : onControl k s = k s := if_pos hu

theorem remoteBad_of_fits {i : Int} {z : Size} (hfits : Fits i (sizeBytes z) 0x40000) (hown : OnCompute s → i.toNat / 2 ^ 16 ≠ uIdx s.cur.unit) :
    remoteBad i (sizeBytes z) s.cur.unit = false := by
  have hz := sizeBytes_pos z
  rw [remoteBad, addrBad_of_fits hfits (by omega), Bool.false_or]
  cases hu : isCtl s.cur.unit with
  | true => rfl
  | false => exact decide_eq_false (hown hu)

theorem scratchBad_of_fits {i : Int} {z : Size} (hfits : Fits i (sizeBytes z) 0x400000) (hb : borrowed s.hereR s.hereCl i.toNat (sizeBytes z) = false) :
    scratchBad i (sizeBytes z) s = false := by
  have hz := sizeBytes_pos z
  rw [scratchBad, addrBad_of_fits hfits (by omega), hb, Bool.or_self]

theorem segChk_of_fits {i : Int} {k : State → State} (hfits : Fits i n (hereSeg s)) : segChk i n k s = k s := by
  obtain ⟨h0, hend, hmod⟩ := hfits
  have hin : ¬ (i < 0 ∨ (hereSeg s : Int) < i + n) := by omega
  have hnone : segFault i n (hereSeg s) = none := by rw [segFault, if_neg (not_not.mpr hmod), if_neg hin]
  rw [segChk, hnone]

variable (h : Issues g (storeSrcs x base m) [] s)
include h

theorem exec_str (hfits : Fits (effAddr (s.here.rd base) m.off) (sizeBytes m.size) 0x40000)
    (hown : OnCompute s → (effAddr (s.here.rd base) m.off).toNat / 2 ^ 16 ≠ uIdx s.cur.unit) :
    exec (.str g x base m) s = .next (bufferStore .r (effAddr (s.here.rd base) m.off).toNat (sizeBytes m.size) (s.here.rd x) s) := by
  have hin : remoteBad (storeAddr base m s) (sizeBytes m.size) s.cur.unit = false := remoteBad_of_fits hfits hown
  show execStr g x base m s = _
  rw [execStr, issue_of_issues h]
  simp only [hin, Bool.false_eq_true, if_false]
  rfl

theorem exec_sts (hfits : Fits (effAddr (s.here.rd base) m.off) (sizeBytes m.size) 0x400000)
    (hb : borrowed s.hereR s.hereCl (effAddr (s.here.rd base) m.off).toNat (sizeBytes m.size) = false) :
    exec (.sts g x base m) s = .next (bufferStore .s (effAddr (s.here.rd base) m.off).toNat (sizeBytes m.size) (s.here.rd x) s) := by
  have hin : scratchBad (storeAddr base m s) (sizeBytes m.size) s = false := scratchBad_of_fits hfits hb
  show execSts g x base m s = _
  rw [execSts, issue_of_issues h]
  simp only [hin, Bool.false_eq_true, if_false]
  rfl

theorem exec_stg (hu : OnControl s) (hfits : Fits (effAddr (s.here.rd base) m.off) (sizeBytes m.size) (hereSeg s)) :
    exec (.stg g x base m) s = .next (bufferStore .g (effAddr (s.here.rd base) m.off).toNat (sizeBytes m.size) (s.here.rd x) s) := by
  show execStg g x base m s = _
  rw [execStg, onControl_of_control hu, issue_of_issues h]
  exact congrArg _ (segChk_of_fits hfits)

end Store

/-- Settles O16: each word's effect is a store to the buffer, which takes it or is full. -/
theorem bufferedStores : Obligations.BufferedStores := by
  intro g x base m s h i n
  exact ⟨fun hfits hown => storeDone_of_exec (exec_str h hfits hown) (inWord_of_fits hfits),
    fun hfits hb => storeDone_of_exec (exec_sts h hfits hb) (inWord_of_fits hfits),
    fun hu hfits => storeDone_of_exec (exec_stg h hu hfits) (inWord_of_fits hfits)⟩

/-! ### Loads (R167, R168, R212 to R215) -/

theorem le_chooseMoment (lo now free : Nat) : lo ≤ chooseMoment lo now free := Nat.le_add_right ..

theorem chooseMoment_le {lo now free : Nat} (h : lo ≤ now) : chooseMoment lo now free ≤ now := by
  have hlt : free % (now + 1 - lo) < now + 1 - lo := Nat.mod_lt _ (by omega)
  rw [chooseMoment]
  omega

section Load
variable {g : Guard} {x base : Reg} {l : LoadOp} {sp : Space} {sx sc : Bool} {a n : Nat} {s : State}

/-- The value of a load of S space that takes the bytes of moment `t`. -/
def scratchValue (sx : Bool) (a n t : Nat) (s : State) : Word :=
  extend sx (layOver (phaseWord .s (a / 8 * 8) s.hereC.phase) a (s.smem.readsAt t (sKey s.cur.region s.hereCl a) n))
/-- The state after such a load. -/
def scratchLoaded (x : Reg) (sx : Bool) (a n t : Nat) (s : State) : State :=
  done x (scratchValue sx a n t s) (s.draw.2.modHereC (fun c => (c.saw .s (sKey s.cur.region s.hereCl a) n t).after s.cur.slot c.behind))

theorem lds_gives (h : Issues g (loadSrcs base l) [x] s) (hfits : Fits (effAddr (s.here.rd base) l.off) (sizeBytes l.size) 0x400000)
    (hb : borrowed s.hereR s.hereCl (effAddr (s.here.rd base) l.off).toNat (sizeBytes l.size) = false) (he : s.errors = []) :
    let a := (effAddr (s.here.rd base) l.off).toNat
    Gives (.lds g x base l) s (scratchLoaded x l.sx a (sizeBytes l.size)
      (chooseMoment (floorOf s.hereC s.cur.slot .s (sKey s.cur.region s.hereCl a) (sizeBytes l.size)) s.moment s.draw.1) s) := by
  have hin : scratchBad (loadAddr base l s) (sizeBytes l.size) s = false := scratchBad_of_fits hfits hb
  show execLds g x base l s = _
  rw [execLds, issue_of_issues h]
  simp only [hin, Bool.false_eq_true, if_false, readChk_clean (s := s) (by simp [he]), phaseChk_clean (s := s) (by simp [he])]
  rfl

theorem here_scratchLoaded {t : Nat} : (scratchLoaded x sx a n t s).here = (s.here.wr x (scratchValue sx a n t s)).next := by
  rw [scratchLoaded, done, retire_here, State.here_modHereC]
  rfl

/-- The core of a load that is to be performed later. -/
def loadBehind (s : State) : State := s.modHereC (fun c => c.did s.cur.slot c.behind)

theorem loadLater_clean {k : LoadReq → State → State} (he : s.errors = []) : loadLater sp a n k sx s = k (loadReq sp a n sx s) (loadBehind s) := by
  rw [loadLater, phaseChk_clean (by simp [he])]
  rfl

theorem ldr_gives (h : Issues g (loadSrcs base l) [x] s) (hfits : Fits (effAddr (s.here.rd base) l.off) (sizeBytes l.size) 0x40000)
    (hown : OnCompute s → (effAddr (s.here.rd base) l.off).toNat / 2 ^ 16 ≠ uIdx s.cur.unit) (he : s.errors = []) :
    Gives (.ldr g x base l) s (produce [x] (.load (loadReq .r (effAddr (s.here.rd base) l.off).toNat (sizeBytes l.size) l.sx s)) (loadBehind s)) := by
  have hin : remoteBad (loadAddr base l s) (sizeBytes l.size) s.cur.unit = false := remoteBad_of_fits hfits hown
  show execLdr g x base l s = _
  rw [execLdr, issue_of_issues h]
  simp only [hin, Bool.false_eq_true, if_false, loadLater_clean he]
  rfl

theorem ldg_gives (hu : OnControl s) (h : Issues g (loadSrcs base l) [x] s)
    (hfits : Fits (effAddr (s.here.rd base) l.off) (sizeBytes l.size) (hereSeg s)) (he : s.errors = []) :
    Gives (.ldg g x base l) s (produce [x] (.load (loadReq .g (effAddr (s.here.rd base) l.off).toNat (sizeBytes l.size) l.sx s)) (loadBehind s)) := by
  show execLdg g x base l s = _
  rw [execLdg, onControl_of_control hu, issue_of_issues h]
  exact congrArg _ ((segChk_of_fits hfits).trans (loadLater_clean he))

/-- The state after a load has been sent for which the slot waits (R215). -/
def loadAwaited (x : Reg) (sc : Bool) (q : LoadReq) (s : State) : State :=
  parkAt (.ordered s.hereR.nextId) .accepted (launch [x] (.acquire q sc) s)

theorem orderedLoad_waits (h : Issues g (loadSrcs base l) [x] s) (hfits : Fits (effAddr (s.here.rd base) l.off) (sizeBytes l.size) (hereSeg s))
    (he : s.errors = []) (hp : s.here.prog ≠ .accepted) : orderedLoad sc g x base l s =
      .next (loadAwaited x sc (loadReq .g (effAddr (s.here.rd base) l.off).toNat (sizeBytes l.size) l.sx s) (loadBehind s)) := by
  rw [orderedLoad, issue_of_issues h, if_neg hp]
  exact congrArg _ ((segChk_of_fits hfits).trans (loadLater_clean he))

theorem loadAwaited_waits {q : LoadReq} : let t := loadAwaited x sc q (loadBehind s)
    t.here.st = .waiting (.ordered s.hereR.nextId) ∧ t.here.prog = .accepted ∧ t.hereC.producers.length = s.hereC.producers.length + 1 := by
  have hid : (loadBehind s).hereR.nextId = s.hereR.nextId := by
    rw [State.hereR, loadBehind, State.modHereC, State.modCore_cur, State.region_modCore_same]
    rfl
  have hcore : (loadBehind s).hereC.producers = s.hereC.producers := by
    rw [loadBehind, State.hereC_modHereC]
    rfl
  refine ⟨?_, ?_, ?_⟩
  · rw [loadAwaited, parkAt, State.here_modHere, hid]
  · rw [loadAwaited, parkAt, State.here_modHere]
  · rw [← hcore]
    simp [loadAwaited, parkAt, launch, Core.setSlot]

theorem orderedLoad_completes (h : Issues g (loadSrcs base l) [x] s) (hp : s.here.prog = .accepted) :
    orderedLoad sc g x base l s = .next (retire id s) := by
  rw [orderedLoad, issue_of_issues h, if_pos hp]

end Load

/-! ### A load in flight performs (R27, R168, R214) -/

section Performs
variable {r u k : Nat} {p : Producer} {l : LoadReq} {d : Reg} {s : State}

/-- The key of the first byte of a load of R space by core `u`. -/
def remoteKey (r u : Nat) (l : LoadReq) : Nat := lKey r (mkUnit (uCl u) 0 (l.addr / 2 ^ 16)) (l.addr % 2 ^ 16)
/-- The moment whose bytes the load takes. -/
def remoteMoment (r u : Nat) (l : LoadReq) (s : State) : Nat :=
  chooseMoment (max l.floor ((s.core r u).seenOf .r (remoteKey r u l) l.n)) s.moment s.draw.1
/-- Its value. -/
def remoteValue (r u : Nat) (l : LoadReq) (s : State) : Word := loadValue l (s.lmem.readsAt (remoteMoment r u l s) (remoteKey r u l) l.n)
/-- The state after it has performed. -/
def remoteLoaded (r u : Nat) (p : Producer) (l : LoadReq) (s : State) : State :=
  complete r u p [remoteValue r u l s] flNone (s.draw.2.modCore r u (Core.saw .r (remoteKey r u l) l.n (remoteMoment r u l s)))

theorem performR_clean (he : s.errors = []) : performR r u p l s = remoteLoaded r u p l s := by
  have hclean : ∀ e ∈ s.draw.2.errors, e.code ≠ 0 := by
    rw [State.draw_errors, he]
    exact fun _ h => nomatch h
  exact readChk_clean hclean

section Found
variable (hr : (s.region r).halt = false) (hp : (s.core r u).producers.find? (fun q => decide (q.id = k)) = some p) (hw : p.work = .load l)
include hr hp hw

theorem producerCompletion_waits (ho : olderLoad (s.core r u) k l = true) : Gives (.producerCompletion r u k) s s := by
  show execProducerCompletion r u k s = _
  simp only [execProducerCompletion, hr, Bool.false_eq_true, if_false, hp, hw, ho, if_true, nx]

theorem producerCompletion_loads (ho : olderLoad (s.core r u) k l = false) (hsp : l.sp = .r) (he : s.errors = []) :
    Gives (.producerCompletion r u k) s (remoteLoaded r u p l s) := by
  show execProducerCompletion r u k s = _
  simp only [execProducerCompletion, hr, Bool.false_eq_true, if_false, hp, hw, ho, hsp, performR_clean he, nx]

end Found

theorem remoteLoaded_register (hd : p.dests = [d]) (hd0 : d ≠ 0) : let sl := (remoteLoaded r u p l s).slot r u p.slot
    sl.rd d = remoteValue r u l s ∧ sl.fill d = .full := by
  rw [remoteLoaded, complete_slot_single hd]
  exact ⟨Slot.rd_wr_same hd0 .., (Slot.fill_wr ..).trans (if_pos rfl)⟩

end Performs

/-- Settles O17: the words at the states they give, and the load of R space that performs; the moment it takes lies between its floor and now. -/
theorem loads : Obligations.Loads := by
  refine ⟨fun g x base l s h => ?words, fun r u k p l d s hr he hp hw hsp hd hd0 => ⟨producerCompletion_waits hr hp hw, fun ho => ?performs⟩⟩
  case words =>
    intro i n a
    refine ⟨fun hfits hb he => ?lds, ldr_gives h, fun hu hfits he => ⟨ldg_gives hu h hfits he, fun hprog => ?waits, fun hprog => ?completes⟩⟩
    case lds =>
      intro key hlo
      exact ⟨_, _, lds_gives h hfits hb he, ⟨_, le_chooseMoment .., chooseMoment_le hlo, rfl⟩, here_scratchLoaded, rfl, rfl, rfl⟩
    case waits =>
      exact ⟨⟨_, (onControl_of_control hu).trans (orderedLoad_waits h hfits he hprog), loadAwaited_waits⟩,
        ⟨_, (onControl_of_control hu).trans (orderedLoad_waits h hfits he hprog), loadAwaited_waits⟩⟩
    case completes =>
      exact ⟨(onControl_of_control hu).trans (orderedLoad_completes h hprog), (onControl_of_control hu).trans (orderedLoad_completes h hprog)⟩
  case performs =>
    intro key lo hlo
    obtain ⟨hrd, hfill⟩ := remoteLoaded_register (r := r) (u := u) (l := l) (s := s) hd hd0
    exact ⟨_, remoteValue r u l s, producerCompletion_loads hr hp hw ho hsp he,
      ⟨remoteMoment r u l s, le_chooseMoment .., chooseMoment_le hlo, rfl⟩, hrd, hfill, rfl, rfl, rfl⟩

end Sys2Proof.Machine

end

section

namespace Sys2Proof.Machine

open Sys2Proof.Claims

/-! ## The package (O55)

### What accesses to sealed memory leave: every context, and on a writeback device memory (R385 to R398) -/

section Sealed
variable {α β : Type} {C : Assoc Context} {c : Context} {r : Nat} {s : State}

/-- The contexts are these after the access, whatever its outcome. -/
def MemRes.Leaves (C : Assoc Context) : MemRes α → Prop
  | .ok _ s | .wait s | .fail _ s => s.contexts = C
/-- The same of a translation. -/
def XRes.Leaves (C : Assoc Context) : XRes α → Prop
  | .ok _ s | .miss _ s | .wait s | .fail _ s => s.contexts = C

theorem MemRes.Leaves.bind {x : MemRes α} {f : α → State → MemRes β} (hx : x.Leaves C) (hf : ∀ v t, t.contexts = C → (f v t).Leaves C) :
    (x.bind f).Leaves C := by
  cases x with
  | ok v t => exact hf v t hx
  | wait t => exact hx
  | fail y t => exact hx

theorem XRes.Leaves.bind {x : XRes α} {f : α → State → XRes β} (hx : x.Leaves C) (hf : ∀ v t, t.contexts = C → (f v t).Leaves C) :
    (x.bind f).Leaves C := by
  cases x with
  | ok v t => exact hf v t hx
  | miss k t => exact hx
  | wait t => exact hx
  | fail y t => exact hx

theorem MemRes.Leaves.lift {x : MemRes α} (hx : x.Leaves C) : (XRes.lift x).Leaves C := by
  cases x <;> exact hx

theorem setParent_keeps {level m : Nat} {e : Meta} : (setParent level m e s).contexts = s.contexts ∧ (setParent level m e s).tmem = s.tmem := by
  rw [setParent]
  split <;> exact ⟨rfl, rfl⟩

theorem contexts_metaWriteback {level m : Nat} : (metaWriteback level m s).contexts = s.contexts := by
  rw [metaWriteback]
  split
  · rfl
  · split
    · exact setParent_keeps.1
    · rfl

theorem contexts_fetchLevel {level m : Nat} : (fetchLevel level m s).2.contexts = s.contexts := by
  rw [fetchLevel]
  split
  · rfl
  · dsimp only
    split
    · rfl
    · split
      · rfl
      · exact contexts_metaWriteback

theorem contexts_fetchMeta {ptn : Nat} : (fetchMeta ptn s).2.contexts = s.contexts :=
  (contexts_fetchLevel.trans contexts_fetchLevel).trans contexts_fetchLevel

theorem contexts_freshMeta {ptn : Nat} : (freshMeta ptn s).contexts = s.contexts := by
  simp only [freshMeta, unspoil, setMeta, holdMeta, contexts_fetchMeta]

theorem contexts_decrypted {key ptn dev version : Nat} : (decrypted key ptn dev version s).contexts = s.contexts := by
  rw [decrypted]
  split <;> rfl

section Access
variable (h : s.contexts = C)
include h

theorem leaves_fillTile {key dev ptn : Nat} : (fillTile key dev ptn s).Leaves C := by
  simp only [fillTile]
  split
  · exact h
  · split
    · exact h
    · split
      · exact contexts_decrypted.trans h
      · exact h

theorem leaves_poisonedAccess {dev ptn r : Nat} {write whole : Bool} : (poisonedAccess dev ptn r write whole s).Leaves C := by
  simp only [poisonedAccess]
  split
  · exact h
  · split
    · split <;> exact h
    · exact h

theorem leaves_openTile {key dev r : Nat} {write whole : Bool} : (openTile key dev r write whole s).Leaves C := by
  simp only [openTile]
  split
  · exact h
  split
  · exact h
  split
  · exact h
  have hmeta {places ptn} : (fetchMeta ptn { s with places := places }).2.contexts = C := contexts_fetchMeta.trans h
  split
  · split <;> exact h
  split
  · exact hmeta
  split
  · exact hmeta
  split
  · exact leaves_poisonedAccess hmeta
  split
  · exact hmeta
  · exact leaves_fillTile hmeta

theorem leaves_tileRead {key dev off n t r : Nat} : (tileRead key dev off n t r s).Leaves C := by
  refine (leaves_openTile h).bind fun ptn s1 h1 => ?_
  dsimp only
  split
  · exact h1
  · split
    · split <;> exact h1
    · exact h1

theorem leaves_tileWrite {key dev r : Nat} {l : List (Nat × Byte)} : (tileWrite key dev l r s).Leaves C :=
  (leaves_openTile h).bind fun _ _ h1 => h1

theorem leaves_tableRead {r tile off n : Nat} : (tableRead r tile off n s).Leaves C := by
  rw [tableRead]
  split
  · exact leaves_tileRead h
  · exact h

theorem leaves_walk2 {r tile : Nat} {l : List Nat} : (walk2 r tile l s).Leaves C := by
  induction l generalizing tile s with
  | nil => exact h
  | cons i l ih =>
    refine (leaves_tableRead h).lift.bind fun bs s1 h1 => ?_
    dsimp only
    split
    · exact h1
    · split
      · exact h1
      · split
        · exact h1
        · exact ih h1

theorem leaves_stage2 {mid : Nat} : (stage2 c r mid s).Leaves C := by
  rw [stage2]
  split
  · exact h
  · dsimp only
    split
    · exact h
    · exact (leaves_walk2 (s := s.draw.2) h).bind fun _ _ h1 => h1

theorem leaves_gTile {off : Nat} {write : Bool} : (gTile c r off write s).Leaves C := by
  have hstage : (stage2 c r (c.attr.csBase + off / 4096) s).Leaves C := leaves_stage2 h
  rw [gTile]
  generalize stage2 c r (c.attr.csBase + off / 4096) s = x at hstage ⊢
  cases x with
  | ok p s1 =>
    dsimp only
    generalize (!if write = true then p.2.2 else p.2.1) = barred
    cases barred <;> exact hstage
  | miss k s1 => exact hstage
  | wait s1 => exact hstage
  | fail y s1 => exact hstage

theorem leaves_writeTiles {base : Nat} {f : Nat → List Byte} {l : List Nat} : (writeTiles c r base f l s).Leaves C := by
  induction l generalizing s with
  | nil => exact h
  | cons t l ih =>
    refine XRes.Leaves.bind ((leaves_stage2 h).bind fun p s1 h1 => ?_) fun _ _ h1 => ih h1
    split
    · exact h1
    · exact (leaves_tileWrite h1).lift

theorem leaves_ddWriteback {zero : Bool} {T : DdTable} : (ddWriteback c r zero T s).Leaves C := by
  refine (leaves_writeTiles h).bind fun _ s1 h1 => (leaves_writeTiles h1).bind fun _ s2 h2 => ?_
  split
  · exact leaves_writeTiles h2
  · exact leaves_writeTiles (s := { s2 with fresh := s2.fresh + 4096 * 2 ^ (T.cfg.lk - 7) }) h2

end Access

theorem readHeld_keeps {ptn : Nat} : (readHeld ptn s).contexts = s.contexts ∧ (readHeld ptn s).tmem = s.tmem := by
  simp only [readHeld]
  split <;> exact ⟨rfl, rfl⟩

theorem store_keeps {key version ptn dev : Nat} :
    (store key version ptn dev s).contexts = s.contexts ∧ (store key version ptn dev s).tmem = s.tmem := ⟨rfl, rfl⟩

theorem writeback_keeps {ptn : Nat} : (writeback ptn s).contexts = s.contexts ∧ (writeback ptn s).tmem = s.tmem := by
  simp only [writeback]
  split
  · exact ⟨rfl, rfl⟩
  · split
    · split
      · exact readHeld_keeps
      · simp only [setHeld, store_keeps, readHeld_keeps, and_self]
    · exact ⟨rfl, rfl⟩

theorem writebackKey_keeps {key : Nat} : (writebackKey key s).contexts = s.contexts ∧ (writebackKey key s).tmem = s.tmem :=
  List.foldlRecOn (motive := fun t : State => t.contexts = s.contexts ∧ t.tmem = s.tmem) _ _ ⟨rfl, rfl⟩
    fun _ ⟨hc, ht⟩ _ _ => ⟨writeback_keeps.1.trans hc, writeback_keeps.2.trans ht⟩

theorem contexts_dropKeyTiles {key : Nat} : (dropKeyTiles key s).contexts = s.contexts :=
  List.foldlRecOn (motive := fun t : State => t.contexts = s.contexts) _ _ writebackKey_keeps.1 fun _ h _ _ => h

theorem contexts_freshTile {off : Nat} {t : State} (h : freshTile c r off s = some t) : t.contexts = s.contexts := by
  have htile : (gTile c r off true s).Leaves s.contexts := leaves_gTile rfl
  rw [freshTile] at h
  generalize gTile c r off true s = x at h htile
  cases x with
  | ok dev s1 =>
    dsimp only at h
    split at h
    · nomatch h
    · split at h
      · cases h
        exact htile
      · cases h
        rw [contexts_freshMeta]
        exact htile
  | wait s1 => nomatch h
  | fail y s1 =>
    cases h
    exact htile

theorem contexts_freshSpill {l : List Nat} {t : State} (h : freshSpill c r l s = some t) : t.contexts = s.contexts := by
  induction l generalizing s with
  | nil =>
    cases h
    rfl
  | cons a l ih =>
    obtain ⟨s1, h1, h2⟩ := Option.bind_eq_some_iff.mp h
    exact (ih h2).trans (contexts_freshTile h1)

end Sealed

/-! ### A scrub leaves a context outside every gang there (R403, R406) -/

/-- Context `a`, if it exists, is a member of no gang. -/
def Ungrouped (a : Nat) (s : State) : Prop := ∀ c, Assoc.find a s.contexts = some c → c.gang = none

section Ungrouped
variable {a r : Nat} {c : Context} {s t : State}

theorem Ungrouped.congr (h : Ungrouped a s) (hc : t.contexts = s.contexts) : Ungrouped a t := by
  rw [Ungrouped, hc]
  exact h

theorem Ungrouped.modCtx {b : Nat} {f : Context → Context} (h : Ungrouped a s) (hf : ∀ c, (f c).gang = c.gang) : Ungrouped a (s.modCtx b f) := by
  intro c hc
  rw [State.find_modCtx] at hc
  split at hc
  next e =>
    obtain ⟨c', hc', rfl⟩ := Option.map_eq_some_iff.mp hc
    rw [hf]
    exact h c' (e ▸ hc')
  next => exact h c hc

theorem Ungrouped.dropTable (h : Ungrouped a s) (ht : dropTable r c s = some t) : Ungrouped a t := by
  rw [Machine.dropTable] at ht
  split at ht
  · cases ht
    exact h
  next T _ =>
    have hleaves : (ddWriteback c r false T s).Leaves s.contexts := leaves_ddWriteback rfl
    have hgone {v : State} (hv : v.contexts = s.contexts) :
        Ungrouped a (if c.st = .preempted then v else v.modCtx c.attr.asid (fun c => { c with dd := none })) := by
      split
      · exact h.congr hv
      · exact (h.congr hv).modCtx fun _ => rfl
    generalize ddWriteback c r false T s = x at ht hleaves
    cases x with
    | ok _ v =>
      cases ht
      exact hgone hleaves
    | miss _ v =>
      cases ht
      exact hgone hleaves
    | wait v => nomatch ht
    | fail _ v =>
      cases ht
      exact hgone hleaves

theorem Ungrouped.scrubContext (h : Ungrouped a s) (ht : scrubContext r c s = some t) : Ungrouped a t := by
  obtain ⟨s1, h1, h2⟩ := Option.bind_eq_some_iff.mp ht
  obtain ⟨s2, hspill, rfl⟩ := Option.map_eq_some_iff.mp h2
  exact (h.dropTable h1).congr (t := s2) ((contexts_freshSpill hspill).trans contexts_dropKeyTiles)

theorem Ungrouped.scrubLeaving (h : Ungrouped a s) (ht : scrubLeaving r s = some t) : Ungrouped a t := by
  rw [Machine.scrubLeaving] at ht
  split at ht
  · cases ht
    exact h
  next c sealed _ =>
    obtain ⟨s1, h1, rfl⟩ := Option.map_eq_some_iff.mp ht
    split at h1
    · exact h.scrubContext (t := s1) h1
    · cases h1
      exact h

/-- A whole scrub ends with the region's units. -/
theorem exists_of_scrubAll (ht : scrubAll r s = some t) : ∃ v, t = scrubUnits r v ∧ (Ungrouped a s → Ungrouped a v) := by
  rw [scrubAll] at ht
  split at ht
  · obtain ⟨v, hv, rfl⟩ := Option.map_eq_some_iff.mp ht
    exact ⟨v, rfl, fun h => h.scrubContext hv⟩
  · obtain ⟨v, hv, rfl⟩ := Option.map_eq_some_iff.mp ht
    exact ⟨v, rfl, fun h => h.scrubLeaving hv⟩

theorem Ungrouped.scrubAll (h : Ungrouped a s) (ht : scrubAll r s = some t) : Ungrouped a t := by
  obtain ⟨v, rfl, hv⟩ := exists_of_scrubAll (a := a) ht
  exact hv h

theorem Ungrouped.leaveRegion {old new : Nat} (h : Ungrouped a s) : Ungrouped a (leaveRegion old new s) := by
  rw [Machine.leaveRegion]
  split
  · exact h
  · exact h.modCtx fun c => by split <;> rfl

theorem stopDue_of_ungrouped {x : Record} (h : Ungrouped x.asid s) : stopDue r x s = s := by
  rw [stopDue]
  cases hc : Assoc.find x.asid s.contexts with
  | none => rfl
  | some c =>
    simp only [h c hc]

end Ungrouped

/-! ### The state after a scrub (R403, R407, R408) -/

section Scrub
variable {r : Nat} {x : Record} {c : Context} {s s1 : State}

/-- What the scrub of region `r` for a record leaves to be written as a colophon. -/
def scrubJob (r : Nat) (x : Record) (s : State) : ColJob :=
  { out := (s.region r).resident.bind (fun a => (Assoc.find a s.contexts).map (fun c => (a, c.gen))), seq := s.scrubSeq + 1, iasid := x.asid,
    nonce := if recColreq x.b then toWord (recNonce x.b) else 0, req := recColreq x.b, mask := scrubMask, time := s.time }

/-- The outgoing context, if one held the region, has left it. -/
def scrubLeft (r : Nat) (x : Record) (s s1 : State) : State :=
  match (s.region r).resident with
  | some a => leaveRegion a x.asid s1
  | none => s1

theorem scrubLeft_keeps : let t := scrubLeft r x s s1
    t.regions = s1.regions ∧ t.smem = s1.smem ∧ t.lmem = s1.lmem ∧ t.errors = s1.errors := by
  rw [scrubLeft]
  split
  · rw [leaveRegion]
    split
    · exact ⟨rfl, rfl, rfl, rfl⟩
    · exact ⟨State.modCtx_regions .., State.modCtx_smem .., State.modCtx_lmem .., State.modCtx_errors ..⟩
  · exact ⟨rfl, rfl, rfl, rfl⟩

/-- The region, scrubbed for the record, with its colophon due. -/
def Region.scrubbedFor (x : Record) (j : ColJob) (R : Region) : Region :=
  { R with scrubDue := false, colJob := some j, resident := some x.asid, spills := [], pending := some x }

/-- The incoming context once it has the region. -/
def Context.takesRegion (x : Record) (c : Context) : Context :=
  { c with st := if c.st = CtxState.created then .resident else c.st, early := if x.st = RecState.preempted then c.early else [] }

theorem scrubbed_eq : scrubbed r x s s1 = State.modCtx x.asid (Context.takesRegion x)
    { (scrubLeft r x s s1).modRegion r (Region.scrubbedFor x (scrubJob r x s)) with scrubSeq := s.scrubSeq + 1 } := rfl

theorem region_scrubbed : (scrubbed r x s s1).region r = (s1.region r).scrubbedFor x (scrubJob r x s) := by
  obtain ⟨hregions, -⟩ := scrubLeft_keeps (r := r) (x := x) (s := s) (s1 := s1)
  rw [scrubbed_eq, State.region_modCtx, ← State.region_congr hregions r]
  exact State.region_modRegion_same ..

theorem scrubbed_keeps : let t := scrubbed r x s s1
    t.smem = s1.smem ∧ t.lmem = s1.lmem ∧ t.errors = s1.errors ∧ t.scrubSeq = s.scrubSeq + 1 := by
  obtain ⟨-, hsmem, hlmem, herrors⟩ := scrubLeft_keeps (r := r) (x := x) (s := s) (s1 := s1)
  rw [scrubbed_eq]
  exact ⟨(State.modCtx_smem ..).trans hsmem, (State.modCtx_lmem ..).trans hlmem, (State.modCtx_errors ..).trans herrors,
    State.modCtx_scrubSeq ..⟩

theorem ungrouped_scrubbed {a : Nat} (h : Ungrouped a s1) : Ungrouped a (scrubbed r x s s1) := by
  have hleft : Ungrouped a (scrubLeft r x s s1) := by
    rw [scrubLeft]
    split
    · exact h.leaveRegion
    · exact h
  rw [scrubbed_eq]
  exact Ungrouped.modCtx (hleft.congr rfl) fun _ => rfl

/-- The record selected for region `r` awaits a scrub that may go on, its context a member of no gang. -/
structure ScrubDue (r : Nat) (x : Record) (c : Context) (s : State) : Prop where
  pending : (s.region r).pending = some x
  due : (s.region r).scrubDue = true
  inService : (s.region r).inService = true
  graph : (s.region r).graph = none
  halt : (s.region r).halt = false
  preempt : (s.region r).preempt = none
  context : Assoc.find x.asid s.contexts = some c
  gang : c.gang = none

section Due
variable (h : ScrubDue r x c s)
include h

theorem exec_scrub_clears (hs : scrubAll r s = some s1) : exec (.scrub r none) s = .next (stopDue r x (scrubbed r x s s1)) := by
  show execScrub r none s = _
  simp only [execScrub, h.pending, h.due, h.inService, h.graph, h.halt, h.preempt, h.context, hs, nx, Bool.not_true, Option.isSome_none,
    Option.isNone_some, Bool.or_self, Bool.false_eq_true, if_false]

theorem exec_scrub_fails (k : Nat) : exec (.scrub r (some k)) s =
    .next (scrubFails r k (s.setRegion r { s.region r with pending := some (x.waits .colophonWait) })) := by
  show execScrub r (some k) s = _
  simp only [execScrub, h.pending, h.due, h.inService, h.graph, h.halt, h.preempt, h.context, nx, Bool.not_true, Option.isSome_none,
    Option.isNone_some, Bool.or_self, Bool.false_eq_true, if_false]

theorem ScrubDue.ungrouped : Ungrouped x.asid s := fun c' hc' => by
  cases h.context.symm.trans hc'
  exact h.gang

theorem scrub_gives (hs : scrubAll r s = some s1) : Gives (.scrub r none) s (scrubbed r x s s1) := by
  rw [Gives, exec_scrub_clears h hs]
  exact congrArg _ (stopDue_of_ungrouped (ungrouped_scrubbed (h.ungrouped.scrubAll hs)))

theorem scrub_fails (k : Nat) : ∃ t, Gives (.scrub r (some k)) s t ∧ (t.region r).inService = false ∧ (t.region r).colJob = (s.region r).colJob ∧
    (t.region r).pending = some (if x.st = .preempted then x else { x with st := .colophonWait }) ∧
    t.notices = s.notices ++ [.outOfService r, .scrubFailed r k] ∧ t.contexts = s.contexts := by
  refine ⟨_, exec_scrub_fails h k, ?_⟩
  simp [scrubFails, outOfService, State.region, State.setRegion, Record.waits]

end Due

/-- What the scrub has emptied (R403). -/
theorem scrubbed_empty (hs : scrubAll r s = some s1) : let t := scrubbed r x s s1
    (t.region r).cores = [] ∧ (t.region r).arcs = [] ∧ (t.region r).mxs = [] ∧ (t.region r).ags = [] ∧ (t.region r).coats = [] ∧
    (t.region r).copies = [] ∧ (∀ e ∈ t.errors, e.r = r → 12 ≤ e.code) ∧
    ∀ a, r * 2 ^ 40 ≤ a → a < (r + 1) * 2 ^ 40 → t.smem.read a = 0 ∧ t.lmem.read a = 0 := by
  obtain ⟨v, rfl, -⟩ := exists_of_scrubAll (a := 0) hs
  obtain ⟨hsmem, hlmem, herrors, -⟩ := scrubbed_keeps (r := r) (x := x) (s := s) (s1 := scrubUnits r v)
  have hregion : (scrubUnits r v).region r = (v.region r).cleared := State.region_modRegion_same ..
  dsimp only
  rw [region_scrubbed, hregion, hsmem, hlmem, herrors]
  refine ⟨rfl, rfl, rfl, rfl, rfl, rfl, fun e he her => ?_, fun a hlo hhi => ⟨VMem.read_wipe_in _ ⟨hlo, hhi⟩, VMem.read_wipe_in _ ⟨hlo, hhi⟩⟩⟩
  have hout : errInRegion r e = false := by simpa using (List.mem_filter.mp he).2
  simp only [errInRegion, her, decide_true, Bool.true_and, decide_eq_false_iff_not] at hout
  omega

end Scrub

/-! ### Colophons, resets and the life cycle (R408 to R411) -/

/-- The state once region `r`'s colophon has been written, which leaves `s1`: COLCHK reads it (R410). -/
def colophonRead (r : Nat) (j : ColJob) (c : Context) (now : Nat) (s1 : State) : State :=
  (writebackKey c.keyId s1).modRegion r (fun R => { R with
    colJob := none, graph := R.graph.map (Graph.released now),
    col := { seq := j.seq, mask := j.mask, required := j.req, nonce := j.req, written := true } })

theorem colophonWritten_gives {r : Nat} {j : ColJob} {c : Context} {s s1 : State} (hj : (s.region r).colJob = some j)
    (hc : Assoc.find j.iasid s.contexts = some c) (hh : (s.region r).halt = false)
    (hw : gWrite c r c.attr.colOff (colBytes s.attest (colMessage (s.region r) j c.gen (deviceOf s))) s = .ok () s1) :
    Gives (.colophonWritten r) s (colophonRead r j c s.time s1) := by
  show execColophonWritten r s = _
  simp only [execColophonWritten, hj, hc, hh, hw, Bool.false_eq_true, if_false, nx, colophonRead]

theorem colophonRead_frame {r now : Nat} {j : ColJob} {c : Context} {s1 : State} : let t := colophonRead r j c now s1
    (t.region r).colJob = none ∧ t.tmem = s1.tmem ∧
    (t.region r).col = { seq := j.seq, mask := j.mask, required := j.req, nonce := j.req, written := true } := by
  dsimp only
  rw [colophonRead, State.region_modRegion_same]
  exact ⟨rfl, writebackKey_keeps.2, rfl⟩

/-- The pairs of states of the life cycle that a change may join (R411). -/
theorem lifeNext_iff {a b : LifeCycle} : lifeNext a = some b ↔
    (a, b) ∈ [(LifeCycle.manufacturing, LifeCycle.provisioned), (.provisioned, .deployed), (.deployed, .returned), (.returned, .decommissioned)] := by
  cases a <;> cases b <;> decide

theorem lifecycleChange_gives {b : LifeCycle} {s : State} (h : lifeNext s.life = some b) : Gives (.lifecycleChange b) s
    { wipePackage b s with
      time := s.time, fresh := s.fresh + 2,
      domainRank := if b = .provisioned then Config.freeNat (s.fresh + 1) % 4096 else s.domainRank } := by
  show execLifecycleChange b s = _
  rw [execLifecycleChange]
  exact if_pos h

theorem lifecycleChange_refused {b : LifeCycle} {s : State} (h : lifeNext s.life ≠ some b) : Gives (.lifecycleChange b) s s := by
  show execLifecycleChange b s = _
  rw [execLifecycleChange]
  exact if_neg h

/-! ### Bit errors and changes of what is stored (R175, R207, R390, R391, R396, R398) -/

section SoftError
variable {e : ErrorSite} {s : State}

theorem strike_of_new {e : ErrorSite} (h : ∀ x ∈ s.errors, x.toErrorSite ≠ e) :
    strike e s = { s with errors := { toErrorSite := e, wrote := 0 } :: s.errors } := by
  have hnone : s.errors.any (fun x => x.toErrorSite == e) = false := List.any_eq_false.mpr fun x hx hat => h x hx (beq_iff_eq.mp hat)
  rw [strike, hnone, if_neg Bool.false_ne_true]

theorem softError_strikes (h13 : e.code ≠ 13 ∨ e.unit = 0) (h3 : e.code = 3 → ∃ w ∈ (s.core e.r e.unit).phase, phaseKey w.sp w.addr = e.key)
    (h12 : e.code = 12 → (Assoc.find (e.key / 512) s.held).isSome = true) (h4 : e.code ≠ 4) : Gives (.softError e) s (strike e s) := by
  have hunit : ¬ (e.code = 13 ∧ 1 ≤ e.unit) := fun ⟨hc, hu⟩ => h13.elim (fun h => h hc) (fun h => Nat.ne_of_gt hu h)
  have hword : ¬ (e.code = 13 ∧ e.unit = 1) := fun ⟨hc, hu⟩ => hunit ⟨hc, hu.ge⟩
  have hmeta : ¬ (e.code = 13 ∧ 2 ≤ e.unit) := fun ⟨hc, hu⟩ => hunit ⟨hc, Nat.le_of_succ_le hu⟩
  have hbuffer : ¬ (decide (e.code = 3) && !((s.core e.r e.unit).phase.any (fun w => decide (phaseKey w.sp w.addr = e.key)))) = true := by
    simpa using h3
  have hheld : ¬ (decide (e.code = 12) && (Assoc.find (e.key / 512) s.held).isNone) = true := by
    simpa [Option.isSome_iff_ne_none] using h12
  show execSoftError e s = _
  rw [execSoftError, if_neg hword, if_neg hmeta, if_neg hbuffer, if_neg hheld, if_neg h4]
  rfl

theorem softError_misses_buffer (h3 : e.code = 3) (hw : ∀ w ∈ (s.core e.r e.unit).phase, phaseKey w.sp w.addr ≠ e.key) :
    Gives (.softError e) s s := by
  have hbuffer : (decide (e.code = 3) && !((s.core e.r e.unit).phase.any (fun w => decide (phaseKey w.sp w.addr = e.key)))) = true := by
    simpa [h3] using hw
  show execSoftError e s = _
  rw [execSoftError, if_neg (by omega), if_neg (by omega), if_pos hbuffer]
  rfl

theorem softError_misses_held (h12 : e.code = 12) (hh : Assoc.find (e.key / 512) s.held = none) : Gives (.softError e) s s := by
  have hbuffer : decide (e.code = 3) = false := decide_eq_false (by omega)
  have hheld : (decide (e.code = 12) && (Assoc.find (e.key / 512) s.held).isNone) = true := by simp [h12, hh]
  show execSoftError e s = _
  rw [execSoftError, if_neg (by omega), if_neg (by omega), hbuffer, Bool.false_and, if_neg Bool.false_ne_true, if_pos hheld]
  rfl

theorem softError_fifo {a : Arc} (h4 : e.code = 4) (ha : Assoc.find (arcKey e.unit (e.key / 2 ^ 48)) (s.region e.r).arcs = some a) :
    exec (.softError e) s = .next (if e.key % 2 ^ 48 < a.fifo.length then strike { e with key := e.key + a.out } s else s) := by
  have hbuffer : decide (e.code = 3) = false := decide_eq_false (by omega)
  have hheld : decide (e.code = 12) = false := decide_eq_false (by omega)
  show execSoftError e s = _
  rw [execSoftError, if_neg (by omega), if_neg (by omega), hbuffer, Bool.false_and, if_neg Bool.false_ne_true, hheld, Bool.false_and,
    if_neg Bool.false_ne_true, if_pos h4, ha]
  exact (apply_ite Host.Outcome.next _ _ _).symm

theorem softError_word (h13 : e.code = 13) (h1 : e.unit = 1) : Gives (.softError e) s (spoilTile e.key s) := if_pos ⟨h13, h1⟩

theorem softError_meta (h13 : e.code = 13) (hlo : 2 ≤ e.unit) (hhi : e.unit ≤ 4) : Gives (.softError e) s (spoilMeta (e.unit - 2) e.key s) := by
  show execSoftError e s = _
  rw [execSoftError, if_neg (by omega), if_pos ⟨h13, hlo⟩, if_pos hhi]
  rfl

end SoftError

theorem ofNat_succ_mod_ne_zero {w m : Nat} (hm : 0 < m) (hw : m < 2 ^ w) (n : Nat) : BitVec.ofNat w (1 + n % m) ≠ 0 := by
  have hlt : 1 + n % m < 2 ^ w := Nat.lt_of_le_of_lt (Nat.one_add_le_iff.mpr (Nat.mod_lt n hm)) hw
  intro h
  have hzero := congrArg BitVec.toNat h
  rw [BitVec.toNat_ofNat, Nat.mod_eq_of_lt hlt, BitVec.ofNat_eq_ofNat, BitVec.toNat_zero] at hzero
  omega

theorem freeChange_ne_zero (n : Nat) : freeChange n ≠ 0 := ofNat_succ_mod_ne_zero (by decide) (by decide) _

theorem xor_ne_self {w : Nat} {x b : BitVec w} (hb : b ≠ 0) : x ^^^ b ≠ x := fun h =>
  hb ((BitVec.xor_right_inj x).mp (h.trans BitVec.xor_zero.symm))

/-- The stored bytes after byte `base + i` of each of the `n` first has been changed by `f i`. -/
def changedBytes (base n : Nat) (f : Nat → Byte) (l : Assoc Byte) : Assoc Byte :=
  (List.range n).foldl (fun m i => Assoc.set 0 (base + i) (Assoc.get 0 (base + i) m ^^^ f i) m) l

theorem get_changedBytes {base n i : Nat} {f : Nat → Byte} {l : Assoc Byte} :
    Assoc.get 0 (base + i) (changedBytes base n f l) = if i < n then Assoc.get 0 (base + i) l ^^^ f i else Assoc.get 0 (base + i) l := by
  induction n with
  | zero => rfl
  | succ n ih =>
    rw [changedBytes, List.range_succ, List.foldl_append, List.foldl_cons, List.foldl_nil, Assoc.get_set, ← changedBytes]
    by_cases hi : i = n
    · subst hi
      rw [if_pos rfl, ih, if_neg (Nat.lt_irrefl i), if_pos (Nat.lt_succ_self i)]
    · have hne : base + i ≠ base + n := by omega
      have hiff : i < n + 1 ↔ i < n := by omega
      rw [if_neg hne, ih, if_congr hiff rfl rfl]

theorem spoilTile_changes {word : Nat} {s : State} (hz : (metaOf s (word / 512)).z = false) : let t := spoilTile word s
    t.tmem = s.tmem ∧ t.metas = s.metas ∧
    ∀ i, i < 8 → ∃ b : Byte, b ≠ 0 ∧ Assoc.get 0 (8 * word + i) t.spoilt = Assoc.get 0 (8 * word + i) s.spoilt ^^^ b := by
  have heq : spoilTile word s = { s with
      fresh := s.fresh + 8, spoilt := changedBytes (8 * word) 8 (fun i => freeChange (s.fresh + i)) s.spoilt } := by
    simp only [spoilTile, hz, Bool.false_eq_true, if_false, changedBytes]
  dsimp only
  rw [heq]
  exact ⟨rfl, rfl, fun i hi => ⟨_, freeChange_ne_zero _, get_changedBytes.trans (if_pos hi)⟩⟩

theorem spoilMeta_changes {level m : Nat} {T : MetaTile} {s : State} (hT : Assoc.find (metaKey level m) s.metas = some T) :
    let t := spoilMeta level m s
    t.tmem = s.tmem ∧ ∃ T' j, Assoc.find (metaKey level m) t.metas = some T' ∧ T'.entry j ≠ T.entry j ∧ ∀ k, k ≠ j → T'.entry k = T.entry k := by
  dsimp only
  rw [spoilMeta, hT]
  refine ⟨rfl, _, Config.freeNat s.fresh % 256, Assoc.find_put_same .., ?_, fun k hk => Assoc.get_put_other _ hk ..⟩
  rw [MetaTile.entry, Assoc.get_put_same]
  exact fun hsame => xor_ne_self (ofNat_succ_mod_ne_zero (by decide) (by decide) _) (congrArg Meta.tag hsame)

/-- Settles O55: the scrub's state, the colophon's, the wiped package, and what each error or change strikes. -/
theorem package : Obligations.Package := by
  refine ⟨?scrub, ?colophon, ?reset, ?lifecycle, ?module⟩
  case scrub =>
    intro r x c s hpending hdue hservice hgraph hhalt hpreempt hc hgang
    have h : ScrubDue r x c s := ⟨hpending, hdue, hservice, hgraph, hhalt, hpreempt, hc, hgang⟩
    refine ⟨scrub_fails h, fun s1 hs => ⟨_, scrubJob r x s, scrub_gives h hs, ?_⟩⟩
    obtain ⟨hcores, harcs, hmxs, hags, hcoats, hcopies, herrors, hzero⟩ := scrubbed_empty (x := x) hs
    obtain ⟨-, -, -, hseq⟩ := scrubbed_keeps (r := r) (x := x) (s := s) (s1 := s1)
    have hregion := region_scrubbed (r := r) (x := x) (s := s) (s1 := s1)
    refine ⟨?_, ?_, ?_, ?_, rfl, hseq, rfl, rfl, rfl, hcores, harcs, hmxs, hags, hcoats, hcopies, ?_, herrors, hzero⟩ <;> rw [hregion] <;> rfl
  case colophon => exact fun r j c s s1 hj hc hh hw => ⟨_, colophonWritten_gives hj hc hh hw, colophonRead_frame⟩
  case reset => exact fun s => ⟨wipePackage s.life s, rfl, rfl, rfl, rfl, rfl, rfl, rfl, rfl, rfl, rfl, rfl, rfl, rfl, rfl, rfl, rfl, rfl, rfl, rfl⟩
  case lifecycle =>
    rintro _ b s rfl
    refine ⟨fun hab => ⟨_, lifecycleChange_gives (lifeNext_iff.mpr hab), rfl, rfl, rfl, rfl, rfl, rfl, rfl, rfl, rfl, fun hb => if_neg hb, ?provisioned⟩,
      fun hab => lifecycleChange_refused fun h => hab (lifeNext_iff.mp h)⟩
    case provisioned => exact fun hb => (if_pos hb).trans_lt (Nat.mod_lt _ (by decide))
  case module =>
    intro s
    refine ⟨rfl, fun e h13 h3 h12 h4 hnew => (softError_strikes h13 h3 h12 h4).trans (congrArg _ (strike_of_new hnew)),
      fun e => softError_misses_buffer, fun e => softError_misses_held, fun e a h4 ha => ⟨fun hlen => ?past, fun hlen hnew => ?struck⟩,
      fun e h13 h1 hz => ⟨_, softError_word h13 h1, spoilTile_changes hz⟩, fun e m h13 hlo hhi hm => ?entry, fun p hp hup => ?expander⟩
    case past => exact (softError_fifo h4 ha).trans (congrArg _ (if_neg (Nat.not_lt.mpr hlen)))
    case struck => exact (softError_fifo h4 ha).trans (congrArg _ ((if_pos hlen).trans (strike_of_new hnew)))
    case entry =>
      obtain ⟨htmem, T, j, hT⟩ := spoilMeta_changes hm
      exact ⟨_, T, j, softError_meta h13 hlo hhi, htmem, hT⟩
    case expander =>
      have hin : (decide (p < 8) && !s.expandersDown.contains p) = true := by simp [hp, hup]
      exact if_pos hin

end Sys2Proof.Machine

end

section

namespace Sys2Proof.Machine

open Sys2Proof.Claims

/-! ## Steer and merge nodes (O28) -/

section SwitchNode
variable {r u j i o q : Nat} {x : SwitchNode} {b : Beat} {k : State → State} {s : State}

/-- A node may move in a running region. -/
theorem nodeOf_eq {R : Region} {merge : Bool} (hh : R.halt = false) (hp : R.preempt = none) (hx : R.node u j = some x) (hm : x.merge = merge) :
    nodeOf R merge u j = some x := by
  simp only [nodeOf, hx, hh, hp, hm, bne_self_eq_false, Bool.or_self, Bool.false_eq_true, if_false]

theorem nodeChk_clean (he : s.errors = []) : nodeChk r u j k s = k s := readChk_clean (by simp [he])

/-- The chosen input's head beat goes to the chosen output, and the select is taken (R203). -/
theorem nodeMove_eq (he : s.errors = []) (hmay : NodeMay (s.region r) u i o b) :
    nodeMove r u j i o s = s.setRegion r (movedBy (s.region r) u j i o b) := by
  obtain ⟨hhead, hdata, hroom⟩ := hmay
  simp only [nodeMove, hhead, hdata, hroom, Bool.and_self, if_true, nodeChk_clean he, fifosChk_clean he]
  rfl

theorem badSelect_eq (he : s.errors = []) : badSelect r u j q s = raise r (nodeRec u j (BitVec.ofNat 64 q)) s := by
  rw [badSelect, nodeChk_clean he, fifosChk_clean he, toWord]

section Select
variable (hh : (s.region r).halt = false) (hp : (s.region r).preempt = none) (hx : (s.region r).node u j = some x)
  (hq : nodeSelect (s.region r) u j = some q)
include hh hp hx hq

/-- What a steer node does with its select (R202, R203). -/
theorem steerNodeFiring_gives (hm : x.merge = false) : Gives (.steerNodeFiring r u j) s
    (if x.n < q then if (s.region r).tokensIn u (8 * j) = 0 then s else badSelect r u j q s else nodeMove r u j (8 * j) (8 * j + q) s) := by
  show execSteerNodeFiring r u j s = _
  simp only [execSteerNodeFiring, nodeOf_eq hh hp hx hm, hq, nx]
  split_ifs <;> rfl

/-- What a merge node does with its select (R202, R203). -/
theorem mergeNodeFiring_gives (hm : x.merge = true) : Gives (.mergeNodeFiring r u j) s
    (if x.n < q then badSelect r u j q s else nodeMove r u j (8 * j + q) (8 * j) s) := by
  show execMergeNodeFiring r u j s = _
  simp only [execMergeNodeFiring, nodeOf_eq hh hp hx hm, hq, nx]
  split_ifs <;> rfl

end Select

end SwitchNode

/-- Settles O28: the node's select decides; a path that exists is a move, one that does not is SPACE. -/
theorem switchNodes : Obligations.SwitchNodes := by
  intro r u j q x b s hh hp he hx hq
  refine ⟨fun hm => ?steer, fun hm => ?merge⟩
  case steer =>
    have hgo := steerNodeFiring_gives hh hp hx hq hm
    refine ⟨fun hle hmay => ?_, fun hlt htok => ?_⟩
    · rwa [if_neg (Nat.not_lt.mpr hle), nodeMove_eq he hmay] at hgo
    · rwa [if_pos hlt, if_neg htok.ne', badSelect_eq he] at hgo
  case merge =>
    have hgo := mergeNodeFiring_gives hh hp hx hq hm
    refine ⟨fun hle hmay => ?_, fun hlt => ?_⟩
    · rwa [if_neg (Nat.not_lt.mpr hle), nodeMove_eq he hmay] at hgo
    · rwa [if_pos hlt, badSelect_eq he] at hgo

end Sys2Proof.Machine

end

section

namespace Sys2Proof.Machine

open Sys2Proof.Claims

/-! ## The course of a fabric load (O47) -/

@[simp] theorem State.region_modGraph_same (r : Nat) (f : Graph → Graph) (s : State) :
    (s.modGraph r f).region r = { s.region r with graph := (s.region r).graph.map f } := State.region_modRegion_same ..

/-! ### The start of a load (R190, R299, R300) -/

section LoadStart
variable {r n : Nat} {g : Graph} {x : GNode} {det : Bool} {s : State}

/-- The graph when node `n` starts to load the image at `base`. -/
def Graph.startLoad (n base : Nat) (g : Graph) : Graph :=
  { g.start n with loads := g.loads + 1, load := some { node := n, base := base, frames := [] } }
/-- Node `n` is a fabric load that may start now. -/
def Graph.mayLoad (det : Bool) (n : Nat) (g : Graph) : Bool := (((g.nodes[n]?).map (fun x => x.kind)).getD 1 == 0) && g.mayStart det n

theorem Graph.mem_ready_of_mayStart (h : g.mayStart det n = true) : n ∈ g.ready := by
  simp only [Graph.mayStart, Bool.and_eq_true] at h
  obtain ⟨⟨hready, -⟩, -⟩ := h
  exact List.contains_iff_mem.mp hready
theorem Graph.mayLoad_iff : g.mayLoad det n = true ↔ (g.nodes[n]?).map (fun x => x.kind) = some 0 ∧ g.mayStart det n = true := by
  cases h : g.nodes[n]? <;> simp [Graph.mayLoad, h]

/-- The only ready load that may start is the one that is found. -/
theorem Graph.find_mayLoad (hn : g.mayLoad det n = true) (hu : ∀ m ∈ g.ready, g.mayLoad det m = true → m = n) :
    g.ready.find? (fun m => g.mayLoad det m) = some n := by
  have hmem : n ∈ g.ready := Graph.mem_ready_of_mayStart (Graph.mayLoad_iff.mp hn).2
  cases hf : g.ready.find? (fun m => g.mayLoad det m) with
  | none => exact absurd hn (List.find?_eq_none.mp hf n hmem)
  | some m =>
    have hm : g.mayLoad det m = true := List.find?_some (p := fun m => g.mayLoad det m) hf
    rw [hu m (List.mem_of_find?_eq_some hf) hm]

theorem fabricLoadStart_gives (hg : (s.region r).graph = some g) (hrun : seqRuns (s.region r) = true) (hx : g.nodes[n]? = some x)
    (hfind : g.ready.find? (fun m => g.mayLoad (detOn s (s.region r)) m) = some n) :
    Gives (.fabricLoadStart r) s ((s.modGraph r (Graph.startLoad n x.arg0)).modCtx g.rcd.asid (fun c => { c with lastLoad := g.loads })) := by
  simp only [Graph.mayLoad] at hfind
  show execFabricLoadStart r s = _
  simp only [execFabricLoadStart, hg, hfind, hrun, hx, Bool.not_true, Bool.false_eq_true, if_false, nx]
  rfl

/-- The contexts after a change of one depend on the contexts before it alone. -/
theorem State.contexts_modCtx_congr {a : Nat} {f : Context → Context} {t : State} (h : t.contexts = s.contexts) :
    (t.modCtx a f).contexts = (s.modCtx a f).contexts := by
  simp only [State.modCtx, h]
  split
  · rfl
  · exact h

end LoadStart

/-! ### The frames of an image (R189, R190, R192) -/

section Frames
variable {r x : Nat} {g : Graph} {c : Context} {l : Load} {s s1 : State}
  (hg : (s.region r).graph = some g) (hc : s.ctxOf (s.region r) = some c) (hh : (s.region r).halt = false) (hl : g.load = some l)
  (hx : frameAt c r l l.frames.length s = .ok (some x) s1)
include hg hc hh hl hx

theorem configFrame_gives (hclass : bits x 255 252 ≠ 15) :
    Gives (.configFrame r) s (s1.modGraph r (fun g => { g with load := some { l with frames := l.frames ++ [BitVec.ofNat 256 x] } })) := by
  show execConfigFrame r s = _
  simp only [execConfigFrame, hg, Option.bind_some, hl, hc, hh, hx, seqAccess, hclass, Bool.false_eq_true, if_false, nx]

/-- A failing frame before the end frame is named. -/
theorem endFrame_rejects_frame {q : Frm} {k : Nat} (hclass : bits x 255 252 = 15)
    (hbad : firstBad (s.region r) (imageOf l.frames) (bits g.bits 319 256) (bits g.bits 351 320) = some (q, k)) :
    Gives (.endFrame r) s (raise r (rejectFrame (imageOf l.frames) q k) s1) := by
  show execEndFrame r s = _
  simp only [execEndFrame, hg, hc, hh, hl, hx, seqAccess, hclass, hbad, Bool.false_eq_true, if_false, ne_eq, not_true_eq_false, nx]

/-- A failing end frame is named where no other frame fails. -/
theorem endFrame_rejects_end {k : Nat} (hclass : bits x 255 252 = 15)
    (hbad : firstBad (s.region r) (imageOf l.frames) (bits g.bits 319 256) (bits g.bits 351 320) = none)
    (hend : endReason { pos := l.frames.length, x := x, k := 0 } = some k) :
    Gives (.endFrame r) s (raise r (rejectFrame (imageOf l.frames) { pos := l.frames.length, x := x, k := 0 } k) s1) := by
  show execEndFrame r s = _
  simp only [execEndFrame, hg, hc, hh, hl, hx, seqAccess, hclass, hbad, hend, Bool.false_eq_true, if_false, ne_eq, not_true_eq_false, nx]

end Frames

/-! ### The image takes effect (R190, R191, R298) -/

section TakeEffect
variable {r : Nat} {I : Image} {l : Load} {arms : List Word} {s : State}

/-- Arming changes the MX sections alone. -/
theorem foldl_applyArm_keeps {β : Type} {f : Region → β} (hf : ∀ R mxs, f { R with mxs := mxs } = f R) (R : Region) :
    f (arms.foldl applyArm R) = f R :=
  List.foldlRecOn (motive := fun R' : Region => f R' = f R) _ _ rfl fun R' h _ _ => (hf R' _).trans h

/-- Beside the cores and the MXs, the region is as the image installs it, with its sections armed and the load resident. -/
theorem region_takeEffect : ∃ cores mxs, (takeEffect r I l arms s).region r =
    { arms.foldl applyArm (install I (s.region r)) with
      cores := cores, mxs := mxs, graph := (s.region r).graph.map (fun g => { g with load := none, resident := some l.node }) } := by
  have hgraph : (arms.foldl applyArm (install I (s.region r))).graph = (s.region r).graph :=
    foldl_applyArm_keeps (f := Region.graph) (fun _ _ => rfl) _
  rw [← hgraph]
  refine ⟨?cores, ?mxs, (State.region_modGraph_same ..).trans ?region⟩
  case region =>
    rw [State.region_setRegion_same]
    rfl

end TakeEffect

/-! ### The token and the deadlock (R204, R308 to R310) -/

section Token
variable {r n : Nat} {g : Graph} {c : Context} {s s1 : State}

theorem regions_dropRewrites : (dropRewrites r s).regions = s.regions :=
  List.foldlRecOn (motive := fun t : State => t.regions = s.regions) _ _ rfl fun _ h _ _ => h

/-- The graph once the token of load `n`, with these flags, has passed. -/
def Graph.passed (n : Nat) (flags : BitVec 5) (now : Nat) (g : Graph) : Graph :=
  Graph.finish n { g with resident := none, ahead := [], flags := g.flags ||| flags, spared := g.spared || g.justInTime now n }

/-- Without decision diagrams, spill rings and a pending seed, the token publishes the cores' buffers and settles the region. -/
theorem passToken_eq (hg : (s.region r).graph = some g) (hc : s.ctxOf (s.region r) = some c) (hdd : c.dd = none)
    (hrings : ringRanges (s.region r) g = []) (hseed : pendingSeed (s.region r) = none)
    (hpub : publishCores r (coreUnits (s.region r)) s = .ok () s1) (hc1 : Assoc.find c.attr.asid s1.contexts = some c) :
    passToken r n s = ((dropRewrites r s1).modRegion r settle).modGraph r (Graph.passed n (loadFlags (s.region r)) s.time) := by
  have hget : Assoc.get c c.attr.asid s1.contexts = c := by rw [Assoc.get_eq_find, hc1, Option.getD_some]
  simp only [passToken, hg, hc, hpub, hget, thenDdBack, hdd, hrings, ringTiles, List.flatMap_nil, freeRing, hseed]
  rfl

theorem region_passed {flags : BitVec 5} {now : Nat} : (((dropRewrites r s).modRegion r settle).modGraph r (Graph.passed n flags now)).region r =
    { settle (s.region r) with graph := (s.region r).graph.map (Graph.passed n flags now) } := by
  rw [State.region_modGraph_same, State.region_modRegion_same, State.region_congr regions_dropRewrites]
  rfl

section Quiescent
variable (hg : (s.region r).graph = some g) (hn : g.resident = some n) (hh : (s.region r).halt = false) (hp : (s.region r).preempt = none)
  (hq : quiescent r s = true)
include hg hn hh hp hq

theorem blotterQuiescence_passes (hempty : blockedUnits (s.region r) = []) : Gives (.blotterQuiescence r) s (passToken r n s) := by
  show execBlotterQuiescence r s = _
  simp only [execBlotterQuiescence, hg, hn, hh, hp, hq, hempty, Option.isSome_none, Bool.not_true, Bool.or_self, Bool.false_eq_true, if_false,
    List.isEmpty_nil, if_true, nx]

theorem blotterQuiescence_deadlock (hblocked : blockedUnits (s.region r) ≠ []) (hcopies : ∀ x ∈ (s.region r).copies, x.node = none)
    (hbatch : g.nodes.any batchRuns = false) (hmore : g.startsMore (detOn s (s.region r)) = false) (hover : loadOvertaken r n s = false) :
    Gives (.blotterQuiescence r) s (raise r { recOf 0x18 11 0 with
      position := BitVec.ofNat 64 (g.loads - 1), d0 := BitVec.ofNat 64 (blockedUnits (s.region r)).length } s) := by
  have hcopy : (s.region r).copies.any (fun x => x.node.isSome) = false :=
    List.any_eq_false.mpr fun x hx => by rw [hcopies x hx]; exact Bool.false_ne_true
  have hsome : (blockedUnits (s.region r)).isEmpty = false := List.isEmpty_eq_false_iff.mpr hblocked
  show execBlotterQuiescence r s = _
  simp only [execBlotterQuiescence, hg, hn, hh, hp, hq, hsome, hcopy, hbatch, hmore, hover, Option.isSome_none, Bool.not_true, Bool.or_self,
    Bool.false_eq_true, if_false, nx, toWord, Graph.cseq]

end Quiescent

end Token

/-- Settles O47: each event's lemma at the condition of its clause; what takes effect is read off the region. -/
theorem fabricLoads : Obligations.FabricLoads := by
  intro r g c s hg hc hh
  refine ⟨fun n x hrun hx hkind hmay hfirst => ?start, fun l x s1 hl hx hregions => ⟨fun hclass => ?frame, fun hclass => ?endFrame⟩,
    fun n hn hp hq => ⟨fun s1 hempty hdd hrings hseed hpub hg1 hc1 => ?token, blotterQuiescence_deadlock hg hn hh hp hq⟩⟩
  case start =>
    have hload : g.mayLoad (detOn s (s.region r)) n = true := Graph.mayLoad_iff.mpr ⟨by rw [hx, Option.map_some, hkind], hmay⟩
    have hfind := Graph.find_mayLoad hload fun m hm h => and_imp.mpr (hfirst m hm) (Graph.mayLoad_iff.mp h)
    refine ⟨_, fabricLoadStart_gives hg hrun hx hfind, State.contexts_modCtx_congr rfl, ?_⟩
    rw [State.region_modCtx, State.region_modGraph_same, hg]
    rfl
  case frame =>
    refine ⟨_, configFrame_gives hg hc hh hl hx hclass, ?_⟩
    rw [State.region_modGraph_same, State.region_congr hregions, hg]
    rfl
  case endFrame =>
    refine ⟨fun hbad hend harms => ?effect, fun q k => endFrame_rejects_frame hg hc hh hl hx hclass, fun k => endFrame_rejects_end hg hc hh hl hx hclass⟩
    obtain ⟨cores, mxs, hR⟩ := region_takeEffect (r := r) (I := imageOf l.frames) (l := l) (s := s1)
      (arms := ((g.nodes[l.node]?).map (fun x => x.arms)).getD [])
    rw [State.region_congr hregions, hg] at hR
    refine ⟨_, { g with load := none, resident := some l.node }, endFrame_takes_effect hg hc hh hl hx hclass hbad hend harms, ?graph, rfl, rfl, rfl,
      ?arcs, rfl, rfl, ?bars, ?phases⟩ <;> rw [hR]
    case graph => rfl
    case arcs => exact foldl_applyArm_keeps (f := Region.arcs) (fun _ _ => rfl) _
    case bars => exact foldl_applyArm_keeps (f := Region.bars) (fun _ _ => rfl) _
    case phases => exact foldl_applyArm_keeps (f := Region.phases) (fun _ _ => rfl) _
  case token =>
    have hgo := (blotterQuiescence_passes hg hn hh hp hq hempty).trans (congrArg _ (passToken_eq hg hc hdd hrings hseed hpub hc1))
    refine ⟨_, hgo, ?_⟩
    rw [region_passed, hg1]
    exact ⟨rfl, rfl⟩

end Sys2Proof.Machine

end

section

namespace Sys2Proof.Machine

open Sys2Proof.Claims

/-! ## Updates at the cursor -/

section Cursor
variable {f : Slot → Slot} {h : Core → Core} {k : Region → Region} {s : State}

theorem State.hereR_modHere : (s.modHere f).hereR = s.hereR.setCore s.cur.unit (s.hereC.setSlot s.cur.slot (f s.here)) := State.region_modCore_same ..
theorem State.hereR_modHereC : (s.modHereC h).hereR = s.hereR.setCore s.cur.unit (h s.hereC) := State.region_modCore_same ..
/-- A change of the region that leaves its cores leaves the core and the slot under the cursor. -/
theorem State.hereC_modHereR (hk : ∀ R, (k R).cores = R.cores) : (s.modHereR k).hereC = s.hereC := State.hereC_modRegion hk ..
theorem State.here_modHereR (hk : ∀ R, (k R).cores = R.cores) : (s.modHereR k).here = s.here :=
  congrArg (Core.slot · s.cur.slot) (State.hereC_modHereR hk)
theorem State.hereR_takeId : (s.takeId s.cur.region).2.hereR = { s.hereR with nextId := s.hereR.nextId + 1 } := State.region_modRegion_same ..

end Cursor

/-! ## Memory-side atomics (O19, O20) -/

/-! ### An atomic leaves for its unit (R218 to R223, R448) -/

section Leaving
variable {g : Guard} {d : Reg} {a b c : Src} {srcs : List Src} {op : AtomKind} {dest : Option Reg} {glob dbl val : Bool} {s : State}

/-- The state once an atomic's number has been taken, by its producer where it returns a value. -/
def atomNumbered (dest : Option Reg) (s : State) : State :=
  match dest with
  | some d => launch [d] .atomic s
  | none => (s.takeId s.cur.region).2
/-- The region once atomic `x` is on its way. -/
def Region.sends (x : Atomic) (R : Region) : Region := { R with atomics := R.atomics ++ [x] }
/-- The state once atomic `x` has left. -/
def atomSent (x : Atomic) (dest : Option Reg) (s : State) : State :=
  retire (fun sl => { sl with aseq := sl.aseq + 1 }) ((atomNumbered dest s).modHereR (Region.sends x))

/-- A unit takes an atomic where it has room, and where it holds nothing back. -/
theorem atomPushed_of_free (h : AtomFree val glob a s) :
    atomPushed (atomUnit glob (rv s a).toNat s) (issuerOf s.cur.unit s.cur.slot) s = false := by
  rcases h.2 with ⟨hdet, hbudget⟩ | hroom
  · simp [atomPushed, hdet, hbudget]
  · simp [atomPushed, hroom]

theorem sendAtomic_of_free (h : AtomFree val glob a s) : sendAtomic glob a b c op dest dbl s = atomSent (Claims.atomOf glob a b c op dbl s) dest s := by
  simp only [sendAtomic, atomPushed_of_free h, Bool.false_eq_true, if_false]
  cases dest <;> cases dbl <;> rfl

theorem scratchBad_of_fits_atom {i : Int} (hfits : Fits i (if dbl then 8 else 4) 0x400000)
    (hb : borrowed s.hereR s.hereCl i.toNat (if dbl then 8 else 4) = false) : scratchBad i (atomBytes dbl) s = false := by
  cases dbl
  · exact scratchBad_of_fits (z := .w) hfits hb
  · exact scratchBad_of_fits (z := .d) hfits hb

theorem atomS_gives (h : Issues g srcs dest.toList s) (hfits : Fits (rv s a).toNat (if dbl then 8 else 4) 0x400000)
    (hb : borrowed s.hereR s.hereCl (rv s a).toNat (if dbl then 8 else 4) = false) (hfree : AtomFree dest.isSome false a s) :
    atomS g a b c srcs op dest dbl s = .next (atomSent (Claims.atomOf false a b c op dbl s) dest s) := by
  have hin : scratchBad (rv s a).toNat (atomBytes dbl) s = false := scratchBad_of_fits_atom hfits hb
  rw [atomS, issue_of_issues h]
  simp only [hin, hfree.1, Bool.false_eq_true, if_false, sendAtomic_of_free hfree]

theorem atomG_gives (hu : OnControl s) (h : Issues g srcs dest.toList s) (hfits : Fits (rv s a).toNat (if dbl then 8 else 4) (hereSeg s))
    (hfree : AtomFree dest.isSome true a s) :
    onControl (atomG g a b c srcs op dest dbl) s = .next (atomSent (Claims.atomOf true a b c op dbl s) dest s) := by
  rw [onControl_of_control hu, atomG, issue_of_issues h]
  refine congrArg _ ((segChk_of_fits hfits).trans ?_)
  simp only [hfree.1, Bool.false_eq_true, if_false, sendAtomic_of_free hfree]

theorem Slot.pend_pc {ds : List Reg} {sl : Slot} : (sl.pend ds).pc = sl.pc := by
  induction ds generalizing sl with
  | nil => rfl
  | cons d ds ih => exact ih.trans (Slot.setFill_pc ..)
theorem Slot.pend_aseq {ds : List Reg} {sl : Slot} : (sl.pend ds).aseq = sl.aseq := by
  induction ds generalizing sl with
  | nil => rfl
  | cons d ds ih => exact ih.trans (Slot.setFill_aseq ..)
/-- One atomic more has left the slot. -/
def Slot.sentOne (sl : Slot) : Slot := { sl with aseq := sl.aseq + 1 }

theorem atomics_atomNumbered : (atomNumbered dest s).hereR.atomics = s.hereR.atomics := by
  cases dest with
  | none => rw [atomNumbered, State.hereR_takeId]
  | some d =>
    rw [atomNumbered, launch, State.hereR_modHere, Region.setCore_atomics, State.hereR_modHereC, Region.setCore_atomics]
    show (s.takeId s.cur.region).2.hereR.atomics = _
    rw [State.hereR_takeId]
theorem here_atomNumbered : (atomNumbered dest s).here = s.here.pend dest.toList := by
  cases dest with
  | none => exact State.here_takeId ..
  | some d => exact launch_here ..
theorem producers_atomNumbered : (atomNumbered dest s).hereC.producers.length = s.hereC.producers.length + dest.toList.length := by
  cases dest with
  | none => simp [atomNumbered]
  | some d => simp [atomNumbered, launch, Core.setSlot]

theorem cores_sends {x : Atomic} (R : Region) : (Region.sends x R).cores = R.cores := rfl
theorem here_atomSent {x : Atomic} : (atomSent x dest s).here = (s.here.pend dest.toList).sentOne.next := by
  refine (retire_here ..).trans (congrArg (fun sl : Slot => sl.sentOne.next) ?_)
  rw [State.here_modHereR (k := Region.sends x) cores_sends, here_atomNumbered]
theorem pending_pend {d e : Reg} {sl : Slot} (h : e ∈ (some d).toList) (he : e ≠ 0) : (sl.pend (some d).toList).fill e = .pending := by
  obtain rfl : e = d := by simpa using h
  exact (Slot.fill_setFill ..).trans (if_pos ⟨rfl, he⟩)

theorem atomicSent {x : Atomic} : AtomicSent x dest.toList s (atomSent x dest s) := by
  refine ⟨?_, ?_, ?_, ?_, ?_, ?_, ?_, ?_⟩
  · rw [atomSent, retire, State.hereR_modHere, Region.setCore_atomics, State.hereR_modHereR]
    exact congrArg (· ++ [x]) atomics_atomNumbered
  · rw [here_atomSent]
    exact congrArg (· + 1) Slot.pend_pc
  · rw [here_atomSent]
    exact congrArg (· + 1) Slot.pend_aseq
  · intro e he h0
    rw [here_atomSent]
    cases dest with
    | none => simp at he
    | some d => exact pending_pend (sl := s.here) he h0
  · rw [atomSent, retire, State.hereC_modHere, Core.setSlot_producers, State.hereC_modHereR (k := Region.sends x) cores_sends]
    exact producers_atomNumbered
  all_goals cases dest <;> rfl

end Leaving

/-- Settles O19: where its unit takes it, an atomic is sent with the operands of R218 (`atomS_gives`, `atomG_gives`), and `atomicSent` says
what the sending changes. -/
theorem atomicsLeave : Obligations.AtomicsLeave := by
  unfold Obligations.AtomicsLeave
  intro g d a b c op vop dbl s i n
  refine ⟨fun hfits hb => ⟨fun h hfree => ?_, fun h hfree => ?_⟩, fun hu hfits => ⟨fun h hfree => ?_, fun h hfree => ?_⟩⟩
  · exact ⟨_, atomS_gives (dest := none) h hfits hb hfree, atomicSent⟩
  · exact ⟨_, atomS_gives (dest := some d) h hfits hb hfree, atomicSent⟩
  · exact ⟨_, atomG_gives (dest := none) hu h hfits hfree, atomicSent⟩
  · exact ⟨_, atomG_gives (dest := some d) hu h hfits hfree, atomicSent⟩

/-! ### An atomic performs (R219 to R222) -/

section Performing
variable {r k u m old key : Nat} {sp : Space} {a : Atomic} {p : Producer} {d : Reg} {s : State}

/-- A unit's charge is the context's alone. -/
theorem chargeAtom_keeps : (chargeAtom r m s).regions = s.regions ∧ (chargeAtom r m s).smem = s.smem ∧ (chargeAtom r m s).lmem = s.lmem ∧
    (chargeAtom r m s).tmem = s.tmem := by
  unfold chargeAtom
  split
  · exact ⟨rfl, rfl, rfl, rfl⟩
  · exact ⟨State.modCtx_regions .., State.modCtx_smem .., State.modCtx_lmem .., State.modCtx_tmem ..⟩

/-- The region without the atomics of this number. -/
def Region.forgets (k : Nat) (R : Region) : Region := { R with atomics := R.atomics.filter (fun b => b.id ≠ k) }
theorem cores_forgets (R : Region) : (R.forgets k).cores = R.cores := rfl
/-- The state once an atomic that has performed is off the list, before its producer completes. -/
def atomOff (r : Nat) (a : Atomic) (s : State) : State := (chargeAtom r a.mem s).modRegion r (Region.forgets a.id)

theorem atomics_atomOff : ((atomOff r a s).region r).atomics = (s.region r).atomics.filter (fun x => x.id ≠ a.id) := by
  rw [atomOff, State.region_modRegion_same, State.region_congr chargeAtom_keeps.1]
  rfl
theorem core_atomOff : (atomOff r a s).core r u = s.core r u := by
  rw [atomOff, State.core_modRegion cores_forgets, State.core, State.region_congr chargeAtom_keeps.1]
  rfl
/-- The producer that an atomic of this number completes. -/
def Core.atomProducer (k : Nat) (c : Core) : Option Producer := c.producers.find? (fun q => decide (q.id = k))
theorem atomEnd_eq : atomEnd r a old s = ((s.core r a.unit).atomProducer a.id).elim (atomOff r a s)
    (fun p => complete r a.unit p [toWord old] flNone (atomOff r a s)) := by
  rw [← core_atomOff (a := a)]
  dsimp only [atomEnd]
  split
  · next p h => rw [show ((atomOff r a s).core r a.unit).atomProducer a.id = some p from h]; rfl
  · next h => rw [show ((atomOff r a s).core r a.unit).atomProducer a.id = none from h]; rfl

/-- The end of an atomic changes no byte of memory, and takes it off the list. -/
theorem atomEnd_keeps : (atomEnd r a old s).smem = s.smem ∧ (atomEnd r a old s).lmem = s.lmem ∧ (atomEnd r a old s).tmem = s.tmem ∧
    ((atomEnd r a old s).region r).atomics = (s.region r).atomics.filter (fun x => x.id ≠ a.id) := by
  obtain ⟨-, hs, hl, ht⟩ := chargeAtom_keeps (r := r) (m := a.mem) (s := s)
  rw [← atomics_atomOff]
  rw [atomEnd_eq]
  cases (s.core r a.unit).atomProducer a.id with
  | none => exact ⟨hs, hl, ht, rfl⟩
  | some p => exact ⟨hs, hl, ht, by simp [complete, State.modSlot]⟩

/-- The producer of an atomic receives the old value. -/
theorem atomEnd_slot (h : (s.core r a.unit).atomProducer a.id = some p) (hp : p.dests = [d]) :
    (atomEnd r a old s).slot r a.unit p.slot = ((s.slot r a.unit p.slot).wr d (toWord old)).flag flNone := by
  rw [atomEnd_eq, h, Option.elim_some, complete_slot_single hp, State.slot, core_atomOff]
  rfl

/-- What a unit learns from an atomic is neither memory nor a producer nor a slot. -/
theorem passOn_keeps : (passOn r a sp key s).smem = s.smem ∧ (passOn r a sp key s).lmem = s.lmem ∧ (passOn r a sp key s).tmem = s.tmem ∧
    ((passOn r a sp key s).region r).atomics = (s.region r).atomics ∧
    ((passOn r a sp key s).core r a.unit).producers = (s.core r a.unit).producers ∧
    (passOn r a sp key s).slot r a.unit k = s.slot r a.unit k := by
  refine ⟨rfl, rfl, rfl, ?_, ?_, ?_⟩
  · simp only [passOn, State.region_modCore_same, Region.setCore_atomics]
  · simp only [passOn, State.core_modCore_same]; rfl
  · simp only [passOn, State.slot, State.core_modCore_same]; rfl

/-- The state after an atomic on S space has performed. -/
def atomDone (r : Nat) (a : Atomic) (old : Nat) (s : State) : State :=
  atomEnd r a old (passOn r a .s (sKey r (uCl a.unit) a.addr) (s.sWrite r (uCl a.unit) a.addr (bytesLE a.n (atomNew a old))))

theorem atomicPerform_gives (hr : (s.region r).halt = false) (he : s.errors = [])
    (hf : (s.region r).atomics.find? (fun x => decide (x.id = k)) = some a) (hg : a.glob = false) (hb : hasBudget r s = true)
    (hready : detOn s (s.region r) = false ∨ atomReady s (s.region r) a = true) :
    Gives (.atomicPerform r k) s (atomDone r a (ofBytesLE (s.smem.reads (sKey r (uCl a.unit) a.addr) a.n)) s) := by
  have hre : atomReady s (s.region r) a = true := hready.elim (fun h => by simp [atomReady, h]) id
  have hheld : atomHeld r a s = false := by simp [atomHeld, hg]
  have hclean : ∀ c : Nat, ∀ e ∈ s.errors, e.code ≠ c := by simp [he]
  have hperf : atomPerform r a s = atomPerformS r a s := by
    rw [atomPerform, readChk_clean (hclean 7), hg]; rfl
  show execAtomicPerform r k s = _
  simp only [execAtomicPerform, hr, hf, hb, hre, hheld, hperf, atomPerformS, readChk_clean (hclean 6), Bool.not_true, Bool.or_self, Bool.false_eq_true, if_false]
  rfl

end Performing

/-- Settles O20: the performing event at `atomDone`, whose write is the atomic's bytes alone (`VMem.reads_writes_same`, `VMem.read_writes_other`)
and whose end completes the producer (`atomEnd_slot`). -/
theorem atomicPerforms : Obligations.AtomicPerforms := by
  unfold Obligations.AtomicPerforms
  intro r k a s hr he hf hg hn hb hready key old
  have hlen : (bytesLE a.n (atomNew a old)).length = a.n := length_bytesLE ..
  let w := s.sWrite r (uCl a.unit) a.addr (bytesLE a.n (atomNew a old))
  obtain ⟨hs, hl, ht, hat, hpr, -⟩ := passOn_keeps (k := 0) (r := r) (a := a) (sp := .s) (key := key) (s := w)
  obtain ⟨es, el, et, eat⟩ := atomEnd_keeps (r := r) (a := a) (old := old) (s := passOn r a .s key w)
  have hsm : (atomDone r a old s).smem = s.smem.writes s.moment key (bytesLE a.n (atomNew a old)) := es.trans hs
  refine ⟨atomDone r a old s, atomicPerform_gives hr he hf hg hb hready, ?_, fun i hi => ?_, el.trans hl, et.trans ht, ?_, fun p d hp hd hd0 => ?_⟩
  · rw [hsm]
    exact (congrArg _ hlen.symm).trans VMem.reads_writes_same
  · rw [hsm]
    exact VMem.read_writes_other _ _ (by omega)
  · exact eat.trans (by rw [hat]; rfl)
  · have hslot : (atomDone r a old s).slot r a.unit p.slot = ((s.slot r a.unit p.slot).wr d (toWord old)).flag flNone :=
      (atomEnd_slot ((congrArg _ hpr).trans hp) hd).trans (by rw [passOn_keeps.2.2.2.2.2]; rfl)
    rw [hslot]
    exact ⟨Slot.rd_wr_same hd0 .., (Slot.fill_wr ..).trans (if_pos rfl)⟩

/-! ## CBAR and PHASE (O21) -/

/-! ### What accesses to sealed memory leave of the machine (R385 to R398) -/

section Sealed
variable {α β : Type} {P : State → Prop} {K : Assoc Region × Cursor × VMem × VMem} {c : Context} {r : Nat} {s : State}

/-- The state is so after the access, whatever its outcome. -/
def MemRes.All (P : State → Prop) : MemRes α → Prop
  | .ok _ s | .wait s | .fail _ s => P s
/-- The same of a translation. -/
def XRes.All (P : State → Prop) : XRes α → Prop
  | .ok _ s | .miss _ s | .wait s | .fail _ s => P s

theorem MemRes.All.bind {x : MemRes α} {f : α → State → MemRes β} (hx : x.All P) (hf : ∀ v t, P t → (f v t).All P) : (x.bind f).All P := by
  cases x with
  | ok v t => exact hf v t hx
  | wait t => exact hx
  | fail y t => exact hx
theorem XRes.All.bind {x : XRes α} {f : α → State → XRes β} (hx : x.All P) (hf : ∀ v t, P t → (f v t).All P) : (x.bind f).All P := by
  cases x with
  | ok v t => exact hf v t hx
  | miss k t => exact hx
  | wait t => exact hx
  | fail y t => exact hx
theorem MemRes.All.lift {x : MemRes α} (hx : x.All P) : (XRes.lift x).All P := by
  cases x <;> exact hx
theorem MemRes.All.atG {x : MemRes α} {off : Nat} {w : Bool} (hx : x.All P) : (x.atG off w).All P := by
  cases x <;> exact hx

/-- The regions, the cursor, the scratchpads and the local stores. -/
def State.cells (s : State) : Assoc Region × Cursor × VMem × VMem := (s.regions, s.cur, s.smem, s.lmem)

theorem cells_setParent {level m : Nat} {e : Meta} : (setParent level m e s).cells = s.cells := by
  rw [setParent]
  split <;> rfl
theorem cells_metaWriteback {level m : Nat} : (metaWriteback level m s).cells = s.cells := by
  rw [metaWriteback]
  split
  · rfl
  · split
    · exact cells_setParent
    · rfl
theorem cells_fetchLevel {level m : Nat} : (fetchLevel level m s).2.cells = s.cells := by
  rw [fetchLevel]
  split
  · rfl
  · dsimp only
    split
    · rfl
    · split
      · rfl
      · exact cells_metaWriteback
theorem cells_fetchMeta {ptn : Nat} : (fetchMeta ptn s).2.cells = s.cells :=
  (cells_fetchLevel.trans cells_fetchLevel).trans cells_fetchLevel
theorem cells_decrypted {key ptn dev version : Nat} : (decrypted key ptn dev version s).cells = s.cells := by
  rw [decrypted]
  split <;> rfl

section Access
variable (h : s.cells = K)
include h

theorem cells_fillTile {key dev ptn : Nat} : (fillTile key dev ptn s).All (·.cells = K) := by
  simp only [fillTile]
  split
  · exact h
  · split
    · exact h
    · split
      · exact cells_decrypted.trans h
      · exact h
theorem cells_poisonedAccess {dev ptn r : Nat} {write whole : Bool} : (poisonedAccess dev ptn r write whole s).All (·.cells = K) := by
  simp only [poisonedAccess]
  split
  · exact h
  · split
    · split <;> exact h
    · exact h
theorem cells_openTile {key dev r : Nat} {write whole : Bool} : (openTile key dev r write whole s).All (·.cells = K) := by
  simp only [openTile]
  split
  · exact h
  split
  · exact h
  split
  · exact h
  have hmeta {places ptn} : (fetchMeta ptn { s with places := places }).2.cells = K := cells_fetchMeta.trans h
  split
  · split <;> exact h
  split
  · exact hmeta
  split
  · exact hmeta
  split
  · exact cells_poisonedAccess hmeta
  split
  · exact hmeta
  · exact cells_fillTile hmeta
theorem cells_tileRead {key dev off n t r : Nat} : (tileRead key dev off n t r s).All (·.cells = K) := by
  refine (cells_openTile h).bind fun ptn s1 h1 => ?_
  dsimp only
  split
  · exact h1
  · split
    · split <;> exact h1
    · exact h1
theorem cells_tileWrite {key dev r : Nat} {l : List (Nat × Byte)} : (tileWrite key dev l r s).All (·.cells = K) :=
  (cells_openTile h).bind fun _ _ h1 => h1
theorem cells_walk2 {r tile : Nat} {l : List Nat} : (walk2 r tile l s).All (·.cells = K) := by
  induction l generalizing tile s with
  | nil => exact h
  | cons i l ih =>
    have htable : (tableRead r tile (8 * i) 8 s).All (·.cells = K) := by
      rw [tableRead]
      split
      · exact cells_tileRead h
      · exact h
    refine htable.lift.bind fun bs s1 h1 => ?_
    dsimp only
    split
    · exact h1
    · split
      · exact h1
      · split
        · exact h1
        · exact ih h1
theorem cells_stage2 {mid : Nat} : (stage2 c r mid s).All (·.cells = K) := by
  rw [stage2]
  split
  · exact h
  · dsimp only
    split
    · exact h
    · exact (cells_walk2 (s := s.draw.2) h).bind fun _ _ h1 => h1
theorem cells_gTile {off : Nat} {write : Bool} : (gTile c r off write s).All (·.cells = K) := by
  have hstage : (stage2 c r (c.attr.csBase + off / 4096) s).All (·.cells = K) := cells_stage2 h
  rw [gTile]
  generalize stage2 c r (c.attr.csBase + off / 4096) s = x at hstage ⊢
  cases x with
  | ok p s1 =>
    dsimp only
    generalize (!if write = true then p.2.2 else p.2.1) = barred
    cases barred <;> exact hstage
  | miss k s1 => exact hstage
  | wait s1 => exact hstage
  | fail y s1 => exact hstage
/-- A write of G space changes neither a region nor the scratchpads nor the local stores. -/
theorem cells_gWriteEach {off : Nat} {l : List (Nat × Byte)} : (gWriteEach c r off l s).All (·.cells = K) :=
  (cells_gTile h).bind fun _ _ h1 => (cells_tileWrite h1).atG

end Access

theorem cells_readHeld {ptn : Nat} : (readHeld ptn s).cells = s.cells := by
  simp only [readHeld]
  split <;> rfl
theorem cells_setHeld {ptn : Nat} {x : Held} : (setHeld ptn x s).cells = s.cells := rfl
theorem cells_store {key version ptn dev : Nat} : (store key version ptn dev s).cells = s.cells := rfl
theorem cells_writeback {ptn : Nat} : (writeback ptn s).cells = s.cells := by
  simp only [writeback]
  split
  · rfl
  · split
    · split
      · exact cells_readHeld
      · rw [cells_setHeld, cells_store, cells_readHeld]
    · rfl
theorem cells_writebackKey {key : Nat} : (writebackKey key s).cells = s.cells :=
  List.foldlRecOn (motive := fun t : State => t.cells = s.cells) _ _ rfl fun _ ht _ _ => cells_writeback.trans ht
/-- Writing G space through changes neither a region nor a byte of memory. -/
theorem writeThrough_keeps : (writeThrough r s).cells = s.cells ∧ (writeThrough r s).tmem = s.tmem := by
  rw [writeThrough]
  split
  · exact ⟨cells_writebackKey, writebackKey_keeps.2⟩
  · exact ⟨rfl, rfl⟩

end Sealed

/-! ### Publishing leaves the other buffers, and its own one empty (R172, R217) -/

section Publishing
variable {α β : Type} {P Q : State → Prop} {r u : Nat} {w : PWord} {ws : List PWord} {l : List Nat} {f : Core → Core} {s t m : State}

theorem MemRes.All.imp {x : MemRes α} (h : ∀ t, P t → Q t) (hx : x.All P) : x.All Q := by
  cases x <;> exact h _ hx
theorem MemRes.of_bind_ok {x : MemRes α} {f : α → State → MemRes β} {v : β} (h : x.bind f = .ok v t) : ∃ a s1, x = .ok a s1 ∧ f a s1 = .ok v t := by
  cases x with
  | ok a s1 => exact ⟨a, s1, rfl, h⟩
  | wait s1 => cases h
  | fail y s1 => cases h
theorem MemRes.All.of_ok {x : MemRes α} {v : α} (hx : x.All P) (h : x = .ok v t) : P t := by
  rw [h] at hx
  exact hx

/-- The cursor and the phase buffers of region `r` are those of `s`. -/
def SamePhases (r : Nat) (s t : State) : Prop := t.cur = s.cur ∧ ∀ v, (t.core r v).phase = (s.core r v).phase

theorem SamePhases.refl : SamePhases r s s := ⟨rfl, fun _ => rfl⟩
theorem SamePhases.trans (h : SamePhases r s t) (h' : SamePhases r t m) : SamePhases r s m := ⟨h'.1.trans h.1, fun v => (h'.2 v).trans (h.2 v)⟩
theorem samePhases_of_cells (h : t.cells = s.cells) : SamePhases r s t := by
  simp only [State.cells, Prod.mk.injEq] at h
  exact ⟨h.2.1, fun v => congrArg (fun R : Region => (R.core v).phase) (State.region_congr h.1 r)⟩
theorem SamePhases.modCore (hf : ∀ c : Core, (f c).phase = c.phase) (h : SamePhases r s t) : SamePhases r s (t.modCore r u f) := by
  refine ⟨h.1, fun v => Eq.trans ?_ (h.2 v)⟩
  by_cases hv : v = u
  · rw [hv, State.core_modCore_same, hf]
  · rw [State.core_modCore_other hv]

theorem samePhases_performWord : (performWord r u w s).All (SamePhases r s) := by
  rw [performWord]
  cases w.sp with
  | s => exact SamePhases.modCore (t := { s with smem := _, moment := _, errors := _ }) (fun _ => rfl) ⟨rfl, fun _ => rfl⟩
  | r => exact SamePhases.modCore (t := { s with lmem := _, moment := _, errors := _ }) (fun _ => rfl) ⟨rfl, fun _ => rfl⟩
  | g =>
    dsimp only
    split
    · exact SamePhases.refl
    · split
      · exact SamePhases.refl
      · split
        · exact SamePhases.refl
        · exact ((cells_gWriteEach rfl).imp fun _ => samePhases_of_cells).bind fun _ _ h => SamePhases.modCore (fun _ => rfl) h
theorem samePhases_performWords : (performWords r u ws s).All (SamePhases r s) := by
  induction ws generalizing s with
  | nil => exact SamePhases.refl
  | cons w ws ih => exact samePhases_performWord.bind fun _ t h => ih.imp fun _ h' => h.trans h'
theorem samePhases_phaseRead : (phaseRead r u s).All (SamePhases r s) := by
  rw [phaseRead]
  split <;> exact SamePhases.refl

/-- The buffers of the cores `l` are empty, and the others as before. -/
def EmptiesPhases (r : Nat) (l : List Nat) (s t : State) : Prop :=
  t.cur = s.cur ∧ ∀ v, (t.core r v).phase = if v ∈ l then [] else (s.core r v).phase

theorem publish_empties (h : publish r u s = .ok () t) : EmptiesPhases r [u] s t := by
  obtain ⟨_, s1, hread, h⟩ := MemRes.of_bind_ok h
  obtain ⟨_, s2, hperf, h⟩ := MemRes.of_bind_ok h
  obtain ⟨hcur, hph⟩ := (samePhases_phaseRead.of_ok hread).trans (samePhases_performWords.of_ok hperf)
  cases h
  refine ⟨hcur, fun v => ?_⟩
  by_cases hv : v = u
  · rw [hv, State.core_modCore_same, if_pos (List.mem_singleton.mpr rfl)]
  · rw [State.core_modCore_other hv, if_neg (by simpa using hv)]
    exact hph v
theorem publishCores_cons (h : publishCores r (u :: l) s = .ok () m) : ∃ t, publish r u s = .ok () t ∧ publishCores r l t = .ok () m := by
  rw [publishCores] at h
  generalize publish r u s = x at h
  cases x with
  | ok v t => exact ⟨t, rfl, h⟩
  | wait t => cases h
  | fail y t => cases h
theorem publishCores_empties (h : publishCores r l s = .ok () m) : EmptiesPhases r l s m := by
  induction l generalizing s with
  | nil => cases h; exact ⟨rfl, fun v => rfl⟩
  | cons u l ih =>
    obtain ⟨t, hu, hl⟩ := publishCores_cons h
    obtain ⟨tcur, tph⟩ := publish_empties hu
    obtain ⟨mcur, mph⟩ := ih hl
    refine ⟨mcur.trans tcur, fun v => ?_⟩
    rw [mph, tph]
    by_cases hvl : v ∈ l <;> by_cases hvu : v = u <;> simp [hvl, hvu]

end Publishing

/-! ### The bytes of a publish without words of G space (R217, log 9) -/

section Bytes
variable {r u now k : Nat} {b : Byte} {w : PWord} {ws : List PWord} {l : List Nat} {f g : Bool → List (Nat × Byte)} {s t m : State}

theorem lastByte_append {p q : List (Nat × Byte)} : lastByte (p ++ q) k b = lastByte q k (lastByte p k b) := List.foldl_append ..
theorem read_writeEach {p : List (Nat × Byte)} {m : VMem} : (m.writeEach now p).read k = lastByte p k (m.read k) := by
  induction p generalizing m with
  | nil => rfl
  | cons q p ih =>
    refine ih.trans (congrArg (lastByte p k) ?_)
    show _ = if q.1 = k then q.2 else m.read k
    by_cases hk : q.1 = k
    · rw [if_pos hk, ← hk, VMem.read_write_same]
    · rw [if_neg hk, VMem.read_write_other (Ne.symm hk)]

/-- No soft error is present, tier memory is as before, and the scratchpads (`f false`) and local stores (`f true`) hold these bytes besides. -/
def Wrote (f : Bool → List (Nat × Byte)) (s t : State) : Prop :=
  t.errors = [] ∧ t.tmem = s.tmem ∧ ∀ k, t.smem.read k = lastByte (f false) k (s.smem.read k) ∧ t.lmem.read k = lastByte (f true) k (s.lmem.read k)

theorem Wrote.trans (h : Wrote f s t) (h' : Wrote g t m) : Wrote (fun b => f b ++ g b) s m := by
  obtain ⟨-, ht, hk⟩ := h
  obtain ⟨he, hm, hk'⟩ := h'
  refine ⟨he, hm.trans ht, fun k => ?_⟩
  rw [lastByte_append, lastByte_append, ← (hk k).1, ← (hk k).2]
  exact hk' k

/-- The bytes that words of core `u`'s buffer write to scratchpads or local stores, each at its key. -/
def coreBytes (r u : Nat) (ws : List PWord) (b : Bool) : List (Nat × Byte) :=
  (ws.filter (fun w => w.sp == if b then .r else .s)).flatMap (fun w => w.bytes.map (fun p =>
    (if b then lKey r (mkUnit (uCl u) 0 (w.addr / 2 ^ 16)) (p.1 % 2 ^ 16) else sKey r (uCl u) p.1, p.2)))
theorem coreBytes_cons : coreBytes r u (w :: ws) = fun b => coreBytes r u [w] b ++ coreBytes r u ws b := by
  funext b
  simp only [coreBytes, ← List.flatMap_append, ← List.filter_append, List.singleton_append]
theorem publishedBytes_eq {b : Bool} : publishedBytes b l s = l.flatMap (fun u => coreBytes s.cur.region u (s.core s.cur.region u).phase b) := rfl

theorem foldl_clearErr_nil {p : List (Nat × Byte)} {h : Nat × Byte → Nat} {code unit : Nat} :
    p.foldl (fun e q => clearErr r code unit (h q) 1 e) [] = [] :=
  List.foldlRecOn (motive := fun e => e = []) _ _ rfl fun e he _ _ => by rw [he]; rfl

/-- The state once a word of S space has performed. -/
def performedS (r u : Nat) (w : PWord) (s : State) : State :=
  State.modCore r u (Core.sawEach .s (w.bytes.map (fun p => sKey r (uCl u) p.1)) (s.moment + 1))
    { s with smem := VMem.writeEach s.moment (w.bytes.map (fun p => (sKey r (uCl u) p.1, p.2))) s.smem, moment := s.moment + 1,
             errors := w.bytes.foldl (fun e p => clearErr r 6 (uCl u) p.1 1 e) s.errors }
/-- The state once a word of R space has performed. -/
def performedR (r u : Nat) (w : PWord) (s : State) : State :=
  let v := mkUnit (uCl u) 0 (w.addr / 2 ^ 16)
  State.modCore r u (Core.sawEach .r (w.bytes.map (fun p => lKey r v (p.1 % 2 ^ 16))) (s.moment + 1))
    { s with lmem := VMem.writeEach s.moment (w.bytes.map (fun p => (lKey r v (p.1 % 2 ^ 16), p.2))) s.lmem, moment := s.moment + 1,
             errors := w.bytes.foldl (fun e p => clearErr r 0 v (p.1 % 2 ^ 16) 1 e) s.errors }
theorem performWord_s (h : w.sp = .s) : performWord r u w s = .ok () (performedS r u w s) := by
  rw [performWord, h]
  rfl
theorem performWord_r (h : w.sp = .r) : performWord r u w s = .ok () (performedR r u w s) := by
  rw [performWord, h]
  rfl
theorem performWord_wrote (hw : w.sp ≠ .g) (he : s.errors = []) : ∃ t, performWord r u w s = .ok () t ∧ Wrote (coreBytes r u [w]) s t := by
  cases hsp : w.sp with
  | s =>
    refine ⟨_, performWord_s hsp, ?_, rfl, fun k => ⟨?_, ?_⟩⟩
    · show w.bytes.foldl _ s.errors = []
      rw [he]; exact foldl_clearErr_nil (h := Prod.fst)
    · refine read_writeEach.trans ?_
      simp [coreBytes, hsp]
    · simp [coreBytes, hsp, lastByte]; rfl
  | r =>
    refine ⟨_, performWord_r hsp, ?_, rfl, fun k => ⟨?_, ?_⟩⟩
    · show w.bytes.foldl _ s.errors = []
      rw [he]; exact foldl_clearErr_nil (h := fun q => q.1 % 2 ^ 16)
    · simp [coreBytes, hsp, lastByte]; rfl
    · refine read_writeEach.trans ?_
      simp [coreBytes, hsp]
  | g => exact absurd hsp hw
theorem performWords_wrote (hw : ∀ w ∈ ws, w.sp ≠ .g) (he : s.errors = []) : ∃ t, performWords r u ws s = .ok () t ∧ Wrote (coreBytes r u ws) s t := by
  induction ws generalizing s with
  | nil => exact ⟨s, rfl, he, rfl, fun k => ⟨rfl, rfl⟩⟩
  | cons w ws ih =>
    obtain ⟨hw1, hws⟩ := List.forall_mem_cons.mp hw
    obtain ⟨t, ht, hwt⟩ := performWord_wrote (r := r) (u := u) hw1 he
    obtain ⟨m, hm, hwm⟩ := ih hws hwt.1
    refine ⟨m, ?_, ?_⟩
    · rw [performWords, ht]; exact hm
    · rw [coreBytes_cons]; exact hwt.trans hwm
theorem phaseRead_clean (he : s.errors = []) : phaseRead r u s = .ok () s := by
  simp only [phaseRead, he, List.filter_nil, List.find?_nil, phaseGone, List.length_nil, Nat.add_zero]
  rw [← he]
theorem publish_wrote (hw : ∀ w ∈ (s.core r u).phase, w.sp ≠ .g) (he : s.errors = []) :
    ∃ t, publish r u s = .ok () t ∧ Wrote (coreBytes r u (s.core r u).phase) s t := by
  obtain ⟨t, ht, hwt⟩ := performWords_wrote (r := r) (u := u) hw he
  refine ⟨t.modCore r u (fun c => { c with phase := [] }), ?_, hwt⟩
  rw [publish, phaseRead_clean he]
  show (performWords r u (s.core r u).phase s).bind _ = _
  rw [ht]
  rfl
theorem publishCores_wrote (hn : l.Nodup) (hw : ∀ u ∈ l, ∀ w ∈ (s.core r u).phase, w.sp ≠ .g) (he : s.errors = []) :
    ∃ m, publishCores r l s = .ok () m ∧ Wrote (fun b => l.flatMap (fun u => coreBytes r u (s.core r u).phase b)) s m := by
  induction l generalizing s with
  | nil => exact ⟨s, rfl, he, rfl, fun k => ⟨rfl, rfl⟩⟩
  | cons u l ih =>
    obtain ⟨hu, hn⟩ := List.nodup_cons.mp hn
    obtain ⟨hwu, hwl⟩ := List.forall_mem_cons.mp hw
    obtain ⟨t, ht, hwt⟩ := publish_wrote hwu he
    have hph : ∀ v ∈ l, (t.core r v).phase = (s.core r v).phase := fun v hv =>
      ((publish_empties ht).2 v).trans (if_neg fun h => hu (by rw [← List.mem_singleton.mp h]; exact hv))
    obtain ⟨m, hm, hwm⟩ := ih hn (fun v hv => by rw [hph v hv]; exact hwl v hv) hwt.1
    refine ⟨m, ?_, ?_⟩
    · rw [publishCores, ht]; exact hm
    · have hbytes : ∀ b, l.flatMap (fun v => coreBytes r v (t.core r v).phase b) = l.flatMap (fun v => coreBytes r v (s.core r v).phase b) := fun b =>
        List.flatMap_congr fun v hv => by rw [hph v hv]
      simp only [List.flatMap_cons, ← hbytes]
      exact hwt.trans hwm

end Bytes

/-! ### Arrivals and completions (R216, R217) -/

section Boundary
variable {r u k e : Nat} {n : BarName} {b : Bar} {sys : Bool} {inst : BitVec 32} {l : List (Nat × Nat)} {p q : Nat × Nat} {R : Region} {s t m : State}

theorem barAt_setBar : barAt n (setBar n b R) = b := by
  simp only [barAt, setBar]
  cases n.cl <;> exact Assoc.get_put_same ..
theorem cores_setBar (R : Region) : (setBar n b R).cores = R.cores := by
  rw [setBar]
  split <;> rfl

theorem perm_insertBy {α : Type} {le : α → α → Bool} {x : α} {l : List α} : (insertBy le x l).Perm (x :: l) := by
  induction l with
  | nil => exact .refl _
  | cons y l ih =>
    rw [insertBy]
    split
    · exact .refl _
    · exact (ih.cons y).trans (.swap ..)
theorem perm_sortBy {α : Type} {le : α → α → Bool} {l : List α} : (sortBy le l).Perm l := by
  induction l with
  | nil => exact .refl _
  | cons x l ih => exact perm_insertBy.trans (ih.cons x)
theorem nodup_arrivingCores : (arrivingCores l).Nodup := perm_sortBy.nodup_iff.mpr (List.nodup_dedup _)
theorem mem_arrivingCores : u ∈ arrivingCores l ↔ ∃ p ∈ l, p.1 = u := by
  rw [arrivingCores, perm_sortBy.mem_iff, List.mem_dedup, List.mem_map]

/-- The memories are those of `s`. -/
def SameMemory (s t : State) : Prop := t.smem = s.smem ∧ t.lmem = s.lmem ∧ t.tmem = s.tmem
/-- The slot may go on with this number. -/
def Released (r : Nat) (inst : BitVec 32) (p : Nat × Nat) (t : State) : Prop :=
  (t.slot r p.1 p.2).st = .runnable ∧ (t.slot r p.1 p.2).prog = .released inst

theorem slot_releaseSlot : (releaseSlot r inst s p).slot r q.1 q.2 =
    if q = p then { s.slot r p.1 p.2 with st := .runnable, prog := .released inst } else s.slot r q.1 q.2 := by
  by_cases hu : q.1 = p.1
  · simp only [releaseSlot, State.slot, hu, State.core_modSlot_same, Core.slot_setSlot, Prod.ext_iff, true_and]
  · simp only [releaseSlot, State.slot, State.modSlot, State.core_modCore_other hu, Prod.ext_iff, hu, false_and, if_false]
theorem released_foldl (h : q ∈ l ∨ Released r inst q s) : Released r inst q (l.foldl (releaseSlot r inst) s) := by
  induction l generalizing s with
  | nil => simpa using h
  | cons p l ih =>
    refine ih ?_
    by_cases hq : q = p
    · right
      rw [Released, slot_releaseSlot, if_pos hq]
      exact ⟨rfl, rfl⟩
    · refine h.imp (fun h => (List.mem_cons.mp h).resolve_left hq) fun h => ?_
      rw [Released, slot_releaseSlot, if_neg hq]
      exact h

/-- The slots of a completed barrier may go on, before its count returns. -/
def barReleased (r : Nat) (sys : Bool) (b : Bar) (m : State) : State :=
  b.arrived.foldl (releaseSlot r b.inst) ((arrivingCores b.arrived).foldl (fun s u => refresh r u s) (if sys then writeThrough r m else m))
/-- The state once `b` is complete, whose publishes left `m`. -/
def barDone (r : Nat) (n : BarName) (sys : Bool) (b : Bar) (m : State) : State :=
  (barReleased r sys b m).modRegion r (setBar n { b with count := 0, inst := b.inst + 1, arrived := [] })

theorem barReleased_keeps : SamePhases r m (barReleased r sys b m) ∧ SameMemory m (barReleased r sys b m) := by
  refine List.foldlRecOn (motive := fun t => SamePhases r m t ∧ SameMemory m t) _ _ ?_ fun t ⟨hp, hm⟩ _ _ => ⟨hp.modCore fun _ => rfl, hm⟩
  refine List.foldlRecOn (motive := fun t => SamePhases r m t ∧ SameMemory m t) _ _ ?_ fun t ⟨hp, hm⟩ _ _ => ⟨hp.modCore fun _ => rfl, hm⟩
  cases sys with
  | false => exact ⟨SamePhases.refl, rfl, rfl, rfl⟩
  | true =>
    obtain ⟨hcells, ht⟩ := writeThrough_keeps (r := r) (s := m)
    refine ⟨samePhases_of_cells hcells, ?_, ?_, ht⟩
    · exact congrArg (fun x => x.2.2.1) hcells
    · exact congrArg (fun x => x.2.2.2) hcells
theorem core_barDone : (barDone r n sys b m).core r u = (barReleased r sys b m).core r u := State.core_modRegion cores_setBar ..
theorem barDone_keeps : SamePhases r m (barDone r n sys b m) ∧ SameMemory m (barDone r n sys b m) := by
  obtain ⟨⟨hcur, hph⟩, hmem⟩ := barReleased_keeps (r := r) (sys := sys) (b := b) (m := m)
  exact ⟨⟨hcur, fun v => (congrArg Core.phase core_barDone).trans (hph v)⟩, hmem⟩
theorem released_barDone (h : p ∈ b.arrived) : Released r b.inst p (barDone r n sys b m) := by
  rw [Released, State.slot, core_barDone]
  exact released_foldl (.inl h)
theorem barAt_barDone : barAt n ((barDone r n sys b m).region r) = { b with count := 0, inst := b.inst + 1, arrived := [] } := by
  rw [barDone, State.region_modRegion_same, barAt_setBar]

/-- A slot as its arrival leaves it. -/
def Slot.arrives (sl : Slot) : Slot := { sl with interval := sl.interval + 1, aseq := 0, dseq := 0, st := .waiting .barrier, prog := .arrived }
/-- A barrier with the arrival of the slot under the cursor. -/
def barArrival (n : BarName) (e : Nat) (s : State) : Bar :=
  { barAt n s.hereR with e := e, count := (barAt n s.hereR).count + 1, arrived := (barAt n s.hereR).arrived ++ [(s.cur.unit, s.cur.slot)] }
/-- The state with that arrival. -/
def arrival (n : BarName) (e : Nat) (s : State) : State := (s.modHere Slot.arrives).modRegion s.cur.region (setBar n (barArrival n e s))

theorem arrive_counted (h : (barAt n s.hereR).count + 1 ≠ e) : arrive n sys e s = arrival n e s := if_neg h
theorem arrive_last (h : (barAt n s.hereR).count + 1 = e)
    (hm : publishCores s.cur.region (arrivingCores (barArrival n e s).arrived) (arrival n e s) = .ok () m) :
    arrive n sys e s = barDone s.cur.region n sys (barArrival n e s) m := by
  have hdone : completeBar s.cur.region n sys (barArrival n e s) (arrival n e s) = barDone s.cur.region n sys (barArrival n e s) m := by
    rw [completeBar, hm]
    rfl
  have hrel : ((barDone s.cur.region n sys (barArrival n e s) m).slot s.cur.region s.cur.unit s.cur.slot).st = .runnable :=
    (released_barDone (p := (s.cur.unit, s.cur.slot)) (List.mem_append_right _ (List.mem_singleton.mpr rfl))).1
  have harrive : arrive n sys e s =
      let t := completeBar s.cur.region n sys (barArrival n e s) (arrival n e s)
      if (t.slot s.cur.region s.cur.unit s.cur.slot).st = .waiting .barrier ∧ !(t.region s.cur.region).halt then s else t := if_pos h
  rw [harrive, hdone]
  exact if_neg fun hw => by rw [hrel] at hw; cases hw.1

theorem here_arrival : (arrival n e s).here = s.here.arrives :=
  (congrArg (Core.slot · s.cur.slot) (State.hereC_modRegion cores_setBar ..)).trans (State.here_modHere ..)
theorem samePhases_arrival : SamePhases r s (arrival n e s) := by
  have h : SamePhases r s (s.modHere Slot.arrives) := by
    by_cases hr : s.cur.region = r
    · subst hr; exact SamePhases.refl.modCore fun _ => rfl
    · refine ⟨rfl, fun v => ?_⟩
      rw [State.core, State.modHere, State.modSlot, State.modCore, State.region_modRegion, if_neg (Ne.symm hr)]
      rfl
  exact ⟨rfl, fun v => (congrArg Core.phase (State.core_modRegion cores_setBar ..)).trans (h.2 v)⟩
theorem arrived_arrival : Arrived n e s (arrival n e s) := by
  have hbar : barAt n (arrival n e s).hereR = barArrival n e s := by
    rw [arrival, State.hereR]
    exact (congrArg (barAt n) (State.region_modRegion_same ..)).trans barAt_setBar
  rw [Arrived, hbar, here_arrival]
  exact ⟨rfl, rfl, rfl, rfl, rfl, rfl⟩

end Boundary

/-! ### The words (R216, R217) -/

section Words
variable {g : Guard} {d : Reg} {a : Src} {nf : State → BarName} {n : BarName} {sys : Bool} {i : Instr} {inst : BitVec 32} {s : State}

theorem barrierWord_released (h : Issues g [a] [d] s) (hp : s.here.prog = .released inst) :
    barrierWord nf sys g d a s = .next (done d (inst.setWidth 64) s) := by
  rw [barrierWord, issue_of_issues h, hp]
theorem barrierWord_arrives (h : Issues g [a] [d] s) (hm : MayArrive (nf s) (rv s a).toNat s) :
    barrierWord nf sys g d a s = .next (arrive (nf s) sys (rv s a).toNat s) := by
  obtain ⟨hp, he, hparties, hsame, hown⟩ := hm
  rw [barrierWord, issue_of_issues h, hp]
  refine congrArg _ ((if_neg (by omega)).trans ((if_neg ?_).trans (if_neg (by rw [hown]; exact Bool.false_ne_true))))
  exact fun ⟨hpos, hne⟩ => hne (hsame hpos)

/-- An arrival that is not the last. -/
theorem arrived_of_gives {e : Nat} (hi : Gives i s (arrive n sys e s)) (hc : (barAt n s.hereR).count + 1 ≠ e) : ∃ t, Gives i s t ∧ Arrived n e s t :=
  ⟨_, hi.trans (congrArg _ (arrive_counted hc)), arrived_arrival⟩
/-- The last arrival. -/
theorem lastArrival_of_gives {e : Nat} (hi : Gives i s (arrive n sys e s)) (hc : (barAt n s.hereR).count + 1 = e) : LastArrival i n e s := by
  unfold LastArrival
  intro l cores b a
  have hfirst : ∀ m, publishCores s.cur.region cores a = .ok () m →
      ∃ t, Gives i s t ∧ Completed n s t ∧ t.smem = m.smem ∧ t.lmem = m.lmem ∧ t.tmem = m.tmem ∧ ∀ p ∈ l, (t.core s.cur.region p.1).phase = [] := by
    intro m hm
    obtain ⟨mcur, mph⟩ := publishCores_empties hm
    obtain ⟨⟨tcur, tph⟩, hs, hl, ht⟩ := barDone_keeps (r := s.cur.region) (n := n) (sys := sys) (b := barArrival n e s) (m := m)
    have hbar : barAt n (barDone s.cur.region n sys (barArrival n e s) m).hereR = _ :=
      (congrArg (fun c : Cursor => barAt n ((barDone s.cur.region n sys (barArrival n e s) m).region c.region)) (tcur.trans mcur)).trans barAt_barDone
    refine ⟨_, hi.trans (congrArg _ (arrive_last hc hm)), ⟨?_, ?_, fun p hp => released_barDone hp⟩, hs, hl, ht, fun p hp => ?_⟩
    · rw [hbar]
    · rw [hbar]; rfl
    · rw [tph, mph, if_pos (mem_arrivingCores.mpr ⟨p, hp, rfl⟩)]
  refine ⟨hfirst, fun he hg => ?_⟩
  obtain ⟨acur, aph⟩ := samePhases_arrival (r := s.cur.region) (n := n) (e := e) (s := s)
  have hwords : ∀ u ∈ cores, ∀ w ∈ (a.core s.cur.region u).phase, w.sp ≠ .g := by
    intro u hu
    obtain ⟨p, hp, rfl⟩ := mem_arrivingCores.mp hu
    rw [show (a.core s.cur.region p.1).phase = _ from aph p.1]
    exact hg p hp
  obtain ⟨m, hm, -, mt, mbytes⟩ := publishCores_wrote (s := a) nodup_arrivingCores hwords he
  obtain ⟨t, ht, hdone, hsm, hlm, htm, hph⟩ := hfirst m hm
  have hbytes : ∀ b, cores.flatMap (fun u => coreBytes s.cur.region u (a.core s.cur.region u).phase b) = publishedBytes b cores s := fun b =>
    (List.flatMap_congr fun u _ => by rw [show (a.core s.cur.region u).phase = _ from aph u]).trans publishedBytes_eq.symm
  refine ⟨t, ht, hdone, htm.trans mt, hph, fun k => ?_⟩
  rw [hsm, hlm, ← hbytes, ← hbytes]
  exact mbytes k

end Words

/-- Settles O21: both words at `barrierWord`, an arrival at `arrive`; the publishes of the last one empty the buffers (`publishCores_empties`) and,
without words of G space, write their bytes in order (`publishCores_wrote`), and its completion changes no byte more (`barDone_keeps`). -/
theorem phaseBoundaries : Obligations.PhaseBoundaries := by
  unfold Obligations.PhaseBoundaries
  intro g d a sc id s h e n m
  have hcbar : MayArrive n e s → Gives (.cbar g d a id) s (arrive n false e s) := fun hm =>
    show execCbar g d a id s = _ from barrierWord_arrives (nf := fun s => { cl := some s.hereCl, id := id.toNat }) h hm
  have hphase : MayArrive m e s → Gives (.phase g d a sc id) s (arrive m (decide (sc = .system)) e s) := fun hm =>
    show execPhase g d a sc id s = _ from barrierWord_arrives (nf := fun _ => { cl := none, id := id.toNat }) h hm
  refine ⟨fun inst hp => ⟨?_, ?_⟩, fun hm => ⟨fun hc => ?_, fun hc _ => ?_⟩, fun hm => ⟨fun hc => ?_, fun hc _ => ?_⟩⟩
  · exact show execCbar g d a id s = _ from barrierWord_released h hp
  · exact show execPhase g d a sc id s = _ from barrierWord_released h hp
  · exact arrived_of_gives (hcbar hm) hc
  · exact lastArrival_of_gives (hcbar hm) hc
  · exact arrived_of_gives (hphase hm) hc
  · exact lastArrival_of_gives (hphase hm) hc

/-! ## XFORM (O34) -/

/-! ### The words (R224, R225) -/

section Words
variable {g : Guard} {d : Reg} {a b c : Src} {srcs : List Src} {cmd : XCmd} {f : Fmt} {rnd : Rnd} {sat : Bool} {x : Xform} {v : Word} {fl : Flg} {s : State}

/-- The region once transform `x` is under way. -/
def Region.transforms (x : Xform) (R : Region) : Region := { R with xforms := R.xforms ++ [x] }
theorem cores_transforms (R : Region) : (R.transforms x).cores = R.cores := rfl
/-- The state once transform `x` is under way. -/
def xformSent (x : Xform) (s : State) : State :=
  parkAt (.xform x.id) .accepted ((s.takeId s.cur.region).2.modHereR (Region.transforms x))

theorem xformWord_answered (h : Issues g srcs [d] s) (hp : s.here.prog = .answered v fl) :
    xformWord cmd f rnd sat g d a b c srcs s = .next (doneFl d v fl s) := by
  rw [xformWord, issue_of_issues h, hp]
theorem xformWord_bad (h : Issues g srcs [d] s) (hp : s.here.prog = .fresh) (hbad : xformBad cmd f (rv s a).toNat (rv s b).toNat s = true) :
    xformWord cmd f rnd sat g d a b c srcs s = .next (failSpace (rv s a) s) := by
  rw [xformWord, issue_of_issues h, hp]
  exact congrArg _ (if_pos hbad)
theorem xformWord_sent (h : Issues g srcs [d] s) (hp : s.here.prog = .fresh) (hbad : xformBad cmd f (rv s a).toNat (rv s b).toNat s = false) :
    xformWord cmd f rnd sat g d a b c srcs s = .next (xformSent (transformOf cmd f rnd sat a b c s) s) := by
  rw [xformWord, issue_of_issues h, hp]
  exact congrArg _ (if_neg (by rw [hbad]; exact Bool.false_ne_true))

theorem xforms_xformSent : (xformSent x s).hereR.xforms = s.hereR.xforms ++ [x] := by
  rw [xformSent, parkAt, State.hereR_modHere, Region.setCore_xforms, State.hereR_modHereR, State.hereR_takeId]
  rfl
theorem here_xformSent : (xformSent x s).here = ({ s.here with st := .waiting (.xform x.id), prog := .accepted } : Slot) := by
  rw [xformSent, parkAt_here, State.here_modHereR (k := Region.transforms x) cores_transforms, State.here_takeId]

/-- The three outcomes of a word of this shape. -/
theorem transformWord_of_gives {i : Instr} (h : Issues g srcs [d] s) (hi : exec i s = xformWord cmd f rnd sat g d a b c srcs s) :
    TransformWord i d (transformOf cmd f rnd sat a b c s) a s := by
  refine ⟨fun v fl hp => hi.trans (xformWord_answered h hp), fun hp => ⟨fun hbad => hi.trans (xformWord_bad h hp hbad), fun hbad => ?_⟩⟩
  refine ⟨_, hi.trans (xformWord_sent h hp hbad), xforms_xformSent, ?_, ?_, ?_, rfl⟩
  all_goals rw [here_xformSent]

end Words

/-! ### The completion (R225) -/

section Completing
variable {r u k w n : Nat} {x : Xform} {v : Word} {fl : Flg} {s : State}

theorem length_chunks {w n : Nat} {l : List Byte} : (chunks w n l).length = n := by
  induction n generalizing l with
  | zero => rfl
  | succ n ih => exact congrArg (· + 1) ih
theorem length_flatMap_bytesLE {l : List Nat} : (l.flatMap (bytesLE w)).length = l.length * w := by
  simp [List.length_flatMap]

/-- The region without the transforms of this number. -/
def Region.untransforms (k : Nat) (R : Region) : Region := { R with xforms := R.xforms.filter (fun y => y.id ≠ k) }
theorem cores_untransforms (R : Region) : (R.untransforms k).cores = R.cores := rfl
/-- A transform is over, and its slot has its answer. -/
def xformAnswer (r : Nat) (x : Xform) (v : Word) (fl : Flg) (s : State) : State :=
  (s.modRegion r (Region.untransforms x.id)).modSlot r x.unit x.slot (fun sl => { sl with prog := .answered v fl })
/-- The elements of a transform's range. -/
def xformOld (r : Nat) (x : Xform) (s : State) : List Nat :=
  chunks (elemBytes x.fmt) x.n (s.sRead r (uCl x.unit) x.addr (x.n * elemBytes x.fmt))
/-- Its elements' results. -/
def xformNew (r : Nat) (x : Xform) (s : State) : List Nat × Flg × Nat := xformAll (regionSeed r s) x (xformOld r x s)
/-- The range with its results. -/
def xformWritten (r : Nat) (x : Xform) (s : State) : State :=
  s.sWrite r (uCl x.unit) x.addr ((xformNew r x s).1.flatMap (bytesLE (elemBytes x.fmt)))

theorem slot_xformAnswer : (xformAnswer r x v fl s).slot r x.unit x.slot = { s.slot r x.unit x.slot with prog := .answered v fl } := by
  rw [xformAnswer, State.slot_modSlot_same, State.slot, State.core_modRegion cores_untransforms]
  rfl

/-- A transform completes without a soft error: amax reads, the others write. -/
theorem xformPerform_amax (he : s.errors = []) (hc : x.cmd = .amax) :
    xformPerform r x s = xformAnswer r x (toWord (xformNew r x s).2.2) (xformNew r x s).2.1 s := by
  have hclean : ∀ e ∈ s.errors, e.code ≠ 6 := by simp [he]
  simp only [xformPerform, hc, reduceCtorEq, if_false, readChk_clean hclean]
  rfl
theorem xformPerform_writes (he : s.errors = []) (hc : x.cmd ≠ .amax) :
    xformPerform r x s = xformAnswer r x 0 (xformNew r x s).2.1 (xformWritten r x s) := by
  have hclean : ∀ e ∈ s.errors, e.code ≠ 6 := by simp [he]
  cases hx : x.cmd with
  | amax => exact absurd hx hc
  | fill => simp only [xformPerform, hx, if_true]; rfl
  | cvt f => simp only [xformPerform, hx, reduceCtorEq, if_false, readChk_clean hclean]; rfl
  | scale => simp only [xformPerform, hx, reduceCtorEq, if_false, readChk_clean hclean]; rfl
  | add => simp only [xformPerform, hx, reduceCtorEq, if_false, readChk_clean hclean]; rfl

theorem xformComplete_gives (hr : (s.region r).halt = false)
    (hf : (s.region r).xforms.find? (fun y => decide (y.unit = u) && decide (y.slot = k)) = some x) :
    Gives (.xformComplete r u k) s (xformPerform r x s) := by
  show execXformComplete r u k s = _
  simp only [execXformComplete, hr, hf, Bool.false_eq_true, if_false, nx]

theorem length_xformNew : (xformNew r x s).1.length = x.n := by
  simp [xformNew, xformAll, xformOld, length_chunks]
theorem length_written : ((xformNew r x s).1.flatMap (bytesLE (elemBytes x.fmt))).length = x.n * elemBytes x.fmt := by
  rw [length_flatMap_bytesLE, length_xformNew]

end Completing

/-- Settles O34: each word at its shared form, and the completion, which answers the slot and, but for amax, writes the results over the range. -/
theorem transforms : Obligations.Transforms := by
  unfold Obligations.Transforms
  constructor
  · intro g d a b c f df rnd sat s z
    exact ⟨fun h => ⟨transformWord_of_gives h rfl, transformWord_of_gives h rfl⟩,
      fun h => ⟨transformWord_of_gives h rfl, transformWord_of_gives h rfl, transformWord_of_gives h rfl⟩⟩
  · intro r u k x s hr he hf w key old new
    obtain ⟨hu, hk⟩ : x.unit = u ∧ x.slot = k := by simpa using List.find?_some hf
    subst hu hk
    by_cases hc : x.cmd = .amax
    · refine ⟨_, (xformComplete_gives hr hf).trans (congrArg _ (xformPerform_amax he hc)), rfl, rfl, ?_, ?_, fun _ => ⟨rfl, ?_⟩, fun h => absurd hc h⟩
      all_goals rw [slot_xformAnswer]
      rfl
    · refine ⟨_, (xformComplete_gives hr hf).trans (congrArg _ (xformPerform_writes he hc)), rfl, rfl, ?_, ?_, fun h => absurd h hc, fun _ => ⟨?_, ?_, ?_⟩⟩
      · rw [slot_xformAnswer]; rfl
      · rw [slot_xformAnswer]; rfl
      · rw [slot_xformAnswer]; rfl
      · exact (congrArg _ length_written.symm).trans VMem.reads_writes_same
      · intro i hi
        exact VMem.read_writes_other _ _ (by rw [length_written]; exact hi)

/-! ## STG.rel and STG.sc (O18) -/

section OrderedStore
variable {g : Guard} {x base : Reg} {m : StoreOp} {a n : Nat} {v : Word} {c : Context} {s t : State}

/-- An ordered store whose publish has completed stores at memory. -/
theorem orderedStore_gives (hu : OnControl s) (h : Issues g (storeSrcs x base m) [] s) (hp : s.here.prog = .published)
    (hfits : Fits (effAddr (s.here.rd base) m.off) (sizeBytes m.size) (hereSeg s)) :
    onControl (orderedStore g x base m) s
      = .next (directStore (effAddr (s.here.rd base) m.off).toNat (sizeBytes m.size) (s.here.rd x) s) := by
  rw [onControl_of_control hu, orderedStore, issue_of_issues h]
  exact congrArg _ ((segChk_of_fits hfits).trans (if_pos hp))

theorem directStore_run1 (hr : run1 s s.hereR = true) : directStore a n v s = retire id s := if_pos hr
theorem directStore_waits (hr : run1 s s.hereR = false) (hc : s.ctxOf s.hereR = some c) (hw : loadWaits c s.cur.region (segMid c a) s = true) :
    directStore a n v s = s := by
  simp [directStore, hr, hc, hw]
theorem directStore_stores (hr : run1 s s.hereR = false) (hc : s.ctxOf s.hereR = some c) (hw : loadWaits c s.cur.region (segMid c a) s = false)
    (hok : gWrite c s.cur.region a (bytesLE n v.toNat) s = .ok () t) :
    directStore a n v s = retire id (t.modHereC (fun k => ((k.saw .g (gKey c s.cur.region a) n t.moment).stored s.cur.slot).after s.cur.slot
      (byteOrder .g (gKey c s.cur.region a) n t.moment))) := by
  have hok' : gWrite c s.cur.region a (storeBytes n v) s = .ok () t := hok
  simp only [directStore, hr, hc, hw, hok', Bool.false_eq_true, if_false]

end OrderedStore

/-- Settles O18: both words store directly once their publish has completed (`orderedStore_gives`), and a direct store is discarded in run 1,
waits, or writes. -/
theorem orderedStores : Obligations.OrderedStores := by
  unfold Obligations.OrderedStores
  intro g x base m s hu h hp i n hfits
  have hboth : ∀ w, directStore i.toNat n (s.here.rd x) s = w → Gives (.stgRel g x base m) s w ∧ Gives (.stgSc g x base m) s w := fun w hw =>
    ⟨(orderedStore_gives hu h hp hfits).trans (congrArg _ hw), (orderedStore_gives hu h hp hfits).trans (congrArg _ hw)⟩
  refine ⟨fun hr => hboth _ (directStore_run1 hr), fun c t hr hc => ⟨fun hw => hboth _ (directStore_waits hr hc hw), fun hw hok => ?_⟩⟩
  exact hboth _ (directStore_stores hr hc hw hok)

/-! ## SBIND, SCLOSE and SBAR (O32) -/

/-! ### Ports of a region (R228, R230, R231) -/

section Ports
variable {u p v j k : Nat} {f : Port → Port} {e : Nat → PortEntry} {c : Bool} {d : Reg} {w : Word} {m : Mask16} {R : Region} {s : State}

theorem Region.port_modPort_same : (R.modPort u p f).port u p = f (R.port u p) := by
  simp [Region.port, Region.modPort]
theorem Region.port_modPort_other (h : (v, j) ≠ (u, p)) : (R.modPort u p f).port v j = R.port v j := by
  simp only [Region.port, Region.modPort, Assoc.get_put]
  by_cases hv : v = u
  · have hj : j ≠ p := fun hj => h (by rw [hv, hj])
    simp [hv, Assoc.get_put, hj]
  · simp [hv]

theorem cores_portAppend (R : Region) : (portAppend u k e c R).cores = R.cores := rfl
/-- One update of every port of a list. -/
def Region.modPorts (f : Port → Port) (ps : List (Nat × Nat)) (R : Region) : Region := ps.foldl (fun R p => R.modPort p.1 p.2 f) R
theorem Region.port_modPorts_other {ps : List (Nat × Nat)} (h : (v, j) ∉ ps) : (R.modPorts f ps).port v j = R.port v j := by
  induction ps generalizing R with
  | nil => rfl
  | cons q ps ih => exact (ih (List.not_mem_of_not_mem_cons h)).trans (Region.port_modPort_other (List.ne_of_not_mem_cons h))
theorem Region.port_modPorts_mem {ps : List (Nat × Nat)} {q : Nat × Nat} (hn : ps.Nodup) (h : q ∈ ps) :
    (R.modPorts f ps).port q.1 q.2 = f (R.port q.1 q.2) := by
  induction ps generalizing R with
  | nil => simp at h
  | cons a ps ih =>
    obtain ⟨ha, hn⟩ := List.nodup_cons.mp hn
    rcases List.mem_cons.mp h with rfl | h
    · exact (Region.port_modPorts_other ha).trans Region.port_modPort_same
    · exact (ih hn h).trans (congrArg f (Region.port_modPort_other fun e => ha ((show q = a from e) ▸ h)))
theorem Region.cores_modPorts {ps : List (Nat × Nat)} (R : Region) : (R.modPorts f ps).cores = R.cores := by
  induction ps generalizing R with
  | nil => rfl
  | cons a ps ih => exact ih _

/-- The ports of a mask are different ports. -/
theorem nodup_maskPorts {cl : Nat} : (maskPorts cl m).Nodup := by
  refine List.Nodup.map_on (fun a _ b _ h => ?_) (List.nodup_range.filter _)
  simp only [Prod.mk.injEq, mkUnit] at h
  omega

/-- A completed word leaves the ports. -/
theorem port_retire {g : Slot → Slot} : (retire g s).hereR.port u k = s.hereR.port u k := by
  rw [retire, State.hereR_modHere]
  rfl
theorem port_parkAt {z : Wait} {y : Progress} : (parkAt z y s).hereR.port u k = s.hereR.port u k := by
  rw [parkAt, State.hereR_modHere]
  rfl

/-- The state after a word that appends an entry to a port and returns its ticket. -/
def ticketed (d : Reg) (u k : Nat) (e : Nat → PortEntry) (c : Bool) (s : State) : State :=
  done d (toWord (s.hereR.port u k).ticket) (s.modHereR (portAppend u k e c))
theorem port_ticketed : (ticketed d u k e c s).hereR.port v j = (portAppend u k e c s.hereR).port v j := by
  rw [ticketed, done, port_retire, State.hereR_modHereR]
theorem appended_ticketed : Appended u k (e (s.hereR.port u k).ticket) 1 s (ticketed d u k e c s) := by
  refine ⟨?_, ?_, fun v j h => port_ticketed.trans (Region.port_modPort_other h)⟩
  · rw [port_ticketed, portAppend, Region.port_modPort_same]
  · rw [port_ticketed, portAppend, Region.port_modPort_same]
theorem pc_ticketed : (ticketed d u k e c s).here.pc = s.here.pc + 1 := by
  rw [ticketed, done_pc, State.here_modHereR (k := portAppend u k e c) cores_portAppend]

/-! ### The words -/

/-- A port as SCLOSE.abort leaves it; `source`: it still sends its marker. -/
def Port.aborted (source : Bool) (P : Port) : Port :=
  { P with queue := [], closed := true, closing := false, done := 0, tail := source, fault := none, full := false }
/-- The region once a port has been closed at once. -/
def Region.abortPort (u k : Nat) (R : Region) : Region := R.modPort u k (Port.aborted (R.isSource u k))
theorem port_aborted {R : Region} : (R.abortPort u k).port u k = (R.port u k).aborted (R.isSource u k) := Region.port_modPort_same

/-- A port once a barrier entry stands at its end. -/
def Port.barred (id : Nat) (P : Port) : Port := { P with queue := P.queue ++ [.barrier id] }
/-- The state once every port of a mask has its barrier entry. -/
def barred (m : Mask16) (s : State) : State :=
  (s.takeId s.cur.region).2.modHereR (Region.modPorts (Port.barred s.hereR.nextId) (maskPorts s.hereCl m))
theorem here_barred : (barred m s).here = s.here := by
  rw [barred, State.here_modHereR Region.cores_modPorts, State.here_takeId]
theorem port_barred {q : Nat × Nat} (h : q ∈ maskPorts s.hereCl m) :
    ((barred m s).hereR.port q.1 q.2).queue = (s.hereR.port q.1 q.2).queue ++ [.barrier s.hereR.nextId] := by
  rw [barred, State.hereR_modHereR, Region.port_modPorts_mem nodup_maskPorts h, State.hereR_takeId]
  rfl

variable {g : Nat → State → State}
theorem placeBarrier_shut (h : maskPorts s.hereCl m = [] ∨ ∃ q ∈ maskPorts s.hereCl m, s.hereR.portShut q.1 q.2 = true) :
    placeBarrier m g s = failSpace 0 s := by
  refine if_pos ?_
  simpa [List.isEmpty_iff] using h
theorem placeBarrier_open (hne : maskPorts s.hereCl m ≠ []) (h : ∀ q ∈ maskPorts s.hereCl m, s.hereR.portShut q.1 q.2 = false) :
    placeBarrier m g s =
      if (maskPorts s.hereCl m).any (fun q => decide (8 ≤ (s.hereR.port q.1 q.2).queue.length)) then
        park (.portQueues (maskPorts s.hereCl m)) s
      else g s.hereR.nextId (barred m s) := by
  refine if_neg ?_
  simpa [List.isEmpty_iff, hne] using h
theorem placeBarrier_full (hne : maskPorts s.hereCl m ≠ []) (h : ∀ q ∈ maskPorts s.hereCl m, s.hereR.portShut q.1 q.2 = false)
    (hfull : ∃ q ∈ maskPorts s.hereCl m, 8 ≤ (s.hereR.port q.1 q.2).queue.length) : placeBarrier m g s = park (.portQueues (maskPorts s.hereCl m)) s := by
  rw [placeBarrier_open hne h, if_pos (by simpa using hfull)]
theorem placeBarrier_room (hne : maskPorts s.hereCl m ≠ []) (h : ∀ q ∈ maskPorts s.hereCl m, s.hereR.portShut q.1 q.2 = false)
    (hroom : ∀ q ∈ maskPorts s.hereCl m, (s.hereR.port q.1 q.2).queue.length < 8) : placeBarrier m g s = g s.hereR.nextId (barred m s) := by
  rw [placeBarrier_open hne h, if_neg (by simpa using hroom)]

end Ports

section Words
variable {g : Guard} {d : Reg} {a b : Src} {eoi ag : Bool} {port : Three} {pat : Tmpl} {mask : Mask16} {s : State}

theorem sbind_gives (h : Issues g [a, b] [d] s) : Gives (.sbind g d a b eoi port ag pat) s
    (if bindBad s.hereR (agUnit s ag) port.toNat (rv s b).toNat (s.hereR.pattern (agUnit s ag) pat.toNat) then failSpace 0 s
     else if 8 ≤ (s.hereR.port (agUnit s ag) port.toNat).queue.length then park (.portQueues [(agUnit s ag, port.toNat)]) s
     else ticketed d (agUnit s ag) port.toNat (.cmd pat.toNat (rv s a) (rv s b).toNat eoi) false s) := by
  show execSbind g d a b eoi port ag pat s = _
  rw [execSbind, issue_of_issues h]
  rfl
theorem sclose_gives (h : Issues g [] [d] s) : Gives (.sclose g d port ag) s
    (if s.hereR.portShut (agUnit s ag) port.toNat then failSpace 0 s
     else if 8 ≤ (s.hereR.port (agUnit s ag) port.toNat).queue.length then park (.portQueues [(agUnit s ag, port.toNat)]) s
     else ticketed d (agUnit s ag) port.toNat .close true s) := by
  show execSclose g d port ag s = _
  rw [execSclose, issue_of_issues h]
  rfl
theorem scloseAbort_gives (h : Issues g [] [d] s) : Gives (.scloseAbort g d port ag) s
    (if (s.hereR.port (agUnit s ag) port.toNat).closed || s.hereR.chainOwns (agUnit s ag) port.toNat then failSpace 0 s
     else done d (toWord (s.hereR.port (agUnit s ag) port.toNat).transferred) (s.modHereR (Region.abortPort (agUnit s ag) port.toNat))) := by
  show execScloseAbort g d port ag s = _
  rw [execScloseAbort, issue_of_issues h]
  rfl
theorem sbar_gives (h : Issues g [] [] s) : Gives (.sbar g mask) s (placeBarrier mask (fun _ s => retire id s) s) := by
  show execSbar g mask s = _
  rw [execSbar, issue_of_issues h]
theorem sbarWait_gives (h : Issues g [] [] s) : Gives (.sbarWait g mask) s
    (if s.here.prog = .accepted then retire id (refresh s.cur.region s.cur.unit s)
     else placeBarrier mask (fun id s => parkAt (.streamBarrier id) .accepted s) s) := by
  show execSbarWait g mask s = _
  rw [execSbarWait, issue_of_issues h]

end Words

/-- Settles O32: each word at its shared form; what it leaves in the ports is `appended_ticketed`, `port_aborted` or `port_barred`. -/
theorem streamWords : Obligations.StreamWords := by
  unfold Obligations.StreamWords
  intro g d a b eoi port ag pat mask s u k P
  refine ⟨fun h => ⟨fun hbad => ?_, fun hok => ⟨fun hfull => ?_, fun hroom => ?_⟩⟩,
    fun h => ⟨fun hshut => ?_, fun hclosed => ?_, fun hopen => ⟨fun hfull => ?_, fun hroom => ?_⟩, fun hopen hfree => ?_⟩, fun h => ?marks⟩
  · exact (sbind_gives h).trans (congrArg _ (if_pos hbad))
  · exact (sbind_gives h).trans (congrArg _ ((if_neg (ne_true_of_eq_false hok)).trans (if_pos hfull)))
  · exact ⟨_, (sbind_gives h).trans (congrArg _ ((if_neg (ne_true_of_eq_false hok)).trans (if_neg (Nat.not_le.mpr hroom)))),
      appended_ticketed, pc_ticketed, fun hd => done_rd hd⟩
  · exact (sclose_gives h).trans (congrArg _ (if_pos hshut))
  · exact (scloseAbort_gives h).trans (congrArg _ (if_pos (by simpa using hclosed)))
  · exact (sclose_gives h).trans (congrArg _ ((if_neg (ne_true_of_eq_false hopen)).trans (if_pos hfull)))
  · refine ⟨_, (sclose_gives h).trans (congrArg _ ((if_neg (ne_true_of_eq_false hopen)).trans (if_neg (Nat.not_le.mpr hroom)))),
      appended_ticketed, ?_, fun hd => done_rd hd⟩
    rw [port_ticketed, portAppend, Region.port_modPort_same, Bool.or_true]
  · refine ⟨_, (scloseAbort_gives h).trans (congrArg _ (if_neg (by simpa using ⟨hopen, hfree⟩))), ?_, ?_, fun hd => done_rd hd⟩
    all_goals
      rw [done, port_retire, State.hereR_modHereR, port_aborted]
      rfl
  case marks =>
    intro ps bar
    have hwait : s.here.prog ≠ .accepted → Gives (.sbarWait g mask) s (placeBarrier mask (fun id s => parkAt (.streamBarrier id) .accepted s) s) := fun hp =>
      (sbarWait_gives h).trans (congrArg _ (if_neg hp))
    refine ⟨fun hp => (sbarWait_gives h).trans (congrArg _ (if_pos hp)), fun hshut => ⟨?_, fun hp => ?_⟩, fun hne hopen hfull => ⟨?_, fun hp => ?_⟩,
      fun hne hopen hroom => ⟨?_, fun hp => ?_⟩⟩
    · exact (sbar_gives h).trans (congrArg _ (placeBarrier_shut hshut))
    · exact (hwait hp).trans (congrArg _ (placeBarrier_shut hshut))
    · exact (sbar_gives h).trans (congrArg _ (placeBarrier_full hne hopen hfull))
    · exact (hwait hp).trans (congrArg _ (placeBarrier_full hne hopen hfull))
    · refine ⟨_, (sbar_gives h).trans (congrArg _ (placeBarrier_room hne hopen hroom)), ?_, fun q hq => ?_⟩
      · rw [retire_here, here_barred]; rfl
      · rw [port_retire, port_barred hq]
    · refine ⟨_, (hwait hp).trans (congrArg _ (placeBarrier_room hne hopen hroom)), ?_, ?_, ?_, fun q hq => ?_⟩
      · rw [parkAt_here]
      · rw [parkAt_here]
      · rw [parkAt_here, here_barred]
      · rw [port_parkAt, port_barred hq]

/-! ## A read event at a write command (O33) -/

/-- STREAM_READ_BEAT leaves a port whose head command writes as it is: an eoi that is due there is one to be taken, not one to be pushed. -/
theorem streamReadBeat_of_write {r u p : Nat} {c : Command} {s : State} (hc : commandAt (s.region r) u p = some c) (hw : c.write = true) :
    Gives (.streamReadBeat r u p) s s := by
  have htail : tailOut (s.region r) u p = false := by simp [tailOut, hc, hw]
  show execStreamReadBeat r u p s = _
  simp only [execStreamReadBeat, hc, htail, hw, Bool.true_or, Bool.false_eq_true, if_false, if_true, ite_self, nx]

/-- A route of INT8 beats between two clients of cluster 0. -/
def int8Route (skind sidx sport dunit dport : Nat) : Route :=
  { skind := skind, sidx := sidx, sport := sport, dunit := dunit, dport := dport, sfmt := .int8, smod := 0, dfmt := .int8, dmod := 0, rnd := .rne, sat := false,
    tsc := false, spill := false, depth := 2, mu := 0, mubase := 0, ring := 0, init := 0 }
/-- AG 0 whose port 0 has both an arc into it, from core 1, and one out of it, to core 0. -/
def agBothWays (P : Port) : Region :=
  { Region.init 0 0 1 1 1 1 [1] with
    ags := [(24, { patterns := [(0, { tensor := false, write := true, col := false, fmt := .int8, loops := [(1, 64)] })], ports := [(0, P)] })],
    arcs := [(2560, Arc.fresh (int8Route 3 0 0 0 2)), (2561, Arc.fresh (int8Route 0 1 0 24 0))] }
/-- The one beat of a write command at that port has been stored, and its eoi is awaited. -/
def eoiAwaited : State :=
  { State.reset with regions := [(0, agBothWays { Port.init with queue := [.cmd 0 0x100 1 true 0], done := 1, tail := true })] }

/-- Its head command, on which the case turns, writes. -/
theorem command_eoiAwaited : ∃ c, commandAt (eoiAwaited.region 0) 24 0 = some c ∧ c.write = true := ⟨_, rfl, rfl⟩
/-- It meets every hypothesis of the clause on the eoi of a read port. -/
theorem source_eoiAwaited : portRuns (eoiAwaited.region 0) 24 0 = true ∧ (eoiAwaited.region 0).preempt = none ∧ (eoiAwaited.region 0).isSource 24 0 = true ∧
    ((eoiAwaited.region 0).port 24 0).tail = true ∧ (eoiAwaited.region 0).roomOutMark 24 0 = true := by decide

/-- Refutes O33: its clause on a due eoi speaks of every port that an arc leaves, also of one whose head command is a write; there the eoi is
one that the port awaits, and STREAM_READ_BEAT changes nothing (`streamReadBeat_of_write`), as at `eoiAwaited`. -/
theorem not_streamBeats : ¬ Obligations.StreamBeats := by
  unfold Obligations.StreamBeats
  intro h
  obtain ⟨c, hc, hw⟩ := command_eoiAwaited
  obtain ⟨hruns, hpre, hsource, htail, hroom⟩ := source_eoiAwaited
  obtain ⟨hread, -⟩ := h 0 24 0 eoiAwaited hruns rfl
  obtain ⟨hdue, -⟩ := hread hpre hsource
  obtain ⟨t, ht, hoff, -⟩ := hdue htail hroom
  obtain rfl : eoiAwaited = t := Host.Outcome.next.inj ((streamReadBeat_of_write hc hw).symm.trans ht)
  exact Bool.false_ne_true (hoff.symm.trans htail)

end Sys2Proof.Machine

end

section

namespace Sys2Proof.Machine

open Sys2Proof.Claims

/-! ## Coat chains (O37, O38) -/

/-! ### A pass starts (R249) -/

section Pass
variable {ch p u q : Nat} {R : Region}

theorem unlatch_eq : ∃ arcs, R.unlatch u q = { R with arcs := arcs } := by
  unfold Region.unlatch
  split
  · exact ⟨_, rfl⟩
  · exact ⟨_, rfl⟩

/-- The header latches of a chain's heads hold 2^0 again. -/
def Region.unlatchHeads (C : CoatChain) (R : Region) : Region :=
  (C.coats.filterMap (fun k => k.2.headCore)).foldl (fun R c => R.unlatch c.unit c.iport) R
theorem unlatchHeads_eq {C : CoatChain} : ∃ arcs, R.unlatchHeads C = { R with arcs := arcs } :=
  List.foldlRecOn (motive := fun R' : Region => ∃ arcs, R' = { R with arcs := arcs }) _ _ ⟨_, rfl⟩ fun R' ⟨arcs, h⟩ c _ => by
    obtain ⟨arcs', h'⟩ := unlatch_eq (R := R') (u := c.unit) (q := c.iport)
    exact ⟨arcs', by rw [h', h]⟩

/-- A chain whose coats start pass `p` anew. -/
def CoatChain.atPass (p : Nat) (C : CoatChain) : CoatChain := { C with pass := p, coats := C.coats.map (fun k => (k.1, k.2.restart)) }
/-- A port once it has the command of chain `ch` over buffer `b` of the lattice `d`. -/
def Port.givenPass (ch d b : Nat) (P : Port) : Port := { P with queue := P.queue ++ [.coat ch (toWord (latBuf d b)) (latticeBlocks d)], done := 0 }

/-- The start of a pass changes the chain, its two ports and arcs. -/
theorem startPass_eq : ∃ arcs, startPass ch p R =
    let C := Assoc.get default ch R.coats
    (Region.modPort C.sunit C.sport (Port.givenPass ch C.desc.toNat (p % 2))
      { R with arcs := arcs, coats := Assoc.put ch (C.atPass p) R.coats }).modPort C.kunit C.kport (Port.givenPass ch C.desc.toNat ((p + 1) % 2)) := by
  let C := Assoc.get default ch R.coats
  obtain ⟨arcs, h⟩ := unlatchHeads_eq (C := C) (R := { R with coats := Assoc.put ch (C.atPass p) R.coats })
  exact ⟨arcs, congrArg (fun R' => (Region.modPort C.sunit C.sport (Port.givenPass ch C.desc.toNat (p % 2)) R').modPort C.kunit C.kport
    (Port.givenPass ch C.desc.toNat ((p + 1) % 2))) h⟩

theorem cores_startPass : (startPass ch p R).cores = R.cores := by
  obtain ⟨arcs, h⟩ := startPass_eq (ch := ch) (p := p) (R := R)
  rw [h]
  rfl
theorem coats_startPass : (startPass ch p R).coats = Assoc.put ch ((Assoc.get default ch R.coats).atPass p) R.coats := by
  obtain ⟨arcs, h⟩ := startPass_eq (ch := ch) (p := p) (R := R)
  rw [h]
  rfl

variable {C : CoatChain} (hC : Assoc.get default ch R.coats = C) (hne : (C.sunit, C.sport) ≠ (C.kunit, C.kport))
include hC hne

theorem source_startPass : (startPass ch p R).port C.sunit C.sport = (R.port C.sunit C.sport).givenPass ch C.desc.toNat (p % 2) := by
  obtain ⟨arcs, h⟩ := startPass_eq (ch := ch) (p := p) (R := R)
  rw [h, hC]
  exact (Region.port_modPort_other hne).trans Region.port_modPort_same
theorem sink_startPass : (startPass ch p R).port C.kunit C.kport = (R.port C.kunit C.kport).givenPass ch C.desc.toNat ((p + 1) % 2) := by
  obtain ⟨arcs, h⟩ := startPass_eq (ch := ch) (p := p) (R := R)
  rw [h, hC]
  exact Region.port_modPort_same.trans (congrArg _ (Region.port_modPort_other hne.symm))

end Pass

/-! ### A record of the issuing word (R213, R214) -/

section Record
variable {r u a n k : Nat} {s : State}

theorem cur_loadSWords : (loadSWords r u a n s).2.cur = s.cur := by
  induction n generalizing a s with
  | zero => rfl
  | succ n ih => exact ih.trans rfl
theorem slot_loadSWord : (loadSWord r u a s).2.slot r u k = s.slot r u k := by
  simp only [loadSWord, State.slot, State.core_modCore_same]
  rfl
theorem slot_loadSWords : (loadSWords r u a n s).2.slot r u k = s.slot r u k := by
  induction n generalizing a s with
  | zero => rfl
  | succ n ih => exact ih.trans slot_loadSWord
/-- Reading a record leaves the slot that issues the word. -/
theorem here_loadSWords : (loadSWords s.cur.region s.cur.unit a n s).2.here = s.here := by
  rw [State.here, cur_loadSWords]
  exact slot_loadSWords

theorem withSRecord_clean {f : Nat → State → State} (h : SRecord a n s) :
    withSRecord a n f s =
      f (ofBytesLE (loadSWords s.cur.region s.cur.unit a n s).1) (loadSWords s.cur.region s.cur.unit a n s).2 := by
  obtain ⟨he, hb⟩ := h
  rw [withSRecord, hb, if_neg Bool.false_ne_true, readChk_clean (by simp [he]), phaseChk_clean (by simp [he])]

end Record

/-! ### CRUN, CRUN.wait and CEDGE (R250 to R255) -/

theorem coats_done {d : Reg} {v : Word} {s : State} : (done d v s).hereR.coats = s.hereR.coats := by
  rw [done, retire, State.hereR_modHere]
  rfl

section Start
variable {d : Reg} {ch desc : Nat} {C : CoatChain} {s : State}

/-- A chain as CRUN starts it. -/
def CoatChain.started (desc : Nat) (C : CoatChain) : CoatChain :=
  { C with running := true, ran := true, desc := BitVec.ofNat 512 desc, steps := 0, passes := 0 }
/-- The region once CRUN has started a chain. -/
def Region.startChain (ch desc : Nat) (C : CoatChain) (R : Region) : Region :=
  startPass ch 0 { R with coats := Assoc.put ch (C.started desc) R.coats }
/-- The state once CRUN has started a chain. -/
def crunDone (d : Reg) (ch desc : Nat) (C : CoatChain) (s : State) : State := done d 0 (s.modHereR (Region.startChain ch desc C))

theorem cores_startChain (R : Region) : (R.startChain ch desc C).cores = R.cores := cores_startPass
theorem find_startChain {R : Region} : Assoc.find ch (R.startChain ch desc C).coats = some ((C.started desc).atPass 0) := by
  rw [Region.startChain, coats_startPass, Assoc.find_put_same, Assoc.get_put_same]
theorem here_crunDone_pc : (crunDone d ch desc C s).here.pc = s.here.pc + 1 := by
  rw [crunDone, done_pc, State.here_modHereR cores_startChain]
theorem find_crunDone : Assoc.find ch (crunDone d ch desc C s).hereR.coats = some ((C.started desc).atPass 0) := by
  rw [crunDone, coats_done, State.hereR_modHereR, find_startChain]

variable (hne : (C.sunit, C.sport) ≠ (C.kunit, C.kport))
include hne
theorem source_crunDone : (crunDone d ch desc C s).hereR.port C.sunit C.sport =
    (s.hereR.port C.sunit C.sport).givenPass ch (BitVec.ofNat 512 desc).toNat 0 := by
  rw [crunDone, done, port_retire, State.hereR_modHereR]
  exact source_startPass (C := C.started desc) (Assoc.get_put_same ..) hne
theorem sink_crunDone : (crunDone d ch desc C s).hereR.port C.kunit C.kport =
    (s.hereR.port C.kunit C.kport).givenPass ch (BitVec.ofNat 512 desc).toNat 1 := by
  rw [crunDone, done, port_retire, State.hereR_modHereR]
  exact sink_startPass (C := C.started desc) (Assoc.get_put_same ..) hne

end Start

section Enter
variable {d : Reg} {ch st x k : Nat} {C : CoatChain} {s : State}

/-- A chain with the words `x` entered for step `st`. -/
def CoatChain.entered (st x : Nat) (C : CoatChain) : CoatChain := { C with edge := Assoc.put (st % 64) (st, words32 24 x) C.edge }
/-- The region once the edge values of a step stand in the table, and in the coats that wait to fire under them. -/
def Region.enterEdge (ch st x : Nat) (C : CoatChain) (R : Region) : Region :=
  reEdge ch st (words32 24 x) { R with coats := Assoc.put ch (C.entered st x) R.coats }
/-- The state once CEDGE has entered the edge values of a step. -/
def cedgeDone (d : Reg) (ch st x : Nat) (C : CoatChain) (s : State) : State := done d 0 (s.modHereR (Region.enterEdge ch st x C))

theorem here_cedgeDone_pc : (cedgeDone d ch st x C s).here.pc = s.here.pc + 1 := by
  rw [cedgeDone, done_pc, State.here_modHereR (k := Region.enterEdge ch st x C) fun _ => rfl]
/-- New edge values change a chain in its coats only. -/
theorem find_reEdge {l : List (BitVec 32)} {R : Region} :
    ∃ coats, Assoc.find ch (reEdge ch st l R).coats = some { Assoc.get default ch R.coats with coats := coats } := ⟨_, Assoc.find_put_same ..⟩
theorem find_cedgeDone : ∃ coats, Assoc.find ch (cedgeDone d ch st x C s).hereR.coats = some { C.entered st x with coats := coats } := by
  obtain ⟨coats, h⟩ := find_reEdge (ch := ch) (st := st) (l := words32 24 x)
    (R := { s.hereR with coats := Assoc.put ch (C.entered st x) s.hereR.coats })
  refine ⟨coats, ?_⟩
  rw [cedgeDone, coats_done, State.hereR_modHereR]
  exact h.trans (congrArg (fun C' : CoatChain => some { C' with coats := coats }) (Assoc.get_put_same ..))

end Enter

section Word
variable {g : Guard} {d : Reg} {a b : Src} {ch : Two} {C : CoatChain} {s : State}

/-- CRUN on a chain that does not run, with an aligned record that may be read: the descriptor is judged, then its buffers, then the chain starts. -/
theorem crun_gives (h : Issues g [a] [d] s) (hC : Assoc.find ch.toNat s.hereR.coats = some C) (hrun : C.running = false)
    (hal : (rv s a).toNat % 64 = 0) (hfit : (rv s a).toNat ≤ 0x3FFFC0) (hrec : SRecord (rv s a).toNat 8 s) :
    let p := loadSWords s.cur.region s.cur.unit (rv s a).toNat 8 s
    Gives (.crun g d a ch) s (if crunBad p.2.hereR C (ofBytesLE p.1) then failSpace (rv p.2 a) p.2
      else withBuffers (ofBytesLE p.1) (fun held t => if !held then failSpace (rv t a) t else crunDone d ch.toNat (ofBytesLE p.1) C t) p.2) := by
  have hok : ¬ (C.running = true ∨ (rv s a).toNat % 64 ≠ 0 ∨ 0x3FFFC0 < (rv s a).toNat) := by
    simp only [hrun, Bool.false_eq_true, false_or]
    omega
  show execCrun g d a ch s = _
  rw [execCrun, issue_of_issues h]
  simp only [hC, if_neg hok, withSRecord_clean hrec]
  rfl

theorem crunWait_gives (h : Issues g [] [d] s) (hC : Assoc.find ch.toNat s.hereR.coats = some C) : Gives (.crunWait g d ch) s
    (if C.running then park (.coats ch.toNat) s else done d (chainWord C) (refresh s.cur.region s.cur.unit s)) := by
  show execCrunWait g d ch s = _
  rw [execCrunWait, issue_of_issues h]
  simp only [hC]

/-- CEDGE with an aligned record that may be read, for a step of R254. -/
theorem cedge_gives (h : Issues g [a, b] [d] s) (hC : Assoc.find ch.toNat s.hereR.coats = some C)
    (hal : (rv s a).toNat % 32 = 0) (hfit : (rv s a).toNat ≤ 0x3FFFA0) (hst : (rv s b).toNat ≤ 2 ^ 24 - 2) (hrec : SRecord (rv s a).toNat 12 s) :
    let p := loadSWords s.cur.region s.cur.unit (rv s a).toNat 12 s
    Gives (.cedge g d a b ch) s (if C.running ∧ (rv s b).toNat < chainLow C then done d 1 p.2
      else if !edgeFree C (rv s b).toNat then park (.edge ch.toNat (rv s b).toNat) p.2
      else cedgeDone d ch.toNat (rv s b).toNat (ofBytesLE p.1) C p.2) := by
  have hok : ¬ ((rv s a).toNat % 32 ≠ 0 ∨ 0x3FFFA0 < (rv s a).toNat ∨ 2 ^ 24 - 2 < (rv s b).toNat) := by omega
  show execCedge g d a b ch s = _
  rw [execCedge, issue_of_issues h]
  simp only [hC, if_neg hok, withSRecord_clean hrec]
  rfl

end Word

/-- Settles O37: each word at its shared form (`crun_gives`, `crunWait_gives`, `cedge_gives`), at the branch of its clause; what the chain and
its ports are afterwards is `find_crunDone`, `source_crunDone`, `sink_crunDone` and `find_cedgeDone`. -/
theorem coatWords : Obligations.CoatWords := by
  unfold Obligations.CoatWords
  intro g d a b ch s
  refine ⟨fun h C hC hrun => ?crun, fun h C hC => ⟨fun hrun => ?_, fun hrun => ?_⟩, fun h C hC => ?cedge⟩
  case crun =>
    intro addr p desc hal hfit hrec
    have hgo := crun_gives h hC hrun hal hfit hrec
    have hgood : crunBad p.2.hereR C desc = false → Gives (.crun g d a ch) s
        (withBuffers desc (fun held t => if !held then failSpace (rv t a) t else crunDone d ch.toNat desc C t) p.2) := fun hok =>
      hgo.trans (congrArg _ (if_neg (ne_true_of_eq_false hok)))
    refine ⟨fun hbad => hgo.trans (congrArg _ (if_pos hbad)), fun hok => ⟨fun s2 hs2 => ?_, fun s2 hs2 => ?_⟩, fun hok hten hne => ?_⟩
    · exact (hgood hok).trans (congrArg _ (hs2 _))
    · exact (hgood hok).trans (congrArg _ (hs2 _))
    · have hs2 : ∀ k, withBuffers desc k p.2 = k true p.2 := fun k => if_neg (ne_true_of_eq_false hten)
      refine ⟨_, _, (hgood hok).trans (congrArg _ (hs2 _)), ?_, fun hd => done_rd hd, find_crunDone, rfl, rfl, rfl, rfl, rfl, ?_, ?_⟩
      · exact here_crunDone_pc.trans (congrArg (fun sl : Slot => sl.pc + 1) here_loadSWords)
      · exact congrArg Port.queue (source_crunDone hne)
      · exact congrArg Port.queue (sink_crunDone hne)
  · exact (crunWait_gives h hC).trans (congrArg _ (if_pos hrun))
  · exact (crunWait_gives h hC).trans (congrArg _ (if_neg (ne_true_of_eq_false hrun)))
  case cedge =>
    intro addr st p hal hfit hst hrec
    have hgo := cedge_gives h hC hal hfit hst hrec
    refine ⟨fun hrun hpast => hgo.trans (congrArg _ (if_pos ⟨hrun, hpast⟩)), fun hnow => ?_⟩
    have hpresent : ¬ (C.running = true ∧ st < chainLow C) := fun ⟨hrun, hpast⟩ =>
      hnow.elim (fun hoff => Bool.false_ne_true (hoff.symm.trans hrun)) (fun hle => absurd hpast (Nat.not_lt.mpr hle))
    have hjudged := hgo.trans (congrArg _ (if_neg hpresent))
    refine ⟨fun hheld => hjudged.trans (congrArg _ (if_pos (by rw [hheld]; rfl))), fun hfree => ?_⟩
    obtain ⟨coats, hfind⟩ := find_cedgeDone (d := d) (ch := ch.toNat) (st := st) (x := ofBytesLE p.1) (C := C) (s := p.2)
    refine ⟨_, _, hjudged.trans (congrArg _ (if_neg (by rw [hfree]; exact Bool.false_ne_true))), ?_, fun hd => done_rd hd, hfind, rfl, rfl, ?_, ?_⟩
    · exact here_cedgeDone_pc.trans (congrArg (fun sl : Slot => sl.pc + 1) here_loadSWords)
    · exact Assoc.find_put_same ..
    · exact fun k hk => Assoc.find_put_other hk ..

/-! ### The moves of a coat (R247 to R249) -/

section Coat
variable {r ch k : Nat} {c o : CoatCore} {s : State}

/-- Coat `k` of chain `ch` may move: the words that it reads are sound, and it has its head. -/
structure CoatMoves (r ch k : Nat) (c : CoatCore) (s : State) : Prop where
  errors : s.errors = []
  head : ((s.region r).coat ch k).headCore = some c
  live : coatLive (s.region r) ch k = true

variable (h : CoatMoves r ch k c s)
include h

section Firing
variable (ho : ((s.region r).coat ch k).lastCore = some o)
include ho

/-- A coat past the last step forwards. -/
theorem coatFiring_forwards (hpast : (Assoc.get default ch (s.region r).coats).computes k = false) :
    Gives (.coatFiring r ch k) s (coatForward r ch k c o s) := by
  show execCoatFiring r ch k s = _
  simp only [execCoatFiring, h.head, ho, h.live, hpast, Bool.not_true, Bool.not_false, Bool.false_eq_true, if_false, if_true, nx]

variable (hcomp : (Assoc.get default ch (s.region r).coats).computes k = true)
include hcomp

theorem coatFiring_admits {e : List (BitVec 32)}
    (hadm : admits (s.region r) (Assoc.get default ch (s.region r).coats) k ((s.region r).coat ch k) c = some e) :
    Gives (.coatFiring r ch k) s (s.modRegion r (fun R => R.modCoat ch k (fun K => { K with next := K.next + 1, edgeNow := e }))) := by
  have hclean : ∀ x ∈ s.errors, x.code ≠ 6 := by simp [h.errors]
  show execCoatFiring r ch k s = _
  simp only [execCoatFiring, h.head, ho, h.live, hcomp, hadm, readChk_clean hclean, Bool.not_true, Bool.false_eq_true, if_false, nx]

/-- A coat that admits no block takes the beat at its head. -/
theorem coatFiring_takes (hadm : admits (s.region r) (Assoc.get default ch (s.region r).coats) k ((s.region r).coat ch k) c = none) :
    Gives (.coatFiring r ch k) s (coatTake r ch k (Assoc.get default ch (s.region r).coats) ((s.region r).coat ch k) c s) := by
  show execCoatFiring r ch k s = _
  simp only [execCoatFiring, h.head, ho, h.live, hcomp, hadm, Bool.not_true, Bool.false_eq_true, if_false, nx]

end Firing

theorem coatTake_data {C : CoatChain} {K : Coat} {b : Beat} (hb : (s.region r).headIn c.unit c.iport = some b) (hdata : b.isData = true) :
    coatTake r ch k C K c s = if latticeBlocks C.desc.toNat ≤ K.cells.length then raise r (coatRec C ch k K c) s
      else s.modRegion r (fun R => (R.popIn c.unit c.iport 1).modCoat ch k (fun K => { K with cells := K.cells ++ [b.data] })) := by
  simp only [coatTake, hb, hdata, Bool.not_true, Bool.false_eq_true, if_false, fifosChk_clean h.errors]

theorem coatForward_data {b : Beat} (hb : (s.region r).headIn c.unit c.iport = some b) (hdata : b.isData = true)
    (hroom : (s.region r).roomOut o.unit o.oport 1 = true) :
    coatForward r ch k c o s = s.setRegion r ((((s.region r).popIn c.unit c.iport 1).pushOut o.unit o.oport [b]).modCoat ch k
      (fun K => { K with fin := K.fin || b.eoi })) := by
  have hmark : b.marker = false := by
    simp only [Beat.isData, Bool.and_eq_true, Bool.not_eq_true'] at hdata
    exact hdata.1
  simp only [coatForward, hb, Beat.lift_of_isData hdata, hmark, hroom, Bool.not_true, Bool.false_eq_true, if_false, fifosChk_clean h.errors]
  rfl

theorem coatDrain_gives (hcomp : (Assoc.get default ch (s.region r).coats).computes k = true) (hdrain : ((s.region r).coat ch k).drain = false)
    (heoi : (s.region r).eoiIn c.unit c.iport 0 = true) :
    let R := s.region r
    let C := Assoc.get default ch R.coats
    Gives (.coatDrain r ch k) s (if (R.coat ch k).cells.length < latticeBlocks C.desc.toNat then raise r (coatRec C ch k (R.coat ch k) c) s
      else s.setRegion r (((R.popIn c.unit c.iport 1).unlatch c.unit c.iport).modCoat ch k (fun K => { K with drain := true }))) := by
  show execCoatDrain r ch k s = _
  simp only [execCoatDrain, h.head, h.live, hdrain, hcomp, heoi, fifosChk_clean h.errors, Bool.not_true, Bool.or_self, Bool.false_eq_true, if_false, nx]
  rfl

end Coat

/-! ### The end of a pass (R249, R252) -/

section PassEnd
variable {r ch : Nat} {R : Region} {C : CoatChain} {s : State}

/-- The chain's current pass is its last. -/
def CoatChain.lastPass (C : CoatChain) : Bool := decide (latSteps C.desc.toNat ≤ (C.pass + 1) * C.depth)
/-- A chain once its pass is over. -/
def CoatChain.passOver (C : CoatChain) : CoatChain :=
  { C with passes := C.passes + 1, steps := min (latSteps C.desc.toNat) ((C.pass + 1) * C.depth), running := !C.lastPass }
/-- The region once a pass of chain `C` is over. -/
def Region.endPass (ch : Nat) (C : CoatChain) (R : Region) : Region := { R with coats := Assoc.put ch C.passOver R.coats }

theorem coatPassStart_gives (hC : Assoc.get default ch (s.region r).coats = C) (hh : (s.region r).halt = false) (hrun : C.running = true)
    (hsource : holdsCoat ch ((s.region r).port C.sunit C.sport) = false) (hsink : holdsCoat ch ((s.region r).port C.kunit C.kport) = false)
    (hover : ∀ q ∈ C.coats, coatOver (s.region r) C q.1 q.2 = true) :
    Gives (.coatPassStart r ch) s (s.setRegion r
      (if C.lastPass then (s.region r).endPass ch C else startPass ch (C.pass + 1) ((s.region r).endPass ch C))) := by
  have hall : C.coats.all (fun q => coatOver (s.region r) C q.1 q.2) = true := List.all_eq_true.mpr hover
  have hgo : ((s.region r).halt || !C.running || holdsCoat ch ((s.region r).port C.sunit C.sport) || holdsCoat ch ((s.region r).port C.kunit C.kport)
      || !C.coats.all (fun q => coatOver (s.region r) C q.1 q.2)) = false := by simp only [hh, hrun, hsource, hsink, hall, Bool.not_true, Bool.or_self]
  subst hC
  exact if_neg (ne_true_of_eq_false hgo)

theorem find_endPass : Assoc.find ch (R.endPass ch C).coats = some C.passOver := Assoc.find_put_same ..
theorem find_startPass_endPass {p : Nat} : Assoc.find ch (startPass ch p (R.endPass ch C)).coats = some (C.passOver.atPass p) := by
  rw [coats_startPass, Assoc.find_put_same, Region.endPass, Assoc.get_put_same]

end PassEnd

/-- Settles O38: each move at its branch (`coatFiring_admits`, `coatFiring_takes`, `coatFiring_forwards`, `coatDrain_gives`), and the end of a
pass (`coatPassStart_gives`), after which the chain is `CoatChain.passOver`, at its next pass where it has one. -/
theorem coatEvents : Obligations.CoatEvents := by
  unfold Obligations.CoatEvents
  intro r ch k c o s he R C K
  refine ⟨fun hc ho hlive => ?moves, fun hh _ hrun hsource hsink hover => ?pass⟩
  case moves =>
    have h : CoatMoves r ch k c s := ⟨he, hc, hlive⟩
    refine ⟨fun hcomp => ⟨fun e => coatFiring_admits h ho hcomp, fun b hadm hb hdata => ?takes, fun hd heoi hfull => ?drains, fun hd heoi hfew => ?few⟩,
      fun hpast b hb hdata hroom => (coatFiring_forwards h ho hpast).trans (congrArg _ (coatForward_data h hb hdata hroom))⟩
    case takes =>
      have htake := (coatFiring_takes h ho hcomp hadm).trans (congrArg _ (coatTake_data h hb hdata))
      exact ⟨fun hfew => htake.trans (congrArg _ (if_neg (Nat.not_le.mpr hfew))), fun hfull => htake.trans (congrArg _ (if_pos hfull))⟩
    case drains => exact (coatDrain_gives h hcomp hd heoi).trans (congrArg _ (if_neg (Nat.not_lt.mpr hfull)))
    case few => exact (coatDrain_gives h hcomp hd heoi).trans (congrArg _ (if_pos hfew))
  case pass =>
    have hgo := coatPassStart_gives rfl hh hrun hsource hsink hover
    by_cases hlast : latSteps C.desc.toNat ≤ (C.pass + 1) * C.depth
    · have hdec : C.lastPass = true := decide_eq_true hlast
      rw [hdec, if_pos rfl] at hgo
      refine ⟨_, C.passOver, hgo, ?_, rfl, rfl, fun _ => ⟨?_, rfl⟩, fun hmore => absurd hmore (Nat.not_lt.mpr hlast)⟩
      · rw [State.region_setRegion_same]
        exact find_endPass
      · exact congrArg not hdec
    · have hdec : C.lastPass = false := decide_eq_false hlast
      rw [hdec, if_neg Bool.false_ne_true] at hgo
      refine ⟨_, C.passOver.atPass (C.pass + 1), hgo, ?_, rfl, rfl, fun hend => absurd hend hlast, fun _ => ⟨?_, rfl⟩⟩
      · rw [State.region_setRegion_same]
        exact find_startPass_endPass
      · exact congrArg not hdec

end Sys2Proof.Machine

end
